-- ==== Sys2Proof/Word.lean ====
section
/-! DEFINITION. Word types of the ELT9A and the keyed tables that State is built from (R2, R3). -/

namespace Sys2Proof

/-- One byte of memory or of a frame. -/
abbrev Byte := BitVec 8

/-- A 32-bit register, slot word or scalar register (R5, R69). -/
abbrev Word := BitVec 32

/-- A 64-bit register value or message word (R5). Narrower registers are held zero-extended. -/
abbrev DWord := BitVec 64

/-- A sparse table: key and value pairs, keys strictly rising, no entry equal to the table's
default. `Machine.tget` and `Machine.tset` are its only readers and writers. -/
abbrev Tab (α : Type) := List (Nat × α)

end Sys2Proof
end

