-- ==== Sys2Proof/Syntax.lean ====
section
/-! DEFINITION. Syntax: the commands of the block, one constructor per row of spec/opcode_table.json, with
the row's operands: the unit it names (a train, a core, a port, a queue) and whatever content comes from
outside the device (a frame, a link packet, a bus write's source, address and value). -/

namespace Sys2Proof

/-- A Yard request as its initiator sends it (R295-R297): initiator endpoint, the fence generation its tag
carries (R310), sequence number, kernel-mode bit of a core (R285), class (express or ordinary), address, length in bytes, SUB (the RMW operation
or message kind) and payload. For a message `addr` is the destination endpoint. -/
structure YReq where
  src : Nat
  gen : Nat
  seq : Nat
  km : Bool
  exp : Bool
  addr : Nat
  len : Nat
  op : Nat
  data : List Byte
deriving DecidableEq, Repr

/-- What MACsec reception finds of a protected frame (R399): SCI, association number, packet number, whether the
ICV verifies under the SA's key, and the frame in clear. -/
structure SecTag where
  sci : Nat
  an : Nat
  pn : Nat
  icvOk : Bool
  plain : List Byte
deriving DecidableEq, Repr

/-- A frame as a MAC receives it (R375-R377): the bytes from the destination address to the end of the payload,
the length on the line, whether the FCS is good, the quantum at which its timestamp point reached the sampler,
whether the FIFO overran, whether it was reassembled from fragments, its SecTAG if it has one, and for each lane
of the port the corrected and uncorrectable codewords counted since the last frame. -/
structure RxFrame where
  bytes : List Byte
  lineLen : Nat
  fcsOk : Bool
  capture : Nat
  fifoOvf : Bool
  reasm : Bool
  sec : Option SecTag
  fecCorr : List Nat
  fecUnc : List Nat
deriving DecidableEq, Repr

/-- What a CPRI link brings of one AxC (R401): its index, the sample index within the subframe, SFN and subframe,
and ci16 samples as bytes. -/
structure AxcData where
  axc : Nat
  idx : Nat
  frame : Nat
  bytes : List Byte
deriving DecidableEq, Repr

/-- A link packet as a Phinerlink port receives it (R437-R439). -/
structure PlPacket where
  bytes : List Byte
  edb : Bool
deriving DecidableEq, Repr


/-- The commands: one constructor per row of spec/opcode_table.json. -/
inductive Instr where
  /-- REGISTER_WRITE (R8): A write to a register field that has no row of its own sets, clears or ignores the field according to its access code. -/
  | registerWrite (src : Nat) (addr : Nat) (size : Nat) (val : Nat)
  /-- RC_READ (R8): A read of an RC register returns the current value and then clears the field, keeping any event that arrives in the same cycle. -/
  | rcRead (src : Nat) (addr : Nat) (size : Nat)
  /-- GROUP_CAPTURE_READ (R11): A read of the lowest-offset register of a multi-register group captures the whole value for the group's other registers. -/
  | groupCaptureRead (src : Nat) (addr : Nat)
  /-- TICK_EDGE (R42): When a tick-train edge time is reached, the Clocktower emits an express tick message with the train, the level mask and the counter values. -/
  | tickEdge (t : Nat)
  /-- TRAIN_ENABLE (R45): Setting CT_TT_CTRL.ENABLE starts a train, whose first tick is the first enabled edge at least 2 us after the write. -/
  | trainEnable (t : Nat)
  /-- TRAIN_DISABLE (R46): Clearing ENABLE stops the train after its last due tick; plan instances on the train reach their deadlines at once. -/
  | trainDisable (t : Nat)
  /-- TRAIN_SLEW_END (R43): The train reaches its target phase, clears SLEWING and CT_TT_PHERR reads 0. -/
  | trainSlewEnd (t : Nat)
  /-- YM_TICK (R57): A tick message reaches the Yardmaster and drives plan releases, tick edges, deadlines and accounting in one cycle. -/
  | ymTick (t : Nat)
  /-- PLAN_COMMIT (R55): Writing YM_PLAN_CTRL.COMMIT starts the check of the shadow image. -/
  | planCommit (p : Nat)
  /-- PLAN_CHECK_DONE (R55): The commit check ends; a passing image becomes active at its next release tick, else CHECK_ERR records the failure and COMMIT clears. -/
  | planCheckDone (p : Nat)
  /-- TASK_PLACE (R61): A ready activation is placed on the first eligible core that admits it under R60, or handled under ON_REFUSE. -/
  | taskPlace (p : Nat) (inst : Nat) (task : Nat)
  /-- YM_EVENT (R276): An event reaching the Yardmaster is recorded against plan edges and sets WOKEN on waiting threads, or is counted unused. -/
  | ymEvent
  /-- THREAD_STOP (R282): A deadline stop reaches the core: a running thread is stopped without save, or a queued activation is removed. -/
  | threadStop (g : Nat) (t : Nat)
  /-- PREEMPT_SWITCH (R280): In PREEMPT mode the slice switches the core in hardware to the candidate, saving and restoring context frames. -/
  | preemptSwitch (g : Nat)
  /-- DISPATCH_OFFER (R279): In INTERRUPT mode the slice asserts core line 0 and sets OFFER when a candidate should run. -/
  | dispatchOffer (g : Nat)
  /-- END (R286): Kernel command END ends the running activation. -/
  | kEnd (g : Nat)
  /-- YIELD (R286): Kernel command YIELD makes the running activation READY if an equal or higher priority activation is ready. -/
  | kYield (g : Nat)
  /-- ARM (R277): Kernel command ARM arms the running thread's wait and clears WOKEN. -/
  | kArm (g : Nat)
  /-- BLOCK (R286): Kernel command BLOCK makes the running thread BLOCKED unless its wait is already satisfied. -/
  | kBlock (g : Nat)
  /-- OUT_DONE (R64): Kernel command OUT_DONE asks for an output to be marked DONE, granted only before the deadline tick is seen. -/
  | kOutDone (g : Nat)
  /-- SIGNAL (R286): Kernel command SIGNAL signals a Yardmaster event. -/
  | kSignal (g : Nat)
  /-- TAKE (R281): Kernel command TAKE makes the offered candidate RUNNING and reports it in YM_K_RESULT and YM_K_TAKE0-6. -/
  | kTake (g : Nat)
  /-- KERNEL_BAD_COMMAND (R286): An unknown kernel command, or one not allowed now, is answered YR_BAD with no effect. -/
  | kernelBadCommand (g : Nat) (code : Nat)
  /-- YM_ACT (R288): A write to YM_ACT requests a software activation whose record is read, checked and answered in its STATUS byte. -/
  | ymAct (src : Nat) (addr : Nat)
  /-- BUNDLE (R76): A Kubry core issues one bundle, all of whose slots take effect together or not at all. -/
  | bundle (g : Nat)
  /-- INTERRUPT_ENTRY (R94): At a bundle boundary the core takes a pending EC_BUS_ASYNC or the lowest enabled pending interrupt line. -/
  | interruptEntry (g : Nat)
  /-- BUDGET_EXHAUST (R97): KB_BUDGET reaches 0 in thread mode and EC_BUDGET is taken at the next boundary. -/
  | budgetExhaust (g : Nat)
  /-- TIMER_MATCH (R98): KB_CYCLE equals KB_TIMER and line 21 is asserted. -/
  | timerMatch (g : Nat)
  /-- WFE_WAKE (R98): A core in WFE resumes when any interrupt line becomes pending. -/
  | wfeWake (g : Nat)
  /-- FAR_LOAD_RESPONSE (R92): The response to a far load arrives and the held bundle completes or raises EC_LOAD_UE or EC_BUS. -/
  | farLoadResponse (g : Nat)
  /-- FAR_STORE_RESPONSE (R92): The response to a posted far store arrives; an error raises EC_BUS_ASYNC at the next boundary. -/
  | farStoreResponse (g : Nat)
  /-- FENCE_COMPLETE (R84): Every far access and posted store of the core is answered and a stalled FENCE proceeds. -/
  | fenceComplete (g : Nat)
  /-- VECTOR_DATAPATH_DONE (R116): A vector instruction leaves the datapath and writes the registers of the thread that issued it. -/
  | vectorDatapathDone (g : Nat)
  /-- VECTOR_SWITCH_DONE (R135): The lazy vector switch completes, ownership passes and the stalled bundle proceeds. -/
  | vectorSwitchDone (g : Nat)
  /-- VECTOR_SWITCH_ABANDON (R139): A preemption, stop or exception abandons a switch at the end of the transfer in progress. -/
  | vectorSwitchAbandon (g : Nat)
  /-- FLUSH (R142): KB_VEC_CTRL.FLUSH saves the owner's dirty registers and header while halted. -/
  | vecFlush (g : Nat)
  /-- RELOAD (R142): KB_VEC_CTRL.RELOAD reloads the owner's vector state from its save area while halted. -/
  | vecReload (g : Nat)
  /-- HITCH_STALL_END (R148): A tag reaches DONE or a guard becomes inactive and a stalled bundle proceeds. -/
  | hitchStallEnd (g : Nat)
  /-- POST_RESPONSE (R158): The engine's answer to a POST arrives and is recorded for completion at confirmation. -/
  | postResponse (h : Nat)
  /-- ENGINE_POST (R147): An engine receives a POST and queues it, reading without side effects. -/
  | enginePost (e : Nat)
  /-- ENGINE_CONFIRM (R147): An engine receives CONFIRM, the job's point of no return. -/
  | engineConfirm (e : Nat)
  /-- ENGINE_WITHDRAW (R161): An engine receives WITHDRAW and removes the matching POST. -/
  | engineWithdraw (e : Nat)
  /-- HITCH_COMPLETION (R151): A completion reaches the hitch: the tag becomes DONE or FREE, events and notify bits are set, stale ones are discarded. -/
  | hitchCompletion (h : Nat)
  /-- HS_TIMEOUT (R159): A confirmed tag without completion within TMO_US completes HS_TIMEOUT. -/
  | hsTimeout (h : Nat) (tag : Nat)
  /-- CTX_CHARGE (R156): At the first boundary where a granting thread runs, the hitch deducts context-switch cycles from KB_BUDGET. -/
  | ctxCharge (g : Nat)
  /-- HTC_POST (R162): A Loft core posts and confirms a command through its hitch page. -/
  | htcPost (c : Nat) (tag : Nat)
  /-- HTC_FREE (R162): A Loft core frees a DONE tag through its hitch page. -/
  | htcFree (c : Nat) (tag : Nat)
  /-- CORE_RESET (R104): KB_CORE_CTRL.RESET = 1 holds the core in reset, withdraws PROV tags and frees every tag. -/
  | coreReset (g : Nat)
  /-- CORE_RELEASE (R104): Writing RESET = 0 starts the core at KB_BOOT_PC in kernel mode, halted if HALT = 1. -/
  | coreRelease (g : Nat)
  /-- HALT (R105): Setting KB_CORE_CTRL.HALT halts the core at the next bundle boundary. -/
  | coreHalt (g : Nat)
  /-- HALT_CLEAR (R103): Clearing HALT resumes a halted core, unless it is halted by a double fault. -/
  | coreHaltClear (g : Nat)
  /-- STEP (R103): KB_CORE_CTRL.STEP issues one bundle of a halted core and halts again. -/
  | coreStep (g : Nat)
  /-- DBG_DATA_READ (R104): A read of KB_DBG_DATA returns the selected register of a halted or reset core. -/
  | dbgDataRead (g : Nat)
  /-- DBG_DATA_WRITE (R104): A write of KB_DBG_DATA sets the selected register of a halted or reset core. -/
  | dbgDataWrite (g : Nat) (val : Nat)
  /-- KB_SWI (R103): Writing bit 0 of KB_SWI raises core line 22. -/
  | kbSwi (g : Nat)
  /-- CLOCK_POINT_CHANGE (R107): A new DVFS point takes effect at a bundle boundary of each core in the stable. -/
  | clockPointChange (n : Nat) (point : Nat)
  /-- STABLE_TICK_RECEIVE (R99): The stable window target receives a tick broadcast and sets the PEND bits of subscribing cores. -/
  | stableTickReceive (n : Nat)
  /-- ENGINE_JOB_START (R155): An engine starts its next confirmed job, checking CTX and switching resident contexts first. -/
  | engineJobStart (e : Nat)
  /-- ENGINE_JOB_COMPLETE (R151): After every write of a job is answered, the engine sends the completion with status and SUMMARY. -/
  | engineJobComplete (e : Nat)
  /-- CHAIN_HALF_REQUEST (R187): An FFT engine answers a matrix engine's request for a working-buffer half with a grant or refusal. -/
  | chainHalfRequest (e : Nat)
  /-- CHAIN_HALF_RETRY (R187): After a refusal the matrix engine repeats the half request every 64 engine cycles. -/
  | chainHalfRetry (e : Nat)
  /-- CHAINED_JOB_SEND (R187): The FFT engine accepts a chained IFFT job to run at its next job boundary. -/
  | chainedJobSend (e : Nat)
  /-- CHAIN_STATUS_REPORT (R187): The consumer's status message reaches the producer, which then sends the Hitch completion. -/
  | chainStatusReport (e : Nat)
  /-- CHAIN_SLOT_REQUEST (R195): A consumer engine answers a producer's chain-slot request with a grant or refusal. -/
  | chainSlotRequest (e : Nat)
  /-- CHAIN_SLOT_READY (R195): A consumer accepts a producer's ready message for a filled chain slot. -/
  | chainSlotReady (e : Nat)
  /-- ENGINE_RESET (R191): x_CTRL.RESET = 1 aborts every job, discards contexts and releases halves. -/
  | engineReset (e : Nat)
  /-- ENGINE_RESET_CLEAR (R191): Clearing RESET makes the engine ready within 1 us; a HARQ engine first clears its BUSY bits. -/
  | engineResetClear (e : Nat)
  /-- PAUSE (R190): x_CTRL.PAUSE stops the engine starting queued Hitch jobs after the running one. -/
  | enginePause (e : Nat)
  /-- LBT_START (R251): SV_LBT_CMD START draws N and enters DEFER. -/
  | lbtStart (c : Nat)
  /-- LBT_ABORT (R251): SV_LBT_CMD ABORT returns the unit to IDLE. -/
  | lbtAbort (c : Nat)
  /-- LBT_RELEASE (R251): SV_LBT_CMD RELEASE ends an acquired COT. -/
  | lbtRelease (c : Nat)
  /-- COT_END (R251): Corrected time reaches COT start plus MCOT_US and the unit returns to IDLE. -/
  | cotEnd (c : Nat)
  /-- NB_CHANNEL_ENABLE (R255): Setting a channel enable bit clears its state at the next job boundary or faults a bad configuration. -/
  | nbChannelEnable (e : Nat) (j : Nat)
  /-- FLIT_RECEIVE (R298): A router receives a flit, checks FCRC, requests replay or marks a link DOWN. -/
  | flitReceive (r : Nat) (port : Nat) (fcrcOk : Bool) (express : Bool) (tail : Bool) (epoch : Bool)
  /-- YARD_RD (R297): A read request reaches its target and is answered with data or an error code. -/
  | yardRd (r : YReq)
  /-- YARD_WR (R297): A write request reaches its target and is answered RSP. -/
  | yardWr (r : YReq)
  /-- YARD_WRP (R297): A posted write reaches its target. -/
  | yardWrp (r : YReq)
  /-- YARD_RMW (R297): An indivisible 8-byte operation is performed at the target port. -/
  | yardRmw (r : YReq)
  /-- YARD_MSG (R297): A message reaches its endpoint, broadcasts included. -/
  | yardMsg (r : YReq)
  /-- YARD_RESPONSE (R310): A response reaches the initiator NI and is delivered, or discarded as stale. -/
  | yardResponse (src : Nat) (seq : Nat)
  /-- WAKE_TIMEOUT (R305): The wake timer expires and held worms are answered RSP_WAKE or discarded. -/
  | wakeTimeout (sh : Nat)
  /-- RESPONSE_TIMEOUT (R308): A response misses YRD_RSP_TMO; the initiator gets RSP_FENCED and the destination is fenced. -/
  | responseTimeout (src : Nat) (seq : Nat)
  /-- YRD_FENCE (R307): YRD_EP_CMD FENCE isolates an endpoint. -/
  | yrdFence (ep : Nat)
  /-- YRD_UNFENCE (R311): YRD_EP_CMD UNFENCE raises GEN and starts a drain barrier. -/
  | yrdUnfence (ep : Nat)
  /-- BARRIER_COMPLETE (R311): All routers report the barrier drained and the endpoint becomes OPEN. -/
  | barrierComplete (ep : Nat)
  /-- BARRIER_TIMEOUT (R311): The barrier misses YRD_BAR_TMO and the endpoint returns to FENCED with BAR_FAIL. -/
  | barrierTimeout (ep : Nat)
  /-- COMMIT (R314): YRD_RT_CTRL.COMMIT checks the shadow route tables and switches epochs in two phases. -/
  | yrdCommit
  /-- DRAINED (R314): Every old-epoch drain counter reaches zero and DRAINED is broadcast. -/
  | yrdDrained
  /-- DRAIN_TMO (R314): Draining exceeds YRD_BAR_TMO and DRAIN_TMO is set. -/
  | yrdDrainTmo
  /-- LINK_RETRAIN (R319): Writing a DOWN bit of YRD_RTR_LINK clears it and retrains the link. -/
  | linkRetrain (r : Nat) (dir : Nat)
  /-- SCRUB_READ (R337): The scrubber reads its next word and repairs, ignores or poisons it. -/
  | scrubRead (n : Nat)
  /-- ECC_INJECT_ARM (R339): Setting ECC_INJ_CTRL.ARM arms injection into the next qualifying write. -/
  | eccInjectArm (n : Nat)
  /-- BRW_START (R354): Starts a Barrow channel program from BRW_CH_PROG. -/
  | brwStart (ch : Nat)
  /-- BRW_STOP (R354): Stops a channel at the next beat boundary and drains it. -/
  | brwStop (ch : Nat)
  /-- BRW_RESUME (R358): Resumes a halted channel from the recorded point. -/
  | brwResume (ch : Nat)
  /-- BRW_CLEAR (R354): Returns a channel to IDLE and clears its loop state and halt record. -/
  | brwClear (ch : Nat)
  /-- BRW_MOVE (R347): Copies a 1-, 2- or 3-D block in beats. -/
  | brwMove (ch : Nat)
  /-- BRW_GATHER (R348): Reads a list and packs its elements at the destination. -/
  | brwGather (ch : Nat)
  /-- BRW_LOOP (R349): Repeats a range of slots and steps the source and destination offsets. -/
  | brwLoop (ch : Nat)
  /-- BRW_WAIT (R350): Suspends the channel on a flag, time or tick condition. -/
  | brwWait (ch : Nat)
  /-- WAIT_SATISFIED (R350): A WAIT's flag, time or tick condition holds and the channel continues. -/
  | waitSatisfied (ch : Nat)
  /-- WAIT_TMO (R350): A WAIT's timeout passes and the channel halts. -/
  | waitTmo (ch : Nat)
  /-- BRW_SIGNAL (R351): Sends a hatch post, flag or Yardmaster event notice. -/
  | brwSignal (ch : Nat)
  /-- SIGNAL_RETRY (R351): A RETRY hatch post answered RSP_FULL is repeated every 256 Yard cycles. -/
  | signalRetry (ch : Nat)
  /-- BRW_END (R352): END is reached once every earlier beat is issued. -/
  | brwEnd (ch : Nat)
  /-- BRW_NOP (R346): A NOP slot does nothing. -/
  | brwNop (ch : Nat)
  /-- ERR_PROG (R346): A reserved opcode, bad field or stray EXT halts the channel unresumably. -/
  | errProg (ch : Nat)
  /-- BEAT_RESPONSE (R355): A beat's response arrives; an error stops issue and sends the channel to DRAIN. -/
  | beatResponse (ch : Nat)
  /-- PROGRAM_FETCH (R346): A program block fetch is answered and its slots become available, or ERR_FETCH follows. -/
  | programFetch (ch : Nat)
  /-- CHANNEL_HALT (R355): The last outstanding response of a draining channel arrives and it halts with its cause. -/
  | channelHalt (ch : Nat)
  /-- END_COMPLETE (R356): Every response of the program has arrived; END completes and EOC is set. -/
  | endComplete (ch : Nat)
  /-- BEAT_GRANT (R353): At a beat boundary the group grants the next beat to the highest-priority ready channel. -/
  | beatGrant (grp : Nat)
  /-- HATCH_POST (R365): An 8-byte write to HAT_POST stores a word, starts the timer and notifies the receiver. -/
  | hatchPost (src : Nat) (h : Nat) (val : Nat)
  /-- HATCH_TAKE (R367): The receiver reads HAT_TAKE and empties the hatch, notifying the sender. -/
  | hatchTake (src : Nat) (h : Nat)
  /-- HATCH_WITHDRAW (R367): The sender of record reads HAT_WITHDRAW and empties the hatch. -/
  | hatchWithdraw (src : Nat) (h : Nat)
  /-- HATCH_TIMEOUT (R368): A posted word outlives HAT_TMO, TIMEOUT is set and the sender is notified. -/
  | hatchTimeout (h : Nat)
  /-- CLEAR (R371): HAT_CMD CLEAR empties a FULL hatch, sets ABORTED and notifies the sender. -/
  | hatchClear (h : Nat)
  /-- CLIENT_RESET (R369): A hatch client enters reset; in RECOVERY mode its FULL hatches are aborted. -/
  | clientReset (i : Nat)
  /-- RESET_WINDOW_END (R369): 32 Yard cycles after a client's release its window ends and held words and notices are presented. -/
  | resetWindowEnd (i : Nat)
  /-- FRAME_RECEIVE (R377): A received frame is checked, classified and written to a FRAME or PLACE queue, or dropped. -/
  | frameReceive (m : Nat) (f : RxFrame) (axc : Option AxcData)
  /-- FRAME_DELIVER (R381): T_VIS after the last write, HEAD advances and the queue's notice is sent. -/
  | frameDeliver (m : Nat) (q : Nat)
  /-- PAUSE_WD (R397): A class paused for WD_US is unpaused and PAUSE_WD set. -/
  | pauseWd (m : Nat) (cls : Nat)
  /-- TXQ_WRITE (R386): Bytes written to a transmit window are appended to the queue's records. -/
  | txqWrite (m : Nat) (q : Nat) (src : Nat) (bytes : List Byte)
  /-- TXQ_HOLD_REJECT (R386): A write held for HOLD_US is answered RSP_TGT and the queue loses sync. -/
  | txqHoldReject (m : Nat) (q : Nat)
  /-- RESYNC (R386): ETH_TXQ_CMD RESYNC makes the next byte begin a record. -/
  | txqResync (m : Nat) (q : Nat)
  /-- TXQ_FLUSH (R402): ETH_TXQ_CMD FLUSH discards every record held. -/
  | txqFlush (m : Nat) (q : Nat)
  /-- FRAME_LAUNCH (R389): A record at the head is built, fallback-checked, compressed and sent at its launch time or discarded late. -/
  | frameLaunch (m : Nat) (q : Nat)
  /-- FALLBACK_ORDER (R391): A fallback order reaches the MAC and ORs SYM_MASK into the cell's FB mask. -/
  | fallbackOrder (m : Nat)
  /-- LINK_CHANGE (R375): A lane gains or loses alignment, the MAC link changes and LINK_CHG is set. -/
  | linkChange (m : Nat) (up : Bool) (txvar : Nat) (rxvar : Nat)
  /-- QBV_CHANGE (R395): ETH_QBV_CTRL.CHANGE requests the admin gate list. -/
  | qbvChange (m : Nat)
  /-- QBV_LIST_TAKE (R395): The admin list enters operation at the first cycle start at or after its base time. -/
  | qbvListTake (m : Nat)
  /-- QUEUE_DISABLE (R404): Writing ETH_Q_CFG.KIND = 0 disables a receive queue. -/
  | queueDisable (m : Nat) (q : Nat)
  /-- DOMAIN_ENABLE (R412): Setting CT_D_CFG.EN starts a domain, seeded from the calendar clock if SEED. -/
  | domainEnable (d : Nat)
  /-- DOMAIN_DISABLE (R412): Clearing EN stops the domain counter and clears VALID. -/
  | domainDisable (d : Nat)
  /-- DOMAIN_STEP (R413): CT_D_ADJ_CMD STEP adds ADJ to domain time at once. -/
  | domainStep (d : Nat)
  /-- DOMAIN_SLEW (R413): CT_D_ADJ_CMD SLEW moves domain phase by ADJ at CT_D_SLEW. -/
  | domainSlew (d : Nat)
  /-- DOMAIN_SET (R413): CT_D_ADJ_CMD SET loads the domain time from CT_D_SET. -/
  | domainSet (d : Nat)
  /-- DOMAIN_ABORT (R413): CT_D_ADJ_CMD ABORT discards the slew in progress. -/
  | domainAbort (d : Nat)
  /-- FREQ_WRITE (R413): A write of CT_D_FREQ takes effect on the next base-clock cycle. -/
  | freqWrite (d : Nat) (val : Nat)
  /-- DOMAIN_SLEW_DONE (R413): A domain slew finishes. -/
  | domainSlewDone (d : Nat)
  /-- PPS_PULSE (R414): A valid input pulse drives the hardware servo of domains that use it. -/
  | ppsPulse (i : Nat)
  /-- TOD_SENTENCE (R422): A ToD sentence arrives and labels the preceding pulse or is rejected. -/
  | todSentence (i : Nat) (bytes : List Byte)
  /-- HOLDOVER_ENTRY (R415): No valid pulse for 2.5 s, or fabric loss, moves a LOCKED domain to HOLDOVER. -/
  | holdoverEntry (d : Nat)
  /-- SEL_WRITE (R417): A write of CT_CTRL.SEL switches over the selected domain, taken up by S as a slew. -/
  | selWrite (d : Nat)
  /-- AUTO_SWITCHOVER (R417): The Clocktower changes SEL itself when the selected domain leaves LOCKED or VALID. -/
  | autoSwitchover
  /-- S_SLEW_DONE (R416): A slew of S ends and S_SLEW_DONE is set. -/
  | sSlewDone
  /-- SNAP (R428): CT_CTRL.SNAP captures both domain times in one cycle. -/
  | ctSnap
  /-- PPS_OUT_EDGE (R424): PPS_OUT rises at a whole second of S and a ToD message follows 10 ms later. -/
  | ppsOutEdge
  /-- TXQ_ENTRY_READ (R420): A read of CT_TXQ_ENTRY captures and removes the head transmit timestamp entry. -/
  | txqEntryRead (n : Nat)
  /-- SYNCE_REF_SWITCH (R425): The SyncE DPLL switches candidate or enters HOLDOVER on qualification changes. -/
  | synceRefSwitch (qual : Nat)
  /-- LANE_FAULT (R434): LOS or LOL on a lane of an ACTIVE port sends the port to TRAINING. -/
  | laneFault (p : Nat) (lane : Nat) (los : Bool)
  /-- TRAINING_TIMEOUT (R434): Training not aligned in 100 us repeats; three failures in 1 s set the port DOWN. -/
  | trainingTimeout (p : Nat)
  /-- TRAINING_DONE (R434): Every lane of the width aligns and the port becomes LINKED or returns to its state. -/
  | trainingDone (p : Nat)
  /-- RETRAIN (R434): PL_P_CMD RETRAIN retrains the port. -/
  | plRetrain (p : Nat)
  /-- ADMIT (R442): PL_P_CMD ADMIT admits an authenticated LINKED port. -/
  | plAdmit (p : Nat)
  /-- UNADMIT (R442): PL_P_CMD UNADMIT returns an ADMITTED port to LINKED. -/
  | plUnadmit (p : Nat)
  /-- CAL (R460): PL_P_CMD CAL starts measurement of per-lane medium latency. -/
  | plCal (p : Nat)
  /-- CAL_COMPLETE (R460): CAL averages end, latency tables are written and CAL_DONE raised, or CAL fails. -/
  | calComplete (p : Nat)
  /-- QUIET (R435): PL_P_CMD QUIET sends PWR and enters QUIET. -/
  | plQuiet (p : Nat)
  /-- COLD (R435): PL_P_CMD COLD sends PWR and enters COLD. -/
  | plCold (p : Nat)
  /-- WAKE (R435): PL_P_CMD WAKE leaves QUIET or COLD. -/
  | plWakeCmd (p : Nat)
  /-- AUTO_PM_IDLE (R435): Q_IDLE_NS or C_IDLE_US of idle expires and the port enters QUIET or COLD. -/
  | autoPmIdle (p : Nat)
  /-- PORT_WAKE_EXIT (R435): A queued packet or peer signal brings the port back to ACTIVE. -/
  | portWakeExit (p : Nat)
  /-- PL_PACKET_RECEIVE (R439): A link packet is received in LSEQ order, acknowledged, NAKed or nullified, and routed or delivered. -/
  | plPacketReceive (p : Nat) (pkt : PlPacket)
  /-- LCTL (R439): An LCTL packet delivers ACK, NAK and credits; a NAK starts a replay. -/
  | plLctl (p : Nat) (ack : Nat) (nak : Nat) (credits : List Nat)
  /-- MGMT_MESSAGE (R443): A reassembled MGMT message is written to the receive ring or consumed by the port. -/
  | mgmtMessage (p : Nat)
  /-- MGMT_REASSEMBLY_TIMEOUT (R443): A message incomplete after 1 ms is dropped. -/
  | mgmtReassemblyTimeout (p : Nat)
  /-- MTX_SEND (R443): PL_P_MTX_SEND sends a management message from the Barn. -/
  | mtxSend (p : Nat) (len : Nat)
  /-- AUTH_OK (R442): The Tack room sets PL_P_AUTH.AUTH_OK for a port. -/
  | authOk (src : Nat) (p : Nat)
  /-- PREPARE (R447): PL_RT_CTRL.PREPARE checks the shadow table and sets PREPARED. -/
  | plPrepare
  /-- SWITCH (R447): PL_RT_CTRL.SWITCH makes the unit inject the new epoch. -/
  | plSwitch
  /-- RELEASE (R447): PL_RT_CTRL.RELEASE ends draining and makes the old table the shadow. -/
  | plRelease
  /-- PL_DRAINED (R447): The unit's old-epoch drain counter reaches zero and DRAINED is set. -/
  | plDrained
  /-- PL_FENCE (R453): PL_FENCE_CMD FENCE fences a remote unit. -/
  | plFence (unit : Nat)
  /-- PL_UNFENCE (R455): PL_FENCE_CMD UNFENCE raises GEN and sends BARRIER on four channels. -/
  | plUnfence (unit : Nat)
  /-- REMOVE (R455): PL_FENCE_CMD REMOVE frees an OPEN fence entry. -/
  | plRemove (unit : Nat)
  /-- BARRIER_ACK (R455): The fourth BARRIER_ACK arrives and the entry becomes OPEN. -/
  | barrierAck (unit : Nat) (vc : Nat)
  /-- PL_BARRIER_TIMEOUT (R455): The barrier misses PL_BAR_TMO and the entry returns to FENCED. -/
  | plBarrierTimeout (unit : Nat)
  /-- PL_RESPONSE_TIMEOUT (R452): A remote XID misses PL_RSP_TMO; RSP_FENCED is delivered and the unit fenced. -/
  | plResponseTimeout (xid : Nat)
  /-- FGEN_INC (R454): PL_CFG.FGEN_INC raises the unit's fence generation. -/
  | fgenInc
  /-- TMK_SEND (R458): A time-marker ordered set with domain time is sent at column 512 of an interval. -/
  | tmkSend (p : Nat) (d : Nat)
  /-- TMK_RECEIVE (R459): A received time marker is captured and fed to the fabric servo or CAL. -/
  | tmkReceive (p : Nat) (sq : Nat) (word : Nat) (capts : List (Nat × Nat))
  /-- UNIT_INFO (R472): Halter opcode returning unit information. -/
  | unitInfo
  /-- HOLD_TAKE (R474): Takes holdership of a cell, forcibly with FORCE, and returns a token. -/
  | holdTake (k : Nat)
  /-- HOLD_RELEASE (R475): Releases holdership of a cell. -/
  | holdRelease (k : Nat)
  /-- CELL_CONFIG (R472): Configures a stopped cell, its streams, quota, hatches and routes. -/
  | cellConfig (k : Nat)
  /-- CELL_START (R472): Starts a configured cell at a first slot. -/
  | cellStart (k : Nat)
  /-- CELL_STOP (R479): Stops a running cell, aborting staged orders and clearing its route. -/
  | cellStop (k : Nat)
  /-- DL_SLOT (R478): Stages downlink slot-order fields by sequence precedence. -/
  | dlSlot (k : Nat)
  /-- UL_SLOT (R478): Stages uplink slot-order fields by sequence precedence. -/
  | ulSlot (k : Nat)
  /-- DL_DATA (R480): Accepts downlink transport-block segments into the cell's quota. -/
  | dlData (k : Nat)
  /-- PRACH_CONFIG (R472): Configures PRACH detection for a stopped cell. -/
  | prachConfig (k : Nat)
  /-- RESULT_READ (R482): Reads a result generation or reports it pending, overrun or aborted. -/
  | resultRead (k : Nat)
  /-- RESULT_ACK (R482): Acknowledges a result generation and releases its buffer. -/
  | resultAck (k : Nat)
  /-- LBT_PARAM (R485): Writes the LBT priority, CW and MCOT of the cell's sieve chain. -/
  | lbtParam (k : Nat)
  /-- PLAN_LOAD (R485): Writes plan segments and optionally commits the plan slot. -/
  | planLoad
  /-- HLT_FENCE (R485): Halter opcode FENCE fences a Yard endpoint or unit. -/
  | hltFence
  /-- HLT_UNFENCE (R485): Halter opcode UNFENCE re-admits a Yard endpoint or unit. -/
  | hltUnfence
  /-- TIME_SEL (R485): Writes CT_CTRL.SEL and AUTO and replies TSTAT. -/
  | timeSel
  /-- POWER_REQ (R485): Requests a shed power state. -/
  | powerReq
  /-- SLOT_COMMIT (R479): At the command deadline the firmware writes staged fields to the Barn and replies to each order. -/
  | slotCommit (cell : Nat) (slot : Nat) (up : Bool)
  /-- DATA_DEADLINE (R480): At a block's data deadline an incomplete block is removed and TB_MISSING posted. -/
  | dataDeadline (cell : Nat) (tb : Nat)
  /-- BEGIN (R482): The firmware takes a BEGIN word and grants the next generation when no read is in progress. -/
  | hltBegin (cell : Nat)
  /-- TB_DONE (R480): The firmware takes TB_DONE and frees the block's quota. -/
  | tbDone (cell : Nat)
  /-- RESULT_DONE (R482): The firmware takes RESULT_DONE, checks the status word and ends the generation. -/
  | resultDone (cell : Nat)
  /-- FRAGMENT_TIMEOUT (R471): A Phinerlink Halter packet incomplete 1 ms after its first fragment is discarded. -/
  | fragmentTimeout (unit : Nat) (frag : Nat)
  /-- REQ_RING_HEAD (R470): Loft software advances HLT_REQ_HEAD to hand packets to the firmware. -/
  | reqRingHead (val : Nat)
  /-- TK_CMD_GO (R501): TK_CMD_GO queues a Tack room descriptor, or is refused when the queue is full. -/
  | tkCmdGo (src : Nat)
  /-- RNG (R502): Writes random bytes from the TRNG. -/
  | tkRng
  /-- HASH (R502): Computes SHAKE256 of the input. -/
  | tkHash
  /-- EXTEND (R510): Extends a software measurement register. -/
  | tkExtend
  /-- VERIFY (R509): Verifies a Loft OS stage image and extends MR1. -/
  | tkVerify
  /-- LOAD (R515): Verifies an image in place, copies its segments into a held shed and optionally releases it. -/
  | tkLoad
  /-- SIGN (R502): Signs input with the identity key. -/
  | tkSign
  /-- VERIFY_PEER (R518): Checks a peer certificate and signature and optionally sets AUTH_OK. -/
  | verifyPeer
  /-- ATTEST (R519): Writes a signed attestation report. -/
  | tkAttest
  /-- CTR_INC (R506): Advances an OTP counter. -/
  | ctrInc
  /-- KEK_SEAL (R520): Seals a KEK under the storage key. -/
  | kekSeal
  /-- KEK_LOAD (R520): Loads a sealed KEK into a slot. -/
  | kekLoad
  /-- SAK_DELIVER (R520): Unwraps a SAK into an SA key store and sets KEY_VALID. -/
  | sakDeliver
  /-- ID_GENERATE (R517): Generates and seals the identity key pair in MANUF. -/
  | idGenerate
  /-- OTP_PROGRAM (R507): Programs a key hash, a revocation or the lifecycle. -/
  | otpProgram
  /-- TK_LOCK_IMEM (R516): TK_LOCK.IMEM locks Kubry instruction memories against non-Tack-room writes. -/
  | tkLockImem (src : Nat)
  /-- BOOT (R512): The Tack room ROM reads, verifies and measures the first-stage loader and releases Loft core 0, or halts. -/
  | tkBoot
  /-- DDR_TRAIN (R522): LFT_DDR_CFG.TRAIN starts LPDDR5X training. -/
  | ddrTrain
  /-- TRAIN_DONE (R522): LPDDR5X training completes or fails. -/
  | trainDone (ok : Bool)
  /-- DDR_ENABLE (R494): Setting LFT_DDR_CFG.EN copies the boot SRAM to LPDDR5X and makes the L3 a cache. -/
  | ddrEnable
  /-- CORE_RESET_RELEASE (R522): Clearing bits of LFT_CORE_RESET releases Loft cores. -/
  | coreResetRelease (mask : Nat)
  /-- MSI_SEND (R497): A source condition rises and one AIA message is sent, or marked pending. -/
  | msiSend (k : Nat)
  /-- RAS_ERROR (R495): An uncorrectable error on a Loft access is reported precisely or asynchronously. -/
  | rasError (core : Nat) (level : Nat) (async : Bool) (addr : Nat)
  /-- SHED_REQUEST (R526): A write of SHD_CTRL.REQ starts a shed's rise or descent. -/
  | shedRequest (k : Nat) (req : Nat)
  /-- SHED_STEP_READY (R527): A power-up step's ready signal asserts and the next step begins, ending at ON or VERIFY_HOLD. -/
  | shedStepReady (k : Nat)
  /-- STEP_FAULT (R528): A ready signal misses twice its limit and the shed returns to OFF. -/
  | stepFault (k : Nat)
  /-- SHED_DESCENT_DONE (R529): A shed's descent completes after outstanding responses, then pending wakes or rises start. -/
  | shedDescentDone (k : Nat)
  /-- SHED_WAKE (R533): A wake request sets a shed's pending wake, or is refused for an OFF shed. -/
  | shedWake (k : Nat)
  /-- WAKE_N (R532): WAKE_N acts and ends unit standby. -/
  | wakeN (level : Bool)
  /-- PL_WAKE (R532): Signal on a Phinerlink lane wakes the Phinerlink shed and ends standby. -/
  | plWake (p : Nat)
  /-- STANDBY_ENTER (R534): SHD_STANDBY.ENTER takes the Loft and Yard sheds to RET once every core is in WFI. -/
  | standbyEnter
  /-- DERATE_MEASURE (R538): Every 1 us the power manager measures VIN_MAIN and current and raises or lowers L. -/
  | derateMeasure (vin : Nat) (cur : Nat)
  /-- BOW (R539): VIN_MAIN crosses THR_WARN and BOW is raised or cleared. -/
  | shdBow (below : Bool)
  /-- BROWNOUT_RESET (R539): VIN_MAIN below THR_RESET, or VIO18 low, resets every shed but AON. -/
  | brownoutReset
  /-- SHD_SYSRST (R546): Writing the key to SHD_SYSRST resets every shed but AON. -/
  | shdSysrst (val : Nat)
  /-- AON_POWER_ON (R560): AON power-on completes and samples XO_FSEL, starting the Yard and Loft sheds. -/
  | aonPowerOn (fsel : Nat) (strap : Nat)
  /-- THERMTRIP (R555): A junction at the trip point asserts THERMTRIP_N until the next AON power-on. -/
  | thermtrip
  /-- ANALOG_RAIL_LOSS (R553): Removal of AVDD_FH or AVDD_PL takes the shed using it to OFF with FAULT. -/
  | analogRailLoss (fh : Bool) (lost : Bool)
  /-- CAL_WRITE (R542): Writing CAL_DATE commits a checked calendar date and time. -/
  | calWrite (src : Nat) (time : Nat) (date : Nat)
  /-- ALARM (R544): The calendar reaches the alarm time and ALARM fires. -/
  | calAlarm
  /-- TRIM_APPLY (R543): Every 32 s the calendar adds TRIM cycles to its count. -/
  | trimApply
  /-- VBAT_SAMPLE (R541): VBAT is sampled once a minute and VBAT_LOW updated. -/
  | vbatSample (mv : Nat)
  /-- VBAT_SWITCH (R541): The calendar changes between the AON rail and VBAT at 0.65 V. -/
  | vbatSwitch (onVbat : Bool) (mv : Nat)
  /-- OSC_FAIL (R541): XTAL32K stops for 4 ms and OSC_FAIL is set. -/
  | oscFail
  /-- CHAIN_SLOT_RETRY (R195): After a refused chain-slot request the producer engine repeats the request every 64 engine cycles, counting the wait in x_CHAIN_WAIT. -/
  | chainSlotRetry (e : Nat)
  /-- SCRUB_PERIOD_END (R338): At the end of a scrub period a pass that has not finished sets SCRUB_LATE and continues. -/
  | scrubPeriodEnd (n : Nat)
  /-- PPS_PULSE_MISSING (R421): A PPS input's window closes with no valid pulse, the missed pulse is counted and after three the next pulse is a first pulse and PPS_LOSS is set. -/
  | ppsPulseMissing (i : Nat)
  /-- BROWNOUT_RESET_END (R539): VIN_MAIN has stayed above THR_RESET plus 20 mV for 1 ms, the brownout reset is released and the unit powers up as in R512. -/
  | brownoutResetEnd
  /-- HALTER_FIRMWARE_READY (R491): The Halter firmware finishes starting and sends each former holder it can address a REPORT with ST_NOT_HOLDER and HOLD_LOST value 1. -/
  | halterFirmwareReady
  /-- LOFT_CORES_IN_WFI (R534): Once every Loft core out of reset is in WFI after an accepted SHD_STANDBY.ENTER, the controller takes the Loft and then the Yard shed down to RET. -/
  | loftCoresInWfi
  /-- PL_PORT_ENABLE (R464): Writing PL_P_CFG.EN starts training of a Phinerlink port out of DOWN, or clearing it takes the port DOWN. -/
  | plPortEnable (p : Nat) (en : Bool)
  /-- SYNCE_DPLL_LOCK (R425): The SyncE DPLL reaches lock on its reference, DPLL0 starts to follow it and SE_STATE is set. -/
  | synceDpllLock
  /-- GATE_INTERVAL_END (R395): The interval of the operational 802.1Qbv gate list entry ends and the next entry's gate states take effect. -/
  | gateIntervalEnd (m : Nat)
  /-- PAUSE_TIME_END (R397): The pause time of a received pause frame runs out and the paused class may send again. -/
  | pauseTimeEnd (m : Nat) (cls : Nat)
  /-- PREEMPTION_VERIFY (R396): Frame-preemption verification with the link partner completes and ETH_MAC_STATUS shows preemption verified. -/
  | preemptionVerify (m : Nat)
  /-- GPIO_INPUT_CHANGE (R498): A GPIO input pin changes level and raises its edge or level interrupt to message source 166. -/
  | gpioInputChange (pin : Nat) (level : Bool)
  /-- SMBALERT (R498): PMB_ALERT_N is asserted by a PMBus device and the PMBus source raises its interrupt. -/
  | smbalert
  /-- UART_RECEIVE (R498): A character arrives on a UART receive pin and enters the receive FIFO, raising the UART's interrupt. -/
  | uartReceive (u : Nat) (ch : Nat)
deriving DecidableEq, Repr

end Sys2Proof
end

