-- ==== Sys2Proof/Config.lean ====
section
/-! DEFINITION. What an implementation fixes and what the spec leaves open: constants without a body, so
that nothing can be proved of their values (notes/assumptions). A `Nat → BitVec w` constant applied to
`State.fresh` or to the operands a value depends on is a free value. -/

namespace Sys2Proof.Config

/-- A fresh free value, taken at `State.fresh` (log 2). -/
opaque freeValue : Nat → BitVec 64

/-- Production calibration of timestamp port `n`, in 2^-16 ns: transmit FIX (R418; log 12). -/
opaque txFix : Nat → BitVec 32

/-- Receive FIX of timestamp port `n` (R418; log 12). -/
opaque rxFix : Nat → BitVec 32

/-- Index that YRD_EP_INFO gives endpoint `e` within a kind whose order R568 leaves open (R319; log 34). -/
opaque epIndex : Nat → BitVec 12

/-- Words of memory controller `n` that no local address reaches (internal RAMs, queues and staging of R324,
whose sizes the spec does not give), behind those that have one (log 35). -/
opaque ramWords : Nat → Nat

/-- Round-trip delay T14 in ps that CPRI lane `n` measures (R401; log 50). -/
opaque cpriT14 : Nat → BitVec 32

/-- Mu-law expansion of a `w`-bit component under compShift `sh` (R382; log 51). -/
opaque muExpand : Nat → Nat → Nat → BitVec 16

/-- Mu-law compression of a 16-bit component to `w` bits under compShift `sh` (R388; log 51). -/
opaque muCompress : Nat → Nat → Nat → BitVec 12

/-- The compShift chosen for a block of 24 components (R388; log 51). -/
opaque muShift : Nat → List Nat → BitVec 8

/-- Modulation compression of a component to `w` bits (R382; log 51). -/
opaque modCompress : Nat → Nat → BitVec 4

/-- Does a Falcon-1024 signature verify (R509, R518)? From public key, message and signature (log 70). -/
opaque falconVerify : List Byte → List Byte → List Byte → Bool

/-- A Falcon-1024 signature of a message by a private key, with signing randomness (R502; log 70). -/
opaque falconSign : Nat → List Byte → List Byte → List Byte

/-- A Falcon-1024 key pair, public then private, from a seed (R517; log 70). -/
opaque falconKeys : Nat → List Byte × List Byte

/-- AES-256-GCM: ciphertext and 16-byte tag from key, IV, associated data and plaintext (R517, R520; log 70). -/
opaque gcmSeal : List Byte → List Byte → List Byte → List Byte → List Byte × List Byte

/-- AES-256-GCM: the plaintext, if the tag verifies (log 70). -/
opaque gcmOpen : List Byte → List Byte → List Byte → List Byte → List Byte → Option (List Byte)

/-- AES key unwrap (RFC 3394) of a wrapped key under a KEK, if its integrity check holds (R520; log 70). -/
opaque keyUnwrap : List Byte → List Byte → Option (List Byte)

/-- Hash of the manufacturing key held in the boot ROM (R507; log 71). -/
opaque romKeyHash : List Byte

/-- Hash of the CA public key fixed in the boot ROM (R518; log 71). -/
opaque romCaHash : List Byte

/-- Where the identity partition holds the sealed identity key, its length, the certificate and the CA public
key, as offsets in the partition (R511; log 72). -/
opaque idLayout : Nat → BitVec 16

/-- Version number of the Halter firmware (R473; log 80). -/
opaque hltVersion : BitVec 32

/-- What a commit writes into a plan's parameter area, as offsets and bytes, from the slot address and the
staged fields (R479; the areas are the plan's own; log 81). -/
opaque paramWrites : Nat → List Byte → List (Nat × List Byte)

/-- What +1.0 becomes in the NCO's Q1.17 phasor (R233; log 91). -/
opaque phasorOne : Int

/-- A delay-line sample, a register and a number of the sieve stage state that `n` bytes of a context hold, whose form
the spec does not give (R240; log 94). -/
opaque stageLine : List Byte → Nat → Int × Int
opaque stageReg : List Byte → Nat → Int × Int
opaque stageNum : List Byte → Nat → Nat

/-- Element `k` of an FFT engine's transform of a stream of (re, im, exponent), from the operation and 1 + PHASE or 0
(R168, R172; the rounding inside the butterflies is open, R167; log 95). -/
opaque fftValue : Nat → Nat → List (Int × Int × Int) → Nat → Int × Int × Int

/-- Windowed output sample `j` of `w` from the stream's own sample and the tail's (R173; log 95). -/
opaque winHead : Nat → Nat → Int × Int × Int → Int × Int × Int → Int × Int × Int

/-- Stored tail sample `j` of `w` at an output exponent (R173, R176; log 95). -/
opaque winTail : Nat → Nat → Int × Int × Int → Int → BitVec 16 × BitVec 16

/-- Element (i, j) of output `out` of a matrix engine's item, where binary32 decides it, from the operation's numbers
and its matrices of (re word, im word, exponent) (R178; log 96). -/
opaque mtxValue : List Nat → List (List (List (Nat × Nat × Int))) → Nat → Nat → Nat → Int × Int × Int

/-- Does the item meet a pivot that is not positive or not finite (R179; log 96)? -/
opaque mtxDegenerate : List Nat → List (List (List (Nat × Nat × Int))) → Bool

/-- Decided bit `i`, iteration or pass count, and syndrome or convergence of a decoder, from its numbers and LLRs
(R208-R211, R216, R219, R221; log 97). -/
opaque decBit : List Nat → List Int → Nat → Bool
opaque decIters : List Nat → List Int → Nat
opaque decSyndrome : List Nat → List Int → Bool

/-- Nonzero circulants in the first rows of a base graph (TS 38.212; log 97). -/
opaque bgWeight : Nat → Nat → Nat

/-- Coded bit `p` that is not systematic, of an LDPC, turbo or polar encoding (R213; log 97). -/
opaque encBit : List Nat → List Bool → Nat → Bool

/-- CRC of a segment, list rank and path metric of a polar decoding (R217; log 97). -/
opaque polarCrc : List Nat → List Int → Nat → Bool
opaque polarRank : List Nat → List Int → Nat
opaque polarMetric : List Nat → List Int → Nat

/-- Starting state of a recursive tail-biting encoding (R221; log 97). -/
opaque trellisStart : List Nat → List Bool → Nat

/-- Detections, noise floor and number of roots of a PRACH occasion (R223, R224, R228; log 97). -/
opaque prachDetect : List Nat → List (List Nat) → List (Nat × Bool × Nat × Nat × Nat × Nat)
opaque prachNoise : List Nat → List (List Nat) → BitVec 16
opaque prachRoots : List Nat → Nat

/-- Where a decimating stage in its zero state gives its first output, from its type and factor (R233, R240; log 98). -/
opaque stagePhase : Nat → Nat → Nat

/-- Tap `k` of half-band set `set` for RX (0) or TX (1), and the sets' denominator less 1 (R234; log 98). -/
opaque hbTap : Nat → Nat → Nat → Int
opaque hbDen : Nat → Nat

/-- One value of a filter bank after SHIFT and rounding, before saturation, from its numbers, its prototype, the
samples it covers and SHIFT (R233; log 98). -/
opaque chanValue : List Nat → List Int → List (Int × Int) → Int → Int × Int

/-- Is an envelope step rounded up (R243; log 98)? -/
opaque envUp : Nat → Int → Nat → Bool

/-- Reception of a burst channel, from its configuration and job, its lanes' state and the samples: how many reports,
field `k` and LLR `k` of report `j`, the lanes' next state; whether lanes hold a reception in progress; whether an
NB-IoT position breaks a prediction (R258-R262; log 90). -/
opaque nbCount : List Nat → Nat → List Nat → Nat
opaque nbField : List Nat → Nat → List Nat → Nat → Nat → Nat
opaque nbLlr : List Nat → Nat → List Nat → Nat → Nat → Int
opaque nbLanes : List Nat → Nat → List Nat → Nat
opaque nbBusy : Nat → Bool
opaque nbGap3 : Nat → Nat → Bool

end Sys2Proof.Config
end

