-- ==== Sys2Proof/Machine/Tables.lean ====
section
/-! DEFINITION. Operations on the sparse tables State is built from, bit fields of words, byte
order (R3) and sign extension. Everything here is plain arithmetic with no state. -/

namespace Sys2Proof.Machine

/-- The value a table holds at `k`; an unlisted key holds the default `d k`. -/
def tget {α : Type} (d : Nat → α) : Tab α → Nat → α
  | [], k => d k
  | (j, w) :: t, k => if j = k then w else tget d t k

/-- Put `v` at `k`, keeping the keys rising. -/
def tput {α : Type} : Tab α → Nat → α → Tab α
  | [], k, v => [(k, v)]
  | (j, w) :: t, k, v =>
    if k < j then (k, v) :: (j, w) :: t
    else if k = j then (k, v) :: t
    else (j, w) :: tput t k v

/-- Write `v` at `k`: writing the default removes the entry, so equal tables are equal data. -/
def tset {α : Type} [DecidableEq α] (d : Nat → α) (t : Tab α) (k : Nat) (v : α) : Tab α :=
  if v = d k then t.filter (fun p => p.1 != k) else tput t k v

/-- Change the value at `k` by `f`. -/
def tmod {α : Type} [DecidableEq α] (d : Nat → α) (t : Tab α) (k : Nat) (f : α → α) : Tab α :=
  tset d t k (f (tget d t k))

/-- The canonical form: keys strictly rising and no entry equal to the default. -/
def twf {α : Type} [DecidableEq α] (d : Nat → α) (t : Tab α) : Prop :=
  t.Pairwise (fun p q => p.1 < q.1) ∧ ∀ p ∈ t, p.2 ≠ d p.1

/-- Forget every key for which `f` holds (the logic reset of what the keys name). -/
def tdrop {α : Type} (f : Nat → Bool) (t : Tab α) : Tab α := t.filter (fun p => !f p.1)

/-- Field `[hi:lo]` of a word (R2). -/
def fld (v hi lo : Nat) : Nat := (v >>> lo) % 2 ^ (hi + 1 - lo)

/-- Bit `i` of a word. -/
def tb (v i : Nat) : Bool := v.testBit i

/-- `b` as a bit. -/
def b2n (b : Bool) : Nat := if b then 1 else 0

/-- `v` with field `[hi:lo]` replaced by `x`. -/
def setFld (v hi lo x : Nat) : Nat :=
  (v >>> (hi + 1)) <<< (hi + 1) ||| (x % 2 ^ (hi + 1 - lo)) <<< lo ||| v % 2 ^ lo

/-- `v` with bit `i` set. -/
def setBit (v i : Nat) : Nat := v ||| (1 <<< i)

/-- `v` with bit `i` clear. -/
def clrBit (v i : Nat) : Nat := setFld v i i 0

/-- A `w`-bit word read as two's complement. -/
def sgn (w v : Nat) : Int := if v % 2 ^ w < 2 ^ (w - 1) then (v % 2 ^ w : Nat) else (v % 2 ^ w : Nat) - (2 ^ w : Nat)

/-- An integer as a `w`-bit two's-complement word. -/
def uns (w : Nat) (i : Int) : Nat := (i % ((2 ^ w : Nat) : Int)).toNat

/-- An integer saturated to `w` bits signed. -/
def satS (w : Nat) (i : Int) : Int := max (-(2 ^ (w - 1) : Nat)) (min i ((2 ^ (w - 1) : Nat) - 1))

/-- A count saturated at 2^32 − 1. -/
def sat32 (n : Nat) : Nat := min n 0xFFFFFFFF

/-- A list of bytes as a number, little-endian (R3). -/
def leNat : List Byte → Nat
  | [] => 0
  | b :: t => b.toNat + 256 * leNat t

/-- A list of bytes as a number, big-endian (the wire order of R3's outside standards). -/
def beNat (l : List Byte) : Nat := leNat l.reverse

/-- `n` bytes of a number, little-endian. -/
def natLe : Nat → Nat → List Byte
  | 0, _ => []
  | n + 1, v => BitVec.ofNat 8 v :: natLe n (v / 256)

/-- `n` bytes of a number, big-endian. -/
def natBe (n v : Nat) : List Byte := (natLe n v).reverse

/-- Bytes `[o, o+n)` of a list, zeros where the list is short. -/
def sub (l : List Byte) (o n : Nat) : List Byte :=
  let x := (l.drop o).take n
  x ++ List.replicate (n - x.length) 0

/-- The little-endian number in bytes `[o, o+n)`. -/
def le (l : List Byte) (o n : Nat) : Nat := leNat (sub l o n)

/-- The big-endian number in bytes `[o, o+n)`. -/
def be (l : List Byte) (o n : Nat) : Nat := beNat (sub l o n)

/-- `n` rounded up to a multiple of `m`. -/
def roundUp (n m : Nat) : Nat := (n + m - 1) / m * m

/-- Ceiling division. -/
def cdiv (a b : Nat) : Nat := (a + b - 1) / b

/-- The lowest index below `n` at which `f` holds. -/
def lowest (n : Nat) (f : Nat → Bool) : Option Nat := (List.range n).find? f

/-- Number of set bits among the low `n` bits. -/
def popcount (n v : Nat) : Nat := ((List.range n).filter (tb v)).length

/-- One byte of a bit-serial CRC of `w` bits, most significant bit first. -/
def crcByte (w poly c : Nat) (b : Byte) : Nat :=
  (List.range 8).foldl (fun c i =>
    let fb := xor (tb c (w - 1)) (b.getLsbD (7 - i))
    let c := (c <<< 1) % 2 ^ w
    if fb then c ^^^ poly else c) c

/-- CRC over bytes, most significant bit first, no reflection. -/
def crcMsb (w poly init : Nat) (l : List Byte) : Nat := l.foldl (crcByte w poly) init

/-- CRC over bytes, least significant bit first (reflected polynomial). -/
def crcLsb (poly init : Nat) (l : List Byte) : Nat :=
  l.foldl (fun c b =>
    (List.range 8).foldl (fun c _ => if tb c 0 then (c >>> 1) ^^^ poly else c >>> 1) (c ^^^ b.toNat)) init

/-- CRC-32C (R48): reflected polynomial 0x82F63B78, initial value and final XOR all ones. -/
def crc32c (l : List Byte) : Nat := crcLsb 0x82F63B78 0xFFFFFFFF l ^^^ 0xFFFFFFFF

/-- A list with position `i` replaced. -/
def lset {α : Type} (l : List α) (i : Nat) (v : α) : List α :=
  match l, i with
  | [], _ => []
  | _ :: t, 0 => v :: t
  | h :: t, i + 1 => h :: lset t i v

end Sys2Proof.Machine
end

