-- ==== Sys2Proof/Machine/RegMap.lean ====
section
/-! DEFINITION. The register map: one row per register of the offset tables of spec/ (R5, R6, R8, R11),
with its offset in its area, its width, its reset value and the bits of each access code. A bit in no
mask is read-only or reserved; what a read-only bit shows is stored by the hardware in the register
itself or computed by the block's read function. -/

namespace Sys2Proof.Machine

/-- One register or one regular array of registers. `dims` are (count, stride) pairs from the widest
stride down. `glo` and `ghi` are the lowest and highest offsets of its R11 group; `glo = ghi` is no group. -/
structure RegRow where
  name : String
  off : Nat
  dims : List (Nat × Nat)
  w : Nat
  reset : Nat
  rw : Nat
  w1c : Nat
  w1s : Nat
  rc : Nat
  wo : Nat
  glo : Nat
  ghi : Nat
deriving DecidableEq, Repr

/-- Registers of area core, part 1 (03_kubry_core.md R103). -/
def rowsCore_0 : List RegRow := [
  ⟨"KB_CORE_CTRL", 0, [], 4, 1, 3, 0, 4, 0, 0, 0, 0⟩,
  ⟨"KB_CORE_STATUS", 4, [], 4, 0x11, 0, 0, 0, 0, 0, 0, 0⟩,
  ⟨"KB_BOOT_PC", 8, [], 4, 0, 0x1fff, 0, 0, 0, 0, 0, 0⟩,
  ⟨"KB_PC", 0xc, [], 4, 0, 0, 0, 0, 0, 0, 0, 0⟩,
  ⟨"KB_DBG_SEL", 0x10, [], 4, 0, 0xff, 0, 0, 0, 0, 0, 0⟩,
  ⟨"KB_DBG_DATA", 0x14, [], 4, 0, 0xffffffff, 0, 0, 0, 0, 0, 0⟩,
  ⟨"KB_BP0", 0x18, [], 4, 0, 0x80001fff, 0, 0, 0, 0, 0, 0⟩,
  ⟨"KB_BP1", 0x1c, [], 4, 0, 0x80001fff, 0, 0, 0, 0, 0, 0⟩,
  ⟨"KB_BUNDLES", 0x20, [], 4, 0, 0, 0, 0, 0xffffffff, 0, 0, 0⟩,
  ⟨"KB_STALLS", 0x24, [], 4, 0, 0, 0, 0, 0xffffffff, 0, 0, 0⟩,
  ⟨"KB_EXCEPTIONS", 0x28, [], 4, 0, 0, 0, 0, 0xffffffff, 0, 0, 0⟩,
  ⟨"KB_SWI", 0x2c, [], 4, 0, 0, 0, 0, 0, 1, 0, 0⟩,
  ⟨"KB_VEC_CTRL", 0x30, [], 4, 0, 0, 0, 3, 0, 0, 0, 0⟩,
  ⟨"KB_VEC_STATUS", 0x34, [], 4, 0, 0, 0, 0, 0, 0, 0, 0⟩,
  ⟨"KB_VEC_SWITCHES", 0x38, [], 4, 0, 0, 0, 0, 0xffffffff, 0, 0, 0⟩,
  ⟨"KB_VEC_SWCYC", 0x3c, [], 4, 0, 0, 0, 0, 0xffffffff, 0, 0, 0⟩,
  ⟨"KB_VEC_LOSTk", 0x40, [(8, 4)], 4, 0, 0, 0xffffffff, 0, 0, 0, 0, 0⟩,
  ⟨"KB_HIT_CFG", 0x60, [], 4, 0xfa0, 0xfffff, 0, 0, 0, 0, 0, 0⟩,
  ⟨"KB_HIT_STATUS", 0x64, [], 4, 0, 0, 0, 0, 0, 0, 0, 0⟩,
  ⟨"KB_HIT_TMASK_LO", 0x68, [], 4, 0, 0xffffffff, 0, 0, 0, 0, 0, 0⟩]

/-- Registers of area core, part 2 (05_hitch.md R163). -/
def rowsCore_1 : List RegRow := [
  ⟨"KB_HIT_TMASK_HI", 0x6c, [], 4, 0, 0xffffffff, 0, 0, 0, 0, 0, 0⟩,
  ⟨"KB_HIT_NOTIFY_LO", 0x70, [], 4, 0, 0, 0xffffffff, 0, 0, 0, 0, 0⟩,
  ⟨"KB_HIT_NOTIFY_HI", 0x74, [], 4, 0, 0, 0xffffffff, 0, 0, 0, 0, 0⟩,
  ⟨"KB_HIT_TAGSEL", 0x78, [], 4, 0, 0x3f, 0, 0, 0, 0, 0, 0⟩,
  ⟨"KB_HIT_TAGINFO", 0x7c, [], 4, 0, 0, 0, 0, 0, 0, 0, 0⟩,
  ⟨"KB_HIT_POSTS", 0x80, [], 4, 0, 0, 0, 0, 0xffffffff, 0, 0, 0⟩,
  ⟨"KB_HIT_WITHDRAWS", 0x84, [], 4, 0, 0, 0, 0, 0xffffffff, 0, 0, 0⟩,
  ⟨"KB_HIT_STALE", 0x88, [], 4, 0, 0, 0, 0, 0xffffffff, 0, 0, 0⟩,
  ⟨"KB_HIT_TIMEOUTS", 0x8c, [], 4, 0, 0, 0, 0, 0xffffffff, 0, 0, 0⟩,
  ⟨"KB_HIT_STALLCYC", 0x90, [], 4, 0, 0, 0, 0, 0xffffffff, 0, 0, 0⟩,
  ⟨"KB_HIT_GBASEg", 0xa0, [(8, 8)], 4, 0, 0, 0, 0, 0, 0, 0, 0⟩,
  ⟨"KB_HIT_GLENg", 0xa4, [(8, 8)], 4, 0, 0, 0, 0, 0, 0, 0, 0⟩,
  ⟨"KB_TICK_SUB_LO", 0xe0, [], 4, 0, 0xffffffff, 0, 0, 0, 0, 0, 0⟩,
  ⟨"KB_TICK_SUB_HI", 0xe4, [], 4, 0, 0xffffffff, 0, 0, 0, 0, 0, 0⟩,
  ⟨"KB_TICK_PEND_LO", 0xe8, [], 4, 0, 0, 0xffffffff, 0, 0, 0, 0, 0⟩,
  ⟨"KB_TICK_PEND_HI", 0xec, [], 4, 0, 0, 0xffffffff, 0, 0, 0, 0, 0⟩]

/-- All registers of area core. -/
def rowsCore : List RegRow := rowsCore_0 ++ rowsCore_1

/-- Registers of area stb, part 1 (03_kubry_core.md R106). -/
def rowsStb_0 : List RegRow := [
  ⟨"KB_STB_CLK", 0x8000, [], 4, 0x22, 0x30, 0, 0, 0, 0, 0, 0⟩,
  ⟨"KB_STB_FAULT", 0x8004, [], 4, 0, 0, 0xff, 0, 0, 0, 0, 0⟩,
  ⟨"BRW_CH_CFG", 0x10000, [(16, 0x100)], 4, 0, 0xff03, 0, 0, 0, 0, 0, 0⟩,
  ⟨"BRW_CH_CMD", 0x10004, [(16, 0x100)], 4, 0, 0, 0, 0, 0, 7, 0, 0⟩,
  ⟨"BRW_CH_PROG", 0x10008, [(16, 0x100)], 8, 0, 0xfffffffffff, 0, 0, 0, 0, 0, 0⟩,
  ⟨"BRW_CH_STATUS", 0x10010, [(16, 0x100)], 4, 0, 0, 0x700, 0, 0, 0, 0, 0⟩,
  ⟨"BRW_CH_COUNT", 0x10014, [(16, 0x100)], 4, 0, 0, 0, 0, 0, 0, 0, 0⟩,
  ⟨"BRW_CH_PC", 0x10018, [(16, 0x100)], 8, 0, 0, 0, 0, 0, 0, 0, 0⟩,
  ⟨"BRW_CH_ERR_ADDR_LO", 0x10020, [(16, 0x100)], 4, 0, 0, 0, 0, 0, 0, 0x10020, 0x10024⟩,
  ⟨"BRW_CH_ERR_ADDR_HI", 0x10024, [(16, 0x100)], 4, 0, 0, 0, 0, 0, 0, 0x10020, 0x10024⟩,
  ⟨"BRW_CH_ERR_INFO", 0x10028, [(16, 0x100)], 4, 0, 0, 0, 0, 0, 0, 0, 0⟩,
  ⟨"BRW_CH_RESUME_OFS", 0x1002c, [(16, 0x100)], 4, 0, 0, 0, 0, 0, 0, 0, 0⟩,
  ⟨"BRW_CH_SO", 0x10030, [(16, 0x100)], 8, 0, 0, 0, 0, 0, 0, 0, 0⟩,
  ⟨"BRW_CH_DO", 0x10038, [(16, 0x100)], 8, 0, 0, 0, 0, 0, 0, 0, 0⟩,
  ⟨"BRW_CH_ITERk", 0x10040, [(16, 0x100), (4, 4)], 4, 0, 0, 0, 0, 0, 0, 0, 0⟩,
  ⟨"BRW_CH_BYTES", 0x10050, [(16, 0x100)], 4, 0, 0, 0, 0, 0xffffffff, 0, 0, 0⟩,
  ⟨"BRW_CH_PREEMPTS", 0x10054, [(16, 0x100)], 4, 0, 0, 0, 0, 0xffffffff, 0, 0, 0⟩,
  ⟨"BRW_CH_START_REJ", 0x10058, [(16, 0x100)], 4, 0, 0, 0, 0, 0xffffffff, 0, 0, 0⟩,
  ⟨"BRW_FLAG_SET_LO", 0x11000, [], 4, 0, 0, 0, 0xffffffff, 0, 0, 0, 0⟩,
  ⟨"BRW_FLAG_SET_HI", 0x11004, [], 4, 0, 0, 0, 0xffffffff, 0, 0, 0, 0⟩]

/-- Registers of area stb, part 2 (12_barrow_hatches.md R362). -/
def rowsStb_1 : List RegRow := [
  ⟨"BRW_FLAG_CLR_LO", 0x11008, [], 4, 0, 0, 0xffffffff, 0, 0, 0, 0, 0⟩,
  ⟨"BRW_FLAG_CLR_HI", 0x1100c, [], 4, 0, 0, 0xffffffff, 0, 0, 0, 0, 0⟩,
  ⟨"BRW_GRP_BEATS", 0x11010, [], 4, 0, 0, 0, 0, 0xffffffff, 0, 0, 0⟩,
  ⟨"BRW_GRP_BUSYCYC", 0x11014, [], 4, 0, 0, 0, 0, 0xffffffff, 0, 0, 0⟩,
  ⟨"YM_K_CMD", 0x400000, [(8, 0x1000)], 4, 0, 0, 0, 0, 0, 0xff, 0, 0⟩,
  ⟨"YM_K_ARG", 0x400008, [(8, 0x1000)], 8, 0, 0xffffffffffffffff, 0, 0, 0, 0, 0, 0⟩,
  ⟨"YM_K_RESULT", 0x400010, [(8, 0x1000)], 4, 0, 0, 0, 0, 0, 0, 0, 0⟩,
  ⟨"YM_K_STATUS", 0x400014, [(8, 0x1000)], 4, 0, 0, 2, 0, 0, 0, 0, 0⟩,
  ⟨"YM_K_CUR", 0x400018, [(8, 0x1000)], 4, 0, 0, 0, 0, 0, 0, 0, 0⟩,
  ⟨"YM_K_TAKEi", 0x400020, [(8, 0x1000), (7, 4)], 4, 0, 0, 0, 0, 0, 0, 0, 0⟩,
  ⟨"YM_TD_CFG", 0x410000, [(8, 0x2000), (256, 0x20)], 4, 0, 0x3f03, 0, 0, 0, 0, 0, 0⟩,
  ⟨"YM_TD_FRAME", 0x410004, [(8, 0x2000), (256, 0x20)], 4, 0, 0x7ffc0, 0, 0, 0, 0, 0, 0⟩,
  ⟨"YM_TD_VSAVE", 0x410008, [(8, 0x2000), (256, 0x20)], 4, 0, 0xffffffc0, 0, 0, 0, 0, 0, 0⟩,
  ⟨"YM_TD_TMASK_LO", 0x41000c, [(8, 0x2000), (256, 0x20)], 4, 0, 0xffffffff, 0, 0, 0, 0, 0, 0⟩,
  ⟨"YM_TD_TMASK_HI", 0x410010, [(8, 0x2000), (256, 0x20)], 4, 0, 0xffffffff, 0, 0, 0, 0, 0, 0⟩,
  ⟨"YM_TD_STATE", 0x410014, [(8, 0x2000), (256, 0x20)], 4, 0, 0, 0, 0, 0, 0, 0, 0⟩,
  ⟨"YM_TD_ACTID", 0x410018, [(8, 0x2000), (256, 0x20)], 4, 0, 0, 0, 0, 0, 0, 0, 0⟩,
  ⟨"YM_TD_WAIT", 0x41001c, [(8, 0x2000), (256, 0x20)], 4, 0, 0, 0, 0, 0, 0, 0, 0⟩]

/-- All registers of area stb. -/
def rowsStb : List RegRow := rowsStb_0 ++ rowsStb_1

/-- Registers of area eng, part 1 (06_transform_matrix.md R190). -/
def rowsEng_0 : List RegRow := [
  ⟨"x_CTRL", 0, [], 4, 0, 3, 0, 0, 0, 0, 0, 0⟩,
  ⟨"x_STATUS", 4, [], 4, 0, 0, 0, 0, 0, 0, 0, 0⟩,
  ⟨"x_JOBS", 8, [], 4, 0, 0, 0, 0, 0xffffffff, 0, 0, 0⟩,
  ⟨"x_BUSYCYC", 0xc, [], 4, 0, 0, 0, 0, 0xffffffff, 0, 0, 0⟩,
  ⟨"x_SAT", 0x10, [], 4, 0, 0, 0, 0, 0xffffffff, 0, 0, 0⟩,
  ⟨"x_ERRS", 0x14, [], 4, 0, 0, 0, 0, 0xffffffff, 0, 0, 0⟩,
  ⟨"x_LAST_ERR", 0x18, [], 4, 0, 0, 0, 0, 0, 0, 0, 0⟩,
  ⟨"x_UE_ADDR_LO", 0x1c, [], 4, 0, 0, 0, 0, 0, 0, 0x1c, 0x20⟩,
  ⟨"x_UE_ADDR_HI", 0x20, [], 4, 0, 0, 0, 0, 0, 0, 0x1c, 0x20⟩,
  ⟨"x_CTXSW", 0x24, [], 4, 0, 0, 0, 0, 0xffffffff, 0, 0, 0⟩,
  ⟨"x_CTXRES", 0x28, [], 4, 0, 0, 0, 0, 0, 0, 0, 0⟩]

/-- All registers of area eng. -/
def rowsEng : List RegRow := rowsEng_0

/-- Registers of area eng1, part 1 (06_transform_matrix.md R190). -/
def rowsEng1_0 : List RegRow := [
  ⟨"MTX_CHAIN_WAIT", 0x2c, [], 4, 0, 0, 0, 0, 0xffffffff, 0, 0, 0⟩]

/-- All registers of area eng1. -/
def rowsEng1 : List RegRow := rowsEng1_0

/-- Registers of area eng2, part 1 (07_channel_coding.md R229). -/
def rowsEng2_0 : List RegRow := [
  ⟨"x_CHAINSTAT", 0x2c, [], 4, 0, 0, 0, 0, 0, 0, 0, 0⟩,
  ⟨"LDD_ITERS", 0x34, [], 4, 0, 0, 0, 0, 0xffffffff, 0, 0, 0⟩,
  ⟨"LDD_CBFAIL", 0x38, [], 4, 0, 0, 0, 0, 0xffffffff, 0, 0, 0⟩]

/-- All registers of area eng2. -/
def rowsEng2 : List RegRow := rowsEng2_0

/-- Registers of area eng3, part 1 (07_channel_coding.md R229). -/
def rowsEng3_0 : List RegRow := [
  ⟨"x_CHAINSTAT", 0x2c, [], 4, 0, 0, 0, 0, 0, 0, 0, 0⟩,
  ⟨"x_CHAIN_WAIT", 0x30, [], 4, 0, 0, 0, 0, 0xffffffff, 0, 0, 0⟩]

/-- All registers of area eng3. -/
def rowsEng3 : List RegRow := rowsEng3_0

/-- Registers of area eng4, part 1 (07_channel_coding.md R229). -/
def rowsEng4_0 : List RegRow := [
  ⟨"PLD_CRCFAIL", 0x34, [], 4, 0, 0, 0, 0, 0xffffffff, 0, 0, 0⟩]

/-- All registers of area eng4. -/
def rowsEng4 : List RegRow := rowsEng4_0

/-- Registers of area eng5, part 1 (07_channel_coding.md R229). -/
def rowsEng5_0 : List RegRow := [
  ⟨"x_CHAINSTAT", 0x2c, [], 4, 0, 0, 0, 0, 0, 0, 0, 0⟩,
  ⟨"TBD_ITERS", 0x34, [], 4, 0, 0, 0, 0, 0xffffffff, 0, 0, 0⟩,
  ⟨"TBD_CBFAIL", 0x38, [], 4, 0, 0, 0, 0, 0xffffffff, 0, 0, 0⟩]

/-- All registers of area eng5. -/
def rowsEng5 : List RegRow := rowsEng5_0

/-- Registers of area eng7, part 1 (07_channel_coding.md R229). -/
def rowsEng7_0 : List RegRow := [
  ⟨"x_CHAIN_WAIT", 0x30, [], 4, 0, 0, 0, 0, 0xffffffff, 0, 0, 0⟩,
  ⟨"HRQ_RESTARTS", 0x34, [], 4, 0, 0, 0, 0, 0xffffffff, 0, 0, 0⟩,
  ⟨"HRQ_SBBUSY", 0x38, [], 4, 0, 0, 0, 0, 0xffffffff, 0, 0, 0⟩]

/-- All registers of area eng7. -/
def rowsEng7 : List RegRow := rowsEng7_0

/-- Registers of area eng8, part 1 (07_channel_coding.md R229). -/
def rowsEng8_0 : List RegRow := [
  ⟨"PRA_DETECTS", 0x34, [], 4, 0, 0, 0, 0, 0xffffffff, 0, 0, 0⟩,
  ⟨"PRA_OVERFLOWS", 0x38, [], 4, 0, 0, 0, 0, 0xffffffff, 0, 0, 0⟩,
  ⟨"PRA_POSTFAIL", 0x3c, [], 4, 0, 0, 0, 0, 0xffffffff, 0, 0, 0⟩]

/-- All registers of area eng8. -/
def rowsEng8 : List RegRow := rowsEng8_0

/-- Registers of area eng9, part 1 (08_sieve_bursts.md R254). -/
def rowsEng9_0 : List RegRow := [
  ⟨"SV_GAPS", 0x2c, [], 4, 0, 0, 0, 0, 0xffffffff, 0, 0, 0⟩,
  ⟨"SV_LBT_CFG", 0x30, [], 4, 0, 0xfffffff7, 0, 0, 0, 0, 0, 0⟩,
  ⟨"SV_LBT_ED", 0x34, [], 4, 0xfdc0, 0xffff, 0, 0, 0, 0, 0, 0⟩,
  ⟨"SV_LBT_PRIO", 0x38, [], 4, 0x3f00f3, 0x3ff3ff7, 0, 0, 0, 0, 0, 0⟩,
  ⟨"SV_LBT_CW", 0x3c, [], 4, 0xf, 0x3ff, 0, 0, 0, 0, 0, 0⟩,
  ⟨"SV_LBT_MCOT", 0x40, [], 4, 0x1f40, 0xffff, 0, 0, 0, 0, 0, 0⟩,
  ⟨"SV_LBT_SEED", 0x44, [], 4, 1, 0xffffffff, 0, 0, 0, 0, 0, 0⟩,
  ⟨"SV_LBT_CMD", 0x48, [], 4, 0, 0, 0, 0, 0, 7, 0, 0⟩,
  ⟨"SV_LBT_STATUS", 0x4c, [], 4, 0, 0, 0, 0, 0, 0, 0, 0⟩,
  ⟨"SV_LBT_BUSY", 0x50, [], 4, 0, 0, 0, 0, 0xffffffff, 0, 0, 0⟩,
  ⟨"SV_LBT_ACQS", 0x54, [], 4, 0, 0, 0, 0, 0xffffffff, 0, 0, 0⟩,
  ⟨"SV_LBT_ABORTS", 0x58, [], 4, 0, 0, 0, 0, 0xffffffff, 0, 0, 0⟩,
  ⟨"SV_LBT_COT_TS_SEC_HI", 0x5c, [], 4, 0, 0, 0, 0, 0, 0, 0x5c, 0x68⟩,
  ⟨"SV_LBT_COT_TS_SEC_LO", 0x60, [], 4, 0, 0, 0, 0, 0, 0, 0x5c, 0x68⟩,
  ⟨"SV_LBT_COT_TS_NS", 0x64, [], 4, 0, 0, 0, 0, 0, 0, 0x5c, 0x68⟩,
  ⟨"SV_LBT_COT_TS_FRAC", 0x68, [], 4, 0, 0, 0, 0, 0, 0, 0x5c, 0x68⟩,
  ⟨"SV_RAMPt_k", 0x100, [(4, 0x80), (32, 4)], 4, 0, 0xffffffff, 0, 0, 0, 0, 0, 0⟩]

/-- All registers of area eng9. -/
def rowsEng9 : List RegRow := rowsEng9_0

/-- Registers of area eng10, part 1 (08_sieve_bursts.md R266). -/
def rowsEng10_0 : List RegRow := [
  ⟨"NB_CH_ENk", 0x2c, [(3, 4)], 4, 0, 0xffffffff, 0, 0, 0, 0, 0, 0⟩,
  ⟨"NB_CH_FAULTk", 0x38, [(3, 4)], 4, 0, 0, 0xffffffff, 0, 0, 0, 0, 0⟩,
  ⟨"NB_BURSTS", 0x44, [], 4, 0, 0, 0, 0, 0xffffffff, 0, 0, 0⟩,
  ⟨"NB_CAPTURED", 0x48, [], 4, 0, 0, 0, 0, 0xffffffff, 0, 0, 0⟩,
  ⟨"NB_FALSE_SYNC", 0x4c, [], 4, 0, 0, 0, 0, 0xffffffff, 0, 0, 0⟩,
  ⟨"NB_OVERLAP", 0x50, [], 4, 0, 0, 0, 0, 0xffffffff, 0, 0, 0⟩,
  ⟨"NB_RINGFULL", 0x54, [], 4, 0, 0, 0, 0, 0xffffffff, 0, 0, 0⟩,
  ⟨"NB_GAPS", 0x58, [], 4, 0, 0, 0, 0, 0xffffffff, 0, 0, 0⟩]

/-- All registers of area eng10. -/
def rowsEng10 : List RegRow := rowsEng10_0

/-- Registers of area ym, part 1 (09_yardmaster.md R290). -/
def rowsYm_0 : List RegRow := [
  ⟨"YM_CTRL", 0, [], 4, 0, 1, 0, 0, 0, 0, 0, 0⟩,
  ⟨"YM_STATUS", 4, [], 4, 0, 0, 0, 0, 0, 0, 0, 0⟩,
  ⟨"YM_ACCT_CFG", 8, [], 4, 0, 0x13f, 0, 0, 0, 0, 0, 0⟩,
  ⟨"YM_EV_SIGNAL", 0x10, [], 4, 0, 0, 0, 0, 0, 0xffff, 0, 0⟩,
  ⟨"YM_EV_UNUSED", 0x14, [], 4, 0, 0, 0, 0, 0xffffffff, 0, 0, 0⟩,
  ⟨"YM_ACT", 0x18, [], 8, 0, 0, 0, 0, 0, 0xfffffffffff, 0, 0⟩,
  ⟨"YM_ACT_ACCEPTED", 0x20, [], 4, 0, 0, 0, 0, 0xffffffff, 0, 0, 0⟩,
  ⟨"YM_ACT_FULL", 0x24, [], 4, 0, 0, 0, 0, 0xffffffff, 0, 0, 0⟩,
  ⟨"YM_ACT_BAD", 0x28, [], 4, 0, 0, 0, 0, 0xffffffff, 0, 0, 0⟩,
  ⟨"YM_ACT_NOTEFAIL", 0x2c, [], 4, 0, 0, 0, 0, 0xffffffff, 0, 0, 0⟩,
  ⟨"YM_FLOW_SEL", 0x30, [], 4, 0, 0xfff, 0, 0, 0, 0, 0, 0⟩,
  ⟨"YM_FLOW_CFG", 0x34, [], 4, 0x10, 0x7f, 0, 0, 0, 0, 0, 0⟩,
  ⟨"YM_FLOW_STATUS", 0x38, [], 4, 0, 0, 0, 0, 0, 0, 0, 0⟩,
  ⟨"YM_FLOW_FULL", 0x3c, [], 4, 0, 0, 0, 0, 0xffffffff, 0, 0, 0⟩,
  ⟨"YM_FB_NOROUTE", 0x40, [], 4, 0, 0, 0, 0, 0xffffffff, 0, 0, 0⟩,
  ⟨"YM_CELL_ROUTEi", 0x20000, [(1536, 4)], 4, 0, 0x8000001f, 0, 0, 0, 0, 0, 0⟩,
  ⟨"YM_CORE_CFG", 0x80000, [(256, 0x40)], 4, 2, 3, 0, 0, 0, 0, 0, 0⟩,
  ⟨"YM_CORE_STATUS", 0x80004, [(256, 0x40)], 4, 0, 0, 0, 0, 0, 0, 0, 0⟩,
  ⟨"YM_ACC_COMMIT", 0x80008, [(256, 0x40)], 4, 0, 0, 0, 0, 0, 0, 0, 0⟩,
  ⟨"YM_ACC_ADMITTED", 0x8000c, [(256, 0x40)], 4, 0, 0, 0, 0, 0, 0, 0x8000c, 0x80018⟩]

/-- Registers of area ym, part 2 (09_yardmaster.md R291). -/
def rowsYm_1 : List RegRow := [
  ⟨"YM_ACC_SPENT", 0x80010, [(256, 0x40)], 4, 0, 0, 0, 0, 0, 0, 0x8000c, 0x80018⟩,
  ⟨"YM_ACC_PEAK", 0x80014, [(256, 0x40)], 4, 0, 0, 0, 0, 0, 0, 0x8000c, 0x80018⟩,
  ⟨"YM_ACC_KCYC", 0x80018, [(256, 0x40)], 4, 0, 0, 0, 0, 0, 0, 0x8000c, 0x80018⟩,
  ⟨"YM_ACC_REFUSED", 0x8001c, [(256, 0x40)], 4, 0, 0, 0, 0, 0xffffffff, 0, 0, 0⟩,
  ⟨"YM_ACC_FULL", 0x80020, [(256, 0x40)], 4, 0, 0, 0, 0, 0xffffffff, 0, 0, 0⟩,
  ⟨"YM_ACC_EXHAUST", 0x80024, [(256, 0x40)], 4, 0, 0, 0, 0, 0xffffffff, 0, 0, 0⟩,
  ⟨"YM_ACC_STOPS", 0x80028, [(256, 0x40)], 4, 0, 0, 0, 0, 0xffffffff, 0, 0, 0⟩,
  ⟨"YM_ACC_PREEMPTS", 0x8002c, [(256, 0x40)], 4, 0, 0, 0, 0, 0xffffffff, 0, 0, 0⟩,
  ⟨"YM_PLAN_CTRL", 0x100000, [(256, 0x20)], 4, 0, 1, 0, 2, 0, 0, 0, 0⟩,
  ⟨"YM_PLAN_ADDR_ACT", 0x100004, [(256, 0x20)], 4, 0, 0, 0, 0, 0, 0, 0, 0⟩,
  ⟨"YM_PLAN_ADDR_SHD", 0x100008, [(256, 0x20)], 4, 0, 0xffffffff, 0, 0, 0, 0, 0, 0⟩,
  ⟨"YM_PLAN_RELEASES", 0x10000c, [(256, 0x20)], 4, 0, 0, 0, 0, 0xffffffff, 0, 0, 0⟩,
  ⟨"YM_PLAN_LATE", 0x100010, [(256, 0x20)], 4, 0, 0, 0, 0, 0xffffffff, 0, 0, 0⟩,
  ⟨"YM_PLAN_REFUSED", 0x100014, [(256, 0x20)], 4, 0, 0, 0, 0, 0xffffffff, 0, 0, 0⟩,
  ⟨"YM_PLAN_FALLBACKS", 0x100018, [(256, 0x20)], 4, 0, 0, 0, 0, 0xffffffff, 0, 0, 0⟩,
  ⟨"YM_PLAN_DROPPED", 0x10001c, [(256, 0x20)], 4, 0, 0, 0, 0, 0xffffffff, 0, 0, 0⟩]

/-- All registers of area ym. -/
def rowsYm : List RegRow := rowsYm_0 ++ rowsYm_1

/-- Registers of area hat, part 1 (12_barrow_hatches.md R371). -/
def rowsHat_0 : List RegRow := [
  ⟨"HAT_POST", 0, [(4096, 0x20)], 8, 0, 0, 0, 0, 0, 0xffffffffffffffff, 0, 0⟩,
  ⟨"HAT_TAKE", 8, [(4096, 0x20)], 8, 0, 0, 0, 0, 0xffffffffffffffff, 0, 0, 0⟩,
  ⟨"HAT_WITHDRAW", 0x10, [(4096, 0x20)], 8, 0, 0, 0, 0, 0xffffffffffffffff, 0, 0, 0⟩,
  ⟨"HAT_STATUS", 0x18, [(4096, 0x20)], 4, 0, 0, 0x1e, 0, 0, 0, 0, 0⟩,
  ⟨"HAT_CFG", 0x20000, [(4096, 0x10)], 4, 0, 0x1ff001f, 0, 0, 0, 0, 0, 0⟩,
  ⟨"HAT_SENDER", 0x20004, [(4096, 0x10)], 4, 0, 0xfff, 0, 0, 0, 0, 0, 0⟩,
  ⟨"HAT_TMO", 0x20008, [(4096, 0x10)], 4, 0x64, 0xfffff, 0, 0, 0, 0, 0, 0⟩,
  ⟨"HAT_CMD", 0x2000c, [(4096, 0x10)], 4, 0, 0, 0, 0, 0, 1, 0, 0⟩,
  ⟨"HAT_RX_NEXT", 0x30000, [(276, 0x10)], 4, 0, 0, 0, 0, 0, 0, 0, 0⟩,
  ⟨"HAT_TX_NEXT", 0x30004, [(276, 0x10)], 4, 0, 0, 0, 0, 0, 0, 0, 0⟩,
  ⟨"HAT_NT_NEXT", 0x30008, [(276, 0x10)], 4, 0, 0, 0, 0, 0, 0, 0, 0⟩,
  ⟨"HAT_POSTS", 0x40000, [], 4, 0, 0, 0, 0, 0xffffffff, 0, 0, 0⟩,
  ⟨"HAT_FULLS", 0x40004, [], 4, 0, 0, 0, 0, 0xffffffff, 0, 0, 0⟩,
  ⟨"HAT_REJECTS", 0x40008, [], 4, 0, 0, 0, 0, 0xffffffff, 0, 0, 0⟩,
  ⟨"HAT_TIMEOUTS", 0x4000c, [], 4, 0, 0, 0, 0, 0xffffffff, 0, 0, 0⟩,
  ⟨"HAT_ABORTS", 0x40010, [], 4, 0, 0, 0, 0, 0xffffffff, 0, 0, 0⟩,
  ⟨"HAT_WITHDRAWS", 0x40014, [], 4, 0, 0, 0, 0, 0xffffffff, 0, 0, 0⟩]

/-- All registers of area hat. -/
def rowsHat : List RegRow := rowsHat_0

/-- Registers of area brw, part 1 (12_barrow_hatches.md R371). -/
def rowsBrw_0 : List RegRow := [
  ⟨"BRW_CH_CFG", 0, [(64, 0x100)], 4, 0, 0xff03, 0, 0, 0, 0, 0, 0⟩,
  ⟨"BRW_CH_CMD", 4, [(64, 0x100)], 4, 0, 0, 0, 0, 0, 7, 0, 0⟩,
  ⟨"BRW_CH_PROG", 8, [(64, 0x100)], 8, 0, 0xfffffffffff, 0, 0, 0, 0, 0, 0⟩,
  ⟨"BRW_CH_STATUS", 0x10, [(64, 0x100)], 4, 0, 0, 0x700, 0, 0, 0, 0, 0⟩,
  ⟨"BRW_CH_COUNT", 0x14, [(64, 0x100)], 4, 0, 0, 0, 0, 0, 0, 0, 0⟩,
  ⟨"BRW_CH_PC", 0x18, [(64, 0x100)], 8, 0, 0, 0, 0, 0, 0, 0, 0⟩,
  ⟨"BRW_CH_ERR_ADDR_LO", 0x20, [(64, 0x100)], 4, 0, 0, 0, 0, 0, 0, 0x20, 0x24⟩,
  ⟨"BRW_CH_ERR_ADDR_HI", 0x24, [(64, 0x100)], 4, 0, 0, 0, 0, 0, 0, 0x20, 0x24⟩,
  ⟨"BRW_CH_ERR_INFO", 0x28, [(64, 0x100)], 4, 0, 0, 0, 0, 0, 0, 0, 0⟩,
  ⟨"BRW_CH_RESUME_OFS", 0x2c, [(64, 0x100)], 4, 0, 0, 0, 0, 0, 0, 0, 0⟩,
  ⟨"BRW_CH_SO", 0x30, [(64, 0x100)], 8, 0, 0, 0, 0, 0, 0, 0, 0⟩,
  ⟨"BRW_CH_DO", 0x38, [(64, 0x100)], 8, 0, 0, 0, 0, 0, 0, 0, 0⟩,
  ⟨"BRW_CH_ITERk", 0x40, [(64, 0x100), (4, 4)], 4, 0, 0, 0, 0, 0, 0, 0, 0⟩,
  ⟨"BRW_CH_BYTES", 0x50, [(64, 0x100)], 4, 0, 0, 0, 0, 0xffffffff, 0, 0, 0⟩,
  ⟨"BRW_CH_PREEMPTS", 0x54, [(64, 0x100)], 4, 0, 0, 0, 0, 0xffffffff, 0, 0, 0⟩,
  ⟨"BRW_CH_START_REJ", 0x58, [(64, 0x100)], 4, 0, 0, 0, 0, 0xffffffff, 0, 0, 0⟩,
  ⟨"BRW_FLAG_SET_LO", 0x4000, [], 4, 0, 0, 0, 0xffffffff, 0, 0, 0, 0⟩,
  ⟨"BRW_FLAG_SET_HI", 0x4004, [], 4, 0, 0, 0, 0xffffffff, 0, 0, 0, 0⟩,
  ⟨"BRW_FLAG_CLR_LO", 0x4008, [], 4, 0, 0, 0xffffffff, 0, 0, 0, 0, 0⟩,
  ⟨"BRW_FLAG_CLR_HI", 0x400c, [], 4, 0, 0, 0xffffffff, 0, 0, 0, 0, 0⟩]

/-- Registers of area brw, part 2 (12_barrow_hatches.md R362). -/
def rowsBrw_1 : List RegRow := [
  ⟨"BRW_GRP_BEATS", 0x4010, [], 4, 0, 0, 0, 0, 0xffffffff, 0, 0, 0⟩,
  ⟨"BRW_GRP_BUSYCYC", 0x4014, [], 4, 0, 0, 0, 0, 0xffffffff, 0, 0, 0⟩]

/-- All registers of area brw. -/
def rowsBrw : List RegRow := rowsBrw_0 ++ rowsBrw_1

/-- Registers of area ct, part 1 (02_slot_tick.md R44). -/
def rowsCt_0 : List RegRow := [
  ⟨"CT_TT_CTRL", 0x40000, [(16, 0x40)], 4, 0, 0xff1, 0, 0, 0, 0, 0, 0⟩,
  ⟨"CT_TT_OFS_NS", 0x40004, [(16, 0x40)], 4, 0, 0xffffffff, 0, 0, 0, 0, 0x40004, 0x40008⟩,
  ⟨"CT_TT_OFS_FRAC", 0x40008, [(16, 0x40)], 4, 0, 0xffff, 0, 0, 0, 0, 0x40004, 0x40008⟩,
  ⟨"CT_TT_STATUS", 0x4000c, [(16, 0x40)], 4, 0, 0, 0, 0, 0, 0, 0, 0⟩,
  ⟨"CT_TT_PHERR", 0x40010, [(16, 0x40)], 4, 0, 0, 0, 0, 0, 0, 0, 0⟩,
  ⟨"CT_TT_CNT_LO", 0x40014, [(16, 0x40)], 4, 0, 0, 0, 0, 0, 0, 0x40014, 0x40018⟩,
  ⟨"CT_TT_CNT_HI", 0x40018, [(16, 0x40)], 4, 0, 0, 0, 0, 0, 0, 0x40014, 0x40018⟩,
  ⟨"CT_TT_TS_SEC_HI", 0x4001c, [(16, 0x40)], 4, 0, 0, 0, 0, 0, 0, 0x4001c, 0x40028⟩,
  ⟨"CT_TT_TS_SEC_LO", 0x40020, [(16, 0x40)], 4, 0, 0, 0, 0, 0, 0, 0x4001c, 0x40028⟩,
  ⟨"CT_TT_TS_NS", 0x40024, [(16, 0x40)], 4, 0, 0, 0, 0, 0, 0, 0x4001c, 0x40028⟩,
  ⟨"CT_TT_TS_FRAC", 0x40028, [(16, 0x40)], 4, 0, 0, 0, 0, 0, 0, 0x4001c, 0x40028⟩,
  ⟨"CT_TT_SLEW", 0x40400, [], 4, 0x3e8, 0xffff, 0, 0, 0, 0, 0, 0⟩,
  ⟨"CT_TT_EVENT", 0x40404, [], 4, 0, 0, 0xffff, 0, 0, 0, 0, 0⟩,
  ⟨"CT_CTRL", 0, [], 4, 0, 3, 0, 4, 0, 0, 0, 0⟩,
  ⟨"CT_STATUS", 4, [], 4, 0, 0, 0, 0, 0, 0, 0, 0⟩,
  ⟨"CT_INT_STATUS", 8, [], 4, 0, 0, 0xff, 0, 0, 0, 0, 0⟩,
  ⟨"CT_INT_EN", 0xc, [], 4, 0, 0xff, 0, 0, 0, 0, 0, 0⟩,
  ⟨"CT_UTC_OFS", 0x10, [], 4, 0x25, 0xffff, 0, 0, 0, 0, 0, 0⟩,
  ⟨"CT_SWITCHES", 0x14, [], 4, 0, 0, 0, 0, 0xffffffff, 0, 0, 0⟩,
  ⟨"CT_S_REM", 0x18, [], 4, 0, 0, 0, 0, 0, 0, 0, 0⟩]

/-- Registers of area ct, part 2 (14_clocktower.md R428). -/
def rowsCt_1 : List RegRow := [
  ⟨"CT_D_CFG", 0x1000, [(2, 0x100)], 4, 0xa00, 0xffff0f, 0, 0, 0, 0, 0, 0⟩,
  ⟨"CT_D_STATE", 0x1004, [(2, 0x100)], 4, 0, 7, 0, 0, 0, 0, 0, 0⟩,
  ⟨"CT_D_FREQ", 0x1008, [(2, 0x100)], 4, 0, 0xffffffff, 0, 0, 0, 0, 0, 0⟩,
  ⟨"CT_D_ADJ_NS", 0x100c, [(2, 0x100)], 4, 0, 0xffffffff, 0, 0, 0, 0, 0, 0⟩,
  ⟨"CT_D_ADJ_FRAC", 0x1010, [(2, 0x100)], 4, 0, 0xffff, 0, 0, 0, 0, 0, 0⟩,
  ⟨"CT_D_ADJ_CMD", 0x1014, [(2, 0x100)], 4, 0, 0, 0, 0, 0, 0xf, 0, 0⟩,
  ⟨"CT_D_SLEW", 0x1018, [(2, 0x100)], 4, 0x3e8, 0xffff, 0, 0, 0, 0, 0, 0⟩,
  ⟨"CT_D_SLEW_REM", 0x101c, [(2, 0x100)], 4, 0, 0, 0, 0, 0, 0, 0, 0⟩,
  ⟨"CT_D_TS_SEC_HI", 0x1020, [(2, 0x100)], 4, 0, 0, 0, 0, 0, 0, 0x1020, 0x102c⟩,
  ⟨"CT_D_SET_SEC_HI", 0x1030, [(2, 0x100)], 4, 0, 0xffff, 0, 0, 0, 0, 0x1030, 0x103c⟩,
  ⟨"CT_D_TS_SEC_LO", 0x1024, [(2, 0x100)], 4, 0, 0, 0, 0, 0, 0, 0x1020, 0x102c⟩,
  ⟨"CT_D_SET_SEC_LO", 0x1034, [(2, 0x100)], 4, 0, 0xffffffff, 0, 0, 0, 0, 0x1030, 0x103c⟩,
  ⟨"CT_D_TS_NS", 0x1028, [(2, 0x100)], 4, 0, 0, 0, 0, 0, 0, 0x1020, 0x102c⟩,
  ⟨"CT_D_SET_NS", 0x1038, [(2, 0x100)], 4, 0, 0xffffffff, 0, 0, 0, 0, 0x1030, 0x103c⟩,
  ⟨"CT_D_TS_FRAC", 0x102c, [(2, 0x100)], 4, 0, 0, 0, 0, 0, 0, 0x1020, 0x102c⟩,
  ⟨"CT_D_SET_FRAC", 0x103c, [(2, 0x100)], 4, 0, 0xffff, 0, 0, 0, 0, 0x1030, 0x103c⟩,
  ⟨"CT_D_PPS_ERR", 0x1040, [(2, 0x100)], 4, 0, 0, 0, 0, 0, 0, 0, 0⟩,
  ⟨"CT_D_PI", 0x1044, [(2, 0x100)], 4, 0x40040, 0xffffffff, 0, 0, 0, 0, 0, 0⟩,
  ⟨"CT_D_STEPS", 0x1048, [(2, 0x100)], 4, 0, 0, 0, 0, 0xffffffff, 0, 0, 0⟩,
  ⟨"CT_SE_CFG", 0x2000, [], 4, 0, 0x1f, 0, 0, 0, 0, 0, 0⟩]

/-- Registers of area ct, part 3 (14_clocktower.md R428). -/
def rowsCt_2 : List RegRow := [
  ⟨"CT_SE_REFk", 0x2004, [(4, 4)], 4, 0, 0x11f, 0, 0, 0, 0, 0, 0⟩,
  ⟨"CT_SE_STATUS", 0x2014, [], 4, 0, 0, 0, 0, 0, 0, 0, 0⟩,
  ⟨"CT_PORT_CFG", 0x10000, [(33, 0x100)], 4, 0, 1, 0, 0, 0, 0, 0, 0⟩,
  ⟨"CT_PORT_TXFIX", 0x10004, [(33, 0x100)], 4, 0, 0, 0, 0, 0, 0, 0, 0⟩,
  ⟨"CT_PORT_RXFIX", 0x10008, [(33, 0x100)], 4, 0, 0, 0, 0, 0, 0, 0, 0⟩,
  ⟨"CT_PORT_TXVAR", 0x1000c, [(33, 0x100)], 4, 0, 0, 0, 0, 0, 0, 0, 0⟩,
  ⟨"CT_PORT_RXVAR", 0x10010, [(33, 0x100)], 4, 0, 0, 0, 0, 0, 0, 0, 0⟩,
  ⟨"CT_PORT_TXUSER", 0x10014, [(33, 0x100)], 4, 0, 0xffffffff, 0, 0, 0, 0, 0, 0⟩,
  ⟨"CT_PORT_RXUSER", 0x10018, [(33, 0x100)], 4, 0, 0xffffffff, 0, 0, 0, 0, 0, 0⟩,
  ⟨"CT_PORT_LINKASYM", 0x1001c, [(33, 0x100)], 4, 0, 0xffffffff, 0, 0, 0, 0, 0, 0⟩,
  ⟨"CT_TXQ_ENTRY", 0x20000, [(33, 0x40)], 4, 0, 0, 0, 0, 0x8001ffff, 0, 0x20000, 0x20010⟩,
  ⟨"CT_TXQ_SEC_HI", 0x20004, [(33, 0x40)], 4, 0, 0, 0, 0, 0, 0, 0x20000, 0x20010⟩,
  ⟨"CT_TXQ_SEC_LO", 0x20008, [(33, 0x40)], 4, 0, 0, 0, 0, 0, 0, 0x20000, 0x20010⟩,
  ⟨"CT_TXQ_NS", 0x2000c, [(33, 0x40)], 4, 0, 0, 0, 0, 0, 0, 0x20000, 0x20010⟩,
  ⟨"CT_TXQ_FRAC", 0x20010, [(33, 0x40)], 4, 0, 0, 0, 0, 0, 0, 0x20000, 0x20010⟩,
  ⟨"CT_TXQ_STATUS", 0x20014, [(33, 0x40)], 4, 0, 0, 0x100, 0, 0, 0, 0, 0⟩,
  ⟨"CT_TXQ_DROPS", 0x20018, [(33, 0x40)], 4, 0, 0, 0, 0, 0xffffffff, 0, 0, 0⟩,
  ⟨"CT_PPSIN_CFG", 0x30000, [(2, 0x40)], 4, 0x640040, 0xffff00ff, 0, 0, 0, 0, 0, 0⟩,
  ⟨"CT_PPSIN_DLY", 0x30004, [(2, 0x40)], 4, 0, 0xffffffff, 0, 0, 0, 0, 0, 0⟩,
  ⟨"CT_PPSIN_STATUS", 0x30008, [(2, 0x40)], 4, 0, 0, 0, 0, 0, 0, 0, 0⟩]

/-- Registers of area ct, part 4 (14_clocktower.md R428). -/
def rowsCt_3 : List RegRow := [
  ⟨"CT_PPSIN_SEC_LO", 0x3000c, [(2, 0x40)], 4, 0, 0, 0, 0, 0, 0, 0x3000c, 0x30010⟩,
  ⟨"CT_PPSIN_SEC_HI", 0x30010, [(2, 0x40)], 4, 0, 0, 0, 0, 0, 0, 0x3000c, 0x30010⟩,
  ⟨"CT_PPSIN_BAD", 0x30014, [(2, 0x40)], 4, 0, 0, 0, 0, 0xffffffff, 0, 0, 0⟩,
  ⟨"CT_PPSIN_TODERR", 0x30018, [(2, 0x40)], 4, 0, 0, 0, 0, 0xffffffff, 0, 0, 0⟩,
  ⟨"CT_PPSOUT_CFG", 0x30100, [], 4, 0x640040, 0xffff00f3, 0, 0, 0, 0, 0, 0⟩,
  ⟨"CT_PPSOUT_DLY", 0x30104, [], 4, 0, 0xffffffff, 0, 0, 0, 0, 0, 0⟩]

/-- All registers of area ct. -/
def rowsCt : List RegRow := rowsCt_0 ++ rowsCt_1 ++ rowsCt_2 ++ rowsCt_3

/-- Registers of area ethp, part 1 (13_fronthaul_ethernet.md R402). -/
def rowsEthp_0 : List RegRow := [
  ⟨"ETH_PORT_CFG", 0, [], 4, 0, 0xffffff, 0, 0, 0, 0, 0, 0⟩,
  ⟨"ETH_PORT_STATUS", 4, [], 4, 0, 0, 0, 0, 0, 0, 0, 0⟩,
  ⟨"ETH_PORT_CPRI", 8, [], 4, 0, 0xffff, 0, 0, 0, 0, 0, 0⟩,
  ⟨"ETH_FEC_CORR_l", 0x10, [(4, 4)], 4, 0, 0, 0, 0, 0xffffffff, 0, 0, 0⟩,
  ⟨"ETH_FEC_UNCORR_l", 0x20, [(4, 4)], 4, 0, 0, 0, 0, 0xffffffff, 0, 0, 0⟩,
  ⟨"ETH_CPRI_T14_l", 0x30, [(4, 4)], 4, 0, 0, 0, 0, 0, 0, 0, 0⟩]

/-- All registers of area ethp. -/
def rowsEthp : List RegRow := rowsEthp_0

/-- Registers of area eth, part 1 (13_fronthaul_ethernet.md R402). -/
def rowsEth_0 : List RegRow := [
  ⟨"ETH_MAC_CFG", 0x1000, [], 4, 0x24000000, 0x3fff00ff, 0, 0, 0, 0, 0, 0⟩,
  ⟨"ETH_MAC_STATUS", 0x1004, [], 4, 0, 0, 0, 0, 0, 0, 0, 0⟩,
  ⟨"ETH_TX_CFG", 0x1008, [], 4, 0x6401f4, 0xffffffff, 0, 0, 0, 0, 0, 0⟩,
  ⟨"ETH_PAUSE_CFG", 0x100c, [], 4, 0x3e80000, 0xffff0003, 0, 0, 0, 0, 0, 0⟩,
  ⟨"ETH_PAUSE_STATUS", 0x1010, [], 4, 0, 0, 0xff00, 0, 0, 0, 0, 0⟩,
  ⟨"ETH_PREEMPT_CFG", 0x1014, [], 4, 0, 0x303ff, 0, 0, 0, 0, 0, 0⟩,
  ⟨"ETH_INT_STATUS", 0x1018, [], 4, 0, 0, 0x1ff, 0, 0, 0, 0, 0⟩,
  ⟨"ETH_INT_EN", 0x101c, [], 4, 0, 0x1ff, 0, 0, 0, 0, 0, 0⟩,
  ⟨"ETH_TXQ_OWNER_t", 0x1020, [(8, 4)], 4, 0, 0x80000fff, 0, 0, 0, 0, 0, 0⟩,
  ⟨"ETH_TXQ_CMD_t", 0x1040, [(8, 4)], 4, 0, 0, 0, 0, 0, 3, 0, 0⟩,
  ⟨"ETH_TXQ_STATUS_t", 0x1060, [(8, 4)], 4, 0, 0, 0, 0, 0, 0, 0, 0⟩,
  ⟨"ETH_RX_FRAMES", 0x1100, [], 4, 0, 0, 0, 0, 0xffffffff, 0, 0, 0⟩,
  ⟨"ETH_RX_RUNTS", 0x1104, [], 4, 0, 0, 0, 0, 0xffffffff, 0, 0, 0⟩,
  ⟨"ETH_RX_FCS", 0x1108, [], 4, 0, 0, 0, 0, 0xffffffff, 0, 0, 0⟩,
  ⟨"ETH_RX_OVERSIZE", 0x110c, [], 4, 0, 0, 0, 0, 0xffffffff, 0, 0, 0⟩,
  ⟨"ETH_RX_NOMATCH", 0x1110, [], 4, 0, 0, 0, 0, 0xffffffff, 0, 0, 0⟩,
  ⟨"ETH_RX_QFULL", 0x1114, [], 4, 0, 0, 0, 0, 0xffffffff, 0, 0, 0⟩,
  ⟨"ETH_RX_PLACE_ERR", 0x1118, [], 4, 0, 0, 0, 0, 0xffffffff, 0, 0, 0⟩,
  ⟨"ETH_RX_WINDOW", 0x111c, [], 4, 0, 0, 0, 0, 0xffffffff, 0, 0, 0⟩,
  ⟨"ETH_RX_SAT", 0x1120, [], 4, 0, 0, 0, 0, 0xffffffff, 0, 0, 0⟩]

/-- Registers of area eth, part 2 (13_fronthaul_ethernet.md R403). -/
def rowsEth_1 : List RegRow := [
  ⟨"ETH_RX_FIFO_OVF", 0x1124, [], 4, 0, 0, 0, 0, 0xffffffff, 0, 0, 0⟩,
  ⟨"ETH_TX_FRAMES", 0x1128, [], 4, 0, 0, 0, 0, 0xffffffff, 0, 0, 0⟩,
  ⟨"ETH_TX_SLIP", 0x112c, [], 4, 0, 0, 0, 0, 0xffffffff, 0, 0, 0⟩,
  ⟨"ETH_TX_LATE", 0x1130, [], 4, 0, 0, 0, 0, 0xffffffff, 0, 0, 0⟩,
  ⟨"ETH_TX_BAD", 0x1134, [], 4, 0, 0, 0, 0, 0xffffffff, 0, 0, 0⟩,
  ⟨"ETH_TX_HOLD_REJ", 0x1138, [], 4, 0, 0, 0, 0, 0xffffffff, 0, 0, 0⟩,
  ⟨"ETH_TX_FALLBACK", 0x113c, [], 4, 0, 0, 0, 0, 0xffffffff, 0, 0, 0⟩,
  ⟨"ETH_TX_FORCED", 0x1140, [], 4, 0, 0, 0, 0, 0xffffffff, 0, 0, 0⟩,
  ⟨"ETH_TX_GATE", 0x1144, [], 4, 0, 0, 0, 0, 0xffffffff, 0, 0, 0⟩,
  ⟨"ETH_TX_SAT", 0x1148, [], 4, 0, 0, 0, 0, 0xffffffff, 0, 0, 0⟩,
  ⟨"ETH_PAUSE_WD_CNT", 0x114c, [], 4, 0, 0, 0, 0, 0xffffffff, 0, 0, 0⟩,
  ⟨"ETH_FB_NOCELL", 0x1150, [], 4, 0, 0, 0, 0, 0xffffffff, 0, 0, 0⟩,
  ⟨"ETH_NOTIFY_FAIL", 0x1154, [], 4, 0, 0, 0, 0, 0xffffffff, 0, 0, 0⟩,
  ⟨"ETH_MSEC_DROP", 0x1158, [], 4, 0, 0, 0, 0, 0xffffffff, 0, 0, 0⟩,
  ⟨"ETH_TX_ENVFAIL", 0x115c, [], 4, 0, 0, 0, 0, 0xffffffff, 0, 0, 0⟩,
  ⟨"ETH_QBV_CTRL", 0x1200, [], 4, 0, 0x7fd, 0, 2, 0, 0, 0, 0⟩,
  ⟨"ETH_QBV_BASE_SEC_HI", 0x1204, [], 4, 0, 0xffff, 0, 0, 0, 0, 0x1204, 0x120c⟩,
  ⟨"ETH_QBV_BASE_SEC_LO", 0x1208, [], 4, 0, 0xffffffff, 0, 0, 0, 0, 0x1204, 0x120c⟩,
  ⟨"ETH_QBV_BASE_NS", 0x120c, [], 4, 0, 0xffffffff, 0, 0, 0, 0, 0x1204, 0x120c⟩,
  ⟨"ETH_QBV_CYCLE_NS", 0x1210, [], 4, 0, 0x3fffffff, 0, 0, 0, 0, 0, 0⟩]

/-- Registers of area eth, part 3 (13_fronthaul_ethernet.md R402). -/
def rowsEth_2 : List RegRow := [
  ⟨"ETH_QBV_STATUS", 0x1214, [], 4, 0, 0, 0, 0, 0, 0, 0, 0⟩,
  ⟨"ETH_RULE_r", 0x2000, [(512, 0x10), (4, 4)], 4, 0, 0xffffffff, 0, 0, 0, 0, 0, 0⟩,
  ⟨"ETH_Q_CFG", 0x4000, [(64, 0x40)], 4, 0, 0x7fff37b, 0, 0, 0, 0, 0, 0⟩,
  ⟨"ETH_Q_BASE_LO", 0x4004, [(64, 0x40)], 4, 0, 0xffffffff, 0, 0, 0, 0, 0x4004, 0x4008⟩,
  ⟨"ETH_Q_BASE_HI", 0x4008, [(64, 0x40)], 4, 0, 0xfff, 0, 0, 0, 0, 0x4004, 0x4008⟩,
  ⟨"ETH_Q_GEOM", 0x400c, [(64, 0x40)], 4, 0, 0xffffffff, 0, 0, 0, 0, 0, 0⟩,
  ⟨"ETH_Q_STREAM_STRIDE", 0x4010, [(64, 0x40)], 4, 0, 0xffffffff, 0, 0, 0, 0, 0, 0⟩,
  ⟨"ETH_Q_SYM_STRIDE", 0x4014, [(64, 0x40)], 4, 0, 0xffffffff, 0, 0, 0, 0, 0, 0⟩,
  ⟨"ETH_Q_PCID", 0x4018, [(64, 0x40)], 4, 0, 0x7fffff, 0, 0, 0, 0, 0, 0⟩,
  ⟨"ETH_Q_NOTIFY", 0x401c, [(64, 0x40)], 4, 0, 0xffffff, 0, 0, 0, 0, 0, 0⟩,
  ⟨"ETH_Q_HEAD", 0x4020, [(64, 0x40)], 4, 0, 0, 0, 0, 0, 0, 0, 0⟩,
  ⟨"ETH_Q_TAIL", 0x4024, [(64, 0x40)], 4, 0, 0xffffffff, 0, 0, 0, 0, 0, 0⟩,
  ⟨"ETH_Q_DROPS", 0x4028, [(64, 0x40)], 4, 0, 0, 0, 0, 0xffffffff, 0, 0, 0⟩,
  ⟨"ETH_Q_FRAMES", 0x402c, [(64, 0x40)], 4, 0, 0, 0, 0, 0xffffffff, 0, 0, 0⟩,
  ⟨"ETH_Q_PAUSE", 0x4030, [(64, 0x40)], 4, 0, 0xffffffff, 0, 0, 0, 0, 0, 0⟩,
  ⟨"ETH_CELL_CFG", 0x6000, [(64, 0x40)], 4, 0, 0x7fffff, 0, 0, 0, 0, 0, 0⟩,
  ⟨"ETH_CELL_ID", 0x6004, [(64, 0x40)], 4, 0, 0x7ff, 0, 0, 0, 0, 0, 0⟩,
  ⟨"ETH_CELL_COMP", 0x6008, [(64, 0x40)], 4, 0, 0xff, 0, 0, 0, 0, 0, 0⟩,
  ⟨"ETH_CELL_FB", 0x600c, [(64, 0x40)], 4, 0, 0, 0, 0, 0xffffffff, 0, 0, 0⟩,
  ⟨"ETH_GCL_ADMIN_i", 0x8000, [(256, 4)], 4, 0, 0xffffffff, 0, 0, 0, 0, 0, 0⟩]

/-- Registers of area eth, part 4 (13_fronthaul_ethernet.md R402). -/
def rowsEth_3 : List RegRow := [
  ⟨"ETH_GCL_OPER_i", 0x8400, [(256, 4)], 4, 0, 0, 0, 0, 0, 0, 0, 0⟩,
  ⟨"ETH_MSEC_CFG", 0xa000, [], 4, 0, 0x3f, 0, 0, 0, 0, 0, 0⟩,
  ⟨"ETH_MSEC_REPLAY", 0xa004, [], 4, 0, 0x3fffffff, 0, 0, 0, 0, 0, 0⟩,
  ⟨"ETH_MSEC_TXMAP", 0xa008, [], 4, 0, 0xffffffff, 0, 0, 0, 0, 0, 0⟩,
  ⟨"ETH_MSEC_PN_THR", 0xa010, [], 8, 0xc000000000000000, 0xffffffffffffffff, 0, 0, 0, 0, 0, 0⟩,
  ⟨"ETH_MSEC_TXSC_s", 0xa100, [(8, 0x10)], 8, 0, 0xffffffffffffffff, 0, 0, 0, 0, 0, 0⟩,
  ⟨"ETH_MSEC_RXSC_s", 0xa200, [(32, 0x10)], 8, 0, 0xffffffffffffffff, 0, 0, 0, 0, 0, 0⟩,
  ⟨"ETH_MSEC_RXSC_EN_s", 0xa208, [(32, 0x10)], 4, 0, 1, 0, 0, 0, 0, 0, 0⟩,
  ⟨"ETH_RXSA_CFG", 0xa800, [(128, 0x20)], 4, 0, 1, 0, 0, 0, 0, 0, 0⟩,
  ⟨"ETH_RXSA_SSCI", 0xa804, [(128, 0x20)], 4, 0, 0xffffffff, 0, 0, 0, 0, 0, 0⟩,
  ⟨"ETH_RXSA_PN_LO", 0xa808, [(128, 0x20)], 4, 1, 0xffffffff, 0, 0, 0, 0, 0xa808, 0xa80c⟩,
  ⟨"ETH_RXSA_PN_HI", 0xa80c, [(128, 0x20)], 4, 0, 0xffffffff, 0, 0, 0, 0, 0xa808, 0xa80c⟩,
  ⟨"ETH_RXSA_FRAMES", 0xa810, [(128, 0x20)], 4, 0, 0, 0, 0, 0xffffffff, 0, 0, 0⟩,
  ⟨"ETH_TXSA_CFG", 0xb800, [(32, 0x20)], 4, 0, 1, 0, 0, 0, 0, 0, 0⟩,
  ⟨"ETH_TXSA_SSCI", 0xb804, [(32, 0x20)], 4, 0, 0xffffffff, 0, 0, 0, 0, 0, 0⟩,
  ⟨"ETH_TXSA_PN_LO", 0xb808, [(32, 0x20)], 4, 1, 0xffffffff, 0, 0, 0, 0, 0xb808, 0xb80c⟩,
  ⟨"ETH_TXSA_PN_HI", 0xb80c, [(32, 0x20)], 4, 0, 0xffffffff, 0, 0, 0, 0, 0xb808, 0xb80c⟩,
  ⟨"ETH_TXSA_FRAMES", 0xb810, [(32, 0x20)], 4, 0, 0, 0, 0, 0xffffffff, 0, 0, 0⟩]

/-- All registers of area eth. -/
def rowsEth : List RegRow := rowsEth_0 ++ rowsEth_1 ++ rowsEth_2 ++ rowsEth_3

/-- Registers of area pl, part 1 (15_phinerlink.md R463). -/
def rowsPl_0 : List RegRow := [
  ⟨"PL_CFG", 0, [], 4, 0, 1, 0, 2, 0, 0, 0, 0⟩,
  ⟨"PL_UNIT_ID", 4, [], 4, 0, 0x800fffff, 0, 0, 0, 0, 0, 0⟩,
  ⟨"PL_STATUS", 8, [], 4, 0, 0, 0, 0, 0, 0, 0, 0⟩,
  ⟨"PL_INT_STATUS", 0xc, [], 4, 0, 0, 0x3ff, 0, 0, 0, 0, 0⟩,
  ⟨"PL_INT_EN", 0x10, [], 4, 0, 0x3ff, 0, 0, 0, 0, 0, 0⟩,
  ⟨"PL_RSP_TMO", 0x14, [], 4, 0x1f4, 0xfffff, 0, 0, 0, 0, 0, 0⟩,
  ⟨"PL_BAR_TMO", 0x18, [], 4, 0x3e8, 0xfffff, 0, 0, 0, 0, 0, 0⟩,
  ⟨"PL_TIME_CFG", 0x1c, [], 4, 0xa000000, 0xfffff77, 0, 0, 0, 0, 0, 0⟩,
  ⟨"PL_RT_CTRL", 0x20, [], 4, 0, 8, 0, 7, 0, 0, 0, 0⟩,
  ⟨"PL_RT_STATUS", 0x24, [], 4, 0, 0, 0, 0, 0, 0, 0, 0⟩,
  ⟨"PL_FENCE_CMD", 0x28, [], 4, 0, 0, 0, 0, 0, 0x3fffff, 0, 0⟩,
  ⟨"PL_FENCE_SEL", 0x2c, [], 4, 0, 0xff, 0, 0, 0, 0, 0, 0⟩,
  ⟨"PL_FENCE_ENTRY", 0x30, [], 4, 0, 0, 0, 0, 0, 0, 0, 0⟩,
  ⟨"PL_FENCE_ABS", 0x34, [], 4, 0, 0, 0, 0, 0xffffffff, 0, 0, 0⟩,
  ⟨"PL_FENCE_DISC", 0x38, [], 4, 0, 0, 0, 0, 0xffffffff, 0, 0, 0⟩,
  ⟨"PL_STALE", 0x3c, [], 4, 0, 0, 0, 0, 0xffffffff, 0, 0, 0⟩,
  ⟨"PL_TMO", 0x40, [], 4, 0, 0, 0, 0, 0xffffffff, 0, 0, 0⟩,
  ⟨"PL_EPOCH_ABS", 0x44, [], 4, 0, 0, 0, 0, 0xffffffff, 0, 0, 0⟩,
  ⟨"PL_DOWN_ABS", 0x48, [], 4, 0, 0, 0, 0, 0xffffffff, 0, 0, 0⟩,
  ⟨"PL_HOPS_ABS", 0x4c, [], 4, 0, 0, 0, 0, 0xffffffff, 0, 0, 0⟩]

/-- Registers of area pl, part 2 (15_phinerlink.md R463). -/
def rowsPl_1 : List RegRow := [
  ⟨"PL_NOROUTE", 0x50, [], 4, 0, 0, 0, 0, 0xffffffff, 0, 0, 0⟩,
  ⟨"PL_DRAIN", 0x54, [], 4, 0, 0, 0, 0, 0, 0, 0, 0⟩,
  ⟨"PL_WIN_w", 0x100, [(64, 4)], 4, 0, 0x87ffffff, 0, 0, 0, 0, 0, 0⟩,
  ⟨"PL_RT_WORD", 0x10000, [(2, 0x200), (96, 4)], 4, 0xf0f0f0f, 0xffffffff, 0, 0, 0, 0, 0, 0⟩,
  ⟨"PL_P_CFG", 0x20000, [(8, 0x1000)], 4, 0, 0x3f, 0, 0, 0, 0, 0, 0⟩,
  ⟨"PL_P_STATUS", 0x20004, [(8, 0x1000)], 4, 0, 0, 0, 0, 0, 0, 0, 0⟩,
  ⟨"PL_P_PM", 0x20008, [(8, 0x1000)], 4, 0x3e80fa0, 0xffffffff, 0, 0, 0, 0, 0, 0⟩,
  ⟨"PL_P_CMD", 0x2000c, [(8, 0x1000)], 4, 0, 0, 0, 0, 0, 0x7f, 0, 0⟩,
  ⟨"PL_P_AUTH", 0x20010, [(8, 0x1000)], 4, 0, 0, 0, 1, 0, 0, 0, 0⟩,
  ⟨"PL_P_PEER", 0x20014, [(8, 0x1000)], 4, 0, 0, 0, 0, 0, 0, 0, 0⟩,
  ⟨"PL_P_MRX_BASE_LO", 0x20018, [(8, 0x1000)], 4, 0, 0xffffffff, 0, 0, 0, 0, 0x20018, 0x2001c⟩,
  ⟨"PL_P_MRX_BASE_HI", 0x2001c, [(8, 0x1000)], 4, 0, 0xfff, 0, 0, 0, 0, 0x20018, 0x2001c⟩,
  ⟨"PL_P_MRX_GEOM", 0x20020, [(8, 0x1000)], 4, 0, 0x7ff, 0, 0, 0, 0, 0, 0⟩,
  ⟨"PL_P_MRX_HEAD", 0x20024, [(8, 0x1000)], 4, 0, 0, 0, 0, 0, 0, 0, 0⟩,
  ⟨"PL_P_MRX_TAIL", 0x20028, [(8, 0x1000)], 4, 0, 0xffffffff, 0, 0, 0, 0, 0, 0⟩,
  ⟨"PL_P_MTX_ADDR", 0x20030, [(8, 0x1000)], 8, 0, 0xfffffffffff, 0, 0, 0, 0, 0, 0⟩,
  ⟨"PL_P_MTX_SEND", 0x20038, [(8, 0x1000)], 4, 0, 0, 0, 0, 0, 0x1fff, 0, 0⟩,
  ⟨"PL_P_TX_PKTS", 0x20040, [(8, 0x1000)], 4, 0, 0, 0, 0, 0xffffffff, 0, 0, 0⟩,
  ⟨"PL_P_RX_PKTS", 0x20044, [(8, 0x1000)], 4, 0, 0, 0, 0, 0xffffffff, 0, 0, 0⟩,
  ⟨"PL_P_CRC_ERR", 0x20048, [(8, 0x1000)], 4, 0, 0, 0, 0, 0xffffffff, 0, 0, 0⟩]

/-- Registers of area pl, part 3 (15_phinerlink.md R464). -/
def rowsPl_2 : List RegRow := [
  ⟨"PL_P_REPLAYS", 0x2004c, [(8, 0x1000)], 4, 0, 0, 0, 0, 0xffffffff, 0, 0, 0⟩,
  ⟨"PL_P_NULLIFIED", 0x20050, [(8, 0x1000)], 4, 0, 0, 0, 0, 0xffffffff, 0, 0, 0⟩,
  ⟨"PL_P_RETRAINS", 0x20054, [(8, 0x1000)], 4, 0, 0, 0, 0, 0xffffffff, 0, 0, 0⟩,
  ⟨"PL_P_TMK_BAD", 0x20058, [(8, 0x1000)], 4, 0, 0, 0, 0, 0xffffffff, 0, 0, 0⟩,
  ⟨"PL_P_MRX_DROP", 0x2005c, [(8, 0x1000)], 4, 0, 0, 0, 0, 0xffffffff, 0, 0, 0⟩,
  ⟨"PL_P_NOTADM", 0x20060, [(8, 0x1000)], 4, 0, 0, 0, 0, 0xffffffff, 0, 0, 0⟩,
  ⟨"PL_P_LAT_OUT_l", 0x20080, [(8, 0x1000), (8, 4)], 4, 0, 0, 0, 0, 0, 0, 0, 0⟩,
  ⟨"PL_P_LAT_IN_l", 0x200a0, [(8, 0x1000), (8, 4)], 4, 0, 0, 0, 0, 0, 0, 0, 0⟩,
  ⟨"PL_P_SKPADJ_l", 0x200c0, [(8, 0x1000), (8, 4)], 4, 0, 0, 0, 0, 0xffffffff, 0, 0, 0⟩]

/-- All registers of area pl. -/
def rowsPl : List RegRow := rowsPl_0 ++ rowsPl_1 ++ rowsPl_2

/-- Registers of area tk, part 1 (17_loft_tack.md R521). -/
def rowsTk_0 : List RegRow := [
  ⟨"TK_STATUS", 0, [], 4, 0, 0, 0, 0, 0, 0, 0, 0⟩,
  ⟨"TK_CMD_ADDR_LO", 4, [], 4, 0, 0xffffffff, 0, 0, 0, 0, 4, 8⟩,
  ⟨"TK_CMD_ADDR_HI", 8, [], 4, 0, 0xfff, 0, 0, 0, 0, 4, 8⟩,
  ⟨"TK_CMD_GO", 0xc, [], 4, 0, 0, 0, 0, 0, 1, 0, 0⟩,
  ⟨"TK_INT_STATUS", 0x10, [], 4, 0, 0, 7, 0, 0, 0, 0, 0⟩,
  ⟨"TK_INT_EN", 0x14, [], 4, 0, 7, 0, 0, 0, 0, 0, 0⟩,
  ⟨"TK_LOCK", 0x18, [], 4, 0, 0, 0, 1, 0, 0, 0, 0⟩,
  ⟨"TK_BOOT_STATUS", 0x1c, [], 4, 0, 0, 0, 0, 0, 0, 0, 0⟩,
  ⟨"TK_OTP_RECi", 0x20, [(8, 4)], 4, 0, 0, 0, 0, 0, 0, 0, 0⟩,
  ⟨"TK_MR_i", 0x100, [(16, 0x40), (16, 4)], 4, 0, 0, 0, 0, 0, 0, 0, 0⟩,
  ⟨"TK_CTR_c", 0x600, [(64, 4)], 4, 0, 0, 0, 0, 0, 0, 0, 0⟩]

/-- All registers of area tk. -/
def rowsTk : List RegRow := rowsTk_0

/-- Registers of area shd, part 1 (18_sheds_power.md R546). -/
def rowsShd_0 : List RegRow := [
  ⟨"SHD_STANDBY", 0, [], 4, 0, 0, 0, 0, 0, 1, 0, 0⟩,
  ⟨"SHD_INT_STATUS", 4, [], 4, 0, 0, 0x3f, 0, 0, 0, 0, 0⟩,
  ⟨"SHD_INT_EN", 8, [], 4, 0, 0x3f, 0, 0, 0, 0, 0, 0⟩,
  ⟨"SHD_BO_WARN", 0xc, [], 4, 8, 0x7f, 0, 0, 0, 0, 0, 0⟩,
  ⟨"SHD_BO_RESET", 0x10, [], 4, 5, 0x7f, 0, 0, 0, 0, 0, 0⟩,
  ⟨"SHD_RST_CAUSE", 0x14, [], 4, 0, 0, 0xf, 0, 0, 0, 0, 0⟩,
  ⟨"SHD_SYSRST", 0x18, [], 4, 0, 0, 0, 0, 0, 0xffffffff, 0, 0⟩,
  ⟨"SHD_VIN", 0x20, [], 4, 0, 0, 0, 0, 0, 0, 0, 0⟩,
  ⟨"SHD_DERATE", 0x24, [], 4, 0, 0, 0, 0, 0, 0, 0, 0⟩,
  ⟨"SHD_DERATE_RAISES", 0x28, [], 4, 0, 0, 0, 0, 0xffffffff, 0, 0, 0⟩,
  ⟨"SHD_WAKE_CFG", 0x2c, [], 4, 0, 7, 0, 0, 0, 0, 0, 0⟩,
  ⟨"SHD_WAKE_REFUSED", 0x30, [], 4, 0, 0, 0, 0, 0xffffffff, 0, 0, 0⟩,
  ⟨"SHD_CTRL_s", 0x100, [(63, 4)], 4, 0, 3, 0, 0, 0, 0, 0, 0⟩,
  ⟨"SHD_STATUS_s", 0x200, [(63, 4)], 4, 0, 0, 0, 0, 0, 0, 0, 0⟩]

/-- All registers of area shd. -/
def rowsShd : List RegRow := rowsShd_0

/-- Registers of area cal, part 1 (18_sheds_power.md R547). -/
def rowsCal_0 : List RegRow := [
  ⟨"CAL_TIME", 0, [], 4, 0, 0xffffffff, 0, 0, 0, 0, 0, 4⟩,
  ⟨"CAL_DATE", 4, [], 4, 0, 0x1ffff, 0, 0, 0, 0, 0, 4⟩,
  ⟨"CAL_TRIM", 8, [], 4, 0, 0x3ff, 0, 0, 0, 0, 0, 0⟩,
  ⟨"CAL_OFS_SEC", 0xc, [], 4, 0, 0xffffffff, 0, 0, 0, 0, 0xc, 0x10⟩,
  ⟨"CAL_OFS_NS", 0x10, [], 4, 0, 0x3fffffff, 0, 0, 0, 0, 0xc, 0x10⟩,
  ⟨"CAL_ALM_TIME", 0x14, [], 4, 0, 0x1ffff, 0, 0, 0, 0, 0x14, 0x18⟩,
  ⟨"CAL_ALM_DATE", 0x18, [], 4, 0, 0x1ffff, 0, 0, 0, 0, 0x14, 0x18⟩,
  ⟨"CAL_CTRL", 0x1c, [], 4, 0, 3, 0, 0, 0, 0, 0, 0⟩,
  ⟨"CAL_STATUS", 0x20, [], 4, 0, 0, 0x13, 0, 0, 0, 0, 0⟩]

/-- All registers of area cal. -/
def rowsCal : List RegRow := rowsCal_0

/-- Registers of area hlt, part 1 (16_halter.md R488). -/
def rowsHlt_0 : List RegRow := [
  ⟨"HLT_CTRL", 0, [], 4, 0, 1, 0, 0, 0, 0, 0, 0⟩,
  ⟨"HLT_STATUS", 4, [], 4, 0, 0, 0, 0, 0, 0, 0, 0⟩,
  ⟨"HLT_INT_STATUS", 8, [], 4, 0, 0, 7, 0, 0, 0, 0, 0⟩,
  ⟨"HLT_INT_EN", 0xc, [], 4, 0, 7, 0, 0, 0, 0, 0, 0⟩,
  ⟨"HLT_UDP_PORT", 0x10, [], 4, 0, 0xffff, 0, 0, 0, 0, 0, 0⟩,
  ⟨"HLT_POOL_BASE_LO", 0x14, [], 4, 0, 0xffffffff, 0, 0, 0, 0, 0x14, 0x18⟩,
  ⟨"HLT_POOL_BASE_HI", 0x18, [], 4, 0, 0xfff, 0, 0, 0, 0, 0x14, 0x18⟩,
  ⟨"HLT_POOL_SIZE", 0x1c, [], 4, 0x1000000, 0x1ffffff, 0, 0, 0, 0, 0, 0⟩,
  ⟨"HLT_REQ_BASE_LO", 0x20, [], 4, 0, 0xffffffff, 0, 0, 0, 0, 0x20, 0x24⟩,
  ⟨"HLT_REQ_BASE_HI", 0x24, [], 4, 0, 0xfff, 0, 0, 0, 0, 0x20, 0x24⟩,
  ⟨"HLT_REQ_ENTRIES", 0x28, [], 4, 0, 0x7ff, 0, 0, 0, 0, 0, 0⟩,
  ⟨"HLT_RSP_BASE_LO", 0x34, [], 4, 0, 0xffffffff, 0, 0, 0, 0, 0x34, 0x38⟩,
  ⟨"HLT_RSP_BASE_HI", 0x38, [], 4, 0, 0xfff, 0, 0, 0, 0, 0x34, 0x38⟩,
  ⟨"HLT_RSP_ENTRIES", 0x3c, [], 4, 0, 0x7ff, 0, 0, 0, 0, 0, 0⟩,
  ⟨"HLT_REQ_HEAD", 0x2c, [], 4, 0, 0xffffffff, 0, 0, 0, 0, 0, 0⟩,
  ⟨"HLT_REQ_TAIL", 0x30, [], 4, 0, 0, 0, 0, 0, 0, 0, 0⟩,
  ⟨"HLT_RSP_HEAD", 0x40, [], 4, 0, 0, 0, 0, 0, 0, 0, 0⟩,
  ⟨"HLT_RSP_TAIL", 0x44, [], 4, 0, 0xffffffff, 0, 0, 0, 0, 0, 0⟩,
  ⟨"HLT_ETH_BIND_k", 0x50, [(8, 4)], 4, 0, 0x80003fff, 0, 0, 0, 0, 0, 0⟩,
  ⟨"HLT_UCL_j_w", 0x100, [(8, 0x20), (8, 4)], 4, 0, 0xffffffff, 0, 0, 0, 0, 0, 0⟩]

/-- Registers of area hlt, part 2 (16_halter.md R488). -/
def rowsHlt_1 : List RegRow := [
  ⟨"HLT_RX_PKTS", 0x200, [], 4, 0, 0, 0, 0, 0xffffffff, 0, 0, 0⟩,
  ⟨"HLT_RX_DISCARD", 0x204, [], 4, 0, 0, 0, 0, 0xffffffff, 0, 0, 0⟩,
  ⟨"HLT_RX_FOREIGN", 0x208, [], 4, 0, 0, 0, 0, 0xffffffff, 0, 0, 0⟩,
  ⟨"HLT_TX_PKTS", 0x20c, [], 4, 0, 0, 0, 0, 0xffffffff, 0, 0, 0⟩,
  ⟨"HLT_TX_FAIL", 0x210, [], 4, 0, 0, 0, 0, 0xffffffff, 0, 0, 0⟩,
  ⟨"HLT_BUSY", 0x214, [], 4, 0, 0, 0, 0, 0xffffffff, 0, 0, 0⟩,
  ⟨"HLT_LATE", 0x218, [], 4, 0, 0, 0, 0, 0xffffffff, 0, 0, 0⟩,
  ⟨"HLT_NOT_HOLDER", 0x21c, [], 4, 0, 0, 0, 0, 0xffffffff, 0, 0, 0⟩,
  ⟨"HLT_DUP", 0x220, [], 4, 0, 0, 0, 0, 0xffffffff, 0, 0, 0⟩,
  ⟨"HLT_TLV_IGNORED", 0x224, [], 4, 0, 0, 0, 0, 0xffffffff, 0, 0, 0⟩,
  ⟨"HLT_FRAG_DROP", 0x228, [], 4, 0, 0, 0, 0, 0xffffffff, 0, 0, 0⟩,
  ⟨"HLT_OVERRUN_RPT", 0x22c, [], 4, 0, 0, 0, 0, 0xffffffff, 0, 0, 0⟩,
  ⟨"HLT_TB_MISSING", 0x230, [], 4, 0, 0, 0, 0, 0xffffffff, 0, 0, 0⟩,
  ⟨"HLT_ABORTED_RD", 0x234, [], 4, 0, 0, 0, 0, 0xffffffff, 0, 0, 0⟩]

/-- All registers of area hlt. -/
def rowsHlt : List RegRow := rowsHlt_0 ++ rowsHlt_1

/-- Registers of area yrd, part 1 (10_yard_network.md R319). -/
def rowsYrd_0 : List RegRow := [
  ⟨"YRD_RSP_TMO", 0, [], 4, 0x3e8, 0xfffff, 0, 0, 0, 0, 0, 0⟩,
  ⟨"YRD_WAKE_TMO", 4, [], 4, 0x32, 0x3fff, 0, 0, 0, 0, 0, 0⟩,
  ⟨"YRD_BAR_TMO", 8, [], 4, 0x64, 0x3fff, 0, 0, 0, 0, 0, 0⟩,
  ⟨"YRD_INT_STATUS", 0xc, [], 4, 0, 0, 0x7f, 0, 0, 0, 0, 0⟩,
  ⟨"YRD_INT_EN", 0x10, [], 4, 0, 0x7f, 0, 0, 0, 0, 0, 0⟩,
  ⟨"YRD_RT_CTRL", 0x20, [], 4, 0, 2, 0, 1, 0, 0, 0, 0⟩,
  ⟨"YRD_RT_STATUS", 0x24, [], 4, 0, 0, 0, 0, 0, 0, 0, 0⟩,
  ⟨"YRD_EP_CMD", 0x30, [], 4, 0, 0, 0, 0, 0, 0x3fff, 0, 0⟩,
  ⟨"YRD_EP_SEL", 0x34, [], 4, 0, 0xfff, 0, 0, 0, 0, 0, 0⟩,
  ⟨"YRD_EP_STATUS", 0x38, [], 4, 0, 0, 0, 0, 0, 0, 0, 0⟩,
  ⟨"YRD_EP_ABSORBED", 0x3c, [], 4, 0, 0, 0, 0, 0xffffffff, 0, 0, 0⟩,
  ⟨"YRD_EP_DISCARD", 0x40, [], 4, 0, 0, 0, 0, 0xffffffff, 0, 0, 0⟩,
  ⟨"YRD_LAST_FENCE", 0x44, [], 4, 0, 0, 0, 0, 0, 0, 0, 0⟩,
  ⟨"YRD_TMO", 0x48, [], 4, 0, 0, 0, 0, 0xffffffff, 0, 0, 0⟩,
  ⟨"YRD_STALE", 0x4c, [], 4, 0, 0, 0, 0, 0xffffffff, 0, 0, 0⟩,
  ⟨"YRD_WAKE_FAIL", 0x50, [], 4, 0, 0, 0, 0, 0xffffffff, 0, 0, 0⟩,
  ⟨"YRD_EPOCH_ABS", 0x54, [], 4, 0, 0, 0, 0, 0xffffffff, 0, 0, 0⟩,
  ⟨"YRD_DOWN_ABS", 0x58, [], 4, 0, 0, 0, 0, 0xffffffff, 0, 0, 0⟩,
  ⟨"YRD_FENCE_MAPr", 0x100, [(96, 4)], 4, 0, 0, 0, 0, 0, 0, 0, 0⟩,
  ⟨"YRD_RTR_INFO", 0x10000, [(96, 0x20)], 4, 0, 0, 0, 0, 0, 0, 0, 0⟩]

/-- Registers of area yrd, part 2 (10_yard_network.md R319). -/
def rowsYrd_1 : List RegRow := [
  ⟨"YRD_RTR_LINK", 0x10004, [(96, 0x20)], 4, 0, 0, 0xf0, 0, 0, 0, 0, 0⟩,
  ⟨"YRD_RTR_DRAIN", 0x10008, [(96, 0x20)], 4, 0, 0, 0, 0, 0, 0, 0, 0⟩,
  ⟨"YRD_RTR_FLITS", 0x1000c, [(96, 0x20)], 4, 0, 0, 0, 0, 0xffffffff, 0, 0, 0⟩,
  ⟨"YRD_RTR_EXPFLITS", 0x10010, [(96, 0x20)], 4, 0, 0, 0, 0, 0xffffffff, 0, 0, 0⟩,
  ⟨"YRD_RTR_BLOCKCYC", 0x10014, [(96, 0x20)], 4, 0, 0, 0, 0, 0xffffffff, 0, 0, 0⟩,
  ⟨"YRD_RTR_RETRY", 0x10018, [(96, 0x20)], 4, 0, 0, 0, 0, 0xffffffff, 0, 0, 0⟩,
  ⟨"YRD_RT_WORD", 0x20000, [(96, 0x100), (2, 0x80), (32, 4)], 4, 0, 0x7070707, 0, 0, 0, 0, 0, 0⟩,
  ⟨"YRD_EP_INFO", 0x40000, [(4096, 4)], 4, 0, 0, 0, 0, 0, 0, 0, 0⟩]

/-- All registers of area yrd. -/
def rowsYrd : List RegRow := rowsYrd_0 ++ rowsYrd_1

/-- Registers of area ecc, part 1 (11_memories_ecc.md R342). -/
def rowsEcc_0 : List RegRow := [
  ⟨"ECC_INT_MAPk", 0, [(11, 4)], 4, 0, 0, 0, 0, 0, 0, 0, 0⟩,
  ⟨"ECC_CTRL", 0x10000, [(327, 0x400)], 4, 2, 0xf, 0, 0, 0, 0, 0, 0⟩,
  ⟨"ECC_STATUS", 0x10004, [(327, 0x400)], 4, 0, 0, 0x1f, 0, 0, 0, 0, 0⟩,
  ⟨"ECC_CE_COUNT", 0x10008, [(327, 0x400)], 4, 0, 0, 0, 0, 0xffffffff, 0, 0, 0⟩,
  ⟨"ECC_UE_COUNT", 0x1000c, [(327, 0x400)], 4, 0, 0, 0, 0, 0xffffffff, 0, 0, 0⟩,
  ⟨"ECC_POISON_READS", 0x10010, [(327, 0x400)], 4, 0, 0, 0, 0, 0xffffffff, 0, 0, 0⟩,
  ⟨"ECC_LEDGER_OVF", 0x10014, [(327, 0x400)], 4, 0, 0, 0, 0, 0xffffffff, 0, 0, 0⟩,
  ⟨"ECC_UE_ADDR_LO", 0x10018, [(327, 0x400)], 4, 0, 0, 0, 0, 0, 0, 0, 0⟩,
  ⟨"ECC_UE_ADDR_HI", 0x1001c, [(327, 0x400)], 4, 0, 0, 0, 0, 0, 0, 0, 0⟩,
  ⟨"ECC_UE_INFO", 0x10020, [(327, 0x400)], 4, 0, 0, 0, 0, 0, 0, 0, 0⟩,
  ⟨"ECC_SCRUB_CFG", 0x10024, [(327, 0x400)], 4, 0x15180, 0xfffff, 0, 0, 0, 0, 0, 0⟩,
  ⟨"ECC_SCRUB_POS", 0x10028, [(327, 0x400)], 4, 0, 0, 0, 0, 0, 0, 0, 0⟩,
  ⟨"ECC_SCRUB_PASSES", 0x1002c, [(327, 0x400)], 4, 0, 0, 0, 0, 0xffffffff, 0, 0, 0⟩,
  ⟨"ECC_INJ_CTRL", 0x10030, [(327, 0x400)], 4, 0, 0xffffff02, 0, 1, 0, 0, 0, 0⟩,
  ⟨"ECC_INJ_ADDR_LO", 0x10034, [(327, 0x400)], 4, 0, 0xffffffff, 0, 0, 0, 0, 0, 0⟩,
  ⟨"ECC_INJ_ADDR_HI", 0x10038, [(327, 0x400)], 4, 0, 0xfff, 0, 0, 0, 0, 0, 0⟩,
  ⟨"ECC_CE_THRESH", 0x1003c, [(327, 0x400)], 4, 0, 0xffffffff, 0, 0, 0, 0, 0, 0⟩,
  ⟨"ECC_WR_UE", 0x10040, [(327, 0x400)], 4, 0, 0, 0, 0, 0xffffffff, 0, 0, 0⟩,
  ⟨"ECC_LG_ADDR_LO", 0x10100, [(327, 0x400), (16, 0x10)], 4, 0, 0, 0, 0, 0, 0, 0x10100, 0x10108⟩,
  ⟨"ECC_LG_ADDR_HI", 0x10104, [(327, 0x400), (16, 0x10)], 4, 0, 0, 0, 0, 0, 0, 0x10100, 0x10108⟩]

/-- Registers of area ecc, part 2 (11_memories_ecc.md R342). -/
def rowsEcc_1 : List RegRow := [
  ⟨"ECC_LG_INFO", 0x10108, [(327, 0x400), (16, 0x10)], 4, 0, 0, 0x80000000, 0, 0, 0, 0x10100, 0x10108⟩]

/-- All registers of area ecc. -/
def rowsEcc : List RegRow := rowsEcc_0 ++ rowsEcc_1

/-- Registers of area lft, part 1 (17_loft_tack.md R522). -/
def rowsLft_0 : List RegRow := [
  ⟨"LFT_DDR_CFG", 0, [], 4, 0, 7, 0, 0x100, 0, 0, 0, 0⟩,
  ⟨"LFT_CORE_RESET", 4, [], 4, 0xfffe, 0xffff, 0, 0, 0, 0, 0, 0⟩,
  ⟨"LFT_RAS_INFO", 8, [], 4, 0, 0, 1, 0, 0, 0, 0, 0⟩,
  ⟨"LFT_RAS_ADDR_LO", 0xc, [], 4, 0, 0, 0, 0, 0, 0, 0xc, 0x10⟩,
  ⟨"LFT_RAS_ADDR_HI", 0x10, [], 4, 0, 0, 0, 0, 0, 0, 0xc, 0x10⟩,
  ⟨"LFT_MSI_DROPS", 0x14, [], 4, 0, 0, 0, 0, 0xffffffff, 0, 0, 0⟩,
  ⟨"LFT_MSI_PEND_k", 0x20, [(8, 4)], 4, 0, 0, 0, 0, 0, 0, 0, 0⟩,
  ⟨"LFT_MSI_ROUTE_s", 0x10000, [(256, 4)], 4, 0, 0x8001ffff, 0, 0, 0, 0, 0, 0⟩,
  ⟨"HTC_CMD_CTRL", 0xf00000, [(16, 0x1000)], 4, 0, 0xffffffff, 0, 0, 0, 0, 0, 0⟩,
  ⟨"HTC_CMD_DESC", 0xf00004, [(16, 0x1000)], 4, 0, 0xffffffff, 0, 0, 0, 0, 0, 0⟩,
  ⟨"HTC_CMD_CTX", 0xf00008, [(16, 0x1000)], 4, 0, 0xffffffff, 0, 0, 0, 0, 0, 0⟩,
  ⟨"HTC_POST", 0xf0000c, [(16, 0x1000)], 4, 0, 0, 0, 0, 0, 0x3f, 0, 0⟩,
  ⟨"HTC_FREE", 0xf00010, [(16, 0x1000)], 4, 0, 0, 0, 0, 0, 0x3f, 0, 0⟩,
  ⟨"HTC_CFG", 0xf00014, [(16, 0x1000)], 4, 0xfa0, 0xfffff, 0, 0, 0, 0, 0, 0⟩,
  ⟨"HTC_NOTIFY_LO", 0xf00018, [(16, 0x1000)], 4, 0, 0, 0xffffffff, 0, 0, 0, 0, 0⟩,
  ⟨"HTC_NOTIFY_HI", 0xf0001c, [(16, 0x1000)], 4, 0, 0, 0xffffffff, 0, 0, 0, 0, 0⟩,
  ⟨"HTC_STATUS_t", 0xf00100, [(16, 0x1000), (64, 4)], 4, 0, 0, 0, 0, 0, 0, 0, 0⟩]

/-- All registers of area lft. -/
def rowsLft : List RegRow := rowsLft_0

end Sys2Proof.Machine
end

