-- ==== Sys2Proof/Machine/Address.lean ====
section
/-! DEFINITION. The local address map (R18-R29), the endpoint of every attachment (R568), the shed of
every address (R524) and the register area an address lies in. -/

namespace Sys2Proof.Machine

/-! ## Endpoints (R568): EP = 32 * router + port -/

/-- Endpoint ID of port `p` of router `r` (R294). -/
def ep (r p : Nat) : Nat := 32 * r + p

def stableRouter (n : Nat) : Nat := if n < 24 then n else n + 50
def accelRouter (shed part : Nat) : Nat := 36 + 3 * shed + part
def barnRouter (j : Nat) : Nat := if j < 8 then 26 + j else 54 + j
def ethRouter (i : Nat) : Nat := [24, 25, 60, 61, 34, 35, 70, 71].getD i 24
def loftRouter (i : Nat) : Nat := [72, 73, 82, 83].getD i 72
def plRouter (i : Nat) : Nat := [84, 85, 94, 95].getD i 84
def sysRouter (k : Nat) : Nat := 86 + k

/-- Kubry core `g` = 8 * stable + core. -/
def coreEp (g : Nat) : Nat := ep (stableRouter (g / 8)) (16 + g % 8)
def sliceEp (n : Nat) : Nat := ep (stableRouter n) 24
def stableEp (n : Nat) : Nat := ep (stableRouter n) 25
def loftEp (c : Nat) : Nat := ep (loftRouter (c / 4)) (c % 4)
def macEp (m : Nat) : Nat := ep (ethRouter (m / 4)) (m % 4)
def plPortEp (p : Nat) : Nat := ep (plRouter (p / 2)) (p % 2)
def barnEp (port : Nat) : Nat := ep (barnRouter (port / 4)) (port % 4)
def ymEp : Nat := ep (sysRouter 0) 0
def hltEp : Nat := ep (sysRouter 1) 4
def hltCoreEp (k : Nat) : Nat := ep (sysRouter 1) k
def hatEp : Nat := ep (sysRouter 2) 0
def tackEp : Nat := ep (sysRouter 5) 0
def shedsEp : Nat := ep (sysRouter 6) 0
def mgmtEp : Nat := ep (sysRouter 7) 4
def loftDmaEp : Nat := ep (sysRouter 7) 3

/-- Barrow channel `ch`: 16n + c for channel c of stable n, 512 + c for system channel c (R344). -/
def brwEp (ch : Nat) : Nat :=
  if ch < 512 then ep (stableRouter (ch / 16)) (ch % 16) else ep (sysRouter 3) ((ch - 512) / 2)

/-- Number of instances of accelerator class `c` (R23). -/
def classCount (c : Nat) : Nat := [32, 16, 16, 24, 4, 4, 4, 16, 8, 64, 8].getD c 0

/-- Window stride of class `c` (R23). -/
def classStride (c : Nat) : Nat :=
  [0x80000, 0x100000, 0x100000, 0x80000, 0x400000, 0x400000, 0x400000, 0x100000, 0x200000, 0x40000, 0x200000].getD c 1

/-- Working buffer of one instance of class `c`, in bytes (R23). -/
def classBuf (c : Nat) : Nat :=
  [0x40000, 0x80000, 0x80000, 0x20000, 0x40000, 0x80000, 0x20000, 0x80000, 0x80000, 0x10000, 0x30000].getD c 0

/-- First ECC controller of class `c` (R324). -/
def classCtl (c : Nat) : Nat := [96, 128, 144, 160, 184, 188, 192, 196, 212, 220, 284].getD c 96

/-- Accelerator shed index 0-7 of instance `i` of class `c` (R17). -/
def engShed (c i : Nat) : Nat :=
  match c with
  | 0 => i / 4
  | 1 => i / 2
  | 2 => i / 2
  | 3 => i / 3
  | 4 => i
  | 5 => 4 + i
  | 6 => 2 * i
  | 7 => i / 2
  | 9 => i / 8
  | _ => i

/-- Endpoint of instance `i` of class `c` (R568). -/
def engEp (c i : Nat) : Nat :=
  let s := engShed c i
  match c with
  | 0 => ep (accelRouter s 0) (i % 4)
  | 2 => ep (accelRouter s 0) (4 + i % 2)
  | 3 => ep (accelRouter s 0) (6 + i % 3)
  | 9 => ep (accelRouter s 1) (i % 8)
  | 10 => ep (accelRouter s 1) 8
  | 7 => ep (accelRouter s 2) (i % 2)
  | 8 => ep (accelRouter s 2) 2
  | 1 => ep (accelRouter s 2) (3 + i % 2)
  | 4 => ep (accelRouter s 2) 5
  | 5 => ep (accelRouter s 2) 5
  | _ => ep (accelRouter s 2) 6

/-! ## Regions (R18-R26) -/

def barnSize : Nat := 0x30000000
def stableBase (n : Nat) : Nat := 0x01000000000 + n * 0x1000000
def engBase (c i : Nat) : Nat := 0x02000000000 + c * 0x1000000 + i * classStride c
def blockBase (b : Nat) : Nat := 0x03000000000 + b * 0x1000000
def ddrBase : Nat := 0x10000000000
def coreRegs (g : Nat) : Nat := stableBase (g / 8) + 0x800000 + g % 8 * 0x1000
def stbRegs (n : Nat) : Nat := stableBase n + 0x800000
def imemBase (g : Nat) : Nat := stableBase (g / 8) + g % 8 * 0x100000
def xmemBase (g : Nat) : Nat := imemBase g + 0x40000
def ymemBase (g : Nat) : Nat := imemBase g + 0x80000
def ymRegs : Nat := blockBase 0
def hatRegs : Nat := blockBase 1
def ctRegs : Nat := blockBase 3
def ethPort (p : Nat) : Nat := blockBase 4 + p * 0x100000

/-- Base of MAC instance `m`, 32 being the management port (R24, R499). -/
def macBase (m : Nat) : Nat :=
  if m = 32 then blockBase 12 + 0x200000 else ethPort (m / 2) + m % 2 * 0x80000
def plRegs : Nat := blockBase 5
def tkRegs : Nat := blockBase 6
def shdRegs : Nat := blockBase 7
def calRegs : Nat := blockBase 8
def hltRegs : Nat := blockBase 9
def yrdRegs : Nat := blockBase 10
def eccRegs : Nat := blockBase 11
def lftRegs : Nat := blockBase 12

/-- Page of Barrow channel `ch` (R344). -/
def brwPage (ch : Nat) : Nat :=
  if ch < 512 then stbRegs (ch / 16) + 0x10000 + ch % 16 * 0x100 else blockBase 2 + (ch - 512) * 0x100

/-- Registers of Barrow group `gr`, 32 being the system group (R344). -/
def brwGrp (gr : Nat) : Nat := if gr < 32 then stbRegs gr + 0x11000 else blockBase 2 + 0x4000

/-- What a local address decodes to (R18-R26). -/
inductive Region where
  | barn (port : Nat)                  -- Barn port that serves the word (R322)
  | imem (g : Nat)
  | xmem (g : Nat)
  | ymem (g : Nat)
  | engBuf (c i : Nat)
  | hltMem (k : Nat)                   -- Halter control-core SRAM (R489)
  | regs (base : Nat) (rows : List RegRow)
  | txWindow (m t : Nat)               -- MAC transmit window (R386)
  | periph                             -- board peripheral whose registers the spec does not lay out (R498)
  | imsic (file c : Nat)               -- IMSIC file of core c: 0 machine, 1 supervisor (R496)
  | ddr
  | remote (w : Nat)
  | hole                               -- R19: inside a region, assigned to nothing
  | unassigned                         -- R19
deriving DecidableEq, Repr

/-- Decode inside a stable window (R21). -/
def stableRegion (n o : Nat) : Region :=
  if o < 0x800000 then
    let g := 8 * n + o / 0x100000
    let q := o % 0x100000
    if q < 0x20000 then .imem g
    else if q < 0x40000 then .hole
    else if q < 0x80000 then .xmem g
    else if q < 0xC0000 then .ymem g
    else .hole
  else
    let q := o - 0x800000
    if q < 0x8000 then .regs (stbRegs n + q / 0x1000 * 0x1000) rowsCore
    else .regs (stbRegs n) rowsStb

/-- Registers of one class beyond R190. -/
def rowsClass (c : Nat) : List RegRow :=
  match c with
  | 1 => rowsEng1
  | 2 => rowsEng2
  | 3 => rowsEng3
  | 4 => rowsEng4
  | 5 => rowsEng5
  | 7 => rowsEng7
  | 8 => rowsEng8
  | 9 => rowsEng9
  | 10 => rowsEng10
  | _ => []

/-- Decode inside an accelerator class window (R23). -/
def engRegion (c o : Nat) : Region :=
  let i := o / classStride c
  let q := o % classStride c
  if i < classCount c then
    if q < classStride c / 2 then .regs (engBase c i) (rowsEng ++ rowsClass c)
    else if q - classStride c / 2 < classBuf c then .engBuf c i
    else .hole
  else .hole

/-- Decode inside register block `b` (R24 and the block's own chapter). -/
def blockRegion (b o : Nat) : Region :=
  match b with
  | 0 => .regs (blockBase 0) rowsYm
  | 1 => .regs (blockBase 1) rowsHat
  | 2 => .regs (blockBase 2) rowsBrw
  | 3 => .regs (blockBase 3) rowsCt
  | 4 =>
    let p := o / 0x100000
    let j := o % 0x100000 / 0x80000
    let q := o % 0x80000
    if q < 0x1000 then (if j = 0 then .regs (ethPort p) rowsEthp else .regs (ethPort p + 0x80000) [])
    else if q < 0x40000 then .regs (macBase (2 * p + j)) rowsEth
    else .txWindow (2 * p + j) ((q - 0x40000) / 0x8000)
  | 5 => .regs (blockBase 5) rowsPl
  | 6 => .regs (blockBase 6) rowsTk
  | 7 => .regs (blockBase 7) rowsShd
  | 8 => .regs (blockBase 8) rowsCal
  | 9 => if 0x800000 ≤ o ∧ o < 0x900000 then .hltMem ((o - 0x800000) / 0x40000) else .regs (blockBase 9) rowsHlt
  | 10 => .regs (blockBase 10) rowsYrd
  | 11 => .regs (blockBase 11) rowsEcc
  | _ =>
    if 0x100000 ≤ o ∧ o < 0x200000 then .periph
    else if 0x200000 ≤ o ∧ o < 0x240000 then .regs (macBase 32) rowsEth
    else if 0x240000 ≤ o ∧ o < 0x280000 then .txWindow 32 ((o - 0x240000) / 0x8000)
    else if 0x800000 ≤ o ∧ o < 0x810000 then .imsic 0 ((o - 0x800000) / 0x1000)
    else if 0x900000 ≤ o ∧ o < 0x910000 then .imsic 1 ((o - 0x900000) / 0x1000)
    else .regs (blockBase 12) rowsLft

/-- The region of a 44-bit local address (R18). -/
def regionOf (a : Nat) : Region :=
  if a < barnSize then .barn (a / 0x0C000000 * 16 + fld a 11 8)
  else if 0x01000000000 ≤ a ∧ a < 0x01020000000 then
    stableRegion ((a - 0x01000000000) / 0x1000000) (a % 0x1000000)
  else if 0x02000000000 ≤ a ∧ a < 0x0200B000000 then
    engRegion ((a - 0x02000000000) / 0x1000000) (a % 0x1000000)
  else if 0x03000000000 ≤ a ∧ a < 0x0300D000000 then
    blockRegion ((a - 0x03000000000) / 0x1000000) (a % 0x1000000)
  else if ddrBase ≤ a ∧ a < 0x10800000000 then .ddr
  else if 0x80000000000 ≤ a ∧ a < 0x100000000000 then .remote ((a - 0x80000000000) / 0x2000000000)
  else .unassigned

/-- Does an offset of `o` bytes from a row's first register name one of its registers? -/
def matchDims : List (Nat × Nat) → Nat → Bool
  | [], o => o == 0
  | (c, st) :: t, o => decide (o / st < c) && matchDims t (o % st)

/-- The row of a register at offset `o` of its area. -/
def findRow (rows : List RegRow) (o : Nat) : Option RegRow :=
  rows.find? (fun r => decide (r.off ≤ o) && matchDims r.dims (o - r.off))

/-- The row of the register at a local address, with the base of its area. -/
def regRow (a : Nat) : Option (Nat × RegRow) :=
  match regionOf a with
  | .regs base rows => (findRow rows (a - base)).map (fun r => (base, r))
  | _ => none

/-! ## Sheds (R524) -/

def shedYard : Nat := 44
def shedFh : Nat := 45
def shedPl : Nat := 46
def shedLoft : Nat := 47
def shedCt : Nat := 48
def shedAon : Nat := 49
def accelShed (c i : Nat) : Nat := 32 + engShed c i

/-- The shed that holds what a local address names. -/
def shedOf (a : Nat) : Nat :=
  if a < barnSize then 40 + a / 0x0C000000
  else if a < 0x02000000000 then (a - 0x01000000000) / 0x1000000 % 32
  else if a < 0x03000000000 then
    let c := (a - 0x02000000000) / 0x1000000
    accelShed c (a % 0x1000000 / classStride c)
  else if a < ddrBase then
    match (a - 0x03000000000) / 0x1000000 with
    | 3 => shedCt
    | 4 => shedFh
    | 5 => shedPl
    | 6 => shedLoft
    | 7 => shedAon
    | 8 => shedAon
    | 12 => shedLoft
    | _ => shedYard
  else if a < 0x80000000000 then shedLoft
  else shedPl

/-- The endpoint that serves a local address (R568). The registers of a Phinerlink port are served by
that port and the block's other registers by port 0, which the spec leaves open (DESIGN CHOICE, log 9). -/
def epOf (a : Nat) : Nat :=
  match regionOf a with
  | .barn port => barnEp port
  | .imem g => stableEp (g / 8)
  | .xmem g => stableEp (g / 8)
  | .ymem g => stableEp (g / 8)
  | .engBuf c i => engEp c i
  | .hltMem _ => hltEp
  | .txWindow m _ => if m = 32 then mgmtEp else macEp m
  | .periph => ep (sysRouter 7) 2
  | .imsic _ _ => ep (sysRouter 7) 2
  | .ddr => ep (loftRouter (fld a 12 12)) 5
  | .remote _ => plPortEp 0
  | .hole => if a < 0x02000000000 then stableEp ((a - 0x01000000000) / 0x1000000)
             else engEp ((a - 0x02000000000) / 0x1000000) 0
  | .unassigned => 0xFFF
  | .regs base _ =>
    if base < 0x02000000000 then stableEp ((base - 0x01000000000) / 0x1000000)
    else if base < 0x03000000000 then
      let c := (base - 0x02000000000) / 0x1000000
      engEp c (base % 0x1000000 / classStride c)
    else
      match (base - 0x03000000000) / 0x1000000 with
      | 0 => ymEp
      | 1 => hatEp
      | 2 => ep (sysRouter 3) 0
      | 3 => ep (sysRouter 4) 0
      | 4 =>
        let p := base % 0x1000000 / 0x100000
        if base % 0x100000 < 0x80000 then macEp (2 * p) else macEp (2 * p + 1)
      | 5 =>
        let o := a - plRegs
        if 0x20000 ≤ o ∧ o < 0x28000 then plPortEp ((o - 0x20000) / 0x1000) else plPortEp 0
      | 6 => tackEp
      | 7 => shedsEp
      | 8 => ep (sysRouter 6) 1
      | 9 => hltEp
      | 10 => ep (sysRouter 7) 0
      | 11 => ep (sysRouter 7) 1
      | _ => if base = macBase 32 then mgmtEp else ep (sysRouter 7) 2

end Sys2Proof.Machine
end

