-- ==== Sys2Proof/Machine/State.lean ====
section
/-! DEFINITION. State of the ELT9A as plain data (INVENTORY.md, heading State), the reasons a command
can stop, and the machine right after reset. Registers of the offset tables live in `State.regs`; the
structures below hold the state the spec names without giving it a register. -/

namespace Sys2Proof.Machine

/-! ## Clocktower (R39-R47, R408-R429) -/

/-- One time domain (R409-R415). Time is an integer count of 1/(1536 * 65536 * 10^9) ns, the grid on which
every base-clock increment nominal period * (1 + FREQ) is whole. -/
structure Domain where
  base : Int        -- domain time at the anchor
  anchor : Nat      -- quantum of the anchor
  slew : Int        -- what remained of a slew at the anchor
  rate : Nat        -- slew rate in ppb of the slew in progress
  hist : List Int   -- FREQ values the servo wrote, newest first, at most 64 (R415)
  run : Nat         -- consecutive pulses within LOCK_NS (R414)
  first : Bool      -- the next labelled pulse is a first pulse (R414)
  lastPulse : Nat   -- quantum of the last valid pulse
  lockedAt : Nat    -- quantum of the latest entry into LOCKED
  snap : Option Int -- time captured by CT_CTRL.SNAP and not yet read
deriving DecidableEq, Repr

/-- A domain after logic reset (R429). -/
def Domain.reset : Domain := ⟨0, 0, 0, 0, [], 0, true, 0, 0, none⟩

/-- One tick train (R39-R46): the sample-clock position up to which every edge is dealt with, and
whether it was slewing when last looked at. -/
structure Train where
  pos : Int
  slewing : Bool
deriving DecidableEq, Repr

/-- A train after logic reset. -/
def Train.reset : Train := ⟨0, false⟩

/-- A tick message (R42): train, mask of levels, counters, and the counter of each level (R569). -/
structure Tick where
  train : Nat
  mask : Nat
  cntLo : Nat
  cntHi : Nat
  lvl : List Nat
  slot : Nat
  pos : Int      -- sample cycles from the train's origin to the edge
deriving DecidableEq, Repr

/-- One entry of a transmit timestamp queue (R420); `time` is in the units of `Domain.base`. -/
structure TsEntry where
  id : Nat
  discarded : Bool
  time : Int
deriving DecidableEq, Repr

/-- One 1PPS input (R421): time of the last valid pulse, missed pulses in a row, label state. -/
structure PpsIn where
  last : Option Nat
  misses : Nat
  label : Nat
  hasLabel : Bool
  pendLabel : Option Nat
deriving DecidableEq, Repr

/-- An input after logic reset. -/
def PpsIn.reset : PpsIn := ⟨none, 0, 0, false, none⟩

/-- Clocktower state that no register holds. -/
structure Clock where
  doms : Tab Domain
  trains : Tab Train
  sRem : Int                 -- what S still has to move at `sAnchor` (R416)
  sAnchor : Nat
  barred : Option (Nat × Nat) -- domain left by the last automatic switch, and when (R417)
  txq : Tab (List TsEntry)
  pps : Tab PpsIn
  ppsOut : Int               -- last whole second at which PPS_OUT rose
  ppsHigh : Bool             -- PPS_OUT has been driven at least once
  seQual : Nat               -- qualified SyncE candidates
  seSince : Tab Nat          -- since when each candidate is qualified
  stopped : List Nat         -- trains stopped and not yet dealt with by the Yardmaster (R46)
deriving DecidableEq, Repr

/-- The Clocktower after logic reset (R429). -/
def Clock.reset : Clock := ⟨[], [], 0, 0, none, [], [], 0, false, 0, [], []⟩

/-! ## Yard (R294, R307-R311) -/

/-- Fence state of one endpoint (R307, R310, R319): 0 OPEN, 1 FENCED, 2 READMIT. -/
structure EpState where
  st : Nat
  auto : Bool
  barFail : Bool
  gen : Nat
  absorbed : Nat
  discard : Nat
  since : Nat        -- quantum at which its barrier began
deriving DecidableEq, Repr

/-- An endpoint after logic reset of the Yard shed (R320). -/
def EpState.reset : EpState := ⟨0, false, false, 0, 0, 0, 0⟩

/-- A response on its way to its initiator: the generation its tag carries (R296), the target with the GEN
recorded at acceptance (R310), and the epoch it was injected in (R313). -/
structure YResp where
  src : Nat
  seq : Nat
  gen : Nat
  code : Nat
  data : List Byte
  dst : Nat
  dstGen : Nat
  epoch : Nat
deriving DecidableEq, Repr

/-- A request or posted worm held at a target NI for a sleeping shed (R305). `kind` is the request's
opcode (R297): 0 RD, 1 WR, 2 WRP, 3 RMW, 4 MSG. -/
structure Held where
  shed : Nat
  router : Nat
  dst : Nat
  kind : Nat
  req : YReq
  start : Nat        -- quantum at which its wake timer was started
deriving DecidableEq, Repr

/-- A reservation: a request whose response has not been delivered (R302, R308). -/
structure Resv where
  src : Nat
  seq : Nat
  gen : Nat
  dst : Nat
  sent : Nat
deriving DecidableEq, Repr

/-! ## Kubry cores (R74-R107), their vector units (R108-R142) and hitches (R143-R164) -/

/-- Why the bundle at a core's PC has not retired (R84, R92, R134, R148). -/
inductive Hold where
  | none
  | far (seq addr len : Nat)   -- in EX for the response of a far load
  | scoreboard                 -- in DA for a tag or a guard
  | fence                      -- a FENCE for its outstanding accesses
  | resv                       -- a far access or post for a free reservation
  | vswitch                    -- in DA for a lazy vector switch
deriving DecidableEq, Repr

/-- A far posted store that has not been answered (R92). -/
structure FarStore where
  seq : Nat
  km : Bool
  addr : Nat
  data : List Byte
deriving DecidableEq, Repr

/-- One zero-overhead loop level (R86). -/
structure Loop where
  lc : Word
  ls : BitVec 13
  le : BitVec 13
deriving DecidableEq, Repr

/-- A vector instruction in the datapath (R114-R116): the core cycle at which it leaves it, the registers it
reads, and the registers (contents and exponent) and sticky flags it will write. -/
structure DpOp where
  word : Nat
  doneAt : Nat
  srcs : List Nat
  writes : List (Nat × BitVec 4096 × BitVec 8)
  flags : Nat
deriving DecidableEq, Repr

/-- One Kubry core. -/
structure Core where
  pc : Nat
  s : Tab Word
  a : Tab (BitVec 44)
  m : Tab Word
  acc : Tab (BitVec 72)
  sr : Word
  epc : Word
  ecause : Word
  eval : Word
  evalHi : Word
  evec : Word
  ien : Word
  lines : Nat                   -- lines 2-22 now asserted (R98)
  loop0 : Loop
  loop1 : Loop
  budget : Word
  cycle : Nat                   -- core cycles since release; KB_CYCLE is its low word
  timer : Word
  escratch : Word
  ctxptr : Word
  halted : Bool
  dfault : Bool
  wfe : Bool
  stepping : Bool               -- the bundle in issue is a STEP's
  bpSkip : Option Nat           -- breakpoint bundle not to halt on again (R103)
  hold : Hold
  since : Nat                   -- quantum since which the core waits or is halted
  stores : List FarStore
  seq : Nat
  busAsync : List (Nat × Nat)   -- pending EC_BUS_ASYNC: response code and store address
  frameUe : Option Nat          -- poisoned word met by a hardware restore (R101)
  ready : Tab Nat               -- core cycle at which a result may be used without a stall (R71)
  lastCode : Nat
  vreg : Tab (BitVec 4096)
  vexp : Tab (BitVec 8)
  vcSr : Word
  vcNarrow : Word
  vcBxp : Word
  live : Word
  dirty : Word
  owner : Option Nat            -- VC_OWNER
  vcCur : Word
  saveCur : Word
  saveOwn : Word
  dp : Option DpOp
  lostRsp : Tab Nat             -- response code of a thread whose vector state is lost (R140)
  lastLost : Nat
  run : Nat                     -- thread slot running (R269)
  left : Bool                   -- the running activation has ended, yielded or blocked (R279)
  saveOut : Bool                -- and its context is still to be saved
  offer : Bool                  -- YM_K_STATUS.OFFER (R279)
  sample : Nat                  -- KB_BUDGET as last sampled by the slice (R272)
  accSpent : Nat                -- cycles charged to activations in the accounting interval (R291)
  accAt : Nat                   -- core cycle of the last accounting tick
  accAdm : Nat                  -- budget admitted in the interval
  accPeak : Nat                 -- largest YM_ACC_COMMIT in the interval
deriving DecidableEq, Repr

/-- A core after logic reset of its stable, or held in reset. The spec gives no reset value to s, a, m,
accumulator, loop and control registers but for KB_SR and the vector control registers: 0 (log 20). -/
def Core.reset : Core where
  pc := 0
  s := []
  a := []
  m := []
  acc := []
  sr := 0x200#32
  epc := 0
  ecause := 0
  eval := 0
  evalHi := 0
  evec := 0
  ien := 0
  lines := 0
  loop0 := ⟨0, 0, 0⟩
  loop1 := ⟨0, 0, 0⟩
  budget := 0
  cycle := 0
  timer := 0
  escratch := 0
  ctxptr := 0
  halted := false
  dfault := false
  wfe := false
  stepping := false
  bpSkip := none
  hold := .none
  since := 0
  stores := []
  seq := 0
  busAsync := []
  frameUe := none
  ready := []
  lastCode := 0
  vreg := []
  vexp := []
  vcSr := 0
  vcNarrow := 0xAF#32
  vcBxp := 0x1F#32
  live := 0
  dirty := 0
  owner := none
  vcCur := 0
  saveCur := 0
  saveOwn := 0
  dp := none
  lostRsp := []
  lastLost := 0
  run := 0
  left := false
  saveOut := false
  offer := false
  sample := 0
  accSpent := 0
  accAt := 0
  accAdm := 0
  accPeak := 0

/-- One Hitch tag (R144, R145): 0 FREE, 1 PROV, 2 CONF, 3 DONE, 4 ORPHAN. -/
structure Tag where
  st : Nat
  gen : Nat
  ctrl : Nat                -- CTRL word of the last post
  status : Nat              -- status word held in DONE
  conf : Nat                -- quantum of CONFIRM
  answer : Option Nat       -- answer of the POST
  own : Option Nat       -- status the hitch gives itself at confirmation (R162)
  charge : Nat              -- engine cycles still to be charged (R156)
  timedOut : List Nat       -- generations that completed HS_TIMEOUT (R159)
  evDue : List (Nat × Nat)  -- event of each earlier confirmed command by generation (R164)
deriving DecidableEq, Repr

/-- A tag after logic reset (R164). -/
def Tag.reset : Tag := ⟨0, 0, 0, 0, 0, none, none, 0, [], []⟩

/-- A guard (R152). -/
structure Guard where
  base : Nat
  len : Nat
  space : Nat
  tag : Nat
  armed : Bool
deriving DecidableEq, Repr

/-- A disarmed guard. -/
def Guard.reset : Guard := ⟨0, 0, 0, 0, false⟩

/-- A message from a hitch to an engine (R145, R161). -/
inductive HMsg where
  | post (h tag gen ctrl desc ctx : Nat)
  | confirm (h tag gen : Nat)
  | withdraw (h tag gen : Nat)
deriving DecidableEq, Repr

/-- The answer of an engine to a POST (R158). -/
structure PostAns where
  tag : Nat
  gen : Nat
  code : Nat
deriving DecidableEq, Repr

/-- A completion on its way to a hitch (R151, R156): status word and engine cycles of a context switch. -/
structure Comp where
  src : Nat
  tag : Nat
  gen : Nat
  status : Nat
  ctxCyc : Nat
deriving DecidableEq, Repr

/-! ## Yardmaster (R47-R68, R267-R292) -/

/-- Where an activation comes from: a task of a plan instance, possibly in place of another task (R62), or a
software request (R288). -/
inductive ActSrc where
  | plan (p inst task : Nat) (rep : Option Nat)
  | soft (param : Nat) (hatch : Option Nat)
deriving DecidableEq, Repr

/-- An activation bound to a thread (R270). `dlAt` is the count of ticks of its deadline level at which its
deadline tick comes; `td` the edge time of that tick (R272). -/
structure Act where
  id : Nat
  prio : Nat
  entry : Nat
  budget : Nat           -- unspent budget as saved at the last switch-out
  grant : Nat            -- BUDGET as admitted
  fresh : Bool
  dlTrain : Nat
  dlLevel : Nat
  dlAt : Nat
  td : Int
  flow : Option Nat
  src : ActSrc
  s1 : Nat
  s2 : Nat
deriving DecidableEq, Repr

/-- One thread of a core (R267-R269). `tickAt` is the tick count that satisfies an armed tick wait. -/
structure Thread where
  st : Nat
  cnt : Nat
  act : Option Act
  armed : Bool
  woken : Bool
  wait : Nat
  tickAt : Nat
  stamp : Nat            -- order in which it became READY
  stop : Option Nat      -- end cause of a stop that has been ordered (R65, R283)
deriving DecidableEq, Repr

/-- An atomic flow (R274, R275): its depth, the thread in service and those waiting, oldest first. -/
structure Flow where
  depth : Nat
  service : Option Nat
  waiting : List Nat
deriving DecidableEq, Repr

/-- One instance of a plan, or a dropped release, whose outputs only count LATE (R57, R58). Outputs and
edges are named by their index in the image's tables. -/
structure Inst where
  p : Nat
  idx : Nat
  base : Nat
  slot : Nat
  fmt : Nat
  dropped : Bool
  time : Int             -- edge time of the release tick
  counts : Tab Nat       -- tick counts at the release
  started : List Nat     -- tasks activated, refused or never to be activated
  done : List Nat        -- tasks completed, or whose stand-in completed
  evs : List Nat         -- edges whose event has been recorded
  past : List Nat        -- tasks whose deadline tick has been seen
  outDone : List Nat
  outLate : List Nat
  fall : List (Nat × Nat) -- fallback task activated for each replaced task
deriving DecidableEq, Repr

/-- An activation ready to be placed (R61); `rep` is the task it replaces. -/
structure Place where
  p : Nat
  inst : Nat
  task : Nat
  rep : Option Nat
deriving DecidableEq, Repr

/-- A Barrow channel to be stopped at the plan's last deadline (R53). -/
structure ChanStop where
  ch : Nat
  train : Nat
  level : Nat
  at' : Nat
deriving DecidableEq, Repr

/-- A downlink fallback order on its way to a MAC instance (R66, R67). -/
structure FbOrder where
  mac : Nat
  cell : Nat
  gsm : Bool
  slot : Nat
  mask : Nat
deriving DecidableEq, Repr

/-- LATE outputs of one cell and slot address that the Halter firmware is to report (R65 step 7). -/
structure Overrun where
  cell : Nat
  gsm : Bool
  slot : Nat
  outs : List Nat
deriving DecidableEq, Repr

/-- Yardmaster state that no register holds. -/
structure Ym where
  threads : Tab Thread
  stamp : Nat
  flows : Tab Flow
  insts : List Inst
  nextIdx : Tab Nat            -- next instance index of each plan slot (R57)
  place : List Place           -- activations ready and not placed, in order
  chanStops : List ChanStop
  events : List (Nat × Nat)    -- events on their way: source endpoint and number (R276)
  fbOrders : List FbOrder
  overruns : List Overrun
  seen : Tab Nat               -- ticks that have reached the Yardmaster, by 4 * train + level
deriving DecidableEq, Repr

/-- The Yardmaster after logic reset of the Yard shed. -/
def Ym.reset : Ym := ⟨[], 0, [], [], [], [], [], [], [], [], []⟩
/-! ## Barrow (R344-R363) -/

/-- A MOVE or GATHER begun by a channel (R347, R348): the slot it began at, with SO, DO and ITER as they were,
its shape, and how many of its bytes have been issued for reading and for writing. `elems` lists a GATHER's
elements (address, length) once its list has been read from `list`. -/
structure Xfer where
  gather : Bool
  slots : Nat
  seq : Nat
  pc : Nat
  soff : Nat
  doff : Nat
  iter : List Nat
  src : Nat
  dst : Nat
  len0 : Nat
  n1 : Nat
  sstr1 : Int
  dstr1 : Int
  sstr2 : Int
  dstr2 : Int
  elems : List (Nat × Nat)
  list : Option Nat
  total : Nat
  rd : Nat
  wr : Nat
deriving DecidableEq, Repr

/-- One beat (R345): a read, or the write of what an earlier read staged. -/
structure Beat where
  wr : Bool
  seq : Nat
  ofs : Nat
  src : Nat
  dst : Nat
  len : Nat
  elem : Nat
  data : List Byte
deriving DecidableEq, Repr

/-- The condition a channel waits for (R350): kind 0 FLAG, 1 TIME, 2 TICK; `tmo` in microseconds. -/
structure BWait where
  kind : Nat
  sel : Nat
  clr : Bool
  target : Int
  since : Nat
  tmo : Nat
deriving DecidableEq, Repr

/-- A failure met (R355): the transfer and byte offset it lies at, and what the halt record will hold. -/
structure BFail where
  cause : Nat
  seq : Nat
  ofs : Nat
  rsp : Nat
  addr : Nat
  elem : Nat
deriving DecidableEq, Repr

/-- Barrow channel state that no register holds. -/
structure Chan where
  blks : List (Nat × List Byte)   -- fetched blocks, at most two
  act : List Xfer                 -- transfers begun whose beats are not all answered, oldest first
  out : List Beat                 -- beats without a response, oldest first
  staged : List Beat              -- read beats answered and not yet issued for writing
  seq : Nat
  fail : Option BFail
  ended : Bool                    -- END has been reached
  wait : Option BWait
  lastTick : Option Int           -- S when the last TICK wait was satisfied
  retry : Option Nat              -- quantum at which a refused post is repeated
  resume : Option (Nat × Nat × List (Nat × Nat)) -- RESUME_OFS, ELEM_INDEX and list for the first slot
deriving DecidableEq, Repr

/-- A channel that runs nothing. -/
def Chan.reset : Chan := ⟨[], [], [], [], 0, none, false, none, none, none, none⟩

/-- A TICK wait (R350) on level `key` = 4 * train + level: ticks still to come, or the counter value that
satisfies it, and S at the satisfying tick. -/
structure TickWait where
  ch : Nat
  key : Nat
  left : Nat
  value : Option Nat
  hit : Option Int
deriving DecidableEq, Repr

/-! ## Accelerator engines (R165-R266) -/

/-- A command queued at an engine (R146, R158). -/
structure EJob where
  h : Nat
  tag : Nat
  gen : Nat
  ctrl : Nat
  desc : Nat
  ctx : Nat
  conf : Bool
deriving DecidableEq, Repr

/-- One code block, or the operand of a chained FFT job, that a producer writes to a chain slot (R187, R195). -/
structure ChainOut where
  data : List Byte
  high : Nat
  skip : Bool
deriving DecidableEq, Repr

/-- A ready message accepted by a consumer (R187, R195): who sent it, the chained descriptor, the slot. -/
structure ChainIn where
  prod : Nat
  desc : Nat
  slot : Nat
  high : Nat
  skip : Bool
  idx : Nat
  last : Bool
deriving DecidableEq, Repr

/-- The job an engine is running: a Hitch command, or a chained job. `phase` is 0 done but for its completion,
1 to ask for a slot, 2 refused and waiting, 3 slot written, 4 waiting for the consumer's report, 5 a chained job
waiting for further slots. -/
structure ERun where
  job : Option EJob
  chain : Option ChainIn
  phase : Nat
  status : Nat
  rsp : Nat
  summary : Nat
  ctxCyc : Nat
  ctxSw : Bool
  occ : Nat
  since : Nat                 -- when it started
  asked : Nat                 -- when a slot was last refused
  cons : Nat                  -- consumer engine of a producer
  cdesc : Nat                 -- global address of the chained descriptor
  slot : Nat
  sent : Nat                  -- blocks sent
  todo : List ChainOut
  desc : List Byte            -- descriptor of a chained job
  list : List Byte            -- its code-block list
  bits : List Bool            -- output bits a consumer has formed
  flags : List (Nat × Bool × Bool)  -- per decoded block: iterations, pass, skipped
  recW : Option (Nat × Nat)   -- record write that is to clear the BUSY bit (R199)
  post : Option (Nat × Nat)   -- hatch and word to be posted before the completion
deriving DecidableEq, Repr

/-- The state one sieve stage carries from job to job (R233, R240): its delay line, newest first, integrator and
comb registers, a phase, and detector sums. -/
structure Stage where
  line : List (Int × Int)
  regs : List (Int × Int)
  phase : Nat
  sum : Nat
  cnt : Nat
  env : Nat
deriving DecidableEq, Repr

/-- A context resident in an engine (R155): the address of its area, its contents as the area would hold them (for
a sieve chain the first 64 bytes), and a sieve chain's stage states. -/
structure ResCtx where
  addr : Nat
  image : List Byte
  stages : List Stage
deriving DecidableEq, Repr

/-- Engine state that no register holds. -/
structure Engine where
  queue : List EJob
  doomed : List (Nat × Nat × Nat)  -- hitch, tag and generation of commands a reset met before their CONFIRM
  chainQ : List ChainIn
  run : Option ERun
  reports : List (Nat × Nat)  -- status and SUMMARY messages on their way to this producer
  ctxs : List ResCtx          -- resident contexts, most recently used first (R155)
  grants : List (Nat × Nat)   -- slots or halves granted and the producer that holds each
  recs : List Nat             -- records a HARQ engine has set BUSY and not written back (R230)
  chClr : List Nat            -- burst channels to be cleared at the next job boundary (R255)
deriving DecidableEq, Repr

/-- An engine after logic reset. -/
def Engine.reset : Engine := ⟨[], [], [], none, [], [], [], [], []⟩

/-- Listen-before-talk unit state that no register holds (R250, R251): the start of the period being measured
and its length in units of domain time, its power sum and sample count, whether a gap spoils it, the end of the
COT. -/
structure Lbt where
  start : Option Int
  len : Int
  power : Nat
  count : Nat
  gap : Bool
  acq : Int                   -- S at the acquisition (R253)
  cotEnd : Int
deriving DecidableEq, Repr

/-- An LBT unit after logic reset. -/
def Lbt.reset : Lbt := ⟨none, 0, 0, 0, false, 0, 0⟩

/-- A sieve context (R240). -/
structure SieveCtx where
  stages : List Stage
deriving DecidableEq, Repr

/-- One burst channel of a narrowband engine: the position it predicts for its next sample in 1/96 symbol, whether its
last job left a gap, the ring's write index, the sample count, and what its lanes hold, which stays opaque (R255, R258,
R265; log 90). -/
structure NbChan where
  next : Option Nat
  gap : Bool
  wr : Nat
  count : Nat
  lanes : Nat
deriving DecidableEq, Repr

/-- A channel whose record has been cleared. -/
def NbChan.reset : NbChan := ⟨none, false, 0, 0, 0⟩

/-! ## Phinerlink (R430-R465) -/

/-- A packet of the fabric (R437): the header fields but for LSEQ, which its link gives it, and LEN. -/
structure PlPkt where
  kind : Nat
  ch : Nat
  epoch : Nat
  hops : Nat
  rgen : Nat
  pgen : Nat
  dst : Nat
  src : Nat
  payload : List Byte
deriving DecidableEq, Repr

/-- A packet waiting at an egress port; `mtx` marks a segment of PL_P_MTX_SEND. -/
structure PlWait where
  mtx : Bool
  pkt : PlPkt
deriving DecidableEq, Repr

/-- A management message being reassembled (R443): type, identifier, segment count, segments so far, the
channel it came on and the quantum of its first segment. -/
structure PlMsg where
  mtype : Nat
  id : Nat
  nseg : Nat
  segs : List (Nat × List Byte)
  ch : Nat
  since : Nat
deriving DecidableEq, Repr

/-- An outstanding XID (R438, R452): the requester's tag, the target unit, the opcode, RGEN and PGEN. -/
structure PlXid where
  port : Nat
  xid : Nat
  unit : Nat
  src : Nat
  seq : Nat
  gen : Nat
  op : Nat
  rgen : Nat
  pgen : Nat
  since : Nat
deriving DecidableEq, Repr

/-- One entry of the fence list (R453): 0 free, 1 FENCED, 2 READMIT, 3 OPEN. -/
structure PlFence where
  unit : Nat
  st : Nat
  gen : Nat
  auto : Bool
  barFail : Bool
  acks : List Nat
  since : Nat
deriving DecidableEq, Repr

/-- A free entry. -/
def PlFence.reset : PlFence := ⟨0, 0, 0, false, false, [], 0⟩

/-- State of one Phinerlink port that no register holds. -/
structure PlPort where
  prior : Nat                 -- state that the training in progress returns to
  trainAt : Nat               -- quantum at which it began
  fails : List Nat            -- quanta of failed trainings, newest first
  trained : Bool              -- a training has begun since EN was set
  tx : Nat                    -- LSEQ of the next packet
  rx : Nat                    -- LSEQ expected next
  nakd : Bool                 -- a NAK is out and packets are discarded until the replay
  naks : Nat × Nat            -- LSEQ last NAKed by the peer, and how often
  replay : List (Nat × List Byte) -- packets sent and not acknowledged, oldest first
  queue : List PlWait
  credits : Tab Nat
  idle : Nat                  -- quantum of the last packet or entry into QUIET
  parts : List PlMsg
  msgs : List PlMsg           -- complete messages, oldest first
  tmk : Tab Nat               -- markers sent, by domain
  secHi : Tab (Option Nat)    -- high seconds of the latest SEQ 0 marker, by domain
  errs : Tab (Int × Nat)      -- sum and count of the marker errors being averaged, by domain
  calAt : Nat
  calDom : Nat
  cal : Tab (Int × Nat)       -- sum and count of f of each lane
  peer : Option (List Int)    -- the peer's means
deriving DecidableEq, Repr

/-- A port after logic reset. -/
def PlPort.reset : PlPort where
  prior := 2
  trainAt := 0
  fails := []
  trained := false
  tx := 0
  rx := 0
  nakd := false
  naks := (0, 0)
  replay := []
  queue := []
  credits := []
  idle := 0
  parts := []
  msgs := []
  tmk := []
  secHi := []
  errs := []
  calAt := 0
  calDom := 0
  cal := []
  peer := none

/-- Phinerlink state that no register holds. -/
structure Pl where
  ports : Tab PlPort
  fences : Tab PlFence
  xids : List PlXid
  sent : List Nat             -- low 12 ID bits of units sent current-epoch packets since the last commit (R450)
  hold : List Nat             -- the filter of the commit in progress
deriving DecidableEq, Repr

/-- The block after logic reset of its shed; FGEN stays in PL_STATUS (R465). -/
def Pl.reset : Pl := ⟨[], [], [], [], []⟩

/-! ## Ethernet (R373-R407) -/

/-- A write held at a full transmit queue (R386): when it began to wait, and its bytes. -/
structure TxHold where
  since : Nat
  bytes : List Byte
deriving DecidableEq, Repr

/-- One transmit queue (R386, R387): complete records, the bytes of the record being written, SYNC_LOST. -/
structure Txq where
  recs : List (List Byte)
  part : List Byte
  lost : Bool
  held : List TxHold
deriving DecidableEq, Repr

/-- An empty queue. -/
def Txq.reset : Txq := ⟨[], [], false, []⟩

/-- Symbols under fallback and symbols whose C-plane was sent, for one slot address (R391). -/
structure SlotMask where
  slot : Nat
  fb : Nat
  cp : Nat
deriving DecidableEq, Repr

/-- A frame written to a queue whose notice is still to come (R381): the quantum it is due, the frame and the
header's timestamp. -/
structure RxDone where
  q : Nat
  due : Nat
  bytes : List Byte
  stamp : Int
deriving DecidableEq, Repr

/-- State of one MAC instance that no register holds; instance 32 is the management port. -/
structure Mac where
  done : List RxDone          -- oldest first
  txqs : Tab Txq
  cells : Tab (List SlotMask) -- by cell entry, oldest first, at most four
  pauseEnd : Tab Nat          -- quantum at which a class's pause runs out
  pauseOn : Tab (Option Nat)  -- quantum since which a class has been paused without a break
  xoff : List Nat             -- queues that have paused the peer
  qbvStart : Int              -- start of the present gate cycle
  qbvIdx : Nat                -- entry in effect
  qbvEnd : Int                -- end of its interval
  qbvCycle : Nat              -- operational cycle time in ns
  busy : Nat                  -- quantum until which the line is taken
  busyPre : Bool              -- by a preemptable frame
  keys : Tab (List Byte)      -- SAK and salt by SA: 0-127 receive, 128-159 transmit (R520)
  t14 : Tab Nat
deriving DecidableEq, Repr

/-- A MAC after logic reset. -/
def Mac.reset : Mac := ⟨[], [], [], [], [], [], 0, 0, 0, 0, 0, false, [], []⟩

/-! ## Halter (R466-R491) -/

/-- Where a Halter packet came from and how a reply goes back (R470): kind 0 LOFT, 1 ETH, 2 UDP, 3 FABRIC; the
MAC instance, the source MAC address or unit ID, IP address and UDP port; the binding and the frame's bytes
before the packet. -/
structure HSrc where
  kind : Nat
  mac : Nat
  addr : Nat
  ip : Nat
  port : Nat
  bind : Nat
  hdr : List Byte
deriving DecidableEq, Repr

/-- A packet queued at a control core (R486), with its receive timestamp in the selected domain if it has one. -/
structure HPkt where
  src : HSrc
  stamp : Option Int
  bytes : List Byte
deriving DecidableEq, Repr

/-- A staged field (R478). -/
structure HField where
  ty : Nat
  key : Nat
  value : List Byte
  seq : Nat
  del : Bool                  -- removed by a DELETE of this sequence number
deriving DecidableEq, Repr

/-- A staged order (R478): what its reply needs, and the fields overridden: (sequence, type, key). -/
structure HOrder where
  seq : Nat
  src : HSrc
  hdr : List Byte
  ovr : List (Nat × Nat × Nat)
deriving DecidableEq, Repr

/-- What is staged for one slot address and direction. -/
structure HSlot where
  slot : Nat
  up : Bool
  orders : List HOrder
  fields : List HField
  missing : List (Nat × Nat)  -- blocks removed at their data deadline before the commit: order, block
deriving DecidableEq, Repr

/-- A committed slot address (R478): sequence numbers and the replies they had. -/
structure HDone where
  slot : Nat
  up : Bool
  replies : List (Nat × Nat × List Byte) -- sequence, status, reply TLVs
  tbs : List (Nat × Nat)      -- blocks of its allocations: identifier, bytes
deriving DecidableEq, Repr

/-- A downlink block (R480): identifier, slot address of its order, bytes, place in the pool, ranges received. -/
structure HBlock where
  id : Nat
  slot : Nat
  size : Nat
  addr : Nat
  got : List (Nat × Nat)
  ready : Bool
deriving DecidableEq, Repr

/-- State of one generation (R482): 0 granted, 1 done, 2 ended with UE, 3 overrun, 4 overwritten, 5 acknowledged. -/
structure HGen where
  gen : Nat
  slot : Nat
  st : Nat
  fb : Bool
  read : Bool
deriving DecidableEq, Repr

/-- A result stream (R482). -/
structure HStream where
  out : Nat
  push : Bool
  size : Nat
  addr : Nat
  gens : List HGen            -- oldest first
deriving DecidableEq, Repr

/-- One cell or TRX: holder with its token, the last token drawn, st 0 unconfigured, 1 stopped, 2 running, the
values of its configuration TLVs, and what is staged, committed, held and waiting. -/
structure HCell where
  holder : Option HSrc
  token : Nat
  last : Nat
  st : Nat
  cfg : List Byte
  dlLead : Nat
  ulLead : Nat
  dataLag : Nat
  quota : Nat
  qaddr : Nat                 -- where its downlink data lie in the Barn
  hatches : List Byte
  streams : List HStream
  override : List (List Byte)
  start : Nat
  prach : List Byte
  staged : List HSlot
  done : List HDone           -- oldest first, at most 32
  blocks : List HBlock
  words : List Nat            -- words for the plan hatch, oldest first
deriving DecidableEq, Repr

/-- A cell with no holder and no configuration. -/
def HCell.reset : HCell := ⟨none, 0, 0, 0, [], 0, 0, 0, 0, 0, [], [], [], 0, [], [], [], [], []⟩

/-- A reassembly of a Phinerlink HALTER packet (R471). -/
structure HFrag where
  unit : Nat
  id : Nat
  count : Nat
  segs : List (Nat × List Byte)
  since : Nat
deriving DecidableEq, Repr

/-- An UNFENCE whose reply waits for the target to be OPEN (R485). -/
structure HFence where
  kind : Nat
  id : Nat
  src : HSrc
  hdr : List Byte
deriving DecidableEq, Repr

/-- Halter state that no register holds. -/
structure Hlt where
  cells : Tab HCell           -- cell c at c, TRX t at 1024 + t
  queues : Tab (List HPkt)    -- by control core
  frags : List HFrag
  fences : List HFence
  lost : List (Nat × HSrc)    -- former holders to be told after a restart (R491)
deriving DecidableEq, Repr

/-- The firmware's state after logic reset of the Yard shed. -/
def Hlt.reset : Hlt := ⟨[], [], [], [], []⟩

/-! ## Tack room and Loft (R492-R523) -/

/-- Tack room state that no register holds. -/
structure Tack where
  queue : List Nat            -- descriptor addresses of queued commands
  mr : Tab (List Byte)        -- measurement registers of 64 bytes, when not all 0
  digest : Tab (List Byte)    -- DIGEST last extended into each register (R510)
  keks : Tab (List Byte)
  svn : Tab Nat               -- 1 + SVN last measured in this boot, by type (R506)
  slot : Option Nat           -- KEY_SLOT of the running loader (R507)
  ident : List Byte           -- the identity private key once unwrapped (R517)
  halted : Bool               -- the ROM has halted (R513)
deriving DecidableEq, Repr

/-- The Tack room after its logic reset. -/
def Tack.reset : Tack := ⟨[], [], [], [], [], none, [], false⟩

/-! ## Sheds, supplies and calendar (R524-R555) -/

/-- A shed's transition: 0 none, 1 rising from OFF, 2 from RET, 3 from IDLE, 4 + state descending to it; when its
present step began; whether its logic reset is held at VERIFY_HOLD (R515, R527). -/
structure ShedTr where
  tr : Nat
  since : Nat
  held : Bool
deriving DecidableEq, Repr

/-- A shed at rest. -/
def ShedTr.reset : ShedTr := ⟨0, 0, false⟩

/-- Power and calendar state that no register holds. -/
structure Power where
  trs : Tab ShedTr
  standby : Nat               -- 0 none, 1 accepted, 2 Loft descending, 3 Yard descending, 4 in standby, 5 rising
  brown : Bool                -- the reset of R539 is held
  wakePin : Bool              -- level of WAKE_N
  strap : Nat                 -- ID_STRAP pins
  fsel : Nat                  -- XO_FSEL as sampled at AON power-on
  fhRail : Bool               -- AVDD_FH present
  plRail : Bool               -- AVDD_PL present
  therm : Bool                -- THERMTRIP_N asserted (R555)
  calAt : Nat                 -- quantum at which CAL_TIME and CAL_DATE held what the registers hold
  calVbat : Bool              -- the calendar runs from VBAT
  calLose : Bool              -- its contents have been lost: the next AON power-on sets LOST (R541)
  calTrim : Nat               -- seconds counted since the last TRIM
  derHi : Nat                 -- quantum of the last measurement
  derLow : Option Nat         -- since when I has stayed low (R538)
deriving DecidableEq, Repr

/-- Power state at reset: straps open (R554), WAKE_N high, every rail present. -/
def Power.reset : Power := ⟨[], 0, false, true, 0xFFFFF, 0, true, true, false, 0, false, false, 0, 0, none⟩

/-! ## The machine -/

/-- The answer of the last access a command made to a register or memory: its Yard response code (R567)
and the data read. -/
structure BusAnswer where
  code : Nat
  data : Nat
deriving DecidableEq, Repr

/-- What the unit drives on its pins and its fabric, oldest first (the model's own trace of outputs, log 4). -/
inductive WireEv where
  | pps (second : Int)                    -- PPS_OUT rose (R424)
  | tod (bytes : List Byte)               -- ToD message on TOD_OUT (R423)
  | aia (hart file identity : Nat)        -- AIA message (R496)
  | hatchNotice (client kind : Nat)       -- notice to a Loft or Halter core: 0 post, 1 empty, 2 timeout or abort
  | plPacket (port : Nat) (bytes : List Byte)  -- a packet leaves a Phinerlink port, CRC included (R437)
  | plLctl (port ack nak : Nat) (credits : List Nat) -- acknowledgement, NAK and credits (R439); 4096 is none
  | plPwr (port st : Nat)                 -- PWR ordered set: 0 QUIET, 1 COLD (R435)
  | plTmk (port seq word : Nat)           -- time marker (R458)
  | frame (mac : Nat) (at' : Int) (sa : Option (Nat × Nat)) (bytes : List Byte) -- a frame crosses the port's
      -- reference point at a port time, protected by a transmit SA and packet number or not (R388, R398)
  | pause (mac cls : Nat) (on : Bool)     -- pause sent or released (R397)
  | doorbell (core : Nat)                 -- notice of a FRAME queue to a Halter control core (R381)
  | bootRecord (bytes : List Byte)        -- record on UART 0 (R513)
  | periph (addr : Nat) (bytes : List Byte) -- a write to a board peripheral's registers (R498)
  | thermtrip                             -- THERMTRIP_N driven low (R555)
deriving DecidableEq, Repr

/-- Reasons a command faults. There are none in this model but for memory the spec says does not exist. -/
inductive Fault where
  /-- A command names a unit, channel or port number that the device does not have (R15); raised by every
  meaning that takes a number. Safe: the device has no such unit to act. -/
  | noSuchUnit
deriving DecidableEq, Repr

/-- Reasons a command is refused. -/
inductive Refusal where
  /-- The command has no meaning yet; raised by `exec` alone. Safe. -/
  | notModelled (mnemonic : String)
deriving DecidableEq, Repr

structure State where
  pending : List Instr          -- commands waiting, first in first out
  now : Nat                     -- time since reset in quanta of 1/1536 ns (model's own, log 3)
  fresh : Nat                   -- counter of free values (model's own, log 2)
  mem : List Host.Cell          -- bytes of every memory, by local address
  regs : Tab DWord              -- registers, by local address
  caps : Tab (Option DWord)     -- captured values of R11 groups
  stage : Tab (Option DWord)    -- writes of R11 groups that wait for the highest-offset register
  bus : BusAnswer               -- answer of the last access made by a command (model's own, log 5)
  wire : List WireEv
  msiRise : List Nat            -- message sources whose condition has risen, oldest first (R497)
  ticks : Tab (List Tick)       -- tick messages in flight, by subscriber (0 Yardmaster, 1 + n stable n)
  tickCount : Tab Nat           -- ticks seen, by 4 * train + level
  ct : Clock
  eps : Tab EpState             -- fence state by endpoint (R307)
  ecc : Tab Nat                 -- check-bit difference of each 16-byte word (R326-R330, R341)
  cores : Tab Core              -- by global core number 8 * stable + core
  tags : Tab Tag                -- Hitch tags by 64 * hitch + tag; hitches 256-271 are the Loft cores'
  guards : Tab Guard            -- by 8 * core + guard
  hmsgs : Tab (List HMsg)       -- messages on their way to each engine, oldest first
  postAns : Tab (List PostAns)  -- answers to POSTs on their way to each hitch
  comps : Tab (List Comp)       -- completions on their way to each hitch
  resps : List YResp            -- responses on their way
  resvs : List Resv             -- requests of the YARD rows without a delivered response
  held : List Held              -- worms held for sleeping sheds, in arrival order
  down : List Nat               -- DOWN link ends, as 4 * router + 0 N, 1 E, 2 S, 3 W (R298)
  replays : Tab Nat             -- replays in a row of the flit due, by 8 * router + port (R298)
  worms : Tab Nat               -- 1 + epoch of the worm partly received, by 8 * router + port (R314)
  ym : Ym
  hatWin : List Nat             -- hatch clients from their reset to the end of their window (R369)
  scrubDone : Tab Nat           -- 1 where the pass of a controller's period is complete (R337)
  chans : Tab Chan              -- Barrow channels (R344)
  brwLast : Tab Nat             -- 1 + the channel a group last granted a beat (R353)
  tickWaits : List TickWait
  engines : Tab Engine          -- accelerator instances, by 0-195 (R324's order)
  lbts : Tab Lbt                -- listen-before-talk units, by sieve chain 0-63
  sctx : Tab SieveCtx           -- sieve contexts by local address of their area (R240)
  nbch : Tab NbChan             -- burst channels, by 96 * instance + channel
  pl : Pl
  macs : Tab Mac
  hlt : Hlt
  tack : Tack
  otp : Tab Byte                -- one-time programmable memory (R505)
  flash : Tab Byte              -- the board's xSPI flash (R511)
  power : Power
  gpio : Nat                    -- levels of the 48 GPIO pins (R498)
  uartRx : Tab (List Byte)      -- receive FIFOs of UART 0 and 1 (R498)
  hatTmo : Tab Nat              -- quantum at which each hatch's timer expires, 0 not running (R368)
deriving DecidableEq, Repr

/-- What an R11 capture or staged write holds before any: nothing. -/
def noCap : Nat → Option DWord := fun _ => none

abbrev Out := Host.Outcome State Fault Refusal

/-- The machine right after reset: every table empty, so every register reads its reset value, every
memory its initial contents, and no command waits. -/
def State.reset : State where
  pending := []
  now := 0
  fresh := 0
  mem := []
  regs := []
  caps := []
  stage := []
  bus := ⟨0, 0⟩
  wire := []
  msiRise := []
  ticks := []
  tickCount := []
  ct := Clock.reset
  eps := []
  ecc := []
  cores := []
  tags := []
  guards := []
  hmsgs := []
  postAns := []
  comps := []
  resps := []
  resvs := []
  held := []
  down := []
  replays := []
  worms := []
  ym := Ym.reset
  hatWin := []
  scrubDone := []
  chans := []
  brwLast := []
  tickWaits := []
  engines := []
  lbts := []
  sctx := []
  nbch := []
  pl := Pl.reset
  macs := []
  hlt := Hlt.reset
  tack := Tack.reset
  otp := []
  flash := []
  power := Power.reset
  gpio := 0
  uartRx := []
  hatTmo := []

end Sys2Proof.Machine
end

