-- ==== Sys2Proof/Machine/Ops.lean ====
section
/-! DEFINITION. The operations every block shares: registers and their access codes (R5-R11), memory bytes,
saturating counters, interrupt flags (R497), free values and the passing of time. -/

namespace Sys2Proof.Machine

/-! ## Registers -/

/-- Reset value of a route-table word of router `r` (R319): entry for destination d in byte d mod 4. -/
def xFirst (r d : Nat) : Nat :=
  if 96 ≤ d then 0
  else if r % 12 < d % 12 then 2
  else if d % 12 < r % 12 then 4
  else if r / 12 < d / 12 then 1
  else if d / 12 < r / 12 then 3
  else 0

/-- Attachment code of router `r` in YRD_RTR_INFO (R16, R319). -/
def attachment (r : Nat) : Nat :=
  if r < 24 ∨ (74 ≤ r ∧ r ≤ 81) then 0
  else if 36 ≤ r ∧ r ≤ 59 then 1
  else if (26 ≤ r ∧ r ≤ 33) ∨ (62 ≤ r ∧ r ≤ 69) then 2
  else if r = 24 ∨ r = 25 ∨ r = 34 ∨ r = 35 ∨ r = 60 ∨ r = 61 ∨ r = 70 ∨ r = 71 then 3
  else if r = 84 ∨ r = 85 ∨ r = 94 ∨ r = 95 then 4
  else if 72 ≤ r ∧ r ≤ 83 then 5
  else 6

/-- Reset value of the register at a local address: its row's, but for the registers whose reset value
depends on the instance (R268, R319, R342, R546), and the AON shed's, as AON power-on leaves them (R546-R548). -/
def regResetN (a : Nat) : Nat :=
  match regRow a with
  | none => 0
  | some (base, row) =>
    let o := a - base
    if base < 0x02000000000 then
      if row.name = "YM_TD_CFG" then (if (o - 0x410000) % 0x2000 = 0 then 3 else 0)
      else if row.name = "YM_TD_STATE" then (if (o - 0x410014) % 0x2000 = 0 then 6 else 0)
      else row.reset
    else if base = yrdRegs then
      if row.name = "YRD_RT_WORD" then
        let r := (o - 0x20000) / 0x100
        let d := (o - 0x20000) % 0x80
        (List.range 4).foldl (fun v j => v + xFirst r (d + j) * 2 ^ (8 * j)) 0
      else if row.name = "YRD_RTR_LINK" then
        let r := (o - 0x10004) / 0x20
        b2n (decide (r < 84)) + 2 * b2n (decide (r % 12 < 11)) + 4 * b2n (decide (12 ≤ r)) + 8 * b2n (decide (0 < r % 12))
      else row.reset
    else if base = eccRegs then
      if row.name = "ECC_CTRL" then
        let n := (o - 0x10000) / 0x400
        if n < 64 ∨ (292 ≤ n ∧ n ≤ 295) then 3 else 2
      else row.reset
    else if base = shdRegs then
      if row.name = "SHD_CTRL_s" ∨ row.name = "SHD_STATUS_s" then
        let k := (o % 0x100) / 4
        if k = 44 ∨ k = 47 ∨ k = 49 then (if row.name = "SHD_CTRL_s" then 3 else 0x53)
        else if k = 62 ∧ row.name = "SHD_STATUS_s" then 0x43 else 0
      else if row.name = "SHD_RST_CAUSE" then 1
      else row.reset
    else if base = calRegs then
      (if row.name = "CAL_STATUS" then 2 else if row.name = "CAL_DATE" then 0x21 else row.reset)
    else row.reset

/-- Reset value as the table `State.regs` holds it. -/
def regReset (a : Nat) : DWord := BitVec.ofNat 64 (regResetN a)

/-- The register at local address `a`. -/
def State.reg (s : State) (a : Nat) : DWord := tget regReset s.regs a

/-- Its value as a number. -/
def State.rd (s : State) (a : Nat) : Nat := (s.reg a).toNat

/-- Store a register. -/
def State.wr (s : State) (a v : Nat) : State := { s with regs := tset regReset s.regs a (BitVec.ofNat 64 v) }

/-- Field of a register. -/
def State.rf (s : State) (a hi lo : Nat) : Nat := fld (s.rd a) hi lo

/-- Bit of a register. -/
def State.rb (s : State) (a i : Nat) : Bool := tb (s.rd a) i

/-- Store a field of a register. -/
def State.wf (s : State) (a hi lo v : Nat) : State := s.wr a (setFld (s.rd a) hi lo v)

/-- Store a bit of a register. -/
def State.wb (s : State) (a i : Nat) (b : Bool) : State := s.wf a i i (b2n b)

/-- Add to a 32-bit saturating counter. -/
def State.cnt (s : State) (a n : Nat) : State := s.wr a (sat32 (s.rd a + n))

/-! ## Memory -/

/-- What a byte that nothing has written reads as: SRAM holds the zeros of R325's initialisation; the
LPDDR5X, whose contents after power-on the spec does not give, reads 0 as well (DESIGN CHOICE, log 6). -/
def memReset : Nat → Byte := fun _ => 0

/-- One byte of memory. -/
def State.byte (s : State) (a : Nat) : Byte := tget memReset s.mem a

/-- The memory's canonical form: addresses rising, no entry equal to what an unlisted address reads as. -/
abbrev Memory.wf (m : List Host.Cell) : Prop := twf memReset m

/-- `n` bytes from address `a`. -/
def State.bytes (s : State) (a n : Nat) : List Byte := (List.range n).map (fun i => s.byte (a + i))

/-- The little-endian number of `n` bytes at `a` (R3). -/
def State.ld (s : State) (a n : Nat) : Nat := leNat (s.bytes a n)

/-- Store one byte. -/
def State.setByte (s : State) (a : Nat) (b : Byte) : State := { s with mem := tset memReset s.mem a b }

/-- Store bytes at rising addresses. -/
def memStore (m : List Host.Cell) : Nat → List Byte → List Host.Cell
  | _, [] => m
  | a, b :: t => memStore (tset memReset m a b) (a + 1) t

/-- Store a list of bytes from address `a`. -/
def State.store (s : State) (a : Nat) (l : List Byte) : State := { s with mem := memStore s.mem a l }

/-- Store the `n`-byte little-endian number `v` at `a` (R3). -/
def State.st (s : State) (a n v : Nat) : State := s.store a (natLe n v)

/-- Zero `n` bytes from `a`: they return to the initial contents. -/
def State.zero (s : State) (a n : Nat) : State :=
  { s with mem := tdrop (fun k => decide (a ≤ k) && decide (k < a + n)) s.mem }

/-! ## Free values, outputs, time -/

/-- A fresh free value and the state that has used it up. -/
def State.draw (s : State) : Nat × State := ((Config.freeValue s.fresh).toNat, { s with fresh := s.fresh + 1 })

/-- Drive an output. -/
def State.emit (s : State) (e : WireEv) : State := { s with wire := s.wire ++ [e] }

/-- Let time pass until quantum `t`. -/
def State.until (s : State) (t : Nat) : State := { s with now := max s.now t }

/-- Quanta in one microsecond. -/
def us : Nat := 1536000

/-! ## Interrupt flags -/

/-- Note that message source `src` has gone from false to true (R497). -/
def State.rise (s : State) (src : Nat) (before after : Bool) : State :=
  if !before && after then { s with msiRise := s.msiRise ++ [src] } else s

/-- Set bit `i` of the flag register at `st`, enabled by the register at `en`, of message source `src`. -/
def State.flag (s : State) (st en src i : Nat) : State :=
  let old := s.rd st
  let new := setBit old i
  (s.wr st new).rise src (decide (old &&& s.rd en ≠ 0)) (decide (new &&& s.rd en ≠ 0))

/-! ## Generic register access (R5-R8, R11) -/

/-- The new stored value of a register on a write of `v` (R7, R8): RW and WO bits take the written bit
(a WO bit is stored nowhere), W1C bits clear, W1S bits set, every other bit is kept. -/
def regNext (row : RegRow) (old v : Nat) : Nat :=
  let keep := old &&& (2 ^ 64 - 1 - (row.rw ||| row.w1c ||| row.w1s))
  keep ||| (v &&& row.rw) ||| (old &&& row.w1c &&& (2 ^ 64 - 1 - v)) ||| ((old ||| v) &&& row.w1s)

/-- A write to the register at `a` by its access codes alone. -/
def State.wrCoded (s : State) (a v : Nat) : State :=
  match regRow a with
  | none => s
  | some (_, row) => s.wr a (regNext row (s.rd a) v)

/-- Addresses of the registers of an R11 group, given the lowest and highest. -/
def groupAddrs (lo hi : Nat) : List Nat := (List.range ((hi - lo) / 4 + 1)).map (fun i => lo + 4 * i)

/-- Capture a group's live values (R11). -/
def State.capture (s : State) (as : List Nat) : State :=
  { s with caps := as.foldl (fun c a => tset noCap c a (some (s.reg a))) s.caps }

/-- The captured value of a group's register, its reset value if no capture has been made (R11). -/
def State.captured (s : State) (a : Nat) : Nat :=
  match tget noCap s.caps a with
  | some v => v.toNat
  | none => regResetN a

/-- Indices of a register within its row's dimensions. -/
def dimIdx : List (Nat × Nat) → Nat → List Nat
  | [], _ => []
  | (_, st) :: t, o => o / st :: dimIdx t (o % st)

/-- A block's own part of a register write: from the register's name, its indices, the value written, the
state before and the state in which the access codes have been applied, the answer and the next state. -/
abbrev WriteHook := String → List Nat → Nat → State → State → Nat × State

/-- One write to the register at `a` under a block's hook, leaving its answer. -/
def State.regWriteBy (s : State) (h : WriteHook) (a v : Nat) : State :=
  match regRow a with
  | none => { s with bus := ⟨0, 0⟩ }
  | some (base, row) =>
    let r := h row.name (dimIdx row.dims (a - base - row.off)) v s (s.wr a (regNext row (s.rd a) v))
    { r.2 with bus := ⟨r.1, 0⟩ }

/-- Present state of shed `k` (R525, R546): 0 OFF, 1 RET, 2 IDLE, 3 ON. -/
def State.shedCur (s : State) (k : Nat) : Nat := s.rf (shdRegs + 0x200 + 4 * k) 1 0

/-- The answer a command leaves. -/
def State.answer (s : State) (code data : Nat) : State := { s with bus := ⟨code, data⟩ }

/-- Yard response codes (R567). -/
def rspOk : Nat := 0
def rspTgt : Nat := 1
def rspUe : Nat := 2
def rspNone : Nat := 3
def rspFenced : Nat := 4
def rspEpoch : Nat := 5
def rspWake : Nat := 6
def rspFull : Nat := 7

end Sys2Proof.Machine
end

