-- ==== Sys2Proof/Machine/Calendar.lean ====
section
/-! DEFINITION. The calendar clock (R541-R547): its count of XTAL32K cycles, dates, the trim, the alarm and its
registers. CAL_TIME and CAL_DATE hold what the calendar read at `Power.calAt`; it counts on from there. -/

namespace Sys2Proof.Machine

def calA (o : Nat) : Nat := calRegs + o

/-- Quanta of one XTAL32K cycle, 1/32,768 s. -/
def calCycle : Nat := 46875000

/-- Is year 2000 + `y` a leap year of the Gregorian calendar? -/
def leapYear (y : Nat) : Bool := decide (y % 4 = 0) && decide (y ≠ 100 ∧ y ≠ 200)

/-- Days of month `m` of year 2000 + `y`. -/
def monthDays (y m : Nat) : Nat := if m = 2 then 28 + b2n (leapYear y) else if m = 4 ∨ m = 6 ∨ m = 9 ∨ m = 11 then 30 else 31

/-- Days from 2000-01-01 to the first day of month `m` of year 2000 + `y`. -/
def daysBefore (y m : Nat) : Nat :=
  y * 365 + (y + 3) / 4 - b2n (decide (100 < y)) - b2n (decide (200 < y))
    + ((List.range (m - 1)).map (fun i => monthDays y (i + 1))).sum

/-- XTAL32K cycles from 2000-01-01 to a date and time as the registers hold them. -/
def calCount (t d : Nat) : Nat :=
  (((daysBefore (fld d 16 9) (fld d 8 5) + (fld d 4 0 - 1)) * 86400 + fld t 31 27 * 3600 + fld t 26 21 * 60 + fld t 20 15)) * 32768
    + fld t 14 0

/-- Cycles in the calendar's range of 256 years (R542), after which it begins again (DESIGN CHOICE, log 60). -/
def calRange : Nat := daysBefore 256 1 * 86400 * 32768

/-- The calendar's present count of cycles. -/
def calTicks (s : State) : Nat := (calCount (s.rd calRegs) (s.rd (calA 4)) + (s.now - s.power.calAt) / calCycle) % calRange

/-- A count of cycles as CAL_TIME. -/
def calTimeWord (n : Nat) : Nat :=
  let q := n / 32768 % 86400
  n % 32768 + q % 60 * 2 ^ 15 + q / 60 % 60 * 2 ^ 21 + q / 3600 * 2 ^ 27

/-- A count of cycles as CAL_DATE. -/
def calDateWord (n : Nat) : Nat :=
  let d := n / 32768 / 86400
  let y := ((List.range 256).find? (fun y => decide (d < daysBefore (y + 1) 1))).getD 255
  let m := ((List.range 12).find? (fun m => decide (d < daysBefore y (m + 2)))).getD 11 + 1
  d - daysBefore y m + 1 + m * 2 ^ 5 + y * 2 ^ 9

/-- Set the calendar to a count of cycles. -/
def calSet (s : State) (n : Nat) : State :=
  let m := n % calRange
  { (s.wr calRegs (calTimeWord m)).wr (calA 4) (calDateWord m) with power := { s.power with calAt := s.now } }

/-- Is a date possible (R542)? -/
def dateOk (d : Nat) : Bool :=
  decide (1 ≤ fld d 8 5 ∧ fld d 8 5 ≤ 12 ∧ 1 ≤ fld d 4 0) && decide (fld d 4 0 ≤ monthDays (fld d 16 9) (fld d 8 5))

/-- Is a time of day possible? -/
def hmsOk (h m sec : Nat) : Bool := decide (h < 24 ∧ m < 60 ∧ sec < 60)

/-- The calendar is written (R542): the staged CAL_TIME is taken up when CAL_DATE is written. The cycle in progress
is begun anew. -/
def calWrite (s : State) (t d : Nat) : Nat × State :=
  if dateOk d ∧ hmsOk (fld t 31 27) (fld t 26 21) (fld t 20 15) then
    (rspOk, { (s.wr calRegs (t % 2 ^ 32)).wr (calA 4) (d % 2 ^ 17) with power := { s.power with calAt := s.now } })
  else (rspTgt, s)

/-- The alarm's second, from 2000-01-01. -/
def alarmSecond (s : State) : Nat :=
  let t := s.rd (calA 0x14)
  let d := s.rd (calA 0x18)
  (daysBefore (fld d 16 9) (fld d 8 5) + (fld d 4 0 - 1)) * 86400 + fld t 16 12 * 3600 + fld t 11 6 * 60 + fld t 5 0

/-- Quantum at which the calendar's count reaches `n` cycles from now on. -/
def calReaches (s : State) (n : Nat) : Nat := s.power.calAt + (n - calCount (s.rd calRegs) (s.rd (calA 4))) * calCycle

/-- The trim is added once every 32 s (R543). -/
def trimApply (s : State) : State :=
  let t := s.until (s.power.calTrim + 32 * 32768 * calCycle)
  let n := (calTicks t : Int) + sgn 10 (s.rf (calA 8) 9 0)
  let u := calSet t (n % (calRange : Nat)).toNat
  { u with power := { u.power with calTrim := t.now, calAt := t.now - (t.now - s.power.calAt) % calCycle } }

/-- Live value of a calendar register. -/
def calView (nm : String) (a : Nat) (s : State) : Nat :=
  match nm with
  | "CAL_TIME" => calTimeWord (calTicks s)
  | "CAL_DATE" => calDateWord (calTicks s)
  | _ => s.rd a

/-- The block's own part of a register write. The highest-offset register of an R11 group carries the group: `s1`
holds what was staged for the others. A date written without a time keeps the time of day. -/
def calHook : WriteHook := fun nm _ v s s1 =>
  match nm with
  | "CAL_DATE" =>
    calWrite s (match tget noCap s.stage calRegs with | some t => t.toNat | none => calTimeWord (calTicks s)) v
  | "CAL_OFS_NS" => if 999999999 < fld v 29 0 then (rspTgt, s) else (rspOk, s1)
  | "CAL_ALM_DATE" =>
    let t := s1.rd (calA 0x14)
    if dateOk v ∧ hmsOk (fld t 16 12) (fld t 11 6) (fld t 5 0) then (rspOk, s1) else (rspTgt, s)
  | _ => (rspOk, s1)

end Sys2Proof.Machine
end

