-- ==== Sys2Proof/Machine/Clocktower.lean ====
section
/-! DEFINITION. The Clocktower: time domains and their servos (R408-R415), the selected time S (R416, R417),
tick trains (R39-R46, R569), timestamp queues (R420), 1PPS and ToD (R421-R424), SyncE (R425) and the block's
registers (R44, R428). Times are integers in units of 1/(1536 * 65536 * 10^9) ns, in which one base-clock
period of a domain is exactly 3125 * (65536 * 10^9 + FREQ) (R409; the rounding at 48 fraction bits is left
out, DESIGN CHOICE, log 8). -/

namespace Sys2Proof.Machine

/-! ## Units and registers -/

/-- One nominal base-clock or sample-clock period. -/
def cycU : Int := 3125 * 65536 * 1000000000
/-- One nanosecond. -/
def nsU : Int := 1536 * 65536 * 1000000000
/-- 2^-16 ns. -/
def fracU : Int := 1536 * 1000000000
/-- One second. -/
def secU : Int := nsU * 1000000000

def domA (d o : Nat) : Nat := ctRegs + 0x1000 + d * 0x100 + o
def ttA (t o : Nat) : Nat := ctRegs + 0x40000 + t * 0x40 + o

/-- Seconds, nanoseconds and 2^-16 ns of a time (R408). -/
def timeParts (x : Int) : Nat × Nat × Nat :=
  let t := (x % (secU * 2 ^ 48)).toNat
  (t / secU.toNat, t % secU.toNat / nsU.toNat, t % nsU.toNat / fracU.toNat)

/-- A time from its four register values (R408). -/
def timeOf (hi lo ns fr : Nat) : Int := ((hi % 65536) * 2 ^ 32 + lo : Nat) * secU + ns * nsU + (fr % 65536 : Nat) * fracU

/-- Store a time in the four registers from `a`. -/
def State.wrTime (s : State) (a : Nat) (x : Int) : State :=
  let p := timeParts x
  (((s.wr a (p.1 / 2 ^ 32)).wr (a + 4) (p.1 % 2 ^ 32)).wr (a + 8) p.2.1).wr (a + 12) p.2.2

/-- The word of a time's register `k` (0 SEC_HI, 1 SEC_LO, 2 NS, 3 FRAC). -/
def timeWord (x : Int) (k : Nat) : Nat :=
  let p := timeParts x
  match k with
  | 0 => p.1 / 2 ^ 32
  | 1 => p.1 % 2 ^ 32
  | 2 => p.2.1
  | _ => p.2.2

/-- A signed time in whole nanoseconds, toward zero (the fraction is not shown; DESIGN CHOICE, log 8). -/
def toNs (x : Int) : Int := Int.tdiv x nsU

/-! ## Domains -/

def domDflt : Nat → Domain := fun _ => Domain.reset
def State.dom (s : State) (d : Nat) : Domain := tget domDflt s.ct.doms d
def State.setDom (s : State) (d : Nat) (m : Domain) : State :=
  { s with ct := { s.ct with doms := tset domDflt s.ct.doms d m } }

def domEn (s : State) (d : Nat) : Bool := s.rb (domA d 0) 0
def domSrc (s : State) (d : Nat) : Nat := s.rf (domA d 0) 3 2
def domState (s : State) (d : Nat) : Nat := s.rf (domA d 4) 2 0
def domValid (s : State) (d : Nat) : Bool := s.rb (domA d 4) 3
def domFreq (s : State) (d : Nat) : Int := sgn 32 (s.rd (domA d 8))

/-- Base-clock cycles since quantum `a`. -/
def cyclesSince (now a : Nat) : Int := (now / 3125 : Nat) - (a / 3125 : Nat)

/-- How far a slew of total `x` at `ppb` has gone after `c` cycles. -/
def slewDone (x : Int) (ppb : Nat) (c : Int) : Int :=
  let el := c * 3125 * 65536 * ppb
  if 0 ≤ x then min x el else -(min (-x) el)

/-- The domain's counter as it runs from its anchor: FREQ and any slew (R409, R413). -/
def domRun (s : State) (d : Nat) : Int :=
  let m := s.dom d
  let c := cyclesSince s.now m.anchor
  m.base + c * (3125 * (65536 * 1000000000 + domFreq s d)) + slewDone m.slew m.rate c

/-- Domain time (R412: a disabled domain holds the time it had). -/
def domTime (s : State) (d : Nat) : Int := if domEn s d then domRun s d else (s.dom d).base

/-- What remains of the domain's slew. -/
def domRem (s : State) (d : Nat) : Int :=
  let m := s.dom d
  m.slew - slewDone m.slew m.rate (cyclesSince s.now m.anchor)

/-- Anchor the domain at the present time, so that its rate may change from here. -/
def anchorDom (s : State) (d : Nat) : State :=
  if domEn s d then
    let m := s.dom d
    s.setDom d { m with base := domRun s d, anchor := s.now, slew := domRem s d }
  else s

/-! ## The selected time S (R416) -/

def anyTrain (s : State) : Bool := (List.range 16).any (fun t => s.rb (ttA t 0) 0)
def selDom (s : State) : Nat := s.rf ctRegs 0 0
def maxPpb (s : State) : Nat := s.rf (ctRegs + 0x40400) 15 0

/-- The phase S approaches: the selected domain's, with a slew faster than the limit taken as done. -/
def sTarget (s : State) : Int :=
  let d := selDom s
  domRun s d + (if maxPpb s < (s.dom d).rate then domRem s d else 0)

/-- What S still has to move. -/
def sRemNow (s : State) : Int :=
  s.ct.sRem - slewDone s.ct.sRem (maxPpb s) (cyclesSince s.now s.ct.sAnchor)

/-- The selected time. -/
def sTime (s : State) : Int := if anyTrain s then sTarget s - sRemNow s else domTime s (selDom s)

def trainDflt : Nat → Train := fun _ => Train.reset
def State.train (s : State) (t : Nat) : Train := tget trainDflt s.ct.trains t
def State.setTrain (s : State) (t : Nat) (m : Train) : State :=
  { s with ct := { s.ct with trains := tset trainDflt s.ct.trains t m } }
def trainOn (s : State) (t : Nat) : Bool := s.rb (ttA t 0) 0

/-- Set SLEWING of every running train and its SLEW_START flag (R43). -/
def startSlewing (s : State) : State :=
  (List.range 16).foldl (fun s t =>
    if trainOn s t && !(s.train t).slewing then
      (s.setTrain t { s.train t with slewing := true }).wb (ctRegs + 0x40404) t true
    else s) s

/-- Change something of the domains, the selection or the trains, keeping S continuous while any train
runs: the difference becomes a slew of S at MAX_PPB (R43, R416). -/
def withS (s : State) (f : State → State) : State :=
  let before := sTime s
  let s1 := f s
  if anyTrain s1 then
    let r := sTarget s1 - before
    let s2 := { s1 with ct := { s1.ct with sRem := r, sAnchor := s1.now } }
    if r = 0 then s2 else startSlewing s2
  else { s1 with ct := { s1.ct with sRem := 0, sAnchor := s1.now } }

/-- Let time pass until S reaches `x`, on whole base-clock cycles (R42). -/
def untilS (x : Int) : Nat → State → State
  | 0, s => s
  | n + 1, s =>
    if x ≤ sTime s then s
    else
      let inc := 3125 * (65536 * 1000000000 + domFreq s (selDom s) + 65536 * 131072)
      let k := max 1 ((x - sTime s) / inc).toNat
      untilS x n (s.until ((s.now / 3125 + k) * 3125))

/-! ## Flags -/

def ctFlag (s : State) (i : Nat) : State := s.flag (ctRegs + 8) (ctRegs + 0xC) 2 i

/-- Write STATE, VALID and ORIGIN of a domain, flagging a change of STATE or VALID (R428). -/
def setDomState (s : State) (d st : Nat) (valid : Bool) (origin : Nat) : State :=
  let s1 := s.wr (domA d 4) (st + 8 * b2n valid + 16 * origin)
  let s2 := if st = 2 && domState s d ≠ 2 then s1.setDom d { s1.dom d with lockedAt := s1.now } else s1
  if domState s d ≠ st || domValid s d != valid then ctFlag s2 (1 + d) else s2

def domOrigin (s : State) (d : Nat) : Nat := s.rf (domA d 4) 5 4

/-- Set only STATE. -/
def setState (s : State) (d st : Nat) : State := setDomState s d st (domValid s d) (domOrigin s d)

/-! ## Domain commands (R412, R413) -/

/-- Calendar time in the units of domain time, counted from 1970-01-01 (R412, R545). -/
def calTime (s : State) : Int := ((calTicks s : Nat) : Int) * (secU / 32768) + 946684800 * secU

/-- Enable domain `d` (R412). -/
def domEnable (s : State) (d : Nat) : State :=
  if domEn s d then s
  else withS s fun s =>
    let s1 := s.wb (domA d 0) 0 true
    if s.rb (domA d 0) 1 then
      let ofs := sgn 32 (s.rd (calRegs + 0xC)) * secU + (s.rd (calRegs + 0x10) : Nat) * nsU
      setDomState (s1.setDom d { Domain.reset with base := calTime s + ofs, anchor := s.now }) d 0 true 1
    else setDomState (s1.setDom d { Domain.reset with base := 0, anchor := s.now }) d 0 false 0

/-- Disable domain `d` (R412). -/
def domDisable (s : State) (d : Nat) : State :=
  if domEn s d then
    withS s fun s =>
      let m := s.dom d
      setDomState ((s.setDom d { m with base := domRun s d, anchor := s.now, slew := 0 }).wb (domA d 0) 0 false) d 0 false 0
  else s

/-- ADJ of domain `d`: signed ns and fraction (R413). -/
def domAdj (s : State) (d : Nat) : Int :=
  sgn 32 (s.rd (domA d 0xC)) * nsU + (s.rf (domA d 0x10) 15 0 : Nat) * fracU

/-- Move the domain's time to `x` at once: cancels its slew, counts, sets VALID (R412, R413). -/
def domJump (s : State) (d : Nat) (x : Int) (origin : Nat) : State :=
  withS s fun s =>
    let m := s.dom d
    let s1 := s.setDom d { m with base := x, anchor := s.now, slew := 0 }
    (setDomState s1 d (domState s d) true origin).cnt (domA d 0x48) 1

def domStep (s : State) (d : Nat) : State := domJump s d (domTime s d + domAdj s d) 2

def domSet (s : State) (d : Nat) : State :=
  domJump s d (timeOf (s.rd (domA d 0x30)) (s.rd (domA d 0x34)) (s.rd (domA d 0x38)) (s.rd (domA d 0x3C))) 2

/-- Start a slew of `x` at `ppb`, adding what remains of one in progress (R413). -/
def domSlewBy (s : State) (d : Nat) (x : Int) (ppb : Nat) : State :=
  withS s fun s =>
    let s1 := anchorDom s d
    let m := s1.dom d
    s1.setDom d { m with slew := m.slew + x, rate := ppb }

def domSlew (s : State) (d : Nat) : State := domSlewBy s d (domAdj s d) (s.rf (domA d 0x18) 15 0)

/-- ABORT: the slew stops and what remains is discarded (R413). -/
def domAbort (s : State) (d : Nat) : State :=
  withS s fun s =>
    let s1 := anchorDom s d
    s1.setDom d { s1.dom d with slew := 0 }

/-- Write CT_D_FREQ (R413): in force from the next base-clock cycle. -/
def domSetFreq (s : State) (d v : Nat) : State :=
  withS s fun s => (anchorDom s d).wr (domA d 8) (v % 2 ^ 32)

/-- Dispatch of CT_D_ADJ_CMD; more than one bit set is answered RSP_TGT (R413). -/
def domCmd (s : State) (d v : Nat) : Nat × State :=
  match v % 16 with
  | 0 => (rspOk, s)
  | 1 => (rspOk, domStep s d)
  | 2 => (rspOk, domSlew s d)
  | 4 => (rspOk, domSet s d)
  | 8 => (rspOk, domAbort s d)
  | _ => (rspTgt, s)

/-! ## Tick trains (R39-R46) -/

/-- Sample-clock cycles of a subframe, a frame and half a millisecond (R40). -/
def subframeC : Nat := 491520
def frameC : Nat := 4915200
def halfC : Nat := 245760

/-- Symbols per half millisecond, symbol length, extra length of the first, symbols per slot (R39, R40). -/
def fmtShape (f : Nat) : Nat × Nat × Nat × Nat :=
  if f ≤ 6 then (7 * 2 ^ f, 35072 / 2 ^ f, 256, 14)
  else if f = 7 then (24, 10240, 0, 12)
  else if f = 8 then (7, 35072, 256, 7)
  else (6, 40960, 0, 6)

/-- Start of symbol `i` of the frame, in cycles (R40). -/
def symStart (f i : Nat) : Nat :=
  if f = 10 then i / 7 * 983040 + i % 7 * 135168
  else
    let n := (fmtShape f).1
    let j := i % n
    i / n * halfC + (if j = 0 then 0 else (fmtShape f).2.2.1 + (fmtShape f).2.1 * j)

/-- Symbol of the frame in progress at cycle `r`; the guard of format 10 counts as symbol 6 (R569). -/
def symAt (f r : Nat) : Nat :=
  if f = 10 then r / 983040 * 7 + min 6 (r % 983040 / 135168)
  else
    let q := r % halfC
    let e := (fmtShape f).2.2.1
    let l := (fmtShape f).2.1
    r / halfC * (fmtShape f).1 + (if q < e + l then 0 else (q - e) / l)

def symsPerSlot (f : Nat) : Nat := if f = 10 then 7 else (fmtShape f).2.2.2

/-- GSM timeslot in progress at cycle `p` from the origin: the largest n with floor(n * 3686400 / 13) ≤ p. -/
def gsmAt (p : Nat) : Nat := (13 * (p + 1) - 1) / 3686400
def gsmStart (n : Nat) : Nat := n * 3686400 / 13

/-- Counter period in cycles (R41). -/
def fmtPeriod (f : Nat) : Nat := if f = 11 then 2715648 * 8 * 3686400 / 13 else 1024 * 1024 * frameC

/-- The first level-`l` edge after cycle `p` of the counter period. -/
def nextEdge (f l p : Nat) : Nat :=
  if f = 11 then
    let n := gsmAt p
    let k := [1, 8, 208, 408].getD l 1
    gsmStart ((n / k + 1) * k)
  else
    let fr := p / frameC * frameC
    let r := p % frameC
    match l with
    | 0 => fr + symStart f (symAt f r + 1)
    | 1 => fr + symStart f ((symAt f r / symsPerSlot f + 1) * symsPerSlot f)
    | 2 => (p / subframeC + 1) * subframeC
    | _ => fr + frameC

/-- The first edge of an enabled level after cycle `p`. -/
def nextTick (f en p : Nat) : Option Nat :=
  (List.range 4).foldl (fun m l =>
    if tb en l then
      let x := nextEdge f l p
      match m with
      | none => some x
      | some y => some (min x y)
    else m) none

/-- Levels among `en` with an edge at cycle `q`, where `p` is the cycle before it in the count. -/
def tickMask (f en q : Nat) : Nat :=
  (List.range 4).foldl (fun m l => if tb en l && decide (q = 0 ∨ nextEdge f l (q - 1) = q) then setBit m l else m) 0

/-- Level counters (R569) at cycle `p` of the counter period. -/
def lvlCounters (f p : Nat) : List Nat :=
  if f = 11 then
    let n := gsmAt p
    [n % 8, n / 8, n / 208, n / 408]
  else
    let y := symAt f (p % frameC)
    [y % symsPerSlot f, y / symsPerSlot f, p % frameC / subframeC, p / frameC % 1024]

/-- CT_TT_CNT_LO and CT_TT_CNT_HI (R46's table). -/
def cntWords (f p : Nat) : Nat × Nat :=
  let c := lvlCounters f p
  if f = 11 then
    let fn := c.getD 1 0
    (c.getD 0 0 + (fn % 1024) * 2 ^ 4 + (fn / 1024 % 1024) * 2 ^ 14 + (fn / 2 ^ 20) * 2 ^ 24, 0)
  else
    let h := p / frameC / 1024
    (c.getD 0 0 + c.getD 1 0 * 2 ^ 4 + c.getD 3 0 * 2 ^ 14 + (h % 256) * 2 ^ 24, h / 256 % 4)

/-- Slot address of the tick (R47). -/
def slotAddr (f p : Nat) : Nat :=
  let c := lvlCounters f p
  if f = 11 then c.getD 1 0 * 2 ^ 10 + c.getD 0 0 * 2 ^ 7
  else
    let h := p / frameC / 1024 % 1024
    if 4 ≤ f ∧ f ≤ 6 then h * 2 ^ 22 + c.getD 3 0 * 2 ^ 12 + c.getD 1 0 * 4
    else h * 2 ^ 22 + c.getD 3 0 * 2 ^ 12 + c.getD 1 0 * 2 ^ 5 + c.getD 0 0 * 2

def trainFmt (s : State) (t : Nat) : Nat := s.rf (ttA t 0) 7 4
def trainLvls (s : State) (t : Nat) : Nat := s.rf (ttA t 0) 11 8

/-- The train's origin offset (R41). -/
def trainOfs (s : State) (t : Nat) : Int :=
  sgn 32 (s.rd (ttA t 4)) * nsU + (s.rf (ttA t 8) 15 0 : Nat) * fracU

/-- The train's next edge, as an absolute count of sample cycles from its origin. -/
def trainNext (s : State) (t : Nat) : Option Int :=
  let f := trainFmt s t
  let p := (s.train t).pos
  let r := p % (fmtPeriod f : Nat)
  (nextTick f (trainLvls s t) r.toNat).map (fun q => p - r + q)

/-- S at which that edge lies. -/
def edgeTime (s : State) (t : Nat) (x : Int) : Int := trainOfs s t + x * cycU

/-- A tick message at absolute cycle `x`. -/
def tickAt (s : State) (t : Nat) (x : Int) : Tick :=
  let f := trainFmt s t
  let p := (x % (fmtPeriod f : Nat)).toNat
  { train := t, mask := tickMask f (trainLvls s t) p, cntLo := (cntWords f p).1, cntHi := (cntWords f p).2,
    lvl := lvlCounters f p, slot := slotAddr f p, pos := x }

def noTicks : Nat → List Tick := fun _ => []

/-- Queue a tick message for subscriber `k`: 0 the Yardmaster, 1 + n the stable window target n. -/
def pushTick (s : State) (k : Nat) (m : Tick) : State := { s with ticks := tmod noTicks s.ticks k (· ++ [m]) }

/-- What a tick at S = `at'` does to a Barrow TICK wait (R350). -/
def markWait (m : Tick) (at' : Int) (w : TickWait) : TickWait :=
  if w.hit.isSome ∨ w.key / 4 ≠ m.train ∨ !tb m.mask (w.key % 4) then w
  else match w.value with
    | some v => if m.lvl.getD (w.key % 4) 0 = v then { w with hit := some at' } else w
    | none => if w.left ≤ 1 then { w with left := 0, hit := some at' } else { w with left := w.left - 1 }

/-- Emit the tick at absolute cycle `x` (R42): counters and edge time in the registers, messages to the
Yardmaster and to every stable whose shed is ON, and the tick counts Barrow waits and Ethernet ports follow. -/
def emitTick (s : State) (t : Nat) (x : Int) : State :=
  let m := tickAt s t x
  let s1 := s.setTrain t { s.train t with pos := x }
  let s2 := (s1.wr (ttA t 0x14) m.cntLo).wr (ttA t 0x18) m.cntHi
  let s3 := if tb m.mask 1 then s2.wrTime (ttA t 0x1C) (edgeTime s t x) else s2
  let s4 := (List.range 32).foldl (fun s n => if s.shedCur n = 3 then pushTick s (1 + n) m else s) (pushTick s3 0 m)
  { s4 with tickWaits := s4.tickWaits.map (markWait m (sTime s4)), tickCount := (List.range 4).foldl (fun c l =>
      if tb m.mask l then tmod (fun _ => 0) c (4 * t + l) (· + 1) else c) s4.tickCount }

/-- TICK_EDGE of train `t`: time reaches the next enabled edge and the tick is emitted (R39-R42). -/
def tickEdge (s : State) (t : Nat) : State :=
  if trainOn s t then
    match trainNext s t with
    | none => s
    | some x => emitTick (untilS (edgeTime s t x) 64 s) t x
  else s

/-- Emit every tick whose edge lies at or before now (R46). -/
def emitDue : Nat → State → Nat → State
  | 0, s, _ => s
  | n + 1, s, t =>
    match trainNext s t with
    | none => s
    | some x => if edgeTime s t x ≤ sTime s then emitDue n (emitTick s t x) t else s

/-- Start train `t`: its first tick is the first enabled edge at least 2 us away (R45). -/
def trainEnable (s : State) (t : Nat) : State :=
  let s1 := withS s (fun s => s.wb (ttA t 0) 0 true)
  let x := (sTime (s1.until (s1.now + 2 * us)) - trainOfs s1 t + cycU - 1) / cycU - 1
  s1.setTrain t { s1.train t with pos := x, slewing := decide (sRemNow s1 ≠ 0) }

/-- Stop train `t` after its last due tick; the Yardmaster learns of it behind that tick (R46). -/
def trainDisable (s : State) (t : Nat) : State :=
  let s1 := emitDue 16 s t
  let s2 := withS s1 (fun s => s.wb (ttA t 0) 0 false)
  { s2.setTrain t Train.reset with ct := { (s2.setTrain t Train.reset).ct with stopped := s2.ct.stopped ++ [t] } }

/-- Quanta until a slew of `x` at `ppb` is done. -/
def slewQuanta (x : Int) (ppb : Nat) : Nat := cdiv x.natAbs (3125 * 65536 * ppb) * 3125

/-- Time at which the slew of S ends. -/
def sSlewEnd (s : State) : Nat := s.ct.sAnchor / 3125 * 3125 + slewQuanta s.ct.sRem (maxPpb s)

/-! ## Transmit timestamp queues (R420) -/

def noTs : Nat → List TsEntry := fun _ => []

/-- Queue a timestamp entry for port `n`; a full queue drops it (R420). -/
def tsPush (s : State) (n : Nat) (e : TsEntry) : State :=
  let q := tget noTs s.ct.txq n
  let a := ctRegs + 0x20000 + n * 0x40
  if q.length < 64 then { s with ct := { s.ct with txq := tset noTs s.ct.txq n (q ++ [e]) } }
  else ctFlag ((s.wb (a + 0x14) 8 true).cnt (a + 0x18) 1) 4

/-- The five words of a queue's head entry; VALID = 0 when the queue is empty. -/
def tsWord (q : List TsEntry) (k : Nat) : Nat :=
  match q with
  | [] => 0
  | e :: _ => if k = 0 then e.id % 65536 + 2 ^ 16 * b2n e.discarded + 2 ^ 31 else timeWord e.time (k - 1)

/-- Read CT_TXQ_ENTRY of port `n`: capture the head entry's group and remove it (R420). -/
def tsRead (s : State) (n : Nat) : Nat × State :=
  let q := tget noTs s.ct.txq n
  let a := ctRegs + 0x20000 + n * 0x40
  let s1 := { s with caps := (List.range 5).foldl (fun c k => tset noCap c (a + 4 * k) (some (BitVec.ofNat 64 (tsWord q k)))) s.caps,
                     ct := { s.ct with txq := tset noTs s.ct.txq n q.tail } }
  (tsWord q 0, s1)

/-! ## 1PPS and ToD (R414, R421-R424) -/

def ppsDflt : Nat → PpsIn := fun _ => PpsIn.reset
def State.ppsIn (s : State) (i : Nat) : PpsIn := tget ppsDflt s.ct.pps i
def State.setPps (s : State) (i : Nat) (p : PpsIn) : State := { s with ct := { s.ct with pps := tset ppsDflt s.ct.pps i p } }
def ppsA (i o : Nat) : Nat := ctRegs + 0x30000 + i * 0x40 + o

/-- Lock count: 0 is read as 16 (R428). -/
def lockCnt (s : State) (d : Nat) : Nat := let c := s.rf (domA d 0) 23 16; if c = 0 then 16 else c

/-- The hardware servo of domain `d` on a pulse of error `e`, whether it is labelled (R414, R415). -/
def servo (s : State) (d : Nat) (e : Int) (labelled : Bool) : State :=
  let m := s.dom d
  let st := domState s d
  let big := decide (1000 * nsU ≤ e.natAbs)
  let s0 := (s.setDom d { m with lastPulse := s.now }).wr (domA d 0x40) (uns 32 (e * 256 / nsU))
  if m.first && !labelled then s0
  else if (m.first && !(st = 3 && !big)) || ((st = 1 || st = 3) && big) then
    let s1 := domJump s0 d (domTime s0 d - e) 3
    setState (s1.setDom d { s1.dom d with first := false, run := 0, hist := [] }) d 1
  else
    let ki := s.rf (domA d 0x44) 31 16
    let kp := s.rf (domA d 0x44) 15 0
    let f := domFreq s d - (ki : Int) * e * 65536 / (256 * nsU)
    let fv := uns 32 (satS 32 f)
    let s1 := domSetFreq s0 d fv
    let s2 := domSlewBy s1 d (-((kp : Int) * e / 256)) 65535
    let within := decide (e.natAbs ≤ s.rf (domA d 0) 15 8 * nsU.toNat)
    let run := if within then m.run + 1 else 0
    let s3 := s2.setDom d { s2.dom d with first := false, run := run, hist := (sgn 32 fv :: m.hist).take 64 }
    if st = 3 ∨ st = 0 then setState s3 d 1
    else if st = 2 ∧ 4 * s.rf (domA d 0) 15 8 * nsU.toNat < e.natAbs then setState (s3.setDom d { s3.dom d with run := 0 }) d 1
    else if st = 1 ∧ lockCnt s d ≤ run then setState s3 d 2
    else s3

/-- The `n`th pulse in a row on input `i` is invalid or missing: from the third on the next one is a first pulse, and
PPS_LOSS is set (R421, R428). -/
def ppsMissed (s : State) (i n : Nat) : State :=
  let s1 := if 3 ≤ n then (List.range 2).foldl (fun s d =>
    if domSrc s d = 1 + i then s.setDom d { s.dom d with first := true } else s) s else s
  if n = 3 then ctFlag s1 5 else s1

/-- A pulse on input `i` (R421): inside the window or a first pulse it is valid and drives the servo of
every domain whose source it is; outside it is counted. -/
def ppsPulse (s : State) (i : Nat) : State :=
  let p := s.ppsIn i
  if s.rb (ppsA i 0) 0 then
    let win := s.rf (ppsA i 0) 31 16 * us
    let ok := match p.last with
      | none => true
      | some l => decide (l + 1000000 * us - win ≤ s.now ∧ s.now ≤ l + 1000000 * us + win)
    if ok then
      let lab := match p.pendLabel with | some x => x | none => p.label + 1
      let has := p.pendLabel.isSome || p.hasLabel
      let s1 := s.setPps i ⟨some s.now, 0, lab, has, none⟩
      let s2 := ((s1.wr (ppsA i 0xC) (lab % 2 ^ 32)).wr (ppsA i 0x10) (lab / 2 ^ 32 % 65536)).wf (ppsA i 8) 1 0 (1 + 2 * b2n has)
      (List.range 2).foldl (fun s d =>
        if domEn s d && decide (domSrc s d = 1 + i) then
          let e := domTime s d - sgn 32 (s.rd (ppsA i 4)) * fracU - (lab : Int) * secU
          servo s d e has
        else s) s2
    else
      let n := p.misses + 1
      let s1 := ((s.cnt (ppsA i 0x14) 1).wb (ppsA i 8) 0 false)
      ppsMissed (s1.setPps i { p with misses := n, last := if 3 ≤ n then none else p.last }) i n
  else s

/-- The window of input `i` closes with no valid pulse (R421). -/
def ppsMissing (s : State) (i : Nat) : State :=
  let p := s.ppsIn i
  match p.last with
  | none => s
  | some l =>
    if s.rb (ppsA i 0) 0 then
      let s0 := s.until (l + 1000000 * us + s.rf (ppsA i 0) 31 16 * us)
      let n := p.misses + 1
      ppsMissed ((s0.setPps i { p with misses := n, last := if 3 ≤ n then none else some (l + 1000000 * us) }).wb (ppsA i 8) 0 false) i n
    else s

/-- CRC-8 of a ToD message (R423). -/
def todCrc (l : List Byte) : Nat := crcMsb 8 0x07 0 l

/-- The second a ToD message of R423 names, or none if it is not a valid message. -/
def todSecond (l : List Byte) : Option Nat :=
  if l.length = 16 ∧ le l 0 2 = 0x4454 ∧ le l 2 1 = 1 ∧ todCrc (l.take 15) = le l 15 1 ∧ tb (le l 3 1) 0 then some (le l 4 6) else none

/-- Two decimal digits at position `i`. -/
def dig2 (l : List Byte) (i : Nat) : Option Nat :=
  let a := (l.getD i 0).toNat
  let b := (l.getD (i + 1) 0).toNat
  if 48 ≤ a ∧ a ≤ 57 ∧ 48 ≤ b ∧ b ≤ 57 then some (10 * (a - 48) + (b - 48)) else none

/-- Hexadecimal digit. -/
def hexDig (b : Byte) : Option Nat :=
  let a := b.toNat
  if 48 ≤ a ∧ a ≤ 57 then some (a - 48) else if 65 ≤ a ∧ a ≤ 70 then some (a - 55) else if 97 ≤ a ∧ a ≤ 102 then some (a - 87) else none

/-- Comma-separated fields of a sentence body. -/
def fields (l : List Byte) : List (List Byte) :=
  l.foldr (fun b acc => if b = 44#8 then [] :: acc else match acc with | [] => [[b]] | h :: t => (b :: h) :: t) [[]]

/-- Unix-like count of seconds since 1970-01-01 of a UTC date and time from 2000 to 2099. -/
def utcSecs (y m d h mi sec : Nat) : Nat := (daysBefore y m + (d - 1)) * 86400 + h * 3600 + mi * 60 + sec + 946684800

/-- The TAI second of an NMEA 0183 ZDA or RMC sentence (R422), UTC + CT_UTC_OFS. -/
def nmeaSecond (ofs : Nat) (l : List Byte) : Option Nat :=
  let l := l.filter (fun b => b ≠ 13#8 ∧ b ≠ 10#8)
  if l.head? ≠ some 36#8 then none
  else
    let body := (l.drop 1).takeWhile (· ≠ 42#8)
    let ck := (l.drop 1).dropWhile (· ≠ 42#8)
    let x := body.foldl (fun c b => c ^^^ b.toNat) 0
    match hexDig (ck.getD 1 0), hexDig (ck.getD 2 0) with
    | some a, some b =>
      if 16 * a + b = x ∧ ck.length = 3 then
        let f := fields body
        let id := (f.getD 0 []).drop 2
        let t := f.getD 1 []
        match dig2 t 0, dig2 t 2, dig2 t 4 with
        | some h, some mi, some sec =>
          if h < 24 ∧ mi < 60 ∧ sec ≤ 60 then
            if id = [90#8, 68#8, 65#8] then
              match dig2 (f.getD 2 []) 0, dig2 (f.getD 3 []) 0, dig2 (f.getD 4 []) 2 with
              | some d, some m, some y => if 1 ≤ m ∧ m ≤ 12 ∧ 1 ≤ d ∧ d ≤ 31 then some (utcSecs y m d h mi sec + ofs) else none
              | _, _, _ => none
            else if id = [82#8, 77#8, 67#8] ∧ f.getD 2 [] = [65#8] then
              let dt := f.getD 9 []
              match dig2 dt 0, dig2 dt 2, dig2 dt 4 with
              | some d, some m, some y => if 1 ≤ m ∧ m ≤ 12 ∧ 1 ≤ d ∧ d ≤ 31 then some (utcSecs y m d h mi sec + ofs) else none
              | _, _, _ => none
            else none
          else none
        | _, _, _ => none
      else none
    | _, _ => none

/-- A ToD sentence arrives on input `i` and labels the preceding pulse, or is rejected (R421, R422). -/
def todSentence (s : State) (i : Nat) (l : List Byte) : State :=
  let sec := match s.rf (ppsA i 0) 3 2 with
    | 1 => nmeaSecond (s.rd (ctRegs + 0x10)) l
    | 2 => todSecond l
    | _ => none
  if s.rb (ppsA i 0) 0 && decide (s.rf (ppsA i 0) 3 2 = 1 ∨ s.rf (ppsA i 0) 3 2 = 2) then
    match sec with
    | none => ctFlag ((s.cnt (ppsA i 0x18) 1).wb (ppsA i 8) 2 false) 6
    | some x =>
      let p := s.ppsIn i
      match p.last with
      | some t =>
        if t + 1000 * us ≤ s.now ∧ s.now ≤ t + 900000 * us ∧ p.pendLabel = none then
          let s1 := s.setPps i { p with label := x, hasLabel := true }
          (((s1.wr (ppsA i 0xC) (x % 2 ^ 32)).wr (ppsA i 0x10) (x / 2 ^ 32 % 65536)).wb (ppsA i 8) 1 true).wb (ppsA i 8) 2 true
        else s.wb (ppsA i 8) 2 true
      | none => s.wb (ppsA i 8) 2 true
  else s

/-- ToD message of R423 describing second `sec`. -/
def todMessage (s : State) (sec : Nat) : List Byte :=
  let d := selDom s
  let b := natLe 2 0x4454 ++ natLe 1 1 ++ natLe 1 (b2n (domValid s d) + 8 * domOrigin s d + 32 * (domState s d % 4))
    ++ natLe 6 sec ++ natLe 2 (s.rd (ctRegs + 0x10)) ++ natLe 3 0
  b ++ natLe 1 (todCrc b)

/-- PPS_OUT rises at the next whole second of S + DLY; with TOD_EN the message follows 10 ms later (R424). -/
def ppsOutEdge (s : State) : State :=
  let cfg := ctRegs + 0x30100
  if s.rb cfg 0 then
    let dly := sgn 32 (s.rd (cfg + 4)) * fracU
    let cur := (sTime s + dly) / secU
    let k := if s.ct.ppsHigh then max (s.ct.ppsOut + 1) (if cur = s.ct.ppsOut then cur + 1 else cur) else cur + 1
    let s1 := untilS (k * secU - dly) 64 s
    let s2 := { s1.emit (.pps k) with ct := { s1.ct with ppsOut := k, ppsHigh := true } }
    if s.rb cfg 1 then s2.emit (.tod (todMessage s2 (k % (2 ^ 48 : Nat)).toNat)) else s2
  else s

/-! ## Holdover and switchover (R415, R417) -/

/-- Mean of the servo's FREQ values (R415). -/
def freqMean (m : Domain) (f : Int) : Int := if m.hist = [] then f else m.hist.sum / (m.hist.length : Nat)

/-- Domain `d` goes from LOCKED to HOLDOVER and its FREQ is frozen at the mean (R415). -/
def holdoverNow (s : State) (d : Nat) : State :=
  if domState s d = 2 ∧ domSrc s d ≠ 0 then
    setState (domSetFreq s d (uns 32 (freqMean (s.dom d) (domFreq s d)))) d 3
  else s

/-- The fabric source of domain `d` is lost (R459): PL_INT_STATUS.TMK_LOST, and holdover. -/
def fabricLost (s : State) (d : Nat) : State := holdoverNow (s.flag (plRegs + 0xC) (plRegs + 0x10) 3 9) d

/-- HOLDOVER_ENTRY: 2.5 s without a pulse, or 1 ms without a marker, after the last one. -/
def holdover (s : State) (d : Nat) : State :=
  match domSrc s d, domState s d with
  | 0, _ => s
  | 3, 1 => fabricLost (s.until ((s.dom d).lastPulse + 1000 * us)) d
  | 3, 2 => fabricLost (s.until ((s.dom d).lastPulse + 1000 * us)) d
  | _, 2 => holdoverNow (s.until ((s.dom d).lastPulse + 2500000 * us)) d
  | _, _ => s

/-- Is domain `d` barred as a target of automatic switching at this instant (R417)? -/
def isBarred (s : State) (d : Nat) : Bool :=
  match s.ct.barred with
  | some (x, t) => decide (x = d) && !(decide (domState s d = 2) && decide (max t (s.dom d).lockedAt + 10000000 * us ≤ s.now))
  | none => false

/-- A change of SEL (R416, R417). -/
def selectDom (s : State) (d : Nat) : State := withS s (fun s => s.wf ctRegs 0 0 d)

/-- A software write of SEL: a switchover, which lifts the bar (R417). -/
def selWrite (s : State) (d : Nat) : State :=
  let s1 := if selDom s = d % 2 then s else selectDom s (d % 2)
  { s1 with ct := { s1.ct with barred := none } }

/-- Does the automatic rule call for a switch now? -/
def autoDue (s : State) : Bool :=
  let d := selDom s
  s.rb ctRegs 1 && (decide (domState s d ≠ 2) || !domValid s d) && decide (domState s (1 - d) = 2) && !isBarred s (1 - d)

/-- The Clocktower changes SEL itself (R417). -/
def autoSwitch (s : State) : State :=
  if autoDue s then
    let d := selDom s
    let s1 := ctFlag ((selectDom s (1 - d)).cnt (ctRegs + 0x14) 1) 0
    { s1 with ct := { s1.ct with barred := some (d, s.now) } }
  else s

/-! ## SyncE (R425) -/

def seState (s : State) : Nat := s.rf (ctRegs + 0x2014) 1 0
def seActive (s : State) : Nat := s.rf (ctRegs + 0x2014) 5 4

def setSe (s : State) (st k : Nat) : State :=
  let v := st + 16 * k + 256 * s.ct.seQual
  let s1 := s.wr (ctRegs + 0x2014) v
  if seState s ≠ st ∨ seActive s ≠ k then ctFlag s1 3 else s1

/-- Qualification of the SyncE candidates becomes `qual`: switch, hold over, or stay (R425). -/
def seUpdate (s : State) (qual : Nat) : State :=
  let en := fun k => s.rb (ctRegs + 0x2004 + 4 * k) 8
  let q := (List.range 4).foldl (fun m k => if tb qual k && en k then setBit m k else m) 0
  let since := (List.range 4).foldl (fun t k =>
    if tb q k then (if tb s.ct.seQual k then t else tset (fun _ => 0) t k s.now) else tset (fun _ => 0) t k 0) s.ct.seSince
  let s1 := { s with ct := { s.ct with seQual := q, seSince := since } }
  if s.rb (ctRegs + 0x2000) 0 then
    let k := seActive s
    let st := seState s
    let best := lowest 4 (tb q)
    if (st = 1 ∨ st = 3) ∧ tb q k then
      let back := lowest k (fun j => tb q j && decide (tget (fun _ => 0) since j + 10000000 * us ≤ s.now))
      if s.rb (ctRegs + 0x2000) 4 then
        match back with
        | some j => setSe s1 st j
        | none => setSe s1 st k
      else setSe s1 st k
    else
      match best with
      | some j => if st = 1 then setSe s1 1 j else setSe s1 3 j
      | none => if st = 1 ∨ st = 3 then setSe s1 2 k else setSe s1 st k
  else setSe s1 0 0

/-! ## Register reads and writes (R44, R428) -/

/-- The live value of a Clocktower register: stored, or computed from the block's state. -/
def ctView (nm : String) (ix : List Nat) (a : Nat) (s : State) : Nat :=
  let i := ix.getD 0 0
  match nm with
  | "CT_TT_STATUS" => b2n (trainOn s i) + 2 * b2n (s.train i).slewing + 4 * b2n (!domValid s (selDom s))
  | "CT_TT_PHERR" => if trainOn s i then uns 32 (toNs (sRemNow s)) else 0
  | "CT_STATUS" => selDom s + 2 * b2n (anyTrain s && decide (sRemNow s ≠ 0))
  | "CT_S_REM" => if anyTrain s then uns 32 (toNs (sRemNow s)) else 0
  | "CT_D_SLEW_REM" => uns 32 (toNs (domRem s i))
  | "CT_D_TS_SEC_HI" => timeWord (match (s.dom i).snap with | some x => x | none => domTime s i) 0
  | "CT_D_TS_SEC_LO" => timeWord (match (s.dom i).snap with | some x => x | none => domTime s i) 1
  | "CT_D_TS_NS" => timeWord (match (s.dom i).snap with | some x => x | none => domTime s i) 2
  | "CT_D_TS_FRAC" => timeWord (match (s.dom i).snap with | some x => x | none => domTime s i) 3
  | "CT_PORT_TXFIX" => (Config.txFix i).toNat
  | "CT_PORT_RXFIX" => (Config.rxFix i).toNat
  | "CT_TXQ_ENTRY" => tsWord (tget noTs s.ct.txq i) 0
  | "CT_TXQ_SEC_HI" => tsWord (tget noTs s.ct.txq i) 1
  | "CT_TXQ_SEC_LO" => tsWord (tget noTs s.ct.txq i) 2
  | "CT_TXQ_NS" => tsWord (tget noTs s.ct.txq i) 3
  | "CT_TXQ_FRAC" => tsWord (tget noTs s.ct.txq i) 4
  | "CT_TXQ_STATUS" => s.rd a % 2 ^ 9 / 256 * 256 + (tget noTs s.ct.txq i).length
  | _ => s.rd a

/-- SNAP: capture both domain times in one cycle (R428). -/
def ctSnap (s : State) : State :=
  (List.range 2).foldl (fun s d => s.setDom d { s.dom d with snap := some (domTime s d) }) s

/-- MAC instance `n` enabled: its timestamp port's DOMAIN and USER are then locked (R418, R428). -/
def macEn (s : State) (n : Nat) : Bool := s.rb (macBase n + 0x1000) 0

/-- The Clocktower's own part of a register write. -/
def ctWrite : WriteHook := fun nm ix v s s1 =>
  let i := ix.getD 0 0
  match nm with
  | "CT_TT_CTRL" =>
    let f := fld v 7 4
    if 12 ≤ f ∨ (trainOn s i ∧ f ≠ trainFmt s i) then (rspTgt, s)
    else
      let lv := s.wf (ttA i 0) 11 4 (fld v 11 4)
      match trainOn s i, tb v 0 with
      | false, true => (rspOk, trainEnable lv i)
      | true, false => (rspOk, trainDisable (s.wf (ttA i 0) 11 8 (fld v 11 8)) i)
      | _, _ => (rspOk, lv)
  | "CT_TT_OFS_FRAC" => if trainOn s i then (rspTgt, s) else (rspOk, s1)
  | "CT_TT_OFS_NS" => if trainOn s i then (rspTgt, s) else (rspOk, s1)
  | "CT_TT_SLEW" => if fld v 15 0 = 0 then (rspTgt, s) else (rspOk, withS s (fun _ => s1))
  | "CT_CTRL" =>
    let s2 := s.wf ctRegs 1 1 (fld v 1 1)
    let s3 := selWrite s2 (fld v 0 0)
    (rspOk, if tb v 2 then ctSnap s3 else s3)
  | "CT_INT_STATUS" => (rspOk, s1)
  | "CT_INT_EN" => (rspOk, s1.rise 2 (decide (s.rd (ctRegs + 8) &&& s.rd (ctRegs + 0xC) ≠ 0)) (decide (s1.rd (ctRegs + 8) &&& s1.rd (ctRegs + 0xC) ≠ 0)))
  | "CT_D_CFG" =>
    if domEn s i ∧ fld v 3 2 ≠ domSrc s i then (rspTgt, s)
    else if fld v 15 8 = 0 then (rspTgt, s)
    else
      let s2 := s.wf (domA i 0) 23 1 (fld v 23 1 &&& 0x7FFF87)
      match domEn s i, tb v 0 with
      | false, true => (rspOk, domEnable s2 i)
      | true, false => (rspOk, domDisable s2 i)
      | _, _ => (rspOk, s2)
  | "CT_D_STATE" =>
    if domSrc s i ≠ 0 then (rspTgt, s)
    else if 4 ≤ fld v 2 0 then (rspTgt, s)
    else (rspOk, setState s i (fld v 2 0))
  | "CT_D_FREQ" => (rspOk, domSetFreq s i v)
  | "CT_D_ADJ_CMD" => domCmd s i v
  | "CT_D_SLEW" => if fld v 15 0 = 0 then (rspTgt, s) else (rspOk, s1)
  | "CT_D_SET_FRAC" => if 999999999 < s1.rd (domA i 0x38) then (rspTgt, s) else (rspOk, s1)
  | "CT_SE_CFG" => if fld v 2 1 = 3 then (rspTgt, s) else (rspOk, seUpdate s1 s1.ct.seQual)
  | "CT_SE_REFk" =>
    if s.rb (ctRegs + 0x2000) 0 ∧ seActive s = i ∧ (seState s = 1 ∨ seState s = 3) then (rspTgt, s) else (rspOk, s1)
  | "CT_PORT_CFG" => if macEn s i ∧ fld v 0 0 ≠ s.rf (ctRegs + 0x10000 + i * 0x100) 0 0 then (rspTgt, s) else (rspOk, s1)
  | "CT_PORT_TXUSER" => if macEn s i then (rspTgt, s) else (rspOk, s1)
  | "CT_PORT_RXUSER" => if macEn s i then (rspTgt, s) else (rspOk, s1)
  | "CT_PPSIN_CFG" =>
    if fld v 31 16 = 0 ∨ 50000 < fld v 31 16 ∨ 8 ≤ fld v 7 4 ∨ fld v 3 2 = 3 then (rspTgt, s)
    else if tb v 0 && !s.rb (ppsA i 0) 0 then (rspOk, s1.setPps i PpsIn.reset)
    else (rspOk, s1)
  | "CT_PPSOUT_CFG" => if fld v 31 16 = 0 ∨ 500 < fld v 31 16 ∨ 8 ≤ fld v 7 4 then (rspTgt, s) else (rspOk, s1)
  | _ => (rspOk, s1)

/-! ## Meanings -/

/-- R42. -/
def execTickEdge (t : Nat) (s : State) : Out := if t < 16 then .next (tickEdge s t) else .fault .noSuchUnit
/-- R45. -/
def execTrainEnable (t : Nat) (s : State) : Out :=
  if t < 16 then .next (s.regWriteBy ctWrite (ttA t 0) (setBit (s.rd (ttA t 0)) 0)) else .fault .noSuchUnit
/-- R43: time reaches the end of the slew of S, the train's SLEWING clears. -/
def execTrainSlewEnd (t : Nat) (s : State) : Out :=
  if t < 16 then
    if (s.train t).slewing then
      let s1 := s.until (sSlewEnd s)
      .next (s1.setTrain t { s1.train t with slewing := false })
    else .next s
  else .fault .noSuchUnit
/-- R412. -/
def execDomainEnable (d : Nat) (s : State) : Out := if d < 2 then .next ((domEnable s d).answer rspOk 0) else .fault .noSuchUnit
/-- R412. -/
def execDomainDisable (d : Nat) (s : State) : Out := if d < 2 then .next ((domDisable s d).answer rspOk 0) else .fault .noSuchUnit
/-- R413. -/
def execDomainStep (d : Nat) (s : State) : Out := if d < 2 then .next (s.regWriteBy ctWrite (domA d 0x14) 1) else .fault .noSuchUnit
/-- R413. -/
def execDomainSlew (d : Nat) (s : State) : Out := if d < 2 then .next (s.regWriteBy ctWrite (domA d 0x14) 2) else .fault .noSuchUnit
/-- R413. -/
def execDomainSet (d : Nat) (s : State) : Out := if d < 2 then .next (s.regWriteBy ctWrite (domA d 0x14) 4) else .fault .noSuchUnit
/-- R413. -/
def execDomainAbort (d : Nat) (s : State) : Out := if d < 2 then .next (s.regWriteBy ctWrite (domA d 0x14) 8) else .fault .noSuchUnit
/-- R413. -/
def execFreqWrite (d val : Nat) (s : State) : Out :=
  if d < 2 then .next (s.regWriteBy ctWrite (domA d 8) val) else .fault .noSuchUnit
/-- R413: time reaches the end of the domain's slew, nothing of it remains. -/
def execDomainSlewDone (d : Nat) (s : State) : Out :=
  if d < 2 then
    if domEn s d ∧ (s.dom d).slew ≠ 0 then
      let m := s.dom d
      let s1 := s.until (m.anchor / 3125 * 3125 + slewQuanta m.slew m.rate)
      .next (withS s1 (fun s => anchorDom s d))
    else .next s
  else .fault .noSuchUnit
/-- R414, R421. -/
def execPpsPulse (i : Nat) (s : State) : Out := if i < 2 then .next (ppsPulse s i) else .fault .noSuchUnit
/-- R421, R422. -/
def execTodSentence (i : Nat) (bytes : List Byte) (s : State) : Out :=
  if i < 2 then .next (todSentence s i bytes) else .fault .noSuchUnit
/-- R415. -/
def execHoldoverEntry (d : Nat) (s : State) : Out := if d < 2 then .next (holdover s d) else .fault .noSuchUnit
/-- R417. -/
def execSelWrite (d : Nat) (s : State) : Out :=
  if d < 2 then .next ((selWrite s d).answer rspOk 0) else .fault .noSuchUnit
/-- R417. -/
def execAutoSwitchover (s : State) : Out := .next (autoSwitch s)
/-- R416: time reaches the end of the slew of S, S_SLEW_DONE is set. -/
def execSSlewDone (s : State) : Out :=
  if s.ct.sRem ≠ 0 then
    let s1 := s.until (sSlewEnd s)
    .next (ctFlag { s1 with ct := { s1.ct with sRem := 0, sAnchor := s1.now } } 7)
  else .next s
/-- R428. -/
def execCtSnap (s : State) : Out := .next ((ctSnap s).answer rspOk 0)
/-- R424. -/
def execPpsOutEdge (s : State) : Out := .next (ppsOutEdge s)
/-- R420. -/
def execTxqEntryRead (n : Nat) (s : State) : Out :=
  if n < 33 then
    let r := tsRead s n
    .next (r.2.answer rspOk r.1)
  else .fault .noSuchUnit
/-- R425. -/
def execSynceRefSwitch (qual : Nat) (s : State) : Out := .next (seUpdate s qual)
/-- R425: the DPLL reaches lock on its reference. -/
def execSynceDpllLock (s : State) : Out := .next (if seState s = 3 then setSe s 1 (seActive s) else s)
/-- R421. -/
def execPpsPulseMissing (i : Nat) (s : State) : Out := if i < 2 then .next (ppsMissing s i) else .fault .noSuchUnit

end Sys2Proof.Machine
end

