-- ==== Sys2Proof/Machine/Yard0.lean ====
section
/-! DEFINITION. What every agent that uses the Yard needs of it: fence states and generations of endpoints
(R307-R310), the readiness of a shed (R305, R527) and the answer the network interfaces give a request
before its target sees it (R304). -/

namespace Sys2Proof.Machine

def epDflt : Nat → EpState := fun _ => EpState.reset

/-- Fence state of endpoint `e`. -/
def State.epSt (s : State) (e : Nat) : EpState := tget epDflt s.eps e
def State.setEp (s : State) (e : Nat) (x : EpState) : State := { s with eps := tset epDflt s.eps e x }

/-- An endpoint that is not OPEN absorbs traffic (R309). -/
def State.fenced (s : State) (e : Nat) : Bool := decide ((s.epSt e).st ≠ 0)

/-- Count a request answered RSP_FENCED at endpoint `e` (YRD_EP_ABSORBED). -/
def State.absorb (s : State) (e : Nat) : State :=
  s.setEp e { s.epSt e with absorbed := sat32 ((s.epSt e).absorbed + 1) }

/-- Count a posted worm or response discarded at endpoint `e` (YRD_EP_DISCARD). -/
def State.discardAt (s : State) (e : Nat) : State :=
  s.setEp e { s.epSt e with discard := sat32 ((s.epSt e).discard + 1) }

/-- Shed of an endpoint (R524, R568). -/
def epShed (e : Nat) : Nat :=
  let r := e / 32
  let p := e % 32
  if r < 24 then r
  else if 74 ≤ r ∧ r ≤ 81 then r - 50
  else if 36 ≤ r ∧ r ≤ 59 then 32 + (r - 36) / 3
  else if 26 ≤ r ∧ r ≤ 33 then 40 + (r - 26) / 4
  else if 62 ≤ r ∧ r ≤ 69 then 40 + (r - 54) / 4
  else if r = 24 ∨ r = 25 ∨ r = 34 ∨ r = 35 ∨ r = 60 ∨ r = 61 ∨ r = 70 ∨ r = 71 then shedFh
  else if r = 72 ∨ r = 73 ∨ r = 82 ∨ r = 83 then shedLoft
  else if r = 84 ∨ r = 85 ∨ r = 94 ∨ r = 95 then shedPl
  else if r = 90 then shedCt
  else if r = 91 then shedLoft
  else if r = 92 then shedAon
  else if r = 93 then (if p < 2 then shedYard else shedLoft)
  else shedYard

/-- STEP of a shed's status (R546). -/
def State.shedStep (s : State) (k : Nat) : Nat := s.rf (shdRegs + 0x200 + 4 * k) 6 4

/-- A transition of shed `k` is in progress (R546). -/
def State.shedBusy (s : State) (k : Nat) : Bool := s.rb (shdRegs + 0x200 + 4 * k) 2

/-- Shed `k` is ON and no transition is in progress, so requests for it are delivered (R305, R529). -/
def State.shedReady (s : State) (k : Nat) : Bool := decide (s.shedCur k = 3) && !s.shedBusy k

/-- Shed `k` stands at VERIFY_HOLD (R515, R527). -/
def State.shedHeld (s : State) (k : Nat) : Bool := s.shedReady k && decide (s.shedStep k = 4)

def trDflt : Nat → ShedTr := fun _ => ShedTr.reset
def State.shedTr (s : State) (k : Nat) : ShedTr := tget trDflt s.power.trs k
def State.setShedTr (s : State) (k : Nat) (x : ShedTr) : State := { s with power := { s.power with trs := tset trDflt s.power.trs k x } }

/-- SHD_CTRL and SHD_STATUS of shed `k` (R546). -/
def shdCtrl (k : Nat) : Nat := shdRegs + 0x100 + 4 * k
def shdStatus (k : Nat) : Nat := shdRegs + 0x200 + 4 * k

/-- Shed `k` begins to rise under R527 from the state it is in. From IDLE, the steps its ready signals have
shown before still stand (R546). -/
def shedKick (s : State) (k : Nat) : State :=
  let c := s.shedCur k
  ((((s.wb (shdStatus k) 2 true).wf (shdStatus k) 6 4 (if c = 2 then 3 else 0)).wf (shdStatus k) 10 8 0)).setShedTr k
    { s.shedTr k with tr := 1 + c, since := s.now }

/-- A wake request for shed `k` reaches the sheds controller (R533): refused and counted for a shed that is OFF
with no rise in progress or asked for; of no effect for one that is ON; else its pending-wake bit is set, and a shed
at rest begins to rise. -/
def wakeShed (s : State) (k : Nat) : State :=
  if s.shedBusy k then s.wb (shdStatus k) 3 true
  else if s.shedCur k = 3 then s
  else if s.shedCur k = 0 ∧ s.rf (shdCtrl k) 1 0 = 0 then s.cnt (shdRegs + 0x30) 1
  else shedKick (s.wb (shdStatus k) 3 true) k

/-! ## Routes (R293, R313) -/

/-- Register `o` of the Yard network control block. -/
def yrdA (o : Nat) : Nat := yrdRegs + o

/-- Current epoch E. -/
def yrdEpoch (s : State) : Nat := s.rf (yrdA 0x24) 0 0

/-- PORT of router `r` for destination router `d` in table `t`. -/
def routePort (s : State) (t r d : Nat) : Nat :=
  let a := yrdA (0x20000 + r * 0x100 + t * 0x80 + d / 4 * 4)
  s.rf a (8 * (d % 4) + 2) (8 * (d % 4))

/-- Neighbour of router `r` through mesh port `p` (1 N, 2 E, 3 S, 4 W), if it exists. -/
def neighbour (r p : Nat) : Option Nat :=
  match p with
  | 1 => if r + 12 < 96 then some (r + 12) else none
  | 2 => if r % 12 < 11 then some (r + 1) else none
  | 3 => if 12 ≤ r then some (r - 12) else none
  | 4 => if 0 < r % 12 then some (r - 1) else none
  | _ => none

/-- Does a worm from router `r` to router `d` meet a DOWN link on table `t`? -/
def routeDown (s : State) (t d : Nat) : Nat → Nat → Bool
  | 0, _ => false
  | n + 1, r =>
    if r = d then false
    else
      let p := routePort s t r d
      if p ≠ 0 ∧ s.down.contains (4 * r + (p - 1)) then true
      else match neighbour r p with
        | some q => routeDown s t d n q
        | none => false

/-- A worm from endpoint `src` to endpoint `dst` is absorbed at a DOWN link (R298). -/
def State.cut (s : State) (src dst : Nat) : Bool :=
  !s.down.isEmpty && routeDown s (yrdEpoch s) (dst / 32) 31 (src / 32)

/-- The answer of the network interfaces to a request of endpoint `src` for endpoint `dst` (R304), RSP_OK
if the request reaches its target. A request to a shed that is not ready when its answer comes was held, woke
the shed and was answered RSP_WAKE (R305; log 21). -/
def State.ni (s : State) (src dst : Nat) : Nat × State :=
  if dst = 0xFFF then (rspNone, s)
  else if s.fenced src then (rspFenced, s.absorb src)
  else if s.cut src dst then (rspNone, s.cnt (yrdA 0x58) 1)
  else if s.fenced dst then (rspFenced, s.absorb dst)
  else if s.shedReady (epShed dst) then (rspOk, s)
  else (rspWake, (wakeShed s (epShed dst)).cnt (yrdA 0x50) 1)

/-- The code with which a response of `dst` reaches `src` (R298). -/
def State.back (s : State) (src dst code : Nat) : Nat × State :=
  if s.cut dst src then (rspNone, s.cnt (yrdA 0x58) 1) else (code, s)

/-- Does a posted worm of `src` reach `dst` (R309)? It is discarded and counted at a fenced endpoint. -/
def State.niPosted (s : State) (src dst : Nat) : Bool × State :=
  if s.fenced src then (false, s.discardAt src)
  else if s.cut src dst then (false, s.cnt (yrdA 0x58) 1)
  else if s.fenced dst then (false, s.discardAt dst)
  else (true, s)

end Sys2Proof.Machine
end

