-- ==== Sys2Proof/Machine/Ecc.lean ====
section
/-! DEFINITION. Memory behind its code: the symbol code (R326-R330), LPDDR5X inline ECC (R341), ledgers
(R331, R332), uncorrectable words and poison (R334, R335), injection (R339) and the reads and writes every
memory consumer makes. `State.mem` holds raw data bits and `State.ecc` the XOR of a word's stored check
field with the check field its raw data encode to, 0 for a valid word. -/

namespace Sys2Proof.Machine

/-! ## The code -/

/-- Product in GF(16) under x^4 + x + 1 (R327). -/
def gfMul (a b : Nat) : Nat :=
  let p := (List.range 4).foldl (fun p i => if tb b i then p ^^^ (a % 16) <<< i else p) 0
  [(6, 0x4C), (5, 0x26), (4, 0x13)].foldl (fun p (i, m) => if tb p i then p ^^^ m else p) p

/-- Inverse in GF(16): a^14. -/
def gfInv (a : Nat) : Nat :=
  let a2 := gfMul a a
  let a4 := gfMul a2 a2
  let a8 := gfMul a4 a4
  gfMul a8 (gfMul a4 a2)

/-- f(a, b) = a² + a·b + 8·b² (R327). -/
def gfF (a b : Nat) : Nat := gfMul a a ^^^ gfMul a b ^^^ gfMul 8 (gfMul b b)

/-- Position (a, b) of symbol `i` in the map of R327. -/
def symPos (i : Nat) : Nat × Nat :=
  if i < 8 then (i, 2)
  else if i < 15 then (i + 1, 2)
  else if i < 23 then (i - 15, 3)
  else if i < 30 then (i - 14, 3)
  else if i = 30 then (0, 4)
  else if i = 31 then (1, 4)
  else if i = 32 then (0, 0)
  else if i = 33 then (1, 0)
  else (0, 1)

/-- Check field of a word that is zero but for data symbol `i` = `p` (R328). -/
def encodeSym (i p : Nat) : Nat :=
  let ab := symPos i
  let p1 := gfMul ab.1 p
  let p2 := gfMul ab.2 p
  let p3 := gfMul (gfF ab.1 ab.2) p
  (p ^^^ p1 ^^^ p2) + p1 * 16 + p2 * 256 + (p3 ^^^ p1 ^^^ gfMul 8 p2) * 4096

/-- Syndrome S3 : S2 : S1 : S0 of a word whose check field differs by `d` from its data's encoding. -/
def synd (d : Nat) : Nat :=
  let c0 := d % 16
  let c1 := d / 16 % 16
  let c2 := d / 256 % 16
  let c3 := d / 4096 % 16
  (c0 ^^^ c1 ^^^ c2) + c1 * 16 + c2 * 256 + (c1 ^^^ gfMul 8 c2 ^^^ c3) * 4096

/-- What the decoder makes of a word (R329, R341): good, poisoned, corrected at a position (ledger POS) with
an error value and a syndrome, or uncorrectable. -/
inductive WordSt where
  | good
  | poisoned
  | fixed (pos err syn : Nat)
  | bad
deriving DecidableEq, Repr

/-- The SRAM decoder (R329). -/
def sramDecode (d : Nat) : WordSt :=
  let y := synd d
  let s0 := y % 16
  let s1 := y / 16 % 16
  let s2 := y / 256 % 16
  let s3 := y / 4096 % 16
  if y = 0 then .good
  else if y = 0x0100 then .poisoned
  else if s0 = 0 ∧ s1 = 0 ∧ s2 = 0 then .fixed 35 s3 y
  else if s0 = 0 then .bad
  else
    let a := gfMul s1 (gfInv s0)
    let b := gfMul s2 (gfInv s0)
    match (List.range 35).find? (fun i => symPos i = (a, b)) with
    | some i => if s3 = gfMul s0 (gfF a b) then .fixed i s0 y else .bad
    | none => .bad

/-- v(k) of R341: the (k + 1)-th integer from 3 upward that is not a power of two. -/
def ddrV (k : Nat) : Nat :=
  ((List.range 134).map (· + 3) |>.filter (fun n => ¬ (n = 4 ∨ n = 8 ∨ n = 16 ∨ n = 32 ∨ n = 64 ∨ n = 128))).getD k 0

/-- Check field c[8:0] of a word that is zero but for data bit `k` (R341). -/
def ddrEncodeBit (k : Nat) : Nat := let v := ddrV k; v + 256 * ((1 + popcount 8 v) % 2)

/-- The LPDDR5X decoder over the check difference c[8:0] and POISON in [11:9] (R341). -/
def ddrDecode (d : Nat) : WordSt :=
  let y := d % 256
  let p := popcount 9 d % 2
  if 2 ≤ popcount 3 (d / 512) then .poisoned
  else if y = 0 then (if p = 0 then .good else .fixed 136 1 (256 * p + y))
  else if p = 0 then .bad
  else
    match (List.range 128).find? (fun k => ddrV k = y) with
    | some k => .fixed k 1 (256 * p + y)
    | none => match (List.range 8).find? (fun j => 2 ^ j = y) with
      | some j => .fixed (128 + j) 1 (256 * p + y)
      | none => .bad

/-! ## Controllers (R324) -/

/-- Memory controller of the word at local address `a`, none if it is no memory. -/
def ctlOf (a : Nat) : Option Nat :=
  match regionOf a with
  | .barn port => some port
  | .imem g => some (64 + g / 8)
  | .xmem g => some (64 + g / 8)
  | .ymem g => some (64 + g / 8)
  | .engBuf c i => some (classCtl c + i)
  | .hltMem _ => some 302
  | .ddr => some (300 + fld a 12 12)
  | _ => none

/-- Register `o` of controller `n` (R342). -/
def eccA (n o : Nat) : Nat := eccRegs + 0x10000 + n * 0x400 + o

/-- Controller `n` has an enabled flag set (R342). -/
def eccFlagged (s : State) (n : Nat) : Bool :=
  let c := s.rd (eccA n 0)
  let f := s.rd (eccA n 4)
  (tb c 1 && tb f 0) || (tb c 2 && tb f 1) || (tb c 3 && (tb f 2 || tb f 4))

/-- The ECC interrupt (R342). -/
def eccIrq (s : State) : Bool := (List.range 327).any (eccFlagged s)

/-- Set flag `i` of controller `n`. -/
def eccSet (s : State) (n i : Nat) : State :=
  let s1 := s.wb (eccA n 4) i true
  s1.rise 1 (eccIrq s) (eccIrq s1)

/-- Address word of ledger entry `e` of controller `n`. -/
def lgA (n e : Nat) : Nat := eccA n (0x100 + 16 * e)

/-- Log a corrected error at word `w` (R331, R332). -/
def eccLog (s : State) (n w pos syn : Nat) (scrub wrote : Bool) : State :=
  let s1 := s.cnt (eccA n 8) 1
  let s2 := if s1.rd (eccA n 0x3C) ≠ 0 ∧ s1.rd (eccA n 8) = s1.rd (eccA n 0x3C) then eccSet s1 n 1 else s1
  let valid := fun e => s2.rb (lgA n e + 8) 31
  let info := pos + syn * 256 + b2n scrub * 2 ^ 24 + b2n wrote * 2 ^ 25 + 2 ^ 31
  match lowest 16 (fun e => valid e && decide (s2.rd (lgA n e) = w % 2 ^ 32 ∧ s2.rf (lgA n e + 4) 11 0 = w / 2 ^ 32)) with
  | some e =>
    let r := min 255 (s2.rf (lgA n e + 4) 31 24 + 1)
    (s2.wf (lgA n e + 4) 31 24 r).wr (lgA n e + 8) info
  | none =>
    match lowest 16 (fun e => !valid e) with
    | some e => ((s2.wr (lgA n e) (w % 2 ^ 32)).wr (lgA n e + 4) (w / 2 ^ 32)).wr (lgA n e + 8) info
    | none => eccSet (s2.cnt (eccA n 0x14) 1) n 2

/-- Check difference of the word at `w`. -/
def State.eccOf (s : State) (w : Nat) : Nat := tget (fun _ => 0) s.ecc w
def State.setEcc (s : State) (w d : Nat) : State := { s with ecc := tset (fun _ => 0) s.ecc w d }

/-- State of the word at `w`. -/
def State.wordSt (s : State) (w : Nat) : WordSt := if ddrBase ≤ w then ddrDecode (s.eccOf w) else sramDecode (s.eccOf w)

/-- Poison the word at `w` (R330, R341). -/
def State.poison (s : State) (w : Nat) : State := s.setEcc w (if ddrBase ≤ w then 0xE00 else 0x8101)

/-- A word's data with the correction of R329 or R341 applied. -/
def fixData (w pos err v : Nat) : Nat :=
  if ddrBase ≤ w then (if pos < 128 then v ^^^ 1 <<< pos else v)
  else if pos < 32 then v ^^^ err <<< (4 * pos) else v

/-- A new uncorrectable word found (R334): counted, captured and poisoned. -/
def eccUe (s : State) (n w kind req : Nat) : State :=
  let s1 := s.cnt (eccA n 0xC) 1
  let s2 := if s1.rb (eccA n 4) 0 then s1
    else eccSet (((s1.wr (eccA n 0x18) (w % 2 ^ 32)).wr (eccA n 0x1C) (w / 2 ^ 32)).wr (eccA n 0x20) (kind + req * 2 ^ 16)) n 0
  s2.poison w

/-- Read the 16-byte word at `w`: its corrected data, whether it is uncorrectable, and the state in which
its controller has counted and logged what it found (R331, R334). KIND and requester as ECC_UE_INFO has them. -/
def State.readWord (s : State) (w kind req : Nat) : Nat × Bool × State :=
  let v := s.ld w 16
  match s.wordSt w, ctlOf w with
  | .good, _ => (v, false, s)
  | _, none => (v, false, s)
  | .fixed pos err syn, some n => (fixData w pos err v, false, eccLog s n w pos syn false false)
  | .poisoned, some n => (v, true, s.cnt (eccA n 0x10) 1)
  | .bad, some n => (v, true, eccUe s n w kind req)

/-- Read `k` words from `w`: their bytes, the lowest uncorrectable word, and the state after. -/
def State.readWords (s : State) : Nat → Nat → Nat → Nat → List Byte × Option Nat × State
  | _, 0, _, _ => ([], none, s)
  | w, k + 1, kind, req =>
    let r := s.readWord w kind req
    let q := State.readWords r.2.2 (w + 16) k kind req
    (natLe 16 r.1 ++ q.1, if r.2.1 then some w else q.2.1, q.2.2)

/-- Read `n` bytes from `a`: the bytes, the lowest uncorrectable word, and the state after. -/
def State.readMem (s : State) (a n kind req : Nat) : List Byte × Option Nat × State :=
  let w := a / 16 * 16
  let r := s.readWords w ((a + n + 15 - w) / 16) kind req
  ((r.1.drop (a - w)).take n, r.2.1, r.2.2)

/-! ## Writes -/

/-- Make an armed injection into a write that has just been made to the word at `w` (R339). -/
def injectAt (s : State) (n w : Nat) : State :=
  let c := s.rd (eccA n 0x30)
  let at' := s.rd (eccA n 0x34) + s.rd (eccA n 0x38) * 2 ^ 32
  if tb c 0 && (!tb c 1 || decide (at' = w)) then
    let flip := fun (s : State) (pos pat : Nat) =>
      if pat = 0 then s
      else if ddrBase ≤ w then
        if pos < 128 then (s.st w 16 (s.ld w 16 ^^^ 1 <<< pos)).setEcc w (s.eccOf w ^^^ ddrEncodeBit pos)
        else s.setEcc w (s.eccOf w ^^^ 1 <<< (pos - 128))
      else if pos < 32 then (s.st w 16 (s.ld w 16 ^^^ pat <<< (4 * pos))).setEcc w (s.eccOf w ^^^ encodeSym pos pat)
      else s.setEcc w (s.eccOf w ^^^ pat <<< (4 * (pos - 32)))
    let s1 := flip (flip s (fld c 15 8) (fld c 19 16)) (fld c 27 20) (fld c 31 28)
    let s2 := s1.wb (eccA n 0x30) 0 false
    let s3 := if tb c 1 then s2 else (s2.wr (eccA n 0x34) (w % 2 ^ 32)).wr (eccA n 0x38) (w / 2 ^ 32)
    eccSet s3 n 3
  else s

/-- Write bytes that lie in the one word at `w`, from address `a` (R331, R335). `near` is a Kubry near store,
which merges with the raw bits of an uncorrectable word; any other write leaves that word unwritten and
poisoned. Answers whether the word was left unwritten. -/
def State.writeWord (s : State) (near : Bool) (w a : Nat) (l : List Byte) (req : Nat) : Bool × State :=
  match ctlOf w with
  | none => (false, s.store a l)
  | some n =>
    if l.length = 16 then (false, injectAt ((s.store a l).setEcc w 0) n w)
    else
      match s.wordSt w with
      | .good => (false, injectAt (s.store a l) n w)
      | .fixed pos err syn =>
        let s1 := eccLog s n w pos syn false false
        (false, injectAt (((s1.st w 16 (fixData w pos err (s1.ld w 16))).store a l).setEcc w 0) n w)
      | .poisoned =>
        let s1 := (s.cnt (eccA n 0x10) 1).cnt (eccA n 0x40) 1
        if near then (false, injectAt ((s1.store a l).setEcc w 0) n w) else (true, s1)
      | .bad =>
        let s1 := (eccUe s n w 3 req).cnt (eccA n 0x40) 1
        if near then (false, injectAt ((s1.store a l).setEcc w 0) n w) else (true, s1)

/-- Write a list of bytes from `a`, word by word; `k` bounds the number of words. Answers whether some word
was left unwritten. -/
def State.writeWords (s : State) (near : Bool) (req : Nat) : Nat → Nat → List Byte → Bool × State
  | 0, _, _ => (false, s)
  | k + 1, a, l =>
    if l = [] then (false, s)
    else
      let w := a / 16 * 16
      let m := w + 16 - a
      let r := s.writeWord near w a (l.take m) req
      let q := State.writeWords r.2 near req k (a + m) (l.drop m)
      (r.1 || q.1, q.2)

/-- A Yard write of `l` at `a` (R335). -/
def State.writeMem (s : State) (a : Nat) (l : List Byte) (req : Nat) : Bool × State :=
  s.writeWords false req (l.length / 16 + 2) a l

/-- A Kubry store of `l` at `a` (R335). -/
def State.writeNear (s : State) (a : Nat) (l : List Byte) (req : Nat) : State :=
  (s.writeWords true req (l.length / 16 + 2) a l).2

/-- Initiators that may access the LPDDR5X (R25, R499): Loft cores and peripherals' DMA masters, Barrow system
channels, the Tack room and the management port. -/
def ddrUser (e : Nat) : Bool :=
  let r := e / 32
  decide (r = 72 ∨ r = 73 ∨ r = 82 ∨ r = 83 ∨ e = loftDmaEp ∨ e = tackEp ∨ e = mgmtEp) ||
    (List.range 64).any (fun k => decide (brwEp (512 + k) = e))

/-- The LPDDR5X's own answer to an access to `n` bytes at `a` (R25, R26, R340, R494). -/
def ddrAnswer (s : State) (src a n : Nat) : Nat :=
  if a < ddrBase ∨ 0x80000000000 ≤ a then rspOk
  else if !ddrUser src then rspNone
  else
    let z := 2 ^ 32 * 2 ^ s.rf lftRegs 2 1
    let o := a - ddrBase + n
    if !s.rb lftRegs 0 then (if o ≤ 0x1000000 then rspOk else rspNone)
    else if z < o then rspNone
    else if z / 8 * 7 < o then rspTgt
    else rspOk

/-- A request of `src` for `n` bytes of memory at `a` within one endpoint: its answer, the bytes, and the
state after (R304). -/
def State.fetch (s : State) (src a n : Nat) : Nat × List Byte × State :=
  let r := s.ni src (epOf a)
  let d := ddrAnswer s src a n
  if r.1 ≠ rspOk then (r.1, [], r.2)
  else if d ≠ rspOk then (d, [], r.2)
  else
    let m := r.2.readMem a n 0 src
    let b := m.2.2.back src (epOf a) (if m.2.1.isSome then rspUe else rspOk)
    (b.1, m.1, b.2)

/-- A write request of `src` to memory at `a` (R304, R335). -/
def State.put (s : State) (src a : Nat) (l : List Byte) : Nat × State :=
  let r := s.ni src (epOf a)
  let d := ddrAnswer s src a l.length
  if r.1 ≠ rspOk then r
  else if d ≠ rspOk then (d, r.2)
  else
    let m := r.2.writeMem a l src
    m.2.back src (epOf a) (if m.1 then rspUe else rspOk)

/-- A posted write of `src` to memory at `a`, at most to the end of one 256-byte block (R299, R309). One that meets a
sleeping shed wakes it and is lost when the wake timer ends (R305; log 21). -/
def State.putPosted (s : State) (src a : Nat) (l : List Byte) : State :=
  let r := s.niPosted src (epOf a)
  if !r.1 ∨ ddrAnswer s src a l.length ≠ rspOk then r.2
  else if r.2.shedReady (epShed (epOf a)) then (r.2.writeMem a l src).2
  else (wakeShed r.2 (epShed (epOf a))).cnt (yrdA 0x50) 1

/-- The pieces of `l` at `a` within 256-byte blocks (R296). -/
def blocks256 (a : Nat) (l : List Byte) : List (Nat × List Byte) :=
  ((List.range (l.length / 256 + 2)).map (fun i =>
    let lo := max a ((a / 256 + i) * 256)
    let hi := min (a + l.length) ((a / 256 + i + 1) * 256)
    (lo, (l.drop (lo - a)).take (hi - lo)))).filter (fun p => !p.2.isEmpty)

/-- Posted writes of any length. -/
def State.putPostedAll (s : State) (src a : Nat) (l : List Byte) : State :=
  (blocks256 a l).foldl (fun s p => s.putPosted src p.1 p.2) s

/-- Writes of any length, stopping at the first that is not answered RSP_OK. -/
def State.putAll (s : State) (src a : Nat) (l : List Byte) : Nat × State :=
  (blocks256 a l).foldl (fun q p => if q.1 = rspOk then q.2.put src p.1 p.2 else q) (rspOk, s)

/-- Reads of any length, stopping at the first that is not answered RSP_OK. -/
def State.fetchAll (s : State) (src a n : Nat) : Nat × List Byte × State :=
  (blocks256 a (List.replicate n 0)).foldl (fun q p =>
    if q.1 = rspOk then
      let f := q.2.2.fetch src p.1 p.2.length
      (f.1, q.2.1 ++ sub f.2.1 0 p.2.length, f.2.2)
    else q) (rspOk, [], s)

/-- Forget the contents and check bits of the memory for which `f` holds: R325's initialisation. -/
def State.initMem (s : State) (f : Nat → Bool) : State := { s with mem := tdrop f s.mem, ecc := tdrop f s.ecc }

end Sys2Proof.Machine
end

