-- ==== Sys2Proof/Machine/Kcore.lean ====
section
/-! DEFINITION. A Kubry core's state and what happens to it whatever it executes: the passing of core cycles
with their charges (R59, R73, R97), interrupt lines (R98), exception and interrupt entry (R94-R96) and
control-register access (R93). -/

namespace Sys2Proof.Machine

def coreDflt : Nat → Core := fun _ => Core.reset

/-- Core `g`. -/
def State.core (s : State) (g : Nat) : Core := tget coreDflt s.cores g
def State.setCore (s : State) (g : Nat) (c : Core) : State := { s with cores := tset coreDflt s.cores g c }
def State.modCore (s : State) (g : Nat) (f : Core → Core) : State := s.setCore g (f (s.core g))

/-- Register `o` of core `g`'s page (R103). -/
def kA (g o : Nat) : Nat := coreRegs g + o

/-- The core is held in reset (R104). -/
def State.inReset (s : State) (g : Nat) : Bool := s.rb (kA g 0) 0

def zw : Nat → Word := fun _ => 0
def za : Nat → BitVec 44 := fun _ => 0
def zacc : Nat → BitVec 72 := fun _ => 0

/-- s, a and m registers and accumulators as numbers (R78). -/
def Core.gs (c : Core) (i : Nat) : Nat := (tget zw c.s i).toNat
def Core.ga (c : Core) (i : Nat) : Nat := (tget za c.a i).toNat
def Core.gm (c : Core) (i : Nat) : Nat := (tget zw c.m i).toNat
def Core.gacc (c : Core) (i : Nat) : Int := (tget zacc c.acc i).toInt
def Core.ss (c : Core) (i v : Nat) : Core := { c with s := tset zw c.s i (BitVec.ofNat 32 v) }
def Core.sa (c : Core) (i v : Nat) : Core := { c with a := tset za c.a i (BitVec.ofNat 44 v) }
def Core.sm (c : Core) (i v : Nat) : Core := { c with m := tset zw c.m i (BitVec.ofNat 32 v) }
def Core.sacc (c : Core) (i : Nat) (v : Int) : Core := { c with acc := tset zacc c.acc i (BitVec.ofInt 72 v) }

/-- Bit of KB_SR. -/
def Core.srb (c : Core) (i : Nat) : Bool := c.sr.getLsbD i
def Core.setSr (c : Core) (i : Nat) (b : Bool) : Core := { c with sr := BitVec.ofNat 32 (setFld c.sr.toNat i i (b2n b)) }
/-- KB_SR.KM, IE and EXL (R93). -/
def Core.km (c : Core) : Bool := c.srb 9
def Core.ie (c : Core) : Bool := c.srb 8
def Core.exl (c : Core) : Bool := c.srb 10

/-- Set sticky bits of KB_SR (SAT bit 4, AV bit 5). -/
def Core.orSr (c : Core) (v : Nat) : Core := { c with sr := c.sr ||| BitVec.ofNat 32 v }

/-! ## Core cycles -/

/-- Quanta in a core cycle at the stable's point in use (R106). -/
def corePeriod (s : State) (g : Nat) : Nat :=
  match s.rf (stbRegs (g / 8) + 0x8000) 1 0 with
  | 0 => 1920
  | 1 => 1280
  | _ => 960

/-- The point in MHz. -/
def coreMhz (s : State) (g : Nat) : Nat :=
  match s.rf (stbRegs (g / 8) + 0x8000) 1 0 with
  | 0 => 800
  | 1 => 1200
  | _ => 1600

/-- `n` core cycles pass: KB_CYCLE counts, KB_TIMER may match (R98), KB_BUDGET is charged in thread mode
(R97), and the slice samples it every 256 cycles (R272). -/
def Core.tick (c : Core) (n : Nat) : Core :=
  let hit := decide ((c.timer.toNat + 2 ^ 32 - 1 - c.cycle % 2 ^ 32) % 2 ^ 32 < n)
  let b := if c.km then c.budget.toNat else c.budget.toNat - n
  { c with
    cycle := c.cycle + n
    lines := if hit then setBit c.lines 21 else c.lines
    budget := BitVec.ofNat 32 b
    sample := if c.cycle / 256 = (c.cycle + n) / 256 then c.sample else b
    accSpent := if !c.km && decide (c.run ≠ 0) then c.accSpent + n else c.accSpent }

/-- `n` cycles of which `stall` are stall cycles of R73. -/
def State.charge (s : State) (g n stall : Nat) : State :=
  (s.modCore g (fun c => c.tick n)).cnt (kA g 0x24) stall

/-- Core cycles that have passed since the core began to wait. -/
def waitedCycles (s : State) (g : Nat) : Nat := (s.now - (s.core g).since) / corePeriod s g

/-- KB_CYCLE now: also counting while the core waits or is halted (R93). -/
def coreCycle (s : State) (g : Nat) : Nat :=
  let c := s.core g
  if c.halted || c.wfe || c.hold != .none then c.cycle + waitedCycles s g else c.cycle

/-- End a wait: its cycles are charged as stall cycles where `stall` holds. -/
def endWait (s : State) (g : Nat) (stall : Bool) : State :=
  let n := waitedCycles s g
  (s.charge g n (if stall then n else 0)).modCore g (fun c => { c with since := s.now })

/-- Cycles of a halted core: counted by KB_CYCLE and its timer, charged to no budget (R97, R105). -/
def endHalt (s : State) (g : Nat) : State :=
  let n := waitedCycles s g
  s.modCore g (fun c => { c.tick n with budget := c.budget, accSpent := c.accSpent, halted := false, since := s.now })

/-! ## Lines (R98) -/

/-- Assert or release line `i` of core `g`. A core whose stable is not there has no lines. -/
def setLine (s : State) (g i : Nat) (b : Bool) : State :=
  s.modCore g (fun c => { c with lines := setFld c.lines i i (b2n b) })

/-- Pending lines but for line 0, which follows dispatch (R279): tick messages (R99) and Hitch notify bits
(R163) hold lines 1 and 23 while any of their bits is set. -/
def linesNow (s : State) (g : Nat) : Nat :=
  let t := s.rd (kA g 0xE8) ||| s.rd (kA g 0xEC)
  let h := s.rd (kA g 0x70) ||| s.rd (kA g 0x74)
  (s.core g).lines ||| (if t ≠ 0 then 2 else 0) ||| (if h ≠ 0 then 2 ^ 23 else 0)

/-! ## Entry (R94-R96) -/

/-- KB_SR on entry: PKM ← KM, PIE ← IE, KM ← 1, IE ← 0, EXL ← 1. -/
def srEntry (sr : Nat) : Nat :=
  let x := setFld (setFld sr 11 11 (fld sr 9 9)) 12 12 (fld sr 8 8)
  setFld (setFld (setFld x 9 9 1) 8 8 0) 10 10 1

/-- Enter the handler at KB_EVEC with the given KB_ECAUSE; KB_EPC is the bundle at PC. -/
def Core.enter (c : Core) (cause : Nat) : Core :=
  { c with
    epc := BitVec.ofNat 32 c.pc
    ecause := BitVec.ofNat 32 cause
    sr := BitVec.ofNat 32 (srEntry c.sr.toNat)
    pc := c.evec.toNat
    hold := .none
    wfe := false }

/-- The core halts in a double fault (R96); KB_STB_FAULT is message source 107 + stable (R496). -/
def doubleFault (s : State) (g code : Nat) : State :=
  let a := stbRegs (g / 8) + 0x8004
  let s1 := s.modCore g (fun c => { c with halted := true, dfault := true, wfe := false, hold := .none,
                                           stepping := false, lastCode := code, since := s.now })
  (s1.wb a (g % 8) true).rise (107 + g / 8) (decide (s.rd a ≠ 0)) true

/-- Raise exception `code` in slot `slot` at the bundle at PC (R94, R95): `rsp` for EC_BUS and
EC_BUS_ASYNC, `val` the fault address or immediate if the exception has one. -/
def raiseExc (s : State) (g code slot rsp : Nat) (val : Option Nat) : State :=
  if (s.core g).exl then doubleFault s g code
  else
    (s.modCore g (fun c =>
      let c1 := match val with
        | some v => { c with
            eval := BitVec.ofNat 32 v
            evalHi := if code = 9 ∨ code = 11 then c.evalHi else BitVec.ofNat 32 (v / 2 ^ 32 % 4096) }
        | none => c
      { c1.enter (code + slot * 256 + rsp * 1024) with lastCode := code })).cnt (kA g 0x28) 1

/-- Take interrupt line `n` (R94). -/
def takeLine (s : State) (g n : Nat) : State := s.modCore g (fun c => c.enter (n * 2 ^ 24 + 2 ^ 31))

/-- Exception codes (R95). -/
def ecIfetchUe : Nat := 1
def ecLoadUe : Nat := 2
def ecVloadUe : Nat := 3
def ecAlign : Nat := 4
def ecBounds : Nat := 5
def ecIllegal : Nat := 6
def ecPriv : Nat := 7
def ecBus : Nat := 8
def ecHitch : Nat := 9
def ecBudget : Nat := 10
def ecTrap : Nat := 11
def ecBusAsync : Nat := 12

/-! ## Control registers (R93) -/

/-- Read control register `i`; `ipend` are the pending lines. -/
def ctlRead (s : State) (g i ipend : Nat) : Nat :=
  let c := s.core g
  match i with
  | 0x00 => c.sr.toNat
  | 0x01 => c.epc.toNat
  | 0x02 => c.ecause.toNat
  | 0x03 => c.eval.toNat
  | 0x04 => c.evalHi.toNat
  | 0x05 => c.evec.toNat
  | 0x06 => c.ien.toNat
  | 0x07 => ipend
  | 0x08 => c.loop0.lc.toNat
  | 0x09 => c.loop0.ls.toNat
  | 0x0A => c.loop0.le.toNat
  | 0x0B => c.loop1.lc.toNat
  | 0x0C => c.loop1.ls.toNat
  | 0x0D => c.loop1.le.toNat
  | 0x0E => c.budget.toNat
  | 0x0F => coreCycle s g % 2 ^ 32
  | 0x10 => g
  | 0x11 => c.timer.toNat
  | 0x12 => c.escratch.toNat
  | 0x13 => c.ctxptr.toNat
  | _ => 0

/-- Write control register `i` (R93). `kern` is the writer's mode; thread mode reaches only KB_SR[5:0] and
the loop registers. Software ends a loop level by writing its count 0 (R86). -/
def Core.ctlWrite (c : Core) (kern : Bool) (i v : Nat) : Core :=
  let w : Word := BitVec.ofNat 32 v
  match i with
  | 0x00 =>
    let x := setFld c.sr.toNat 5 0 v
    let y := if kern then setFld (setFld x 8 8 (fld v 8 8)) 12 11 (fld v 12 11) else x
    { c with sr := BitVec.ofNat 32 y }
  | 0x01 => { c with epc := w }
  | 0x02 => { c with ecause := BitVec.ofNat 32 (v &&& 0x9F001FFF) }
  | 0x03 => { c with eval := w }
  | 0x04 => { c with evalHi := BitVec.ofNat 32 (v % 4096) }
  | 0x05 => { c with evec := w }
  | 0x06 => { c with ien := w }
  | 0x07 => { c with lines := if tb v 21 then (if tb v 22 then clrBit (clrBit c.lines 21) 22 else clrBit c.lines 21)
                              else if tb v 22 then clrBit c.lines 22 else c.lines }
  | 0x08 =>
    let c1 := { c with loop0 := { c.loop0 with lc := w } }
    if w = 0 then c1.setSr 13 false else c1
  | 0x09 => { c with loop0 := { c.loop0 with ls := BitVec.ofNat 13 v } }
  | 0x0A => { c with loop0 := { c.loop0 with le := BitVec.ofNat 13 v } }
  | 0x0B =>
    let c1 := { c with loop1 := { c.loop1 with lc := w } }
    if w = 0 then c1.setSr 14 false else c1
  | 0x0C => { c with loop1 := { c.loop1 with ls := BitVec.ofNat 13 v } }
  | 0x0D => { c with loop1 := { c.loop1 with le := BitVec.ofNat 13 v } }
  | 0x0E => { c with budget := w }
  | 0x11 => { c with timer := w, lines := clrBit c.lines 21 }
  | 0x12 => { c with escratch := w }
  | _ => c

end Sys2Proof.Machine
end

