-- ==== Sys2Proof/Machine/Tags.lean ====
section
/-! DEFINITION. The hitch side of accelerator attachment: tags and their states (R143-R145), posting,
confirmation and withdrawal (R149, R161), completion, timeout and staleness (R145, R151, R158, R159), guards
(R152, R153) and what happens to tags at the end of an activation or in reset (R160, R164). Hitches 0-255
are the Kubry cores', 256-271 the Loft cores' (R162). Engines are numbered 0-195 in the order of R324. -/

namespace Sys2Proof.Machine

/-- Number of the engine instance `i` of class `c`. -/
def engNum (c i : Nat) : Nat := classCtl c - 96 + i

/-- Class of engine `e`. -/
def engClass (e : Nat) : Nat :=
  if e < 32 then 0 else if e < 48 then 1 else if e < 64 then 2 else if e < 88 then 3 else if e < 92 then 4
  else if e < 96 then 5 else if e < 100 then 6 else if e < 116 then 7 else if e < 124 then 8 else if e < 188 then 9 else 10

/-- Instance of engine `e` within its class. -/
def engInst (e : Nat) : Nat := e - (classCtl (engClass e) - 96)

/-- Endpoint of engine `e`. -/
def eEp (e : Nat) : Nat := engEp (engClass e) (engInst e)

/-- Endpoint of hitch `h`. -/
def hEp (h : Nat) : Nat := if h < 256 then coreEp h else loftEp (h - 256)

/-- Register `o` of Loft hitch page `c` (R162). -/
def htcA (c o : Nat) : Nat := lftRegs + 0xF00000 + c * 0x1000 + o

def tagDflt : Nat → Tag := fun _ => Tag.reset
def State.tag (s : State) (h t : Nat) : Tag := tget tagDflt s.tags (64 * h + t)
def State.setTag (s : State) (h t : Nat) (x : Tag) : State := { s with tags := tset tagDflt s.tags (64 * h + t) x }
def guardDflt : Nat → Guard := fun _ => Guard.reset
def State.guard (s : State) (g i : Nat) : Guard := tget guardDflt s.guards (8 * g + i)
def State.setGuard (s : State) (g i : Nat) (x : Guard) : State := { s with guards := tset guardDflt s.guards (8 * g + i) x }

def noMsgs : Nat → List HMsg := fun _ => []
def noComps : Nat → List Comp := fun _ => []
def noAns : Nat → List PostAns := fun _ => []

/-- Send a message to engine `e` (R161). -/
def hSend (s : State) (e : Nat) (m : HMsg) : State := { s with hmsgs := tmod noMsgs s.hmsgs e (· ++ [m]) }

/-- Signal Yardmaster event `n` from endpoint `src` as a posted message (R276). -/
def signalEvent (s : State) (src n : Nat) : State :=
  let r := s.niPosted src ymEp
  if r.1 then { r.2 with ym := { r.2.ym with events := r.2.ym.events ++ [(src, n)] } } else r.2

/-- Tag bits granted to the thread that runs (R143). -/
def tmask (s : State) (g : Nat) : Nat := s.rd (kA g 0x68) + s.rd (kA g 0x6C) * 2 ^ 32

/-- Notify bit of tag `t` of hitch `h`: register and bit. -/
def notifyAt (h t : Nat) : Nat × Nat :=
  if h < 256 then (kA h (0x70 + t / 32 * 4), t % 32) else (htcA (h - 256) (0x18 + t / 32 * 4), t % 32)

/-- Disarm the guards bound to a tag that has entered FREE (R152). -/
def disarm (s : State) (h t : Nat) : State :=
  if h < 256 then
    (List.range 8).foldl (fun s i =>
      let x := s.guard h i
      if x.armed && decide (x.tag = t) then s.setGuard h i { x with armed := false } else s) s
  else s

/-- The tag enters FREE. -/
def freeTag (s : State) (h t : Nat) : State := disarm (s.setTag h t { s.tag h t with st := 0, charge := 0 }) h t

/-- Engine number of a CTRL word's class and instance (R146). -/
def ctrlEng (ctrl : Nat) : Nat := engNum (fld ctrl 3 0) (fld ctrl 9 4)

/-- A PROV tag is withdrawn (R149 step 4). -/
def withdrawTag (s : State) (g t : Nat) : State :=
  let x := s.tag g t
  (freeTag (hSend s (ctrlEng x.ctrl) (.withdraw g t x.gen)) g t).cnt (kA g 0x84) 1

/-- A command's event is signalled, once (R151, R159). -/
def tagEvent (s : State) (h t gen : Nat) : State :=
  let x := s.tag h t
  match x.evDue.find? (fun p => p.1 = gen) with
  | some p => signalEvent (s.setTag h t { x with evDue := x.evDue.erase p }) (hEp h) p.2
  | none => s

/-- Steps 2-4 of R151 for a confirmed tag: status, event and notification. `cyc` are engine cycles of a
context switch to be charged (R156). -/
def completeTag (s : State) (h t status cyc : Nat) : State :=
  let x := s.tag h t
  if x.st = 2 then
    let s1 := tagEvent (s.setTag h t { x with st := 3, status := status, charge := if h < 256 then cyc else 0 }) h t x.gen
    if tb x.ctrl 10 then
      let a := notifyAt h t
      let s2 := s1.wb a.1 a.2 true
      if h < 256 then s2
      else s2.rise (139 + (h - 256)) (decide (s1.rd (htcA (h - 256) 0x18) ≠ 0 ∨ s1.rd (htcA (h - 256) 0x1C) ≠ 0)) true
    else s1
  else if x.st = 4 then freeTag (tagEvent s h t x.gen) h t
  else s

/-- HPOST enters EX (R149 step 2): the tag becomes PROV and POST is sent. -/
def postTag (s : State) (h t ctrl desc ctx : Nat) : State :=
  let x := s.tag h t
  let gen := (x.gen + 1) % 16
  let s1 := s.setTag h t { x with st := 1, gen := gen, ctrl := ctrl, answer := none, own := none, charge := 0 }
  hSend s1 (ctrlEng ctrl) (.post h t gen ctrl desc ctx)

/-- Status of a command whose POST was answered other than RSP_OK (R158). -/
def answerStatus (code : Nat) : Nat := if code = rspFull then 0x08 else 0x04 + code * 256

/-- The bundle that posted retires (R149 step 3): the tag becomes CONF and CONFIRM is sent; a POST already
answered other than RSP_OK completes at once (R158). -/
def confirmTag (s : State) (h t : Nat) : State :=
  let x := s.tag h t
  let due := if tb x.ctrl 11 then (x.gen, fld x.ctrl 31 16) :: x.evDue else x.evDue
  let s1 := s.setTag h t { x with st := 2, conf := s.now, evDue := due }
  let s2 := hSend s1 (ctrlEng x.ctrl) (.confirm h t x.gen)
  match x.answer with
  | some code => if code = rspOk then s2 else completeTag s2 h t (answerStatus code) 0
  | none => s2

/-- The engine's answer to a POST arrives (R158). -/
def postAnswer (s : State) (h : Nat) (m : PostAns) : State :=
  let x := s.tag h m.tag
  if x.gen = m.gen ∧ (x.st = 1 ∨ x.st = 2 ∨ x.st = 4) then
    let s1 := s.setTag h m.tag { x with answer := some m.code }
    if x.st ≠ 1 ∧ m.code ≠ rspOk then completeTag s1 h m.tag (answerStatus m.code) 0 else s1
  else s

/-- A stale completion (R145): discarded and counted. The event of a command that a reset freed before its
completion came is still signalled once (R164). -/
def staleComp (s : State) (h : Nat) (m : Comp) : State :=
  let x := s.tag h m.tag
  let s1 := if h < 256 then s.cnt (kA h 0x88) 1 else s
  if x.timedOut.contains m.gen then s1.setTag h m.tag { s1.tag h m.tag with timedOut := x.timedOut.erase m.gen }
  else tagEvent s1 h m.tag m.gen

/-- A completion reaches the hitch (R145, R151). -/
def hitchComp (s : State) (h : Nat) (m : Comp) : State :=
  let x := s.tag h m.tag
  if x.gen = m.gen ∧ (x.st = 2 ∨ x.st = 4) then completeTag s h m.tag m.status m.ctxCyc else staleComp s h m

/-- Completion timeout of hitch `h` in microseconds (KB_HIT_CFG, HTC_CFG). -/
def tmoUs (s : State) (h : Nat) : Nat := if h < 256 then s.rf (kA h 0x60) 19 0 else s.rf (htcA (h - 256) 0x14) 19 0

/-- A confirmed tag reaches its timeout (R159). -/
def hitchTimeout (s : State) (h t : Nat) : State :=
  let x := s.tag h t
  if x.st = 2 ∨ x.st = 4 then
    let s1 := s.until (x.conf + tmoUs s h * us)
    let s2 := if h < 256 then s1.cnt (kA h 0x8C) 1 else s1
    let s3 := completeTag s2 h t 0x07 0
    s3.setTag h t { s3.tag h t with timedOut := x.gen :: (s3.tag h t).timedOut }
  else s

/-- The activation of the thread that `mask` was granted to ends (R160). -/
def endTags (s : State) (g mask : Nat) : State :=
  (List.range 64).foldl (fun s t =>
    if tb mask t then
      match (s.tag g t).st with
      | 1 => withdrawTag s g t
      | 2 => s.setTag g t { s.tag g t with st := 4, charge := 0 }
      | 3 => let a := notifyAt g t; (freeTag s g t).wb a.1 a.2 false
      | _ => s
    else s) s

/-- Reset of a core's hitch (R164): PROV tags are withdrawn, guards disarmed, every tag FREE. -/
def resetTags (s : State) (g : Nat) : State :=
  let s1 := (List.range 64).foldl (fun s t =>
    match (s.tag g t).st with
    | 0 => s
    | 1 => withdrawTag s g t
    | _ => freeTag s g t) s
  (List.range 8).foldl (fun s i => s.setGuard g i Guard.reset) s1

/-- A guard is active while its tag is PROV, CONF or ORPHAN (R152). -/
def guardActive (s : State) (g i : Nat) : Bool :=
  let x := s.guard g i
  let st := (s.tag g x.tag).st
  x.armed && decide (0 < x.len) && decide (st = 1 ∨ st = 2 ∨ st = 4)

/-- Does an access of `n` bytes at `o` of X (0) or Y (1) overlap an active guard (R153)? -/
def guarded (s : State) (g space o n : Nat) : Bool :=
  (List.range 8).any (fun i =>
    let x := s.guard g i
    guardActive s g i && decide (x.space = space) && decide (o < x.base + x.len) && decide (x.base < o + n))

/-- Context-switch cycles are deducted from KB_BUDGET while the thread that was granted the tag runs (R156):
ceil(E * f / 1200 MHz). -/
def chargeCtx (s : State) (g : Nat) : State :=
  (List.range 64).foldl (fun s t =>
    let x := s.tag g t
    if x.charge ≠ 0 ∧ tb (tmask s g) t then
      let n := cdiv (x.charge * coreMhz s g) 1200
      (s.modCore g (fun c => { c with budget := BitVec.ofNat 32 (c.budget.toNat - n) })).setTag g t { x with charge := 0 }
    else s) s

end Sys2Proof.Machine
end

