-- ==== Sys2Proof/Machine/Threads.lean ====
section
/-! DEFINITION. Threads and their activations as the slices hold them: states (R267-R270), armed waits
(R277), ready lists and the choice of a candidate (R278, R279), atomic flows (R274), committed budget
(R272) and eligibility (R271). A thread is named by its global thread ID (R267). -/

namespace Sys2Proof.Machine

/-- A thread after logic reset (R268): slot 0 is the kernel thread. -/
def thDflt : Nat → Thread := fun k => ⟨if k % 256 = 0 then 6 else 0, 0, none, false, false, 0, 0, 0, none⟩

def State.th (s : State) (gt : Nat) : Thread := tget thDflt s.ym.threads gt
def State.setTh (s : State) (gt : Nat) (x : Thread) : State :=
  { s with ym := { s.ym with threads := tset thDflt s.ym.threads gt x } }

/-- Word `o` of a thread's descriptor (R268). -/
def tdA (gt o : Nat) : Nat := stbRegs (gt / 2048) + 0x410000 + gt / 256 % 8 * 0x2000 + gt % 256 * 0x20 + o

/-- Register `o` of the kernel page of core `g` (R285). -/
def ykA (g o : Nat) : Nat := stbRegs (g / 8) + 0x400000 + g % 8 * 0x1000 + o

/-- Central register `o` of core `g` (R291). -/
def ymCoreA (g o : Nat) : Nat := ymRegs + 0x80000 + g * 0x40 + o

/-- PREEMPT dispatch (R279, R291). -/
def preemptMode (s : State) (g : Nat) : Bool := s.rb (ymCoreA g 0) 1

/-- A core is eligible (R271, but for the masks of a task). -/
def eligible (s : State) (g : Nat) : Bool :=
  s.rb (ymCoreA g 0) 0 && !s.inReset g && !(s.core g).halted && s.shedReady (g / 8)

/-- Threads of core `g` that the table lists, with an activation. -/
def coreThreads (s : State) (g : Nat) : List (Nat × Thread × Act) :=
  s.ym.threads.filterMap (fun p => if p.1 / 256 = g then p.2.act.map (fun a => (p.1, p.2, a)) else none)

/-- Order of the ready list (R278). -/
def before (x y : Nat × Thread × Act) : Bool :=
  if x.2.2.prio ≠ y.2.2.prio then decide (y.2.2.prio < x.2.2.prio)
  else if x.2.2.td ≠ y.2.2.td then decide (x.2.2.td < y.2.2.td)
  else if x.2.1.stamp ≠ y.2.1.stamp then decide (x.2.1.stamp < y.2.1.stamp)
  else decide (x.1 < y.1)

/-- The first entry of the core's ready list (R278); nothing is dispatched on an ineligible core (R271). -/
def candidate (s : State) (g : Nat) : Option (Nat × Thread × Act) :=
  if !eligible s g then none
  else (coreThreads s g).foldl (fun m x =>
    if x.2.1.st = 2 then
      match m with
      | none => some x
      | some y => if before x y then some x else some y
    else m) none

/-- Global thread ID of the thread that runs on core `g`. -/
def runThread (s : State) (g : Nat) : Nat := 256 * g + (s.core g).run

/-- The condition of R279 under which a core is to be given its candidate. -/
def switchDue (s : State) (g : Nat) : Bool :=
  let c := s.core g
  if c.left then true
  else
    match candidate s g with
    | none => false
    | some x =>
      if c.run = 0 then true
      else match (s.th (runThread s g)).act with
        | some r => decide (r.prio < x.2.2.prio)
        | none => true

/-- A PREEMPT switch is deferred while EXL = 1 or IE = 0 (R279). -/
def deferred (s : State) (g : Nat) : Bool := (s.core g).exl || !(s.core g).ie

/-- OFFER: made by DISPATCH_OFFER and standing while the condition holds (R279). -/
def offerNow (s : State) (g : Nat) : Bool := (s.core g).offer && !preemptMode s g && switchDue s g

/-- KB_IPEND: pending lines (R98). -/
def ipend (s : State) (g : Nat) : Nat := linesNow s g ||| b2n (offerNow s g)

/-- The thread becomes READY now. -/
def makeReady (s : State) (gt : Nat) : State :=
  let s1 := s.setTh gt { s.th gt with st := 2, stamp := s.ym.stamp }
  { s1 with ym := { s1.ym with stamp := s1.ym.stamp + 1 } }

/-- The armed wait of a thread is satisfied (R277). -/
def wake (s : State) (gt : Nat) : State :=
  let x := s.th gt
  let s1 := s.setTh gt { x with woken := true }
  if x.st = 4 then makeReady s1 gt else s1

/-- Threads whose armed, unsatisfied wait fulfils `f`. -/
def waiting (s : State) (f : Nat → Thread → Bool) : List Nat :=
  s.ym.threads.filterMap (fun p => if p.2.armed && !p.2.woken && f p.1 p.2 then some p.1 else none)

def wakeAll (s : State) (l : List Nat) : State := l.foldl wake s

/-- Threads whose armed wait names event `n` (R276 step 2). -/
def eventWaiters (s : State) (n : Nat) : List Nat :=
  s.ym.threads.filterMap (fun p => if p.2.armed && decide (fld p.2.wait 1 0 = 0) && decide (fld p.2.wait 31 16 = n) then some p.1 else none)

/-- A post to hatch `h` reaches its receiver core `g` (R277). -/
def wakeHatch (s : State) (g h : Nat) : State :=
  wakeAll s (waiting s (fun k x => decide (k / 256 = g) && decide (fld x.wait 1 0 = 1) && decide (fld x.wait 27 16 = h)))

/-- Ticks of train `t` satisfy the tick waits whose count they complete (R277). -/
def wakeTicks (s : State) (t : Nat) : State :=
  wakeAll s (waiting s (fun _ x => decide (fld x.wait 1 0 = 2) && decide (fld x.wait 19 16 = t) &&
    decide (x.tickAt ≤ tget (fun _ => 0) s.ym.seen (4 * t + fld x.wait 21 20))))

/-! ## Flows (R274, R275) -/

def flowDflt : Nat → Flow := fun _ => ⟨16, none, []⟩
def State.flow (s : State) (f : Nat) : Flow := tget flowDflt s.ym.flows f
def State.setFlow (s : State) (f : Nat) (x : Flow) : State :=
  { s with ym := { s.ym with flows := tset flowDflt s.ym.flows f x } }

/-- Activations the flow holds, the one in service included. -/
def Flow.held (x : Flow) : Nat := b2n x.service.isSome + x.waiting.length

/-- A bound activation becomes READY, or FLOW_WAIT behind its flow (R274). -/
def startAct (s : State) (gt : Nat) (flow : Option Nat) : State :=
  match flow with
  | none => makeReady s gt
  | some f =>
    let x := s.flow f
    match x.service with
    | none => makeReady (s.setFlow f { x with service := some gt }) gt
    | some _ => (s.setFlow f { x with waiting := x.waiting ++ [gt] }).setTh gt { s.th gt with st := 5 }

/-- The thread's activation leaves its flow; the oldest waiting one is served (R274). -/
def leaveFlow (s : State) (gt : Nat) (flow : Option Nat) : State :=
  match flow with
  | none => s
  | some f =>
    let x := s.flow f
    if x.service = some gt then
      match x.waiting with
      | [] => s.setFlow f { x with service := none }
      | n :: t => makeReady (s.setFlow f { x with service := some n, waiting := t }) n
    else s.setFlow f { x with waiting := x.waiting.erase gt }

/-! ## Committed budget (R272, R291) -/

/-- Unspent budget of one activation as R272 counts it. -/
def unspent (s : State) (g : Nat) (x : Nat × Thread × Act) : Nat :=
  if x.2.1.st = 3 then min (s.core g).sample x.2.2.grant else x.2.2.budget

/-- committed(c, D) for the activations `f` picks. -/
def committed (s : State) (g : Nat) (f : Act → Bool) : Nat :=
  ((coreThreads s g).filter (fun x => f x.2.2)).foldl (fun n x => n + unspent s g x) 0

/-- YM_ACC_COMMIT (R291). -/
def commitNow (s : State) (g : Nat) : Nat := sat32 (committed s g (fun _ => true))

/-- Number of activations bound on the chip (YM_STATUS). -/
def boundActs (s : State) : Nat := (s.ym.threads.filter (fun p => p.2.act.isSome)).length

/-- KIND of a thread (R267). -/
def thKind (s : State) (gt : Nat) : Nat := s.rf (tdA gt 0) 1 0

/-- The lowest IDLE POOL thread of core `g` (R270). -/
def idlePool (s : State) (g : Nat) : Option Nat :=
  (lowest 256 (fun t => decide (thKind s (256 * g + t) = 1) && decide ((s.th (256 * g + t)).st = 1))).map (256 * g + ·)

end Sys2Proof.Machine
end

