-- ==== Sys2Proof/Machine/Fp.lean ====
section
/-! DEFINITION. Floating point of the vector unit (R111): IEEE 754-2019 binary16 and binary32, and bfloat16
with subnormals flushed. Every operation is computed exactly and rounded once. Tininess is taken before
rounding, which IEEE 754 leaves to the implementation (DESIGN CHOICE, log 22). -/

namespace Sys2Proof.Machine

/-- A format: exponent and fraction bits, and whether subnormals are flushed. -/
structure Fmt where
  eb : Nat
  mb : Nat
  ftz : Bool
deriving DecidableEq, Repr

def fp16 : Fmt := ⟨5, 10, false⟩
def bf16 : Fmt := ⟨8, 7, true⟩
def fp32 : Fmt := ⟨8, 23, false⟩

/-- Width, the all-ones exponent's pattern (infinity) and the canonical NaN. -/
def Fmt.w (f : Fmt) : Nat := 1 + f.eb + f.mb
def Fmt.inf (f : Fmt) : Nat := (2 ^ f.eb - 1) * 2 ^ f.mb
def Fmt.nan (f : Fmt) : Nat := f.inf + 2 ^ (f.mb - 1)
def Fmt.sign (f : Fmt) (neg : Bool) : Nat := if neg then 2 ^ (f.eb + f.mb) else 0
/-- Exponent of the last place of a subnormal. -/
def Fmt.qmin (f : Fmt) : Int := 2 - (2 ^ (f.eb - 1) : Nat) - f.mb

/-- Sticky flags of VC_SR (R133). -/
def fVSAT : Nat := 1
def fVAV : Nat := 2
def fINV : Nat := 4
def fOVF : Nat := 8
def fUNF : Nat := 16
def fEOV : Nat := 32

/-- An unpacked value: a NaN (signalling or not), an infinity, or (-1)^neg * m * 2^e. -/
inductive FpV where
  | nan (signalling : Bool)
  | inf (neg : Bool)
  | fin (neg : Bool) (m : Nat) (e : Int)
deriving DecidableEq, Repr

/-- Value of a bit pattern. -/
def Fmt.unpack (f : Fmt) (b : Nat) : FpV :=
  let neg := tb b (f.eb + f.mb)
  let x := b / 2 ^ f.mb % 2 ^ f.eb
  let m := b % 2 ^ f.mb
  if x = 2 ^ f.eb - 1 then (if m = 0 then .inf neg else .nan (decide (m < 2 ^ (f.mb - 1))))
  else if x = 0 then .fin neg (if f.ftz then 0 else m) f.qmin
  else .fin neg (m + 2 ^ f.mb) (f.qmin + x - 1)

/-- Round `m / 2^k` to an integer under RND (R111) for a value of sign `neg`. -/
def rndShift (rnd : Nat) (neg : Bool) (m k : Nat) : Nat :=
  let q := m >>> k
  let r := m % 2 ^ k
  let up := match rnd with
    | 0 => decide (2 ^ k < 2 * r) || (decide (2 ^ k = 2 * r) && decide (q % 2 = 1) && decide (0 < k))
    | 1 => false
    | 2 => neg && decide (r ≠ 0)
    | _ => !neg && decide (r ≠ 0)
  if up then q + 1 else q

/-- Round the exact value (-1)^neg * m * 2^e to the format: bits and flags (R111). -/
def Fmt.pack (f : Fmt) (rnd : Nat) (neg : Bool) (m : Nat) (e : Int) : Nat × Nat :=
  if m = 0 then (f.sign neg, 0)
  else
    let top : Int := (Nat.log2 m : Int) + e
    let q := max (top - f.mb) f.qmin
    let k := q - e
    let exact := if k ≤ 0 then true else decide (m % 2 ^ k.toNat = 0)
    let sig := if k ≤ 0 then m <<< (-k).toNat else rndShift rnd neg m k.toNat
    let tiny := decide (top < f.qmin + f.mb)
    let b := (q - f.qmin).toNat * 2 ^ f.mb + sig
    if f.inf ≤ b then
      let up := match rnd with
        | 0 => true
        | 1 => false
        | 2 => neg
        | _ => !neg
      (f.sign neg + (if up then f.inf else f.inf - 1), fOVF)
    else if f.ftz && decide (b < 2 ^ f.mb) then (f.sign neg, fUNF)
    else (f.sign neg + b, if tiny && !exact then fUNF else 0)

/-- A NaN result, invalid where `inv` holds. -/
def Fmt.quiet (f : Fmt) (inv : Bool) : Nat × Nat := (f.nan, if inv then fINV else 0)

def FpV.isSnan : FpV → Bool
  | .nan b => b
  | _ => false

/-- A finite value as an integer count of 2^e. -/
def scaled (neg : Bool) (m : Nat) (k : Nat) : Int := let x : Int := (m <<< k : Nat); if neg then -x else x

/-- Sum of two unpacked values, rounded to `f`. -/
def Fmt.sum (f : Fmt) (rnd : Nat) (a b : FpV) : Nat × Nat :=
  match a, b with
  | .nan x, y => f.quiet (x || y.isSnan)
  | _, .nan y => f.quiet y
  | .inf x, .inf y => if x = y then (f.sign x + f.inf, 0) else f.quiet true
  | .inf x, _ => (f.sign x + f.inf, 0)
  | _, .inf y => (f.sign y + f.inf, 0)
  | .fin n1 m1 e1, .fin n2 m2 e2 =>
    let e := min e1 e2
    let v := scaled n1 m1 (e1 - e).toNat + scaled n2 m2 (e2 - e).toNat
    if v = 0 then (f.sign (if n1 = n2 then n1 else decide (rnd = 2)), 0)
    else f.pack rnd (decide (v < 0)) v.natAbs e

/-- Exact product of two unpacked values: a value, and whether it is invalid. -/
def fpProd (a b : FpV) : FpV × Bool :=
  match a, b with
  | .nan x, y => (.nan false, x || y.isSnan)
  | _, .nan y => (.nan false, y)
  | .inf x, .inf y => (.inf (x != y), false)
  | .inf x, .fin n m _ => if m = 0 then (.nan false, true) else (.inf (x != n), false)
  | .fin n m _, .inf y => if m = 0 then (.nan false, true) else (.inf (n != y), false)
  | .fin n1 m1 e1, .fin n2 m2 e2 => (.fin (n1 != n2) (m1 * m2) (e1 + e2), false)

/-- An unpacked value rounded to `f`. -/
def Fmt.ofV (f : Fmt) (rnd : Nat) : FpV → Nat × Nat
  | .nan x => f.quiet x
  | .inf n => (f.sign n + f.inf, 0)
  | .fin n m e => f.pack rnd n m e

def FpV.neg : FpV → FpV
  | .nan x => .nan x
  | .inf n => .inf (!n)
  | .fin n m e => .fin (!n) m e

/-- a + b, a - b and a * b in one format. -/
def Fmt.add (f : Fmt) (rnd a b : Nat) : Nat × Nat := f.sum rnd (f.unpack a) (f.unpack b)
def Fmt.sub (f : Fmt) (rnd a b : Nat) : Nat × Nat := f.sum rnd (f.unpack a) (f.unpack b).neg
def Fmt.mul (f : Fmt) (rnd a b : Nat) : Nat × Nat :=
  let p := fpProd (f.unpack a) (f.unpack b)
  let r := f.ofV rnd p.1
  (r.1, r.2 ||| if p.2 then fINV else 0)

/-- d ± a * b with one rounding, a and b in `src`, d and the result in `f`. -/
def Fmt.fma (f src : Fmt) (rnd : Nat) (neg : Bool) (d a b : Nat) : Nat × Nat :=
  let p := fpProd (src.unpack a) (src.unpack b)
  let r := f.sum rnd (f.unpack d) (if neg then p.1.neg else p.1)
  (r.1, r.2 ||| if p.2 then fINV else 0)

/-- Order of two values: less, equal, greater; none if one is a NaN. -/
def fpCmp (a b : FpV) : Option Ordering :=
  match a, b with
  | .nan _, _ => none
  | _, .nan _ => none
  | .inf x, .inf y => some (if x = y then .eq else if x then .lt else .gt)
  | .inf x, _ => some (if x then .lt else .gt)
  | _, .inf y => some (if y then .gt else .lt)
  | .fin n1 m1 e1, .fin n2 m2 e2 =>
    let e := min e1 e2
    some (compare (scaled n1 m1 (e1 - e).toNat) (scaled n2 m2 (e2 - e).toNat))

/-- Minimum or maximum: a NaN operand gives the other operand, and -0 is below +0 (IEEE 754-2019
minimumNumber and maximumNumber). -/
def Fmt.minmax (f : Fmt) (isMax : Bool) (a b : Nat) : Nat × Nat :=
  let x := f.unpack a
  let y := f.unpack b
  let fl := if x.isSnan || y.isSnan then fINV else 0
  match x, y with
  | .nan _, .nan _ => (f.nan, fl)
  | .nan _, _ => ((f.ofV 0 y).1, fl)
  | _, .nan _ => ((f.ofV 0 x).1, fl)
  | _, _ =>
    let aFirst := match fpCmp x y with
      | some .lt => true
      | some .gt => false
      | _ => tb a (f.eb + f.mb)
    ((f.ofV 0 (if aFirst != isMax then x else y)).1, fl)

/-- A signed integer to fp32, exactly for 16-bit values. -/
def i16ToFp32 (v : Int) : Nat := (fp32.pack 0 (decide (v < 0)) v.natAbs 0).1

end Sys2Proof.Machine
end

