-- ==== Sys2Proof/Machine/Vector.lean ====
section
/-! DEFINITION. Vector operations (R108-R127) as functions of register contents: decode rules (R118, R119),
occupancy (R114), and the results of each operation. -/

namespace Sys2Proof.Machine

/-! ## Fields of a vector issue (R118) -/

def vVop (w : Nat) : Nat := fld w 30 25
def vType (w : Nat) : Nat := fld w 24 21
def vD (w : Nat) : Nat := fld w 20 16
def vA (w : Nat) : Nat := fld w 15 11
def vB (w : Nat) : Nat := fld w 10 6
def vGrp (w : Nat) : Nat := fld w 5 4
def vRnd (w : Nat) : Nat := fld w 3 2
def vSat (w : Nat) : Bool := tb w 1
def vX (w : Nat) : Bool := tb w 0

/-- Registers of a group (R108). -/
def grpSize (g : Nat) : Nat := if g = 0 then 1 else if g = 1 then 2 else 4

/-- Component and element width of a type (R110). -/
def compW (t : Nat) : Nat := if t = 0 then 8 else if t = 2 ∨ t = 4 ∨ t = 7 then 32 else 16
def isCplx (t : Nat) : Bool := decide (t = 3 ∨ t = 4 ∨ t = 9)
def elemW (t : Nat) : Nat := if isCplx t then 2 * compW t else compW t
def isFp (t : Nat) : Bool := decide (t = 5 ∨ t = 6 ∨ t = 7)
def isBfp (t : Nat) : Bool := decide (t = 8 ∨ t = 9)
def isInt (t : Nat) : Bool := decide (t < 5)
def isReal (t : Nat) : Bool := decide (t < 3) || isFp t
def fmtOf (t : Nat) : Fmt := if t = 5 then fp16 else if t = 6 then bf16 else fp32

/-- Elements of width `w` of a register, lowest first, and back. -/
def els (w v : Nat) : List Nat := (List.range (4096 / w)).map (fun i => (v >>> (w * i)) % 2 ^ w)
def pck (w : Nat) (l : List Nat) : Nat := l.foldr (fun x acc => acc <<< w ||| x % 2 ^ w) 0

/-- The register a broadcast scalar stands for (R118). -/
def bcastReg (t sb : Nat) : Nat :=
  let w := elemW t
  pck w (List.replicate (4096 / w) (if t = 4 then sb % 2 ^ 32 else sb % 2 ^ w))

/-- Arithmetic right shift of `v` by `k` with rounding 0 down, 1 half up, 2 half to even (R89, R112). -/
def shrRnd (rnd : Nat) (v : Int) (k : Nat) : Int :=
  let q := v / (2 ^ k : Nat)
  let r := v % (2 ^ k : Nat)
  match rnd with
  | 0 => q
  | 1 => (v + (if k = 0 then 0 else (2 ^ (k - 1) : Nat))) / (2 ^ k : Nat)
  | _ => if (2 ^ k : Nat) < 2 * r ∨ ((2 ^ k : Nat) = 2 * r ∧ q % 2 = 1 ∧ 0 < k) then q + 1 else q

/-- Clamp to `w` bits signed, with VSAT where it clamps. -/
def clampV (w : Nat) (v : Int) : Nat × Nat := (uns w (satS w v), if satS w v = v then 0 else fVSAT)

/-- Gather results with their flags. -/
def orFlags (l : List (Nat × Nat)) : Nat := l.foldl (fun f x => f ||| x.2) 0

/-- One result register: contents, exponent (R109) and flags. -/
structure VR where
  v : Nat
  e : Int
  fl : Nat
deriving DecidableEq, Repr

/-- Component-wise unary and binary register operations. -/
def map1 (w : Nat) (f : Nat → Nat × Nat) (a : Nat) : Nat × Nat :=
  let l := (els w a).map f
  (pck w (l.map (·.1)), orFlags l)
def map2 (w : Nat) (f : Nat → Nat → Nat × Nat) (a b : Nat) : Nat × Nat :=
  let l := List.zipWith f (els w a) (els w b)
  (pck w (l.map (·.1)), orFlags l)

/-- Pairs (real, imaginary) of a list of components. -/
def pairs : List Nat → List (Nat × Nat)
  | a :: b :: t => (a, b) :: pairs t
  | _ => []

/-- Complex product of two elements with signed components of `w` bits; `cj` conjugates the second (R87). -/
def cprod (w : Nat) (cj : Bool) (a b : Nat × Nat) : Int × Int :=
  let ar := sgn w a.1
  let ai := sgn w a.2
  let br := sgn w b.1
  let bi := if cj then - sgn w b.2 else sgn w b.2
  (ar * br - ai * bi, ar * bi + ai * br)

/-! ## Block floating point (R113) -/

/-- Bring an exponent into range, with the mantissas' adjustment. -/
def bfpClamp (rnd : Nat) (v : Nat) (e : Int) (fl : Nat) : VR :=
  if 127 < e then
    ⟨pck 16 ((els 16 v).map (fun x => if x = 0 then 0 else if x < 2 ^ 15 then 0x7FFF else 0x8000)), 127, fl ||| fEOV⟩
  else if e < -128 then
    ⟨pck 16 ((els 16 v).map (fun x => uns 16 (shrRnd rnd (sgn 16 x) (-128 - e).toNat))), -128, fl ||| fEOV⟩
  else ⟨v, e, fl⟩

/-- bfp and cbfp VADD and VSUB. -/
def bfpAdd (rnd : Nat) (neg : Bool) (a b : Nat) (ea eb : Int) : VR :=
  let e := max ea eb + 1
  let r := map2 16 (fun x y =>
    let p := shrRnd rnd (sgn 16 x) (e - ea).toNat
    let q := shrRnd rnd (sgn 16 y) (e - eb).toNat
    (uns 16 (if neg then p - q else p + q), 0)) a b
  bfpClamp rnd r.1 e r.2

/-- bfp VMUL. -/
def bfpMul (rnd a b : Nat) (ea eb : Int) : VR :=
  let r := map2 16 (fun x y => clampV 16 (shrRnd rnd (sgn 16 x * sgn 16 y) 15)) a b
  bfpClamp rnd r.1 (ea + eb + 15) r.2

/-- Complex products of two registers of `w`-bit components, each component through `f`. -/
def cmap (w : Nat) (cj : Bool) (f : Int → Nat × Nat) (a b : Nat) : Nat × Nat :=
  let l := (List.zipWith (fun x y => let p := cprod w cj x y; [f p.1, f p.2]) (pairs (els w a)) (pairs (els w b))).flatten
  (pck w (l.map (·.1)), orFlags l)

/-- cbfp VMUL and VMULJ. -/
def cbfpMul (rnd : Nat) (cj : Bool) (a b : Nat) (ea eb : Int) : VR :=
  let r := cmap 16 cj (fun p => clampV 16 (shrRnd rnd p 16)) a b
  bfpClamp rnd r.1 (ea + eb + 16) r.2

/-! ## Integer and fp arithmetic on one register -/

/-- Same-width fractional product (R120 VMUL): doubled, shifted by the width with RND, saturated. -/
def fracMul (w rnd x y : Nat) : Nat × Nat :=
  let p := sgn w x * sgn w y
  if p = (2 ^ (2 * w - 2) : Nat) then (2 ^ (w - 1) - 1, fVSAT)
  else clampV w (shrRnd rnd (2 * p) w)

/-- Add or subtract. -/
def vAdd (t rnd : Nat) (neg : Bool) (a b : Nat) (ea eb : Int) : VR :=
  if isBfp t then bfpAdd rnd neg a b ea eb
  else
    let w := compW t
    let f := fmtOf t
    let r := if isFp t then map2 w (fun x y => if neg then f.sub rnd x y else f.add rnd x y) a b
      else map2 w (fun x y => (uns w (if neg then sgn w x - sgn w y else sgn w x + sgn w y), 0)) a b
    ⟨r.1, 0, r.2⟩

/-- Same-width multiply. -/
def vMul (t rnd : Nat) (cj : Bool) (a b : Nat) (ea eb : Int) : VR :=
  if t = 8 then bfpMul rnd a b ea eb
  else if t = 9 then cbfpMul rnd cj a b ea eb
  else
    let w := compW t
    let r := if isFp t then map2 w ((fmtOf t).mul rnd) a b
      else if isCplx t then cmap w cj (fun p => clampV w (shrRnd rnd (2 * p) w)) a b
      else map2 w (fracMul w rnd) a b
    ⟨r.1, 0, r.2⟩

/-- Shift amounts of a register or scalar (R120): the low 6 bits of each component. -/
def shiftL (w : Nat) (sat : Bool) (x n : Nat) : Nat × Nat :=
  let v := sgn w x * (2 ^ (n % 64) : Nat)
  if sat then clampV w v else (uns w v, 0)

/-- Comparison of two components, R120: all ones or 0. -/
def vCmp (t : Nat) (gt : Bool) (x y : Nat) : Nat × Nat :=
  let w := compW t
  let ones := 2 ^ w - 1
  if isFp t then
    match fpCmp ((fmtOf t).unpack x) ((fmtOf t).unpack y) with
    | none => (0, if gt then fINV else 0)
    | some o => (if (gt && o == .gt) || (!gt && o == .eq) then ones else 0, 0)
  else (if (gt && decide (sgn w y < sgn w x)) || (!gt && decide (x = y)) then ones else 0, 0)

/-! ## Widening (R121) -/

/-- Accumulate an exact integer product into a lane of `w` bits: op 0 add, 1 subtract, 2 assign. -/
def lane (w op : Nat) (sat : Bool) (d : Nat) (p : Int) : Nat × Nat :=
  let v := match op with
    | 0 => sgn w d + p
    | 1 => sgn w d - p
    | _ => p
  if sat then clampV w v else (uns w v, if satS w v = v then 0 else fVAV)

/-- The two accumulator registers of one source register. `d` are their old contents. -/
def widen (t op rnd : Nat) (sat cj : Bool) (a b d0 d1 : Nat) : List VR :=
  let w := compW t
  let dl := els (2 * w) d0 ++ els (2 * w) d1
  let l : List (Nat × Nat) :=
    if isFp t then
      List.zipWith (fun d (p : Nat × Nat) =>
        if op = 2 then
          let q := fpProd ((fmtOf t).unpack p.1) ((fmtOf t).unpack p.2)
          let r := fp32.ofV rnd q.1
          (r.1, r.2 ||| if q.2 then fINV else 0)
        else fp32.fma (fmtOf t) rnd (op = 1) d p.1 p.2) dl ((els w a).zip (els w b))
    else if isCplx t then
      let ps := (List.zipWith (fun x y => let p := cprod w cj x y; [p.1, p.2]) (pairs (els w a)) (pairs (els w b))).flatten
      List.zipWith (fun d p => lane (2 * w) op sat d p) dl ps
    else List.zipWith (fun d p => lane (2 * w) op sat d p) dl (List.zipWith (fun x y => sgn w x * sgn w y) (els w a) (els w b))
  let n := 4096 / (2 * w)
  [⟨pck (2 * w) ((l.take n).map (·.1)), 0, orFlags l⟩, ⟨pck (2 * w) ((l.drop n).map (·.1)), 0, 0⟩]

/-! ## Narrowing (R89, R122) -/

/-- Function X of R89 with W = 16 or 32: the result and whether it clamped. -/
def fnX (v : Int) (c rnd : Nat) (sat : Bool) (w : Nat) : Nat × Bool :=
  let q := shrRnd rnd v c
  if sat then (uns w (satS w q), decide (satS w q ≠ q)) else (uns w q, false)

/-- Narrow 32-bit components under VC_NARROW (R122). -/
def narrow16 (nrw x : Nat) : Nat × Nat :=
  let r := fnX (sgn 32 x) (fld nrw 4 0) (fld nrw 6 5) (tb nrw 7) 16
  (r.1, if r.2 then fVSAT else 0)

/-! ## Permutes and tables (R124, R125) -/

/-- VPERM of pattern `p` on elements of width `w`: sources A and A+1. -/
def vPerm (p w cw a a1 : Nat) : Nat :=
  let n := 4096 / w
  let x := els w a
  let y := els w a1
  let g := fun (l : List Nat) (i : Nat) => l.getD i 0
  match p with
  | 0 => pck w x.reverse
  | 1 => pck w ((List.range n).map (fun i => g x (if i % 2 = 0 then i + 1 else i - 1)))
  | 2 => pck w ((List.range n).map (fun i => g (x ++ y) (2 * i)))
  | 3 => pck w ((List.range n).map (fun i => g (x ++ y) (2 * i + 1)))
  | 4 => pck w ((List.range n).map (fun i => if i % 2 = 0 then g x (i / 2) else g y (i / 2)))
  | 5 => pck w ((List.range n).map (fun i => if i % 2 = 0 then g x (i / 2 + n / 2) else g y (i / 2 + n / 2)))
  | 6 => pck w (List.replicate n (g x 0))
  | 7 => pck w ((List.range n).map (fun i => g x ((i + 1) % n)))
  | 8 => let c := els cw a; pck cw ((List.range (2 * n)).map (fun i => if i < n then g c (2 * i) else g c (2 * (i - n) + 1)))
  | _ => let c := els cw a; pck cw ((List.range (2 * n)).map (fun i => if i % 2 = 0 then g c (i / 2) else g c (n + i / 2)))

/-- VTBL: entries of the table registers `t` at the 16-bit indices of `ix` (R125). -/
def vTbl (w : Nat) (t : List Nat) (ix : Nat) : Nat :=
  let ents := (t.map (els w)).flatten
  pck w (((els 16 ix).take (4096 / w)).map (fun i => ents.getD i 0))

/-! ## Reduction and conversion -/

/-- Sum by a tree of adjacent pairs. -/
def treeSum (rnd : Nat) : Nat → List Nat → Nat × Nat
  | 0, l => (l.headD 0, 0)
  | k + 1, l =>
    let h := l.length / 2
    let x := treeSum rnd k (l.take h)
    let y := treeSum rnd k (l.drop h)
    let r := fp32.add rnd x.1 y.1
    (r.1, x.2 ||| y.2 ||| r.2)

/-- VRSUM over the source registers. -/
def vRsum (t rnd : Nat) (a : List Nat) : VR :=
  if t = 7 then
    let l := (a.map (els 32)).flatten
    let r := treeSum rnd (Nat.log2 l.length) l
    ⟨r.1, 0, r.2⟩
  else if t = 3 then
    let l := (a.map (fun v => pairs (els 16 v))).flatten
    let re := l.foldl (fun s p => s + sgn 16 p.1) 0
    let im := l.foldl (fun s p => s + sgn 16 p.2) 0
    ⟨uns 32 re + uns 32 im * 2 ^ 32, 0, 0⟩
  else ⟨uns 32 (((a.map (els 16)).flatten).foldl (fun s x => s + sgn 16 x) 0), 0, 0⟩

/-- Split a doubled list of `w`-bit components into two registers. -/
def twoRegs (w : Nat) (l : List (Nat × Nat)) : List VR :=
  let n := 4096 / w
  [⟨pck w ((l.take n).map (·.1)), 0, orFlags l⟩, ⟨pck w ((l.drop n).map (·.1)), 0, 0⟩]

/-- Is the conversion from `src` to `dst` one of R127? Its size: 0 same, 1 doubles, 2 halves. -/
def cvtKind (src dst : Nat) : Option Nat :=
  if (src = 1 ∧ dst = 8) ∨ (src = 3 ∧ dst = 9) ∨ (src = 8 ∧ dst = 1) ∨ (src = 9 ∧ dst = 3) then some 0
  else if (src = 0 ∧ dst = 1) ∨ (src = 1 ∧ dst = 2) ∨ (src = 3 ∧ dst = 4) ∨ (src = 1 ∧ dst = 7) ∨ (src = 3 ∧ dst = 7)
    ∨ (src = 5 ∧ dst = 7) ∨ (src = 6 ∧ dst = 7) then some 1
  else if (src = 2 ∧ dst = 1) ∨ (src = 4 ∧ dst = 3) ∨ (src = 7 ∧ dst = 1) ∨ (src = 7 ∧ dst = 5) ∨ (src = 7 ∧ dst = 6) then some 2
  else none

/-- Does a conversion use RND? -/
def cvtRnd (src dst : Nat) : Bool := (isBfp src && isInt dst) || (decide (src = 7) && decide (dst = 1 ∨ dst = 5 ∨ dst = 6))

/-- Convert one register of a same-size conversion: a bfp value is m * 2^E (R127). -/
def cvtSame (src rnd a : Nat) (e : Int) : VR :=
  if isInt src then ⟨a, 0, 0⟩
  else
    let r := map1 16 (fun x =>
      let m := sgn 16 x
      if 0 ≤ e then clampV 16 (m * (2 ^ (min e 16).toNat : Nat)) else clampV 16 (shrRnd rnd m (-e).toNat)) a
    ⟨r.1, 0, r.2⟩

/-- Convert one register to two. -/
def cvtUp (src dst a : Nat) : List VR :=
  if dst = 7 then
    if src = 5 ∨ src = 6 then twoRegs 32 ((els 16 a).map (fun x => fp32.ofV 0 ((fmtOf src).unpack x)))
    else twoRegs 32 ((els 16 a).map (fun x => (i16ToFp32 (sgn 16 x), 0)))
  else
    let w := compW src
    twoRegs (2 * w) ((els w a).map (fun x => (uns (2 * w) (sgn w x), 0)))

/-- An fp32 value to a signed 16-bit integer, rounded as RND rounds for an integer type (R112) and saturated;
a NaN gives 0 and is invalid (R127). -/
def fpToI16 (rnd b : Nat) : Nat × Nat :=
  match fp32.unpack b with
  | .nan _ => (0, fINV)
  | .inf n => clampV 16 (if n then -32769 else 32768)
  | .fin n m e =>
    let v : Int := if n then -(m : Int) else m
    clampV 16 (if 0 ≤ e then v * (2 ^ (min e 64).toNat : Nat) else shrRnd rnd v (-e).toNat)

/-- Convert two registers to one. -/
def cvtDown (src dst rnd nrw a0 a1 : Nat) : VR :=
  let l := els 32 a0 ++ els 32 a1
  let r := if src = 7 then
      if dst = 1 then l.map (fpToI16 rnd)
      else l.map (fun x => (fmtOf dst).ofV rnd (fp32.unpack x))
    else l.map (narrow16 nrw)
  ⟨pck 16 (r.map (·.1)), 0, orFlags r⟩

/-! ## Decode rules (R113, R119) -/

/-- Types an operation supports (R113, R120). -/
def vTypeOk (op t : Nat) : Bool :=
  match op with
  | 0x00 => decide (t < 10)
  | 0x01 => decide (t < 10)
  | 0x02 => decide (t < 10)
  | 0x03 => isInt t
  | 0x04 => isInt t
  | 0x05 => decide (t < 10) && decide (t ≠ 6)
  | 0x06 => isReal t
  | 0x07 => isReal t
  | 0x08 => isReal t
  | 0x09 => isInt t
  | 0x0A => isInt t
  | 0x0B => isInt t
  | 0x0C => isInt t || isBfp t
  | 0x0D => isInt t || isBfp t
  | 0x0E => decide (t = 3 ∨ t = 4 ∨ t = 9)
  | 0x0F => isInt t || isFp t
  | 0x10 => isReal t
  | 0x11 => isReal t
  | 0x12 => decide (0 < t) && decide (t < 10)
  | 0x13 => decide (t = 3 ∨ t = 4 ∨ t = 9)
  | 0x14 => decide (t = 0 ∨ t = 1 ∨ t = 3 ∨ t = 5 ∨ t = 6)
  | 0x15 => decide (t = 0 ∨ t = 1 ∨ t = 3 ∨ t = 5 ∨ t = 6)
  | 0x16 => decide (t = 0 ∨ t = 1 ∨ t = 3 ∨ t = 5 ∨ t = 6)
  | 0x17 => decide (t = 3)
  | 0x18 => isFp t
  | 0x19 => decide (t = 0 ∨ t = 1 ∨ t = 3)
  | 0x1A => decide (t = 1 ∨ t = 3 ∨ t = 7)
  | 0x1B => decide (t < 10)
  | 0x1C => decide (0 < t) && decide (t < 10)
  | 0x1D => decide (t < 10)
  | 0x1E => decide (t < 8)
  | 0x24 => isBfp t
  | _ => decide (t = 0)

/-- Does the operation take a B operand that X may make a scalar? -/
def vHasB (op : Nat) : Bool :=
  decide ((1 ≤ op ∧ op ≤ 4) ∨ (7 ≤ op ∧ op ≤ 0xD) ∨ (0xF ≤ op ∧ op ≤ 0x19) ∨ op = 0x24)

/-- Does it use RND (R111-R113)? -/
def vUsesRnd (op t b : Nat) : Bool :=
  match op with
  | 0x01 => isFp t || isBfp t
  | 0x02 => isFp t || isBfp t
  | 0x0D => true
  | 0x12 => true
  | 0x13 => true
  | 0x14 => isFp t
  | 0x15 => isFp t
  | 0x16 => isFp t
  | 0x18 => true
  | 0x1A => isFp t
  | 0x1D => cvtRnd (b % 16) t
  | 0x24 => true
  | _ => false

/-- Does it use SAT? -/
def vUsesSat (op t : Nat) : Bool :=
  match op with
  | 0x0C => true
  | 0x14 => isInt t
  | 0x15 => isInt t
  | 0x17 => true
  | 0x19 => true
  | _ => false

/-- Registers of the destination, source A and source B of a vector issue; none if it names no vector
register there. Each is (first register, count). -/
def vDst (w : Nat) : Option (Nat × Nat) :=
  let n := grpSize (vGrp w)
  match vVop w with
  | 0x14 => some (vD w, 2 * n)
  | 0x15 => some (vD w, 2 * n)
  | 0x16 => some (vD w, 2 * n)
  | 0x17 => some (vD w, 2 * n)
  | 0x19 => some (vD w, 2)
  | 0x1A => some (vD w, 1)
  | 0x1C => some (vD w, 1)
  | 0x1D => match cvtKind (vB w % 16) (vType w) with
    | some 1 => some (vD w, 2 * n)
    | some 2 => some (vD w, n / 2)
    | _ => some (vD w, n)
  | 0x20 => none
  | 0x21 => some (vD w, 1)
  | 0x22 => none
  | 0x23 => some (vD w, 1)
  | 0x25 => none
  | 0x26 => none
  | 0x27 => none
  | _ => some (vD w, n)

def vSrcA (w : Nat) : Option (Nat × Nat) :=
  let n := grpSize (vGrp w)
  match vVop w with
  | 0x1B => some (vA w, if 2 ≤ vB w ∧ vB w ≤ 5 then 2 else 1)
  | 0x1E => none
  | 0x1F => none
  | 0x20 => some (vA w, 1)
  | 0x21 => none
  | 0x22 => some (vA w, 1)
  | 0x23 => none
  | 0x25 => none
  | 0x26 => none
  | 0x27 => none
  | _ => some (vA w, n)

def vSrcB (w : Nat) : Option (Nat × Nat) :=
  if vX w then none
  else if vVop w = 0x19 ∨ vVop w = 0x1C then some (vB w, 1)
  else if vHasB (vVop w) then some (vB w, grpSize (vGrp w))
  else none

/-- A group names aligned registers within the file (R119). -/
def grpOk : Option (Nat × Nat) → Bool
  | none => true
  | some (r, n) => decide (n ≤ 4) && decide (0 < n) && decide (r % n = 0)

/-- Is a vector issue legal (R77, R113, R119)? The exclusions that need other slots are elsewhere. -/
def vLegal (w : Nat) : Bool :=
  let op := vVop w
  let t := vType w
  let b := vB w
  decide (op < 0x28) && vTypeOk op t && decide (vGrp w ≠ 3)
  && grpOk (vDst w) && grpOk (vSrcA w) && grpOk (vSrcB w)
  && (!vX w || vHasB op)
  && (decide (op = 0x24) → vX w)
  && (vUsesRnd op t b || decide (vRnd w = 0))
  && (isFp t || decide (vRnd w ≠ 3))
  && (vUsesSat op t || !vSat w)
  && (if vHasB op ∨ op = 0x1C then true
      else if op = 0x1B then decide (b < 10) && decide (vGrp w = 0) && (decide (b < 8) || decide (t = 3 ∨ t = 4))
      else if op = 0x1D then
        decide (b < 16) && (match cvtKind b t with
          | some 1 => decide (vGrp w = 0)
          | some 2 => decide (vGrp w ≠ 0)
          | some _ => true
          | none => false)
      else if op = 0x20 ∨ op = 0x21 then true
      else decide (b = 0))
  && (if op = 0x1F then decide (vA w = 0) else true)
  && (if 0x20 ≤ op ∧ op ≤ 0x27 ∧ op ≠ 0x24 then decide (vGrp w = 0) else true)
  && (if op = 0x25 then decide (vA w < 9) else true)
  && (if op = 0x26 then decide (vD w < 9) else true)
  && (if op = 0x27 then decide (vD w = 0) else true)

/-- Core cycles an operation holds the datapath (R114). -/
def vOccupancy (w : Nat) : Nat :=
  let n := grpSize (vGrp w)
  let t := vType w
  match vVop w with
  | 0x12 => n * (if t = 4 then 8 else if t = 2 ∨ t = 3 ∨ t = 9 then 4 else 2)
  | 0x13 => n * (if t = 4 then 8 else 4)
  | 0x14 => n * (if t = 3 then 4 else 2)
  | 0x15 => n * (if t = 3 then 4 else 2)
  | 0x16 => n * (if t = 3 then 4 else 2)
  | 0x17 => n * 4
  | 0x19 => if t = 3 then 4 else 2
  | 0x1A => n * 4
  | 0x1B => if 2 ≤ vB w ∧ vB w ≤ 5 then 4 else 2
  | 0x1C => 2 * n
  | 0x1D => 2 * (match vDst w with | some (_, k) => k | none => 1)
  | 0x20 => 1
  | 0x21 => 1
  | 0x22 => 1
  | 0x23 => 1
  | 0x25 => 1
  | 0x26 => 1
  | 0x27 => 1
  | _ => 2 * n

/-! ## Results -/

def zv : Nat → BitVec 4096 := fun _ => 0
def ze : Nat → BitVec 8 := fun _ => 0
def Core.gv (c : Core) (i : Nat) : Nat := (tget zv c.vreg i).toNat
def Core.ge (c : Core) (i : Nat) : Int := (tget ze c.vexp i).toInt

/-- Registers `r` to `r + n - 1`. -/
def Core.grp (c : Core) (r n : Nat) : List Nat := (List.range n).map (fun i => c.gv (r + i))

/-- Same-size operations on one register: A, B and the old D with their exponents. -/
def vSame (w a b d : Nat) (ea eb : Int) (sb : Nat) : VR :=
  let t := vType w
  let cw := compW t
  let rnd := vRnd w
  let int2 := fun (f : Int → Int → Int) => let r := map2 cw (fun x y => clampV cw (f (sgn cw x) (sgn cw y))) a b; (⟨r.1, 0, r.2⟩ : VR)
  let keep : Int := if isBfp t then ea else 0
  let of2 := fun (r : Nat × Nat) => (⟨r.1, keep, r.2⟩ : VR)
  let shamt := if vX w then bcastReg (if cw = 32 then 2 else if cw = 8 then 0 else 1) (sb % 64) else b
  match vVop w with
  | 0x00 => ⟨a, ea, 0⟩
  | 0x01 => vAdd t rnd false a b ea eb
  | 0x02 => vAdd t rnd true a b ea eb
  | 0x03 => int2 (· + ·)
  | 0x04 => int2 (· - ·)
  | 0x05 => if isFp t then of2 (map1 cw (fun x => (x ^^^ 2 ^ (cw - 1), 0)) a)
            else of2 (map1 cw (fun x => clampV cw (- sgn cw x)) a)
  | 0x06 => if isFp t then of2 (map1 cw (fun x => (x % 2 ^ (cw - 1), 0)) a)
            else of2 (map1 cw (fun x => clampV cw (sgn cw x).natAbs) a)
  | 0x07 => if isFp t then of2 (map2 cw ((fmtOf t).minmax false) a b)
            else of2 (map2 cw (fun x y => (uns cw (min (sgn cw x) (sgn cw y)), 0)) a b)
  | 0x08 => if isFp t then of2 (map2 cw ((fmtOf t).minmax true) a b)
            else of2 (map2 cw (fun x y => (uns cw (max (sgn cw x) (sgn cw y)), 0)) a b)
  | 0x09 => of2 (a &&& b, 0)
  | 0x0A => of2 (a ||| b, 0)
  | 0x0B => of2 (a ^^^ b, 0)
  | 0x0C => of2 (map2 cw (shiftL cw (vSat w)) a shamt)
  | 0x0D => of2 (map2 cw (fun x n => (uns cw (shrRnd rnd (sgn cw x) (n % 64)), 0)) a shamt)
  | 0x0E => of2 (cmapOne cw a)
  | 0x0F => of2 (selReg (elemW t) a b d)
  | 0x10 => of2 (map2 cw (vCmp t true) a b)
  | 0x11 => of2 (map2 cw (vCmp t false) a b)
  | 0x12 => vMul t rnd false a b ea eb
  | 0x13 => vMul t rnd true a b ea eb
  | 0x18 =>
    let f := fmtOf t
    let l := List.zipWith (fun x (p : Nat × Nat) => f.fma f rnd false x p.1 p.2) (els cw d) ((els cw a).zip (els cw b))
    ⟨pck cw (l.map (·.1)), 0, orFlags l⟩
  | 0x1D => cvtSame (vB w % 16) rnd a ea
  | 0x1E => ⟨b, 0, 0⟩
  | 0x24 => bfpClamp rnd a (ea + sgn 8 sb) 0
  | _ => ⟨0, 0, 0⟩
where
  /-- Negate imaginary parts, saturating. -/
  cmapOne (cw a : Nat) : Nat × Nat :=
    let l := ((pairs (els cw a)).map (fun p => [(p.1, 0), clampV cw (- sgn cw p.2)])).flatten
    (pck cw (l.map (·.1)), orFlags l)
  /-- Elements of `a` where the mask `d` is not 0, of `b` elsewhere. -/
  selReg (ew a b d : Nat) : Nat × Nat :=
    (pck ew (List.zipWith (fun m (p : Nat × Nat) => if m ≠ 0 then p.1 else p.2) (els ew d) ((els ew a).zip (els ew b))), 0)

/-- Result of the datapath operation `w`: the registers it writes with contents and exponents, and the
sticky flags. -/
def vResult (c : Core) (w : Nat) : List (Nat × VR) :=
  let t := vType w
  let n := grpSize (vGrp w)
  let sb := c.gs (vB w)
  let sat := vSat w
  let rnd := vRnd w
  let nrw := c.vcNarrow.toNat
  let bReg := fun i => if vX w then bcastReg t sb else c.gv (vB w + i)
  let bExp := fun i => if vX w then 0 else c.ge (vB w + i)
  let num := fun (l : List VR) => (List.range l.length).zip l |>.map (fun p => (vD w + p.1, p.2))
  let mac := fun (op : Nat) (cj : Bool) =>
    num ((List.range n).map (fun i => widen t op rnd sat cj (c.gv (vA w + i)) (bReg i) (c.gv (vD w + 2 * i)) (c.gv (vD w + 2 * i + 1)))).flatten
  match vVop w with
  | 0x14 => mac 0 false
  | 0x15 => mac 1 false
  | 0x16 => mac 2 false
  | 0x17 => mac 0 true
  | 0x19 =>
    let ew := elemW t
    let win := ((c.grp (vA w) n).map (els ew)).flatten.tail ++ [0]
    let m := 4096 / ew
    num (widen t 0 0 sat false (c.gv (vA w)) (bReg 0) (c.gv (vD w)) (c.gv (vD w + 1)))
      ++ (List.range n).map (fun i => (vA w + i, (⟨pck ew ((win.drop (m * i)).take m), 0, 0⟩ : VR)))
  | 0x1A => num [vRsum t rnd (c.grp (vA w) n)]
  | 0x1B => num [⟨vPerm (vB w) (elemW t) (compW t) (c.gv (vA w)) (c.gv (vA w + 1)), if isBfp t then c.ge (vA w) else 0, 0⟩]
  | 0x1C => num [⟨vTbl (elemW t) (c.grp (vA w) n) (c.gv (vB w)), if isBfp t then c.ge (vA w) else 0, 0⟩]
  | 0x1D =>
    match cvtKind (vB w % 16) t with
    | some 1 => num ((List.range n).map (fun i => cvtUp (vB w % 16) t (c.gv (vA w + i)))).flatten
    | some 2 => num ((List.range (n / 2)).map (fun i => cvtDown (vB w % 16) t rnd nrw (c.gv (vA w + 2 * i)) (c.gv (vA w + 2 * i + 1))))
    | _ => num ((List.range n).map (fun i => vSame w (c.gv (vA w + i)) 0 0 (c.ge (vA w + i)) 0 0))
  | 0x1E => num ((List.range n).map (fun _ => ⟨bcastReg t (c.gs (vA w)), 0, 0⟩))
  | 0x1F => num ((List.range n).map (fun _ => ⟨0, 0, 0⟩))
  | _ => num ((List.range n).map (fun i =>
      vSame w (c.gv (vA w + i)) (bReg i) (c.gv (vD w + i)) (c.ge (vA w + i)) (bExp i) sb))

end Sys2Proof.Machine
end

