-- ==== Sys2Proof/Machine/Kdec.lean ====
section
/-! DEFINITION. Decoding a bundle (R74-R77, R84, R87, R91, R119, R128, R148): the legality of each slot word, the
conflicts between slots, the privilege checks and the registers a slot names. -/

namespace Sys2Proof.Machine

/-- The four slot words of a bundle, slot 0 first (R74). -/
structure Bundle where
  w0 : Nat
  w1 : Nat
  w2 : Nat
  w3 : Nat
deriving DecidableEq, Repr

/-- A bundle from the 16 bytes of its memory word. -/
def Bundle.ofBytes (l : List Byte) : Bundle := ⟨le l 0 4, le l 4 4, le l 8 4, le l 12 4⟩

/-! ## Slot 0 (R84, R148) -/

def zOp (w : Nat) : Nat := fld w 31 26
def zD (w : Nat) : Nat := fld w 25 21
def zA (w : Nat) : Nat := fld w 20 16
def zB (w : Nat) : Nat := fld w 15 11
def zI (w : Nat) : Nat := fld w 15 0
def zTag (w : Nat) : Nat := fld w 10 5

/-- Is the slot 0 word an instruction with every unused field 0 (R84, R148)? -/
def z0Legal (w : Nat) : Bool :=
  let op := zOp w
  let r := decide (fld w 10 0 = 0)
  if op = 0 ∨ (0x2E ≤ op ∧ op ≤ 0x30) then decide (fld w 25 0 = 0)
  else if op ≤ 0x0C then r
  else if op ≤ 0x0E then r && decide (zB w = 0)
  else if op = 0x0F then r && decide (zD w = 0)
  else if op ≤ 0x13 then true
  else if op ≤ 0x16 then decide (fld w 15 5 = 0)
  else if op = 0x17 then decide (zD w = 0)
  else if op = 0x18 then decide (zA w = 0)
  else if op = 0x19 ∨ op = 0x1A ∨ op = 0x1D then r && decide (zB w = 0 ∧ zD w < 16)
  else if op = 0x1B ∨ op = 0x1C ∨ op = 0x1E then r && decide (zB w = 0 ∧ zA w < 16)
  else if op = 0x1F then decide (zD w < 16 ∧ zA w < 16)
  else if op ≤ 0x27 then true
  else if op = 0x28 then r && decide (zD w = 0 ∧ zB w = 0)
  else if op = 0x29 then decide (fld w 24 21 = 0 ∧ 1 ≤ zI w ∧ zI w ≤ 8191)
  else if op = 0x2A then decide (1 ≤ fld w 11 0)
  else if op = 0x2B then decide (zA w = 0 ∧ zI w ≤ 0x13)
  else if op = 0x2C then decide (zD w = 0 ∧ zI w ≤ 0x13)
  else if op = 0x2D then decide (zD w = 0 ∧ zA w = 0)
  else if op = 0x38 then decide (fld w 4 0 = 0)
  else if op = 0x39 ∨ op = 0x3A then decide (fld w 20 11 = 0 ∧ fld w 4 0 = 0)
  else if op = 0x3B then decide (fld w 15 6 = 0 ∧ fld w 4 0 = 0)
  else if op = 0x3C then decide (fld w 25 11 = 0 ∧ fld w 4 0 = 0)
  else if op = 0x3D then decide (fld w 6 0 = 0)
  else false

/-- Kernel-only instructions and control-register accesses, refused in thread mode (R84, R93). -/
def z0Kernel (w : Nat) : Bool :=
  let op := zOp w
  if op = 0x2E ∨ op = 0x2F then true
  else if op = 0x2B then decide (zI w = 0x12)
  else if op = 0x2C then !decide (zI w = 0 ∨ (8 ≤ zI w ∧ zI w ≤ 0xD))
  else false

/-- The s register slot 0 writes. -/
def z0DestS (w : Nat) : List Nat :=
  let op := zOp w
  if (1 ≤ op ∧ op ≤ 0x0E) ∨ (0x10 ≤ op ∧ op ≤ 0x16) ∨ op = 0x18 ∨ op = 0x1B ∨ op = 0x1C ∨ op = 0x1E ∨ op = 0x2B
    ∨ op = 0x39 ∨ op = 0x3A ∨ op = 0x3B then [zD w]
  else if op = 0x27 then [31]
  else []

/-- The a register slot 0 writes. -/
def z0DestA (w : Nat) : List Nat :=
  if zOp w = 0x19 ∨ zOp w = 0x1A ∨ zOp w = 0x1F then [zD w] else []

/-- The s registers slot 0 reads. -/
def z0SrcS (w : Nat) : List Nat :=
  let op := zOp w
  if op = 0 then []
  else if op ≤ 0x0C ∨ op = 0x0F then [zA w, zB w]
  else if op ≤ 0x17 ∨ op = 0x19 ∨ op = 0x1A ∨ op = 0x1D then [zA w]
  else if 0x20 ≤ op ∧ op ≤ 0x25 then [zD w, zA w]
  else if op = 0x28 ∨ op = 0x29 ∨ op = 0x2C ∨ op = 0x3B then [zA w]
  else if op = 0x38 then [zD w, zA w, zB w]
  else if op = 0x3D then [fld w 12 8]
  else []

/-! ## Slot 1 (R87, R118) -/

/-- Slot 1 holds a vector issue. -/
def isVec (w : Nat) : Bool := tb w 31
def mOp (w : Nat) : Nat := fld w 30 26
def mAcc (w : Nat) : Nat := fld w 25 23
def mA (w : Nat) : Nat := fld w 22 18
def mB (w : Nat) : Nat := fld w 17 13
def mC (w : Nat) : Nat := fld w 12 8
def mRnd (w : Nat) : Nat := fld w 7 6
def mFrac (w : Nat) : Bool := tb w 4

/-- Is the M-form word an instruction with every unused field 0 (R87)? -/
def m1Legal (w : Nat) : Bool :=
  let op := mOp w
  let noC := decide (mC w = 0)
  let noR := decide (mRnd w = 0) && !tb w 5
  let noF := !tb w 4
  let lo := decide (fld w 3 0 = 0)
  if op = 0 then decide (w = 0)
  else if op ≤ 6 then lo && noC && noR
  else if op ≤ 9 then lo && noC && noR && decide (mAcc w % 2 = 0)
  else if op = 0x0A then lo && noR && decide (mC w < 16)
  else if op = 0x0B then lo && noC && noR && noF && decide (mA w = 0)
  else if op = 0x0C then lo && noC && noR && noF && decide (mB w = 0 ∧ mA w < 8)
  else if op = 0x0D then lo && decide (mA w = 0 ∧ mRnd w ≠ 3)
  else if op = 0x0E then lo && noC && noR && noF && decide (mA w = 0 ∧ mB w = 0)
  else if op = 0x0F then lo && noR && noF && decide (mB w = 0)
  else if op ≤ 0x11 then lo && noR && noF && decide (mAcc w = 0)
  else false

/-- A MAC instruction writes sample and address in X memory (R90). -/
def isFtap (w : Nat) : Bool := !isVec w && decide (mOp w = 0x0A)

/-- s registers, accumulators that slot 1 writes. -/
def m1DestS (w : Nat) : List Nat :=
  if isVec w then (if vVop w = 0x20 ∨ vVop w = 0x22 ∨ vVop w = 0x25 then [vD w] else [])
  else if mOp w = 0x0D then [mB w]
  else if mOp w = 0x10 ∨ mOp w = 0x11 then [mC w]
  else []

def m1DestAcc (w : Nat) : List Nat :=
  let op := mOp w
  if isVec w ∨ op = 0 ∨ op = 0x0D ∨ 0x10 ≤ op then []
  else if 7 ≤ op ∧ op ≤ 9 then [mAcc w, mAcc w + 1]
  else [mAcc w]

/-- s registers slot 1 reads, and accumulators it reads outside accumulation (R71). -/
def m1SrcS (w : Nat) : List Nat :=
  if isVec w then
    (if vX w then [vB w] else []) ++
    (if vVop w = 0x1E ∨ vVop w = 0x21 ∨ vVop w = 0x23 ∨ vVop w = 0x26 ∨ vVop w = 0x27 then [vA w] else [])
  else
    let op := mOp w
    if 1 ≤ op ∧ op ≤ 0x0A ∨ op = 0x10 ∨ op = 0x11 then [mA w, mB w]
    else if op = 0x0B then [mB w]
    else if op = 0x0F then [mA w]
    else []

def m1SrcAcc (w : Nat) : List Nat :=
  if isVec w then [] else if mOp w = 0x0D then [mAcc w] else if mOp w = 0x0C then [mA w] else []

/-! ## Slots 2 and 3 (R91, R128) -/

def dOp (w : Nat) : Nat := fld w 31 27
def dReg (w : Nat) : Nat := fld w 26 22
def dA (w : Nat) : Nat := fld w 21 18
def dPm (w : Nat) : Bool := tb w 17
def dOfs (w : Nat) : Nat := fld w 16 0
def dGrp (w : Nat) : Nat := grpSize (fld w 16 15)
def isVmem (w : Nat) : Bool := decide (0x18 ≤ dOp w)
def isFar (w : Nat) : Bool := decide (0x10 ≤ dOp w ∧ dOp w ≤ 0x13)
def isFarLoad (w : Nat) : Bool := decide (dOp w = 0x10 ∨ dOp w = 0x11)
def isFarStore (w : Nat) : Bool := decide (dOp w = 0x12 ∨ dOp w = 0x13)

/-- A near access of scalar or vector form. -/
def isNear (w : Nat) : Bool := decide (dOp w ≠ 0 ∧ dOp w ≠ 0x0F) && !isFar w

/-- A near store. -/
def isNearStore (w : Nat) : Bool :=
  let op := dOp w
  decide ((7 ≤ op ∧ op ≤ 0x0C) ∨ op = 0x0E ∨ op = 0x19 ∨ op = 0x1A)

/-- Size of a scalar access (R91). -/
def dSize (w : Nat) : Nat :=
  match dOp w with
  | 1 => 1
  | 2 => 1
  | 3 => 2
  | 4 => 2
  | 5 => 4
  | 6 => 8
  | 7 => 1
  | 8 => 2
  | 9 => 4
  | 0x0A => 8
  | 0x0B => 2
  | 0x0C => 4
  | 0x0D => 16
  | 0x0E => 16
  | 0x10 => 4
  | 0x11 => 8
  | 0x12 => 4
  | 0x13 => 8
  | 0x18 => 512 * dGrp w
  | 0x19 => 512 * dGrp w
  | 0x1A => 256 * dGrp w
  | _ => 0

/-- Is the memory word legal in its slot (R77, R91, R128)? -/
def d23Legal (slot w : Nat) : Bool :=
  let op := dOp w
  let pmOk := !dPm w || decide (dOfs w = 0)
  let vOk := decide (fld w 16 15 ≠ 3 ∧ dReg w % dGrp w = 0) && !tb w 13 && (!dPm w || decide (fld w 12 0 = 0))
  if op = 0 then decide (w = 0)
  else if op = 6 ∨ op = 0x0A then pmOk && decide (dReg w % 2 = 0)
  else if op ≤ 0x0A then pmOk
  else if op = 0x0B then pmOk && decide (dReg w % 4 ≠ 3)
  else if op ≤ 0x0E then pmOk && decide (dReg w % 4 = 0)
  else if op = 0x0F then dPm w && decide (dOfs w = 0 ∧ dReg w = 0)
  else if op ≤ 0x13 then decide (slot = 2) && pmOk && (decide (op % 2 = 0) || decide (dReg w % 2 = 0))
  else if op = 0x18 then vOk && !tb w 14
  else if op = 0x19 then vOk
  else if op = 0x1A then vOk && decide (fld w 16 15 ≠ 0)
  else false

def d23DestS (w : Nat) : List Nat :=
  let op := dOp w
  if (1 ≤ op ∧ op ≤ 5) ∨ op = 0x10 then [dReg w]
  else if op = 6 ∨ op = 0x11 then [dReg w, dReg w + 1]
  else []

def d23DestAcc (w : Nat) : List Nat := if dOp w = 0x0D then [dReg w / 4] else []

def d23SrcS (w : Nat) : List Nat :=
  let op := dOp w
  if (7 ≤ op ∧ op ≤ 9) ∨ op = 0x12 then [dReg w]
  else if op = 0x0A ∨ op = 0x13 then [dReg w, dReg w + 1]
  else []

def d23SrcAcc (w : Nat) : List Nat := if dOp w = 0x0B ∨ dOp w = 0x0C ∨ dOp w = 0x0E then [dReg w / 4] else []

/-- The a register a slot 2 or 3 word post-modifies. -/
def d23Pm (w : Nat) : List Nat := if dOp w ≠ 0 ∧ dPm w then [dA w] else []
def m1Pm (w : Nat) : List Nat := if isFtap w then [mC w] else []

/-- Vector registers a slot writes (R119); VDROP's are named by its mask. -/
def v1Dest (c : Core) (w : Nat) : List Nat :=
  if !isVec w then []
  else
    let d := match vDst w with
      | some (r, n) => (List.range n).map (r + ·)
      | none => []
    let win := if vVop w = 0x19 then (List.range (grpSize (vGrp w))).map (vA w + ·) else []
    let drop := if vVop w = 0x27 then (List.range 32).filter (tb (c.gs (vA w))) else []
    d ++ win ++ drop

def v23Dest (w : Nat) : List Nat := if dOp w = 0x18 then (List.range (dGrp w)).map (dReg w + ·) else []

/-- Vector registers a slot reads. -/
def v1Src (w : Nat) : List Nat :=
  if !isVec w then []
  else
    let l := fun (o : Option (Nat × Nat)) => match o with
      | some (r, n) => (List.range n).map (r + ·)
      | none => []
    l (vSrcA w) ++ l (vSrcB w)

def v23Src (w : Nat) : List Nat :=
  if dOp w = 0x19 ∨ dOp w = 0x1A then (List.range (dGrp w)).map (dReg w + ·) else []

/-! ## The decode check (R76 step 2) -/

/-- A vector instruction that only reaches the vector control registers 0x5-0x8 needs no ownership (R134). -/
def vCtlOnly (w : Nat) : Bool :=
  (decide (vVop w = 0x25) && decide (5 ≤ vA w)) || (decide (vVop w = 0x26) && decide (5 ≤ vD w))

/-- Does the slot 1 word need the vector state of the running thread (R134)? -/
def v1Uses (w : Nat) : Bool := isVec w && !vCtlOnly w

/-- Is a value that VCWR writes to vector control register `i` valid (R133)? -/
def vcValid (i v : Nat) : Bool :=
  if i = 1 then decide (fld v 6 5 ≠ 3)
  else if i = 7 then
    let o := fld v 29 6 * 64
    match fld v 31 30 with
    | 3 => false
    | 2 => decide (o + 16448 ≤ barnSize)
    | _ => decide (fld v 29 18 = 0 ∧ o + 16448 ≤ 0x40000)
  else true

/-- Do two lists share a register? -/
def meet (x y : List Nat) : Bool := x.any y.contains

/-- The modifier of a post-modify is reserved (R79), or bit-reversed for a vector access (R119). -/
def modeBad (c : Core) (vec : Bool) (n : Nat) : Bool :=
  let m := fld (c.gm n) 31 30
  decide (m = 3) || (vec && decide (m = 2))

def exIf (b : Bool) (code slot : Nat) (r : Option (Nat × Nat)) : Option (Nat × Nat) := if b then some (code, slot) else r

/-- The decode exception of a bundle: its code and slot, slot 0 first (R76, R77, R119, R134). -/
def decodeExc (c : Core) (b : Bundle) : Option (Nat × Nat) :=
  let s0 := z0DestS b.w0
  let s1 := m1DestS b.w1
  let s2 := d23DestS b.w2
  let s3 := d23DestS b.w3
  let a1 := m1DestAcc b.w1
  let a2 := d23DestAcc b.w2
  let p1 := m1Pm b.w1
  let p2 := d23Pm b.w2
  let p3 := d23Pm b.w3
  let a0 := z0DestA b.w0
  let noCur := !tb c.vcCur.toNat 8
  let v1 := v1Dest c b.w1
  let w1 := b.w1
  exIf (!z0Legal b.w0) ecIllegal 0 <|
  exIf (!c.km && z0Kernel b.w0) ecPriv 0 <|
  exIf (if isVec w1 then !vLegal w1 else !m1Legal w1) ecIllegal 1 <|
  exIf (meet s0 s1 || meet a0 p1 || (isFtap w1 && modeBad c false (mC w1)) || (v1Uses w1 && noCur)) ecIllegal 1 <|
  exIf (isVec w1 && decide (vVop w1 = 0x26) && !c.km && decide (3 ≤ vD w1)) ecPriv 1 <|
  exIf (isVec w1 && decide (vVop w1 = 0x26) && !vcValid (vD w1) (c.gs (vA w1))) ecIllegal 1 <|
  exIf (!d23Legal 2 b.w2) ecIllegal 2 <|
  exIf (meet s2 (s0 ++ s1) || meet a2 a1 || meet p2 (a0 ++ p1) || meet (v23Dest b.w2) v1
      || (isFtap w1 && isNearStore b.w2) || p2.any (modeBad c (isVmem b.w2)) || (isVmem b.w2 && noCur)) ecIllegal 2 <|
  exIf (!d23Legal 3 b.w3) ecIllegal 3 <|
  exIf (meet s3 (s0 ++ s1 ++ s2) || meet (d23DestAcc b.w3) (a1 ++ a2) || meet p3 (a0 ++ p1 ++ p2)
      || meet (v23Dest b.w3) (v1 ++ v23Dest b.w2) || p3.any (modeBad c (isVmem b.w3)) || (isVmem b.w3 && noCur)) ecIllegal 3
  none

/-! ## Addresses (R80-R82, R129) -/

/-- The least `k` with `n` ≤ 2^k. -/
def ceilLog2 (n : Nat) : Nat := ((List.range 33).find? (fun k => decide (n ≤ 2 ^ k))).getD 32

/-- Reversal of the low `k` bits. -/
def bitRev (k v : Nat) : Nat := (List.range k).foldl (fun r i => if tb v i then r + 2 ^ (k - 1 - i) else r) 0

/-- `a` post-modified under `m` (R80); none raises EC_BOUNDS (R81). -/
def postMod (a m : Nat) : Option Nat :=
  match fld m 31 30 with
  | 0 => some (((a : Int) + sgn 30 m) % (2 ^ 44 : Nat)).toNat
  | 1 =>
    let len := fld m 29 12
    let k := ceilLog2 len
    let o := a % 2 ^ k
    if len = 0 ∨ len ≤ o then none
    else some (a - o + (((o : Int) + sgn 12 m) % (len : Nat)).toNat)
  | _ =>
    let len := fld m 29 12
    let k := ceilLog2 len
    if len < 2 ∨ 131072 < len ∨ 2 ^ k ≠ len then none
    else
      let o := a % len
      some (a - o + bitRev k ((bitRev k o + bitRev k (fld m 11 0 % len)) % len))

/-- Address of a slot 2 or 3 access (R80, R129). -/
def dAddr (c : Core) (w : Nat) : Nat :=
  let a := c.ga (dA w)
  if dPm w then a
  else if isVmem w then (((a : Int) + 64 * sgn 13 w) % (2 ^ 44 : Nat)).toNat
  else (((a : Int) + sgn 17 w) % (2 ^ 44 : Nat)).toNat

/-- Bounds of a near access (R82). -/
def nearBad (a n : Nat) : Bool := decide (0x40000 < a + n)

/-- A vector access in circular mode runs past B + LEN (R129). -/
def circPast (c : Core) (w : Nat) : Bool :=
  let m := c.gm (dA w)
  let a := c.ga (dA w)
  let k := ceilLog2 (fld m 29 12)
  isVmem w && dPm w && decide (fld m 31 30 = 1) && decide (fld m 29 12 < a % 2 ^ k + dSize w)

/-- The address exception of a slot 2 or 3 word (R76 step 4): its code; the address is `dAddr`. -/
def dExc (c : Core) (w : Nat) : Option Nat :=
  let a := dAddr c w
  let n := dSize w
  if dOp w = 0 then none
  else if dOp w ≠ 0x0F ∧ !isVmem w ∧ a % n ≠ 0 then some ecAlign
  else if isNear w ∧ nearBad a n then some ecBounds
  else if circPast c w then some ecBounds
  else if dPm w ∧ postMod (c.ga (dA w)) (c.gm (dA w)) = none then some ecBounds
  else none

/-- The address exception of the FTAP move (R90). -/
def ftapExc (c : Core) (w : Nat) : Option Nat :=
  if !isFtap w then none
  else
    let a := c.ga (mC w)
    if a % 2 ≠ 0 then some ecAlign
    else if nearBad a 2 ∨ postMod a (c.gm (mC w)) = none then some ecBounds
    else none

/-- The first address exception of a bundle: code, slot and address (R76 step 4). -/
def addrExc (c : Core) (b : Bundle) : Option (Nat × Nat × Nat) :=
  match dExc c b.w2, dExc c b.w3, ftapExc c b.w1 with
  | some e, _, _ => some (e, 2, dAddr c b.w2)
  | none, some e, _ => some (e, 3, dAddr c b.w3)
  | none, none, some e => some (e, 1, c.ga (mC b.w1))
  | none, none, none => none

end Sys2Proof.Machine
end

