-- ==== Sys2Proof/Machine/Vswitch.lean ====
section
/-! DEFINITION. The vector unit's state outside its datapath: results leaving the datapath (R116), vector control
registers (R133) and the lazy switch of vector state (R134-R142). -/

namespace Sys2Proof.Machine

/-- Write register `r` and its exponent; it becomes LIVE and DIRTY (R109, R135). -/
def Core.setV (c : Core) (r v : Nat) (e : Int) : Core :=
  { c with
    vreg := tset zv c.vreg r (BitVec.ofNat 4096 v)
    vexp := tset ze c.vexp r (BitVec.ofInt 8 e)
    live := c.live ||| BitVec.ofNat 32 (2 ^ r)
    dirty := c.dirty ||| BitVec.ofNat 32 (2 ^ r) }

/-- Set sticky flags of VC_SR. -/
def Core.orVc (c : Core) (fl : Nat) : Core := { c with vcSr := c.vcSr ||| BitVec.ofNat 32 fl }

/-- The instruction in the datapath leaves it and writes its registers (R116). -/
def Core.dpDone (c : Core) : Core :=
  match c.dp with
  | none => c
  | some d =>
    let c1 := d.writes.foldl (fun c p => c.setV p.1 p.2.1.toNat p.2.2.toInt) c
    { c1.orVc d.flags with dp := none }

/-- VC_OWNER (R133). -/
def Core.vcOwner (c : Core) : Nat :=
  match c.owner with
  | some t => t + 256
  | none => 0

/-- Vector control register `i` (R133). -/
def vcRead (c : Core) (i : Nat) : Nat :=
  match i with
  | 0 => c.vcSr.toNat
  | 1 => c.vcNarrow.toNat
  | 2 => c.vcBxp.toNat
  | 3 => c.live.toNat
  | 4 => c.dirty.toNat
  | 5 => c.vcOwner
  | 6 => c.vcCur.toNat
  | 7 => c.saveCur.toNat
  | 8 => c.saveOwn.toNat
  | _ => 0

/-- A valid VCWR (R133): writes to read-only registers are ignored and reserved bits keep their 0. -/
def vcWrite (c : Core) (i v : Nat) : Core :=
  match i with
  | 0 => { c with vcSr := BitVec.ofNat 32 (v &&& 0x3F) }
  | 1 => { c with vcNarrow := BitVec.ofNat 32 (v &&& 0xFF) }
  | 2 => { c with vcBxp := BitVec.ofNat 32 (v &&& 0x31F) }
  | 6 => { c with vcCur := BitVec.ofNat 32 (v &&& 0x3FF) }
  | 7 => { c with saveCur := BitVec.ofNat 32 (v &&& 0xFFFFFFC0) }
  | _ => c

/-- VDROP: the registers of a mask become empty (R120). -/
def vDrop (c : Core) (mask : Nat) : Core :=
  let k := BitVec.ofNat 32 (2 ^ 32 - 1 - mask % 2 ^ 32)
  { c with
    vreg := tdrop (fun r => tb mask r) c.vreg
    vexp := tdrop (fun r => tb mask r) c.vexp
    live := c.live &&& k
    dirty := c.dirty &&& k }

/-- No register holds state. -/
def Core.vEmpty (c : Core) : Core := { c with vreg := [], vexp := [], live := 0, dirty := 0 }

/-! ## Save areas (R133, R137) -/

def areaBarn (v : Nat) : Bool := decide (fld v 31 30 = 2)

/-- Local address of the save area that `v` names. -/
def areaAt (g v : Nat) : Nat :=
  let o := fld v 29 6 * 64
  match fld v 31 30 with
  | 0 => xmemBase g + o
  | 1 => ymemBase g + o
  | _ => o

/-- Write into a save area: a core's own memory by its own port, the Barn over the Yard. -/
def areaPut (s : State) (g v o : Nat) (l : List Byte) : Nat × State :=
  if areaBarn v then s.put (coreEp g) (areaAt g v + o) l
  else (rspOk, s.writeNear (areaAt g v + o) l (coreEp g))

/-- Read from a save area. -/
def areaGet (s : State) (g v o n : Nat) : Nat × List Byte × State :=
  if areaBarn v then s.fetch (coreEp g) (areaAt g v + o) n
  else
    let r := s.readMem (areaAt g v + o) n 0 (coreEp g)
    (if r.2.1.isSome then rspUe else rspOk, r.1, r.2.2)

/-- The header of a save area (R137). -/
def vecHeader (c : Core) : List Byte :=
  natLe 4 c.live.toNat ++ natLe 4 c.vcSr.toNat ++ natLe 4 c.vcNarrow.toNat ++ natLe 4 c.vcBxp.toNat
    ++ (List.range 32).map (fun i => BitVec.ofInt 8 (c.ge i)) ++ List.replicate 16 0

def dirtyList (c : Core) : List Nat := (List.range 32).filter (tb c.dirty.toNat)
def liveList (c : Core) : List Nat := (List.range 32).filter (tb c.live.toNat)

/-- Note a save write that was answered `code` (R140): the owner's state is lost. -/
def saveAnswer (s : State) (g code : Nat) : State :=
  if code = rspOk then s
  else
    let c := s.core g
    match c.owner with
    | none => s
    | some t =>
      (s.wb (kA g (0x40 + t / 32 * 4)) (t % 32) true).setCore g
        { c with lostRsp := tset (fun _ => 0) c.lostRsp t code, lastLost := code }

/-- Save the dirty registers `l` to the owner's area (R135). -/
def saveRegs (s : State) (g : Nat) (l : List Nat) : State :=
  l.foldl (fun s r =>
    let c := s.core g
    let p := areaPut s g c.saveOwn.toNat (0x40 + 512 * r) (natLe 512 (c.gv r))
    let s1 := saveAnswer p.2 g p.1
    s1.modCore g (fun c => { c with dirty := c.dirty &&& BitVec.ofNat 32 (2 ^ 32 - 1 - 2 ^ r) })) s

/-- Save the owner's header. -/
def saveHeader (s : State) (g : Nat) : State :=
  let c := s.core g
  let p := areaPut s g c.saveOwn.toNat 0 (vecHeader c)
  saveAnswer p.2 g p.1

/-- Read one register of the area `v` into the file. -/
def restoreReg (g v : Nat) (r : Nat × State) (n : Nat) : Nat × State :=
  if r.1 ≠ rspOk then r
  else
    let q := areaGet r.2 g v (0x40 + 512 * n) 512
    if q.1 ≠ rspOk then (q.1, q.2.2)
    else (rspOk, q.2.2.modCore g (fun c => { c with vreg := tset zv c.vreg n (BitVec.ofNat 4096 (leNat q.2.1)) }))

/-- Read vector state from the area `v`: the code of the first read that failed, RSP_OK if none did. -/
def restoreFrom (s : State) (g v : Nat) : Nat × State :=
  let h := areaGet s g v 0 64
  if h.1 ≠ rspOk then (h.1, h.2.2)
  else
    let s1 := h.2.2.modCore g (fun c =>
      let live := le h.2.1 0 4
      let ex := (List.range 32).foldl (fun t i => if tb live i then tset ze t i (BitVec.ofNat 8 (le h.2.1 (16 + i) 1)) else t) []
      { c.vEmpty with
        live := BitVec.ofNat 32 live
        vcSr := BitVec.ofNat 32 (le h.2.1 4 4 &&& 0x3F)
        vcNarrow := BitVec.ofNat 32 (le h.2.1 8 4 &&& 0xFF)
        vcBxp := BitVec.ofNat 32 (le h.2.1 12 4 &&& 0x31F)
        vexp := ex })
    (liveList (s1.core g)).foldl (restoreReg g v) (rspOk, s1)

/-! ## The switch (R134-R140) -/

/-- The running thread of VC_CUR and its FRESH bit. -/
def Core.curThread (c : Core) : Nat := fld c.vcCur.toNat 7 0
def Core.curFresh (c : Core) : Bool := tb c.vcCur.toNat 9

/-- Does a bundle of the running thread find another thread's vector state (R134)? -/
def Core.switchNeeded (c : Core) : Bool := c.curFresh || decide (c.owner ≠ some c.curThread)

/-- Does the switch save the owner's state (R135)? -/
def Core.savesOwner (c : Core) : Bool :=
  c.owner.isSome && !(c.curFresh && decide (c.owner = some c.curThread))

/-- Core cycles until the datapath is idle. -/
def Core.dpWait (c : Core) : Nat :=
  match c.dp with
  | some d => d.doneAt - c.cycle
  | none => 0

/-- Cycles of the saving part in X or Y memory (R136). -/
def saveCycles (c : Core) : Nat := if c.savesOwner then 4 * (dirtyList c).length + 1 else 0

/-- Registers that the area `v` holds as live, as a restore would find them. -/
def areaLive (s : State) (g v : Nat) : Nat := popcount 32 (leNat (areaGet s g v 0 4).2.1)

/-- Cycles a switch takes where the spec fixes them: both areas in X or Y memory, or a fresh start (R136). -/
def switchCycles (s : State) (g : Nat) : Option Nat :=
  let c := s.core g
  if (c.savesOwner && areaBarn c.saveOwn.toNat) || (!c.curFresh && areaBarn c.saveCur.toNat) then none
  else some (c.dpWait + saveCycles c + (if c.curFresh then 2 else 1 + 4 * areaLive s g c.saveCur.toNat))

/-- The restoring half of a switch, once the owner is saved (R135, R140): the response code of a restore that
fails, and whether it was a LOST bit. -/
def takeOwnership (s : State) (g : Nat) : Option (Nat × Bool) × State :=
  let c := s.core g
  let t := c.curThread
  let own := fun (s : State) => s.modCore g (fun c =>
    { c with owner := some t, saveOwn := c.saveCur, dirty := 0, vcCur := BitVec.ofNat 32 (clrBit c.vcCur.toNat 9) })
  let s1 := s.modCore g (fun c => { c with owner := none })
  if c.curFresh then
    (none, own (s1.modCore g (fun c => { c.vEmpty with vcSr := 0, vcNarrow := 0xAF#32, vcBxp := 0x1F#32 })))
  else if s.rb (kA g (0x40 + t / 32 * 4)) (t % 32) then
    let code := tget (fun _ => 0) c.lostRsp t
    (some (code, true), (s1.wb (kA g (0x40 + t / 32 * 4)) (t % 32) false).modCore g (fun c =>
      { c.vEmpty with lostRsp := tset (fun _ => 0) c.lostRsp t 0 }))
  else
    let r := restoreFrom s1 g c.saveCur.toNat
    if r.1 = rspOk then (none, own r.2) else (some (r.1, false), r.2.modCore g Core.vEmpty)

/-- A whole switch (R135). -/
def runSwitch (s : State) (g : Nat) : Option (Nat × Bool) × State :=
  let s1 := s.modCore g Core.dpDone
  let c := s1.core g
  takeOwnership (if c.savesOwner then saveHeader (saveRegs s1 g (dirtyList c)) g else s1) g

/-- A switch is abandoned (R139). Its transfer in progress ends; how many transfers of a Barn area were made is
a free value. -/
def abandonSwitch (s : State) (g : Nat) : State :=
  let c := s.core g
  if c.hold = .vswitch then
    let e := waitedCycles s g
    let s1 := ((endWait s g false).cnt (kA g 0x3C) e).modCore g (fun c => { c with hold := .none })
    if e < c.dpWait then s1
    else
      let s2 := s1.modCore g Core.dpDone
      let c2 := s2.core g
      let restoring := fun (s : State) => s.modCore g (fun c => { c.vEmpty with owner := none })
      if !c2.savesOwner then restoring s2
      else
        let l := dirtyList c2
        let d := s2.draw
        let k := if areaBarn c2.saveOwn.toNat then d.1 % (l.length + 2) else cdiv (e - c.dpWait) 4
        let s3 := if areaBarn c2.saveOwn.toNat then d.2 else s2
        if k ≤ l.length then saveRegs s3 g (l.take k) else restoring (saveHeader (saveRegs s3 g l) g)
  else s

/-! ## FLUSH and RELOAD (R142) -/

/-- A debugger's FLUSH or RELOAD is accepted. -/
def vecDbgOk (s : State) (g : Nat) : Bool := (s.core g).halted && (s.core g).owner.isSome

/-- FLUSH: dirty registers and header to VC_SAVE_OWN, ownership kept. -/
def vecFlush (s : State) (g : Nat) : State :=
  let s1 := s.modCore g Core.dpDone
  saveHeader (saveRegs s1 g (dirtyList (s1.core g))) g

/-- RELOAD: the owner's state again from VC_SAVE_OWN. A read that fails loses the owner's state (log 31). -/
def vecReload (s : State) (g : Nat) : State :=
  let r := restoreFrom (s.modCore g Core.dpDone) g (s.core g).saveOwn.toNat
  if r.1 = rspOk then r.2.modCore g (fun c => { c with dirty := 0 }) else (saveAnswer r.2 g r.1).modCore g Core.vEmpty

end Sys2Proof.Machine
end

