-- ==== Sys2Proof/Machine/Kissue.lean ====
section
/-! DEFINITION. What a bundle does once it issues: the slot operations (R84-R93, R120-R133, R148-R153), the
checks of decode and address generation (R76), stalls (R71, R92, R115, R148, R153) and retirement with its loops
(R86). -/

namespace Sys2Proof.Machine

/-! ## Slot 0 -/

/-- Z and N of a result, and C and V where the instruction sets them (R85). -/
def Core.flags (c : Core) (r : Nat) (cy v : Option Bool) : Core :=
  let c1 := (c.setSr 0 (decide (r = 0))).setSr 1 (tb r 31)
  let c2 := match cy with
    | some b => c1.setSr 2 b
    | none => c1
  match v with
  | some b => c2.setSr 3 b
  | none => c2

/-- A result register with flags. -/
def Core.res (c : Core) (d r : Nat) (cy v : Option Bool) : Core := (c.ss d r).flags r cy v

/-- x + y with carry and overflow (R85). -/
def add32 (x y : Nat) : Nat × Bool × Bool :=
  let r := (x + y) % 2 ^ 32
  (r, decide (2 ^ 32 ≤ x + y), decide (sgn 32 x + sgn 32 y ≠ sgn 32 r))

/-- x − y with no-borrow and overflow (R85). -/
def sub32 (x y : Nat) : Nat × Bool × Bool :=
  let r := (x + 2 ^ 32 - y) % 2 ^ 32
  (r, decide (y ≤ x), decide (sgn 32 x - sgn 32 y ≠ sgn 32 r))

/-- Shifts by `n` with the last bit shifted out: 0 left, 1 logical right, 2 arithmetic right (R84, R85). -/
def shift32 (kind x n : Nat) : Nat × Bool :=
  match kind with
  | 0 => ((x <<< n) % 2 ^ 32, decide (n ≠ 0) && tb x (32 - n))
  | 1 => (x >>> n, decide (n ≠ 0) && tb x (n - 1))
  | _ => (uns 32 (sgn 32 x / (2 ^ n : Nat)), decide (n ≠ 0) && tb x (n - 1))

/-- A saturating result of R84: Z, N and the sticky SAT. -/
def Core.resSat (c : Core) (d : Nat) (v : Int) : Core :=
  let r := uns 32 (satS 32 v)
  let c1 := c.res d r none none
  if satS 32 v = v then c1 else c1.orSr 16

/-- CLS (R84) on a `w`-bit value: leading bits equal to the sign bit, minus 1. -/
def clsW (w v : Nat) : Nat :=
  let top := tb v (w - 1)
  ((List.range w).takeWhile (fun i => tb v (w - 1 - i) == top)).length - 1

/-- Is a conditional branch taken (R84)? -/
def branchTaken (op x y : Nat) : Bool :=
  match op with
  | 0x20 => decide (x = y)
  | 0x21 => decide (x ≠ y)
  | 0x22 => decide (sgn 32 x < sgn 32 y)
  | 0x23 => decide (sgn 32 y ≤ sgn 32 x)
  | 0x24 => decide (x < y)
  | _ => decide (y ≤ x)

/-- Start loop level `l` at bundle `p` (R86): the core, and the bundle after the body where the count is 0. -/
def loopStart (c : Core) (l p n len : Nat) : Core × Option Nat :=
  let lp : Loop := ⟨BitVec.ofNat 32 n, BitVec.ofNat 13 (p + 1), BitVec.ofNat 13 (p + len)⟩
  let c1 := if l = 0 then { c with loop0 := lp } else { c with loop1 := lp }
  (c1.setSr (13 + l) (decide (n ≠ 0)), if n = 0 then some (p + len + 1) else none)

/-- The tags of HWANY that are selected and granted (R148). -/
def anyTags (s : State) (g : Nat) (c : Core) (w : Nat) : List Nat :=
  let h := 32 * fld w 5 5
  ((List.range 32).filter (fun j => tb (c.gs (zA w)) j && tb (tmask s g) (h + j))).map (h + ·)

/-- Slot 0 (R84, R93, R148): from the core before the bundle and the one being written, the core, the target of
a branch that is taken, and the issue cost. Memory-like effects of Hitch instructions are `z0Hitch`. -/
def z0Exec (s : State) (g : Nat) (c0 : Core) (w : Nat) (c : Core) : Core × Option Nat × Nat :=
  let op := zOp w
  let d := zD w
  let x := c0.gs (zA w)
  let y := c0.gs (zB w)
  let sx := uns 32 (sgn 16 w)
  let k := fun (c : Core) => (c, (none : Option Nat), 1)
  let sum := fun (r : Nat × Bool × Bool) => k (c.res d r.1 (some r.2.1) (some r.2.2))
  let cmp := fun (r : Nat × Bool × Bool) => k (c.flags r.1 (some r.2.1) (some r.2.2))
  let sh := fun (r : Nat × Bool) => k (c.res d r.1 (some r.2) none)
  let log := fun (r : Nat) => k (c.res d r none none)
  let rel := (((c0.pc : Int) + sgn 16 w) % (2 ^ 32 : Nat)).toNat
  match op with
  | 0x01 => sum (add32 x y)
  | 0x02 => sum (sub32 x y)
  | 0x03 => log (x &&& y)
  | 0x04 => log (x ||| y)
  | 0x05 => log (x ^^^ y)
  | 0x06 => sh (shift32 0 x (y % 32))
  | 0x07 => sh (shift32 1 x (y % 32))
  | 0x08 => sh (shift32 2 x (y % 32))
  | 0x09 => k (c.resSat d (sgn 32 x + sgn 32 y))
  | 0x0A => k (c.resSat d (sgn 32 x - sgn 32 y))
  | 0x0B => log (uns 32 (min (sgn 32 x) (sgn 32 y)))
  | 0x0C => log (uns 32 (max (sgn 32 x) (sgn 32 y)))
  | 0x0D => k (c.resSat d (sgn 32 x).natAbs)
  | 0x0E => k (c.ss d (clsW 32 x))
  | 0x0F => cmp (sub32 x y)
  | 0x10 => sum (add32 x sx)
  | 0x11 => log (x &&& zI w)
  | 0x12 => log (x ||| zI w)
  | 0x13 => log (x ^^^ zI w)
  | 0x14 => sh (shift32 0 x (zI w % 32))
  | 0x15 => sh (shift32 1 x (zI w % 32))
  | 0x16 => sh (shift32 2 x (zI w % 32))
  | 0x17 => cmp (sub32 x sx)
  | 0x18 => k (c.ss d (zI w * 2 ^ 16))
  | 0x19 => k (c.sa d x)
  | 0x1A => k (c.sa d (setFld (c0.ga d) 43 32 x))
  | 0x1B => k (c.ss d (c0.ga (zA w)))
  | 0x1C => k (c.ss d (c0.ga (zA w) / 2 ^ 32))
  | 0x1D => k (c.sm d x)
  | 0x1E => k (c.ss d (c0.gm (zA w)))
  | 0x1F => k (c.sa d (((c0.ga (zA w) : Int) + sgn 16 w) % (2 ^ 44 : Nat)).toNat)
  | 0x26 => (c, some (fld w 25 0), 3)
  | 0x27 => (c.ss 31 (c0.pc + 1), some (fld w 25 0), 3)
  | 0x28 => (c, some x, 4)
  | 0x29 => let l := loopStart c (fld w 25 25) c0.pc x (zI w); (l.1, l.2, 1)
  | 0x2A => let l := loopStart c (fld w 25 25) c0.pc (fld w 24 12) (fld w 11 0); (l.1, l.2, 1)
  | 0x2B => k (c.ss d (ctlRead s g (zI w) (ipend s g)))
  | 0x2C => k (c.ctlWrite c0.km (zI w) x)
  | 0x2F =>
    let sr := c0.sr.toNat
    ({ c with sr := BitVec.ofNat 32 (setFld (setFld (setFld c.sr.toNat 9 9 (fld sr 11 11)) 8 8 (fld sr 12 12)) 10 10 0) },
      some c0.epc.toNat, 3)
  | 0x39 => k (c.ss d (s.tag g (zTag w)).status)
  | 0x3A => k (c.ss d (s.tag g (zTag w)).st)
  | 0x3B => k (c.ss d (((anyTags s g c0 w).find? (fun t => decide ((s.tag g t).st = 3))).getD 0))
  | _ =>
    if 0x20 ≤ op ∧ op ≤ 0x25 then
      let a := c0.gs d
      if branchTaken op a x then (c, some rel, 3) else k c
    else k c

/-- What a retiring slot 0 Hitch instruction does to tags and guards (R148, R152). -/
def z0Hitch (s : State) (g : Nat) (c0 : Core) (w : Nat) : State :=
  match zOp w with
  | 0x38 => confirmTag s g (zTag w)
  | 0x3C => if (s.tag g (zTag w)).st = 3 then freeTag s g (zTag w) else s
  | 0x3D =>
    let n := c0.gs (fld w 12 8)
    s.setGuard g (fld w 25 23) ⟨c0.ga (fld w 16 13) % 2 ^ 18, n, fld w 7 7, fld w 22 17, decide (n ≠ 0)⟩
  | _ => s

/-! ## Slot 1 -/

/-- One real product of `w`-bit operands, doubled under FRAC, and whether it was replaced (R88). -/
def macProd (w : Nat) (frac : Bool) (x y : Nat) : Int × Bool :=
  let p := sgn w x * sgn w y
  if frac then
    if sgn w x = -(2 ^ (w - 1) : Nat) ∧ sgn w y = -(2 ^ (w - 1) : Nat) then ((2 ^ (2 * w - 1) : Nat) - 1, true) else (2 * p, false)
  else (p, false)

def fits72 (v : Int) : Bool := decide (-(2 ^ 71 : Nat) ≤ v) && decide (v < (2 ^ 71 : Nat))

/-- Write accumulator `a` with the exact value `v`; AV where it wraps (R88). -/
def Core.accTo (c : Core) (a : Nat) (v : Int) : Core :=
  let c1 := c.sacc a v
  if fits72 v then c1 else c1.orSr 32

/-- Multiply-accumulate forms (R87): `m` 0 add, 1 subtract, 2 assign. -/
def macExec (c0 c : Core) (a w m : Nat) (frac : Bool) (x y : Nat) : Core :=
  let p := macProd w frac x y
  let v := match m with
    | 0 => c0.gacc a + p.1
    | 1 => c0.gacc a - p.1
    | _ => p.1
  let c1 := c.accTo a v
  if p.2 then c1.orSr 16 else c1

/-- Complex multiply-accumulate (R87, R88). -/
def cmacExec (c0 c : Core) (a : Nat) (cj asg frac : Bool) (x y : Nat) : Core :=
  let p := cprod 16 cj (fld x 15 0, fld x 31 16) (fld y 15 0, fld y 31 16)
  let k : Int := if frac then 2 else 1
  if asg then (c.sacc a (k * p.1)).sacc (a + 1) (k * p.2)
  else (c.accTo a (c0.gacc a + k * p.1)).accTo (a + 1) (c0.gacc (a + 1) + k * p.2)

/-- ASHIFT (R87). -/
def ashift (c0 c : Core) (a : Nat) (n : Int) : Core :=
  let v := c0.gacc a
  if 0 ≤ n then
    if 72 ≤ n then (let c1 := c.sacc a 0; if v = 0 then c1 else c1.orSr 32)
    else c.accTo a (v * (2 ^ n.toNat : Nat))
  else c.sacc a (v / (2 ^ (min (-n).toNat 72) : Nat))

/-- Slot 1 scalar MAC (R87); FTAP's store is `bundleStores`. -/
def m1Exec (c0 : Core) (w : Nat) (c : Core) : Core :=
  let a := mAcc w
  let x := c0.gs (mA w)
  let y := c0.gs (mB w)
  let f := mFrac w
  match mOp w with
  | 0x01 => macExec c0 c a 16 0 f x y
  | 0x02 => macExec c0 c a 16 1 f x y
  | 0x03 => macExec c0 c a 16 2 f x y
  | 0x04 => macExec c0 c a 32 0 f x y
  | 0x05 => macExec c0 c a 32 1 f x y
  | 0x06 => macExec c0 c a 32 2 f x y
  | 0x07 => cmacExec c0 c a false false f x y
  | 0x08 => cmacExec c0 c a true false f x y
  | 0x09 => cmacExec c0 c a false true f x y
  | 0x0A =>
    let c1 := macExec c0 c a 16 0 f x y
    c1.sa (mC w) ((postMod (c0.ga (mC w)) (c0.gm (mC w))).getD 0)
  | 0x0B => ashift c0 c a (sgn 32 y)
  | 0x0C => c.sacc a (c0.gacc (mA w))
  | 0x0D =>
    let wd := if mFrac w then 32 else 16
    let r := fnX (c0.gacc a) (mC w) (mRnd w) (tb w 5) wd
    let c1 := c.ss (mB w) (uns 32 (sgn wd r.1))
    if r.2 then c1.orSr 16 else c1
  | 0x0E => c.sacc a 0
  | 0x0F => c.sacc a (sgn 32 x * (2 ^ mC w : Nat))
  | 0x10 => c.ss (mC w) (uns 32 (sgn 32 x * sgn 32 y))
  | 0x11 => c.ss (mC w) (uns 32 (sgn 32 x * sgn 32 y / (2 ^ 32 : Nat)))
  | _ => c

/-- The registers a datapath operation will write, as it holds them. -/
def dpStart (c0 : Core) (w at' : Nat) : DpOp :=
  let l := vResult c0 w
  { word := w
    doneAt := at' + vOccupancy w
    srcs := v1Src w
    writes := l.map (fun p => (p.1, BitVec.ofNat 4096 p.2.v, BitVec.ofInt 8 p.2.e))
    flags := l.foldl (fun f p => f ||| p.2.fl) 0 }

/-- Slot 1 vector issue at core cycle `at'` (R116, R120): transfers act at issue, every other operation enters
the datapath. -/
def v1Exec (c0 : Core) (w at' : Nat) (c : Core) : Core :=
  let x := c0.gs (vA w)
  match vVop w with
  | 0x20 => c.ss (vD w) (c0.gv (vA w) / 2 ^ (32 * vB w) % 2 ^ 32)
  | 0x21 => c.setV (vD w) (setFld (c0.gv (vD w)) (32 * vB w + 31) (32 * vB w) x) 0
  | 0x22 => c.ss (vD w) (uns 32 (c0.ge (vA w)))
  | 0x23 => c.setV (vD w) (c0.gv (vD w)) (sgn 8 x)
  | 0x25 => c.ss (vD w) (vcRead c0 (vA w))
  | 0x26 => vcWrite c (vD w) x
  | 0x27 => vDrop c x
  | _ => { c with dp := some (dpStart c0 w at') }

/-! ## Slots 2 and 3 -/

/-- Write back a load of `l` (R91). -/
def loadTo (c : Core) (w : Nat) (l : List Byte) : Core :=
  let v := leNat l
  let r := dReg w
  match dOp w with
  | 0x01 => c.ss r (uns 32 (sgn 8 v))
  | 0x03 => c.ss r (uns 32 (sgn 16 v))
  | 0x06 => (c.ss r v).ss (r + 1) (v / 2 ^ 32)
  | 0x11 => (c.ss r v).ss (r + 1) (v / 2 ^ 32)
  | 0x0D => c.sacc (r / 4) (sgn 72 v)
  | 0x18 => (List.range (dGrp w)).foldl (fun c i => c.setV (r + i) (leNat ((l.drop (512 * i)).take 512)) 0) c
  | _ => c.ss r v

/-- Narrowed lanes of a group, with flags (R122). -/
def vstnLanes (c0 : Core) (w : Nat) : List (Nat × Nat) :=
  ((c0.grp (dReg w) (dGrp w)).map (fun v => (els 32 v).map (narrow16 c0.vcNarrow.toNat))).flatten

/-- The bytes a near store or far store writes (R91, R122), from the core before the bundle. -/
def storeBytes (c0 : Core) (w : Nat) : List Byte :=
  let r := dReg w
  match dOp w with
  | 0x0A => natLe 4 (c0.gs r) ++ natLe 4 (c0.gs (r + 1))
  | 0x13 => natLe 4 (c0.gs r) ++ natLe 4 (c0.gs (r + 1))
  | 0x0B => natLe 2 (fnX (c0.gacc (r / 4)) 16 (r % 4) true 16).1
  | 0x0C => natLe 4 (fnX (c0.gacc (r / 4)) 0 0 true 32).1
  | 0x0E => natLe 16 (uns 128 (c0.gacc (r / 4)))
  | 0x19 => ((c0.grp r (dGrp w)).map (natLe 512)).flatten
  | 0x1A => ((vstnLanes c0 w).map (fun p => natLe 2 p.1)).flatten
  | _ => natLe (dSize w) (c0.gs r)

/-- Sticky flags and block-exponent detection of a store (R89, R122, R123). -/
def storeFlags (c0 : Core) (w : Nat) (c : Core) : Core :=
  let r := dReg w
  let sat := fun (b : Bool) (c : Core) => if b then c.orSr 16 else c
  let bx := fun (wd : Nat) (l : List Nat) (c : Core) =>
    if tb w 14 then
      let h := l.foldl (fun m v => min m (clsW wd v)) 31
      let b := c.vcBxp.toNat
      { c with vcBxp := BitVec.ofNat 32 (setFld (setFld b 4 0 (min (fld b 4 0) h)) 9 9 1) }
    else c
  match dOp w with
  | 0x0B => sat (fnX (c0.gacc (r / 4)) 16 (r % 4) true 16).2 c
  | 0x0C => sat (fnX (c0.gacc (r / 4)) 0 0 true 32).2 c
  | 0x19 =>
    let wd := if tb c.vcBxp.toNat 8 then 32 else 16
    bx wd ((c0.grp r (dGrp w)).map (els wd)).flatten c
  | 0x1A =>
    let l := vstnLanes c0 w
    bx 16 (l.map (·.1)) (c.orVc (orFlags l))
  | _ => c

/-- Post-modify of a slot 2 or 3 word (R80). -/
def pmTo (c0 : Core) (w : Nat) (c : Core) : Core :=
  if dOp w ≠ 0 ∧ dPm w then c.sa (dA w) ((postMod (c0.ga (dA w)) (c0.gm (dA w))).getD 0) else c

/-- Base of the memory slot 2 or 3 reaches. -/
def slotBase (g slot : Nat) : Nat := if slot = 3 then ymemBase g else xmemBase g

def isNearLoad (w : Nat) : Bool := isNear w && !isNearStore w

/-- The data a near load reads, and the lowest poisoned word as a near address. For a vector store the words it
covers in part are read (R131). -/
def nearRead (s : State) (g slot : Nat) (c0 : Core) (w : Nat) : List Byte × Option Nat × State :=
  let b := slotBase g slot
  let a := dAddr c0 w
  let n := dSize w
  let near := fun (o : Option Nat) => o.map (· - b)
  if isNearLoad w then
    let r := s.readMem (b + a) n 0 (coreEp g)
    (r.1, near r.2.1, r.2.2)
  else if isVmem w then
    let first := if a % 16 = 0 then ([], none, s) else s.readMem (b + a / 16 * 16) 16 3 (coreEp g)
    let e := a + n
    if e % 16 = 0 then ([], near first.2.1, first.2.2)
    else
      let last := first.2.2.readMem (b + e / 16 * 16) 16 3 (coreEp g)
      ([], near (match first.2.1 with
        | some x => some x
        | none => last.2.1), last.2.2)
  else ([], none, s)

/-- Code of the exception a poisoned word raises. -/
def ueCode (w : Nat) : Nat := if isVmem w then ecVloadUe else ecLoadUe

/-- Address KB_EVAL holds: the access, or the poisoned word of a vector access (R131). -/
def ueVal (c0 : Core) (w x : Nat) : Nat := if isVmem w then x else dAddr c0 w

/-! ## Retirement -/

/-- The next bundle in sequence under the loops (R86), for a bundle at `p` that takes no branch. -/
def loopNext (c : Core) (p : Nat) : Core × Nat :=
  let lv1 := c.srb 14 && decide (c.loop1.le.toNat = p)
  let lv0 := c.srb 13 && decide (c.loop0.le.toNat = p)
  if lv1 && decide (1 < c.loop1.lc.toNat) then
    ({ c with loop1 := { c.loop1 with lc := c.loop1.lc - 1 } }, c.loop1.ls.toNat)
  else
    let c1 := if lv1 then ({ c with loop1 := { c.loop1 with lc := 0 } }).setSr 14 false else c
    if lv0 && decide (1 < c.loop0.lc.toNat) then
      ({ c1 with loop0 := { c1.loop0 with lc := c1.loop0.lc - 1 } }, c1.loop0.ls.toNat)
    else ((if lv0 then ({ c1 with loop0 := { c1.loop0 with lc := 0 } }).setSr 13 false else c1), p + 1)

/-- Register results that are not available to the next bundle (R71): keys s 0-31, a 32-47, m 48-63, accumulators
64-71, control registers 80-99. -/
def lateKeys (b : Bundle) : List Nat :=
  let w := b.w0
  (z0DestA w).map (32 + ·) ++ (if zOp w = 0x1D then [48 + zD w] else []) ++ (if zOp w = 0x2C then [80 + zI w] else [])
  ++ (m1DestAcc b.w1).map (64 + ·) ++ (d23DestAcc b.w2).map (64 + ·) ++ (d23DestAcc b.w3).map (64 + ·)
  ++ (m1DestS b.w1).filter (fun _ => isVec b.w1 || decide (mOp b.w1 ≠ 0x0D))

/-- Keys a bundle needs (R71). -/
def needKeys (b : Bundle) : List Nat :=
  z0SrcS b.w0 ++ m1SrcS b.w1 ++ d23SrcS b.w2 ++ d23SrcS b.w3
  ++ ((m1SrcAcc b.w1) ++ d23SrcAcc b.w2 ++ d23SrcAcc b.w3).map (64 + ·)
  ++ (if dOp b.w2 = 0 then [] else [32 + dA b.w2]) ++ (if dOp b.w3 = 0 then [] else [32 + dA b.w3])
  ++ ((d23Pm b.w2) ++ d23Pm b.w3).map (48 + ·)
  ++ (if zOp b.w0 = 0x2B then [80 + zI b.w0] else [])

/-- Lines a vector access touches, the cycles it holds EX (R130). -/
def vLines (c0 : Core) (w : Nat) : Nat :=
  if isVmem w then (dAddr c0 w + dSize w - 1) / 128 - dAddr c0 w / 128 + 1 else 1

/-- A request leaves the core for `a`: a sleeping shed is asked to wake (R305). -/
def sendFar (s : State) (g a : Nat) : State :=
  let k := epShed (epOf a)
  if epOf a = 0xFFF ∨ s.fenced (coreEp g) ∨ s.fenced (epOf a) ∨ s.shedReady k then s else wakeShed s k

/-- Near stores of the bundle, as they were before it (R72): FTAP's move, slot 2, slot 3; and a far store's
message (R92). -/
def bundleStores (s : State) (g : Nat) (c0 : Core) (b : Bundle) : State :=
  let s1 := if isFtap b.w1 then s.writeNear (xmemBase g + c0.ga (mC b.w1)) (natLe 2 (c0.gs (mA b.w1))) (coreEp g) else s
  let s2 := if isNearStore b.w2 then s1.writeNear (xmemBase g + dAddr c0 b.w2) (storeBytes c0 b.w2) (coreEp g) else s1
  let s3 := if isNearStore b.w3 then s2.writeNear (ymemBase g + dAddr c0 b.w3) (storeBytes c0 b.w3) (coreEp g) else s2
  if isFarStore b.w2 then
    (sendFar s3 g (dAddr c0 b.w2)).modCore g (fun c => { c with stores := c.stores ++ [⟨c.seq, c0.km, dAddr c0 b.w2, storeBytes c0 b.w2⟩], seq := c.seq + 1 })
  else s3

/-- The bundle retires (R76): `l2` and `l3` are the data its loads read. -/
def retire (s : State) (g : Nat) (b : Bundle) (l2 l3 : List Byte) : State :=
  let c0 := s.core g
  let at' := c0.cycle
  let z := z0Exec s g c0 b.w0 c0
  let c1 := if isVec b.w1 then v1Exec c0 b.w1 at' z.1 else m1Exec c0 b.w1 z.1
  let ld := fun (w : Nat) (l : List Byte) (c : Core) => if isNearLoad w ∨ isFarLoad w then loadTo c w l else c
  let c2 := pmTo c0 b.w2 (storeFlags c0 b.w2 (ld b.w2 l2 c1))
  let c3 := pmTo c0 b.w3 (storeFlags c0 b.w3 (ld b.w3 l3 c2))
  let nx := match z.2.1 with
    | some t => (c3, t)
    | none => loopNext c3 c0.pc
  let late := (lateKeys b).foldl (fun t k => tset (fun _ => 0) t k (at' + 2)) nx.1.ready
  let cost := z.2.2 + max (vLines c0 b.w2) (vLines c0 b.w3) - 1
  let c4 : Core := { nx.1 with
    pc := nx.2
    hold := .none
    ready := late
    bpSkip := if c0.bpSkip = some c0.pc then c0.bpSkip else none }
  -- the issue's own cycles are charged in the mode the bundle ran in (R97)
  let tk := c0.tick cost
  let c5 : Core := { c4 with
    cycle := tk.cycle
    lines := c4.lines ||| (if tb tk.lines 21 && !tb c0.lines 21 then 2 ^ 21 else 0)
    budget := if zOp b.w0 = 0x2C ∧ zI b.w0 = 0x0E ∧ c0.km then c4.budget else tk.budget
    sample := tk.sample
    accSpent := tk.accSpent }
  let s1 := bundleStores (s.setCore g { c5 with stores := c0.stores, seq := c0.seq }) g c0 b
  let s2 := (z0Hitch s1 g c0 b.w0).cnt (kA g 0x20) 1
  let s3 := if zOp b.w0 = 0x2E ∧ ipend s2 g = 0 then s2.modCore g (fun c => { c with wfe := true, since := s2.now }) else s2
  if c0.stepping then
    (s3.wb (kA g 0) 2 false).modCore g (fun c => { c with stepping := false, halted := true, wfe := false, since := s3.now })
  else s3

/-- An uncompleted bundle leaves EX: its PROV tag is withdrawn (R149 step 4). -/
def squash (s : State) (g : Nat) : State :=
  (List.range 64).foldl (fun s t => if (s.tag g t).st = 1 then withdrawTag s g t else s) s

/-- EX once a far load's answer is there, or without one (R76 step 5). -/
def exFinish (s : State) (g : Nat) (b : Bundle) (far : Option (Nat × List Byte)) : State :=
  let c0 := s.core g
  let r2 := nearRead s g 2 c0 b.w2
  let r3 := nearRead r2.2.2 g 3 c0 b.w3
  let s1 := r3.2.2
  let bad2 := match far with
    | some (code, _) => if code = rspOk then none else some ((if code = rspUe then ecLoadUe else ecBus), code, dAddr c0 b.w2)
    | none => r2.2.1.map (fun x => (ueCode b.w2, 0, ueVal c0 b.w2 x))
  match bad2, r3.2.1 with
  | some e, _ => raiseExc (squash s1 g) g e.1 2 (if e.1 = ecBus then e.2.1 else 0) (some e.2.2)
  | none, some x => raiseExc (squash s1 g) g (ueCode b.w3) 3 0 (some (ueVal c0 b.w3 x))
  | none, none => retire s1 g b (match far with
    | some (_, l) => l
    | none => r2.1) r3.1

/-- EX (R76, R92, R149): an HPOST is posted, a far load holds the bundle. -/
def exStage (s : State) (g : Nat) (b : Bundle) : State :=
  let c0 := s.core g
  let s1 := if zOp b.w0 = 0x38 then
      (postTag s g (zTag b.w0) (c0.gs (zA b.w0)) (c0.gs (zB b.w0)) (c0.gs (zD b.w0))).cnt (kA g 0x80) 1
    else s
  if isFarLoad b.w2 then
    (sendFar s1 g (dAddr c0 b.w2)).modCore g (fun c =>
      { c with hold := .far c.seq (dAddr c0 b.w2) (dSize b.w2), seq := c.seq + 1, since := s1.now })
  else exFinish s1 g b none

/-! ## Checks and stalls before EX -/

/-- A DESC or nonzero CTX word that R150 rejects. -/
def badSpace (v : Nat) : Bool :=
  decide (fld v 31 30 = 3 ∨ fld v 5 0 ≠ 0) || (decide (fld v 31 30 < 2) && decide (fld v 29 18 ≠ 0))

/-- Cause of EC_HITCH_ERR, 0 if none (R150). -/
def hitchCause (s : State) (g : Nat) (c : Core) (w : Nat) : Nat :=
  let op := zOp w
  let t := zTag w
  let ctrl := c.gs (zA w)
  let st := (s.tag g t).st
  if op = 0x3B then
    (if (anyTags s g c w).any (fun t => let st := (s.tag g t).st; decide (1 ≤ st ∧ st ≤ 3)) then 0 else 7)
  else if op = 0x3D then (if tb (tmask s g) (fld w 22 17) then 0 else 1)
  else if op < 0x38 ∨ 0x3D < op then 0
  else if !tb (tmask s g) t then 1
  else if op = 0x38 then
    if st ≠ 0 then 2
    else if 10 < fld ctrl 3 0 ∨ fld ctrl 15 12 ≠ 0 then 3
    else if classCount (fld ctrl 3 0) ≤ fld ctrl 9 4 then 4
    else if badSpace (c.gs (zB w)) || (decide (c.gs (zD w) ≠ 0) && badSpace (c.gs (zD w))) then 5
    else 0
  else if op = 0x39 ∧ st = 0 then 6
  else 0

/-- The slot 0 exception of a bundle that decoded (R76 step 3): code and KB_EVAL. -/
def step3Exc (s : State) (g : Nat) (c : Core) (w : Nat) : Option (Nat × Nat) :=
  let k := hitchCause s g c w
  let tag := if zOp w = 0x3B then 0 else if zOp w = 0x3D then fld w 22 17 else zTag w
  if zOp w = 0x2D then some (ecTrap, zI w)
  else if k ≠ 0 then some (ecHitch, tag + k * 256)
  else if zOp w = 0x3D ∧ 0x40000 < c.ga (fld w 16 13) + c.gs (fld w 12 8) then some (ecBounds, c.ga (fld w 16 13))
  else none

/-- The bundle stalls for a tag or a guard (R148, R153). -/
def scoreboardStall (s : State) (g : Nat) (c : Core) (b : Bundle) : Bool :=
  let st := (s.tag g (zTag b.w0)).st
  let op := zOp b.w0
  (decide (op = 0x39) && decide (st ≠ 3))
  || (decide (op = 0x3B) && !(anyTags s g c b.w0).any (fun t => decide ((s.tag g t).st = 3)))
  || (decide (op = 0x3C) && decide (st = 1 ∨ st = 2))
  || (isNear b.w2 && guarded s g 0 (dAddr c b.w2) (dSize b.w2))
  || (isNear b.w3 && guarded s g 1 (dAddr c b.w3) (dSize b.w3))
  || (isFtap b.w1 && guarded s g 0 (c.ga (mC b.w1)) 2)

/-- POSTs of core `g` that have not been answered. -/
def postsOut (s : State) (g : Nat) : Nat :=
  s.hmsgs.foldl (fun n p => n + (p.2.filter (fun m => match m with
    | .post h _ _ _ _ _ => decide (h = g)
    | _ => false)).length) 0 + (tget noAns s.postAns g).length

/-- The bundle waits for one of the core's 16 far stores or 32 reservations (R92, R302). -/
def resvStall (s : State) (g : Nat) (c : Core) (b : Bundle) : Bool :=
  let need := b2n (isFar b.w2) + b2n (decide (zOp b.w0 = 0x38))
  (isFarStore b.w2 && decide (16 ≤ c.stores.length)) || (decide (need ≠ 0) && decide (32 < c.stores.length + postsOut s g + need))

/-- Does the bundle use the vector state (R134)? -/
def usesVec (b : Bundle) : Bool := v1Uses b.w1 || isVmem b.w2 || isVmem b.w3

/-- Operations that may follow one another on one accumulator group (R115). -/
def chains (x y : Nat) : Bool :=
  let acc := fun w => decide (vVop w = 0x14 ∨ vVop w = 0x15 ∨ vVop w = 0x17 ∨ vVop w = 0x18 ∨ vVop w = 0x19)
  acc x && acc y && decide (vDst x = vDst y)

def sameWindow (x y : Nat) : Bool := decide (vVop x = 0x19) && decide (vVop y = 0x19) && decide (vSrcA x = vSrcA y)

/-- Core cycle at which the bundle's vector parts may issue (R115, R132). -/
def vecReady (c : Core) (b : Bundle) : Nat :=
  match c.dp with
  | none => 0
  | some d =>
    let wr := d.writes.map (·.1)
    let drop := fun (l : List Nat) => l.filter (fun r =>
      !((chains d.word b.w1 && (v1Dest c b.w1).contains r && (match vDst d.word with
          | some (q, n) => decide (q ≤ r ∧ r < q + n)
          | none => false))
        || (sameWindow d.word b.w1 && (match vSrcA d.word with
          | some (q, n) => decide (q ≤ r ∧ r < q + n)
          | none => false))))
    let one := if isVec b.w1 then (if meet (drop (v1Src b.w1 ++ v1Dest c b.w1)) wr then d.doneAt + 1 else d.doneAt) else 0
    let m := fun w =>
      if meet (v23Dest w ++ v23Src w) wr then d.doneAt + 1
      else if meet (v23Dest w ++ v23Src w) d.srcs then d.doneAt
      else 0
    max one (max (m b.w2) (m b.w3))

/-- First slot that uses the vector state. -/
def vecSlot (b : Bundle) : Nat := if v1Uses b.w1 then 1 else if isVmem b.w2 then 2 else 3

/-- Hold the bundle in DA for `h`. -/
def holdFor (s : State) (g : Nat) (h : Hold) : State := s.modCore g (fun c => { c with hold := h, since := s.now })

/-- DA of a bundle that has passed its checks: holds, interlocks, then EX. -/
def daStage (s : State) (g : Nat) (b : Bundle) : State :=
  let c := s.core g
  if scoreboardStall s g c b then holdFor s g .scoreboard
  else if zOp b.w0 = 0x30 ∧ c.stores ≠ [] then holdFor s g .fence
  else if resvStall s g c b then holdFor s g .resv
  else if usesVec b ∧ c.switchNeeded then (holdFor s g .vswitch).cnt (kA g 0x38) 1
  else
    let ti := max (max c.cycle (vecReady c b)) ((needKeys b).foldl (fun m k => max m (tget (fun _ => 0) c.ready k)) 0)
    let n := ti - c.cycle
    let s1 := (s.charge g n n).modCore g (fun c => { c with hold := .none })
    let s2 := match c.dp with
      | some d => if d.doneAt ≤ ti then s1.modCore g Core.dpDone else s1
      | none => s1
    exStage s2 g b

/-- Issue the bundle at PC (R76). -/
def issue (s : State) (g : Nat) : State :=
  let c := s.core g
  if 8192 ≤ c.pc then raiseExc s g ecBounds 0 0 (some (16 * c.pc))
  else
    let f := s.readMem (imemBase g + 16 * c.pc) 16 1 (coreEp g)
    let s1 := f.2.2
    if f.2.1.isSome then raiseExc s1 g ecIfetchUe 0 0 (some (16 * c.pc))
    else
      let b := Bundle.ofBytes f.1
      match decodeExc c b with
      | some (code, slot) => raiseExc s1 g code slot 0 none
      | none =>
        match step3Exc s1 g c b.w0 with
        | some (code, v) => raiseExc s1 g code 0 0 (some v)
        | none =>
          match addrExc c b with
          | some (code, slot, a) => raiseExc s1 g code slot 0 (some a)
          | none => daStage s1 g b

/-- The bundle at PC of a core whose bundle is held. -/
def heldBundle (s : State) (g : Nat) : Bundle := Bundle.ofBytes (s.readMem (imemBase g + 16 * (s.core g).pc) 16 1 (coreEp g)).1

end Sys2Proof.Machine
end

