-- ==== Sys2Proof/Machine/Hatch.lean ====
section
/-! DEFINITION. Hatches (R364-R372): posts, takes, withdrawals, timers, resets and notices. -/

namespace Sys2Proof.Machine

/-- Data page and configuration page of hatch `h` (R371). -/
def hatA (h o : Nat) : Nat := hatRegs + h * 0x20 + o
def hatC (h o : Nat) : Nat := hatRegs + 0x20000 + h * 0x10 + o
/-- Counter `o` of the block. -/
def hatK (o : Nat) : Nat := hatRegs + 0x40000 + o

def hatFull (s : State) (h : Nat) : Bool := s.rb (hatA h 0x18) 0
def hatShared (s : State) (h : Nat) : Bool := s.rb (hatC h 0) 1
def hatReceiver (s : State) (h : Nat) : Nat := s.rf (hatC h 0) 24 16

/-- Sender of record (R364). -/
def hatSender (s : State) (h : Nat) : Nat :=
  if hatShared s h then s.rf (hatA h 0x18) 27 16 else s.rf (hatC h 4) 11 0

/-- Endpoint of client `i` (R364). -/
def clientEp (i : Nat) : Nat := if i < 256 then coreEp i else if i < 272 then loftEp (i - 256) else hltCoreEp (i - 272)

/-- The client that an endpoint is, if it is one. -/
def epClient (e : Nat) : Option Nat :=
  match epKind with
  | (true, i) => some i
  | (false, _) => none
where
  epKind : Bool × Nat :=
    let r := e / 32
    let p := e % 32
    if r < 24 ∨ (74 ≤ r ∧ r ≤ 81) then
      (decide (16 ≤ p ∧ p < 24), 8 * (if r < 24 then r else r - 50) + (p - 16))
    else if r = 72 ∨ r = 73 ∨ r = 82 ∨ r = 83 then
      (decide (p < 4), 256 + 4 * (if r < 80 then r - 72 else r - 80) + p)
    else (decide (r = 87 ∧ p < 4), 272 + p)

/-- Client `i` is held in reset now: a Kubry core by KB_CORE_CTRL, a Loft core by LFT_CORE_RESET, a Halter
control core at VERIFY_HOLD (R369). -/
def clientHeld (s : State) (i : Nat) : Bool :=
  if i < 256 then s.inReset i
  else if i < 272 then s.rb (lftRegs + 4) (i - 256)
  else decide (s.shedStep 62 = 4)

/-- Client `i` is in reset or inside its reset window (R369). -/
def clientReset (s : State) (i : Nat) : Bool := clientHeld s i || s.hatWin.contains i

/-- The lowest hatch for which `f` holds, as the NEXT registers show it; nothing while the client is in its
window (R369). -/
def hatNext (s : State) (i : Nat) (f : Nat → Bool) : Nat :=
  if clientReset s i then 0
  else match lowest 4096 f with
    | some h => h + 2 ^ 31
    | none => 0

def rxNext (s : State) (i : Nat) : Nat :=
  hatNext s i (fun h => hatFull s h && s.rb (hatC h 0) 3 && decide (hatReceiver s h = i))
def txNext (s : State) (i : Nat) : Nat :=
  hatNext s i (fun h => s.rb (hatA h 0x18) 1 && decide (hatSender s h = clientEp i))
def ntNext (s : State) (i : Nat) : Nat :=
  hatNext s i (fun h => (s.rb (hatA h 0x18) 2 || s.rb (hatA h 0x18) 3) && decide (hatSender s h = clientEp i))

/-- Lines 2, 3 and 4 of a Kubry client fall when their NEXT register is no longer VALID (R366, R367). -/
def dropLines (s : State) (i : Nat) : State :=
  if i < 256 then
    let l := (s.core i).lines
    let l1 := if rxNext s i = 0 then clrBit l 2 else l
    let l2 := if txNext s i = 0 then clrBit l1 3 else l1
    let l3 := if ntNext s i = 0 then clrBit l2 4 else l2
    if l3 = l then s else s.modCore i (fun c => { c with lines := l3 })
  else s

/-- A notice of kind `k` (0 post, 1 empty, 2 timeout or abort) goes to client `i` as an express message
(R366, R367). A notice for a client in reset or a fenced endpoint is lost, one for a sleeping shed wakes it;
the hatches are presented again later. -/
def hatNotice (s : State) (i k : Nat) : State :=
  if clientReset s i then s
  else
    let r := s.niPosted hatEp (clientEp i)
    if !r.1 then r.2
    else if !r.2.shedReady (epShed (clientEp i)) then wakeShed r.2 (epShed (clientEp i))
    else if i < 256 then setLine r.2 i (2 + k) true
    else r.2.emit (.hatchNotice i k)

/-- Present all pending hatches of client `i` again (R366, R369). -/
def hatPresent (s : State) (i : Nat) : State :=
  let s1 := if rxNext s i ≠ 0 then hatNotice s i 0 else s
  let s2 := if txNext s1 i ≠ 0 then hatNotice s1 i 1 else s1
  if ntNext s2 i ≠ 0 then hatNotice s2 i 2 else s2

/-- A notice to the sender of record, if it is a client. -/
def hatToSender (s : State) (h k : Nat) : State :=
  match epClient (hatSender s h) with
  | some i => hatNotice s i k
  | none => s

/-- A post by endpoint `src` (R365, R366). -/
def hatchPost (s : State) (src h val : Nat) : Nat × State :=
  let st := s.rd (hatA h 0x18)
  let cfg := s.rd (hatC h 0)
  let rej := (rspTgt, s.cnt (hatK 8) 1)
  if !tb cfg 0 || (!tb cfg 1 && decide (src ≠ s.rf (hatC h 4) 11 0)) then rej
  else if tb cfg 2 && clientReset s (fld cfg 24 16) then rej
  else if tb st 0 then (if tb cfg 1 then (rspFull, s.cnt (hatK 4) 1) else rej)
  else
    let st1 := setFld (setFld (clrBit (clrBit (clrBit st 1) 2) 4) 0 0 1) 27 16 src
    let s1 := ((s.wr (hatA h 8) val).wr (hatA h 0x18) st1).cnt (hatK 0) 1
    let s2 := { s1 with hatTmo := tset (fun _ => 0) s1.hatTmo h (s1.now + s1.rf (hatC h 8) 19 0 * us) }
    let i := fld cfg 24 16
    let s3 := if i < 256 then wakeHatch s2 i h else s2
    let s4 := if tb cfg 3 then hatNotice s3 i 0 else s3
    (rspOk, match epClient src with | some j => dropLines s4 j | none => s4)

/-- Is `src` the receiver of hatch `h`? A take from any Loft endpoint serves a Loft receiver (R364). -/
def isReceiver (s : State) (src h : Nat) : Bool :=
  let i := hatReceiver s h
  if 256 ≤ i ∧ i < 272 then (match epClient src with | some j => decide (256 ≤ j ∧ j < 272) | none => false)
  else decide (src = clientEp i)

/-- The hatch is emptied: its word is gone and its timer stops. -/
def hatEmpty (s : State) (h : Nat) : State :=
  let s1 := (s.wr (hatA h 8) 0).wb (hatA h 0x18) 0 false
  { s1 with hatTmo := tset (fun _ => 0) s1.hatTmo h 0 }

/-- A take by endpoint `src` (R367): answer, word and state. -/
def hatchTake (s : State) (src h : Nat) : Nat × Nat × State :=
  let i := hatReceiver s h
  if !hatFull s h || !isReceiver s src h || clientReset s i then (rspTgt, 0, s)
  else
    let w := s.rd (hatA h 8)
    let s1 := (hatEmpty s h).wb (hatA h 0x18) 1 true
    let s2 := match epClient (hatSender s h) with
      | some j => if clientReset s j then s1.wb (hatA h 0x18) 4 true else if s.rb (hatC h 0) 4 then hatNotice s1 j 1 else s1
      | none => s1
    (rspOk, w, dropLines s2 i)

/-- A withdrawal by endpoint `src` (R367). -/
def hatchWithdraw (s : State) (src h : Nat) : Nat × Nat × State :=
  if !hatFull s h || decide (src ≠ hatSender s h) || clientReset s (hatReceiver s h) then (rspTgt, 0, s)
  else (rspOk, s.rd (hatA h 8), dropLines ((hatEmpty s h).cnt (hatK 0x14) 1) (hatReceiver s h))

/-- The hatch's timer expires (R368). -/
def hatchTimeout (s : State) (h : Nat) : State :=
  let t := tget (fun _ => 0) s.hatTmo h
  if hatFull s h && decide (t ≠ 0) then
    let s0 := s.until t
    let s1 := ({ s0 with hatTmo := tset (fun _ => 0) s0.hatTmo h 0 }.wb (hatA h 0x18) 2 true).cnt (hatK 0xC) 1
    hatToSender s1 h 2
  else s

/-- The word is discarded: ABORTED is set and the sender of record notified (R369, R371). -/
def hatAbort (s : State) (h : Nat) : State :=
  dropLines (hatToSender (((hatEmpty s h).wb (hatA h 0x18) 3 true).cnt (hatK 0x10) 1) h 2) (hatReceiver s h)

/-- HAT_CMD.CLEAR (R371). -/
def hatClear (s : State) (h : Nat) : State := if hatFull s h then hatAbort s h else s

/-- Client `i` enters reset (R369): a posted word is kept in SERVICE mode and cleared in RECOVERY mode. -/
def clientEnter (s : State) (i : Nat) : State :=
  let s0 := if s.hatWin.contains i then s else { s with hatWin := s.hatWin ++ [i] }
  (List.range 4096).foldl (fun s h =>
    if hatFull s h && decide (hatReceiver s h = i) && s.rb (hatC h 0) 2 then hatAbort s h else s) s0

/-- The reset window of client `i` ends, 32 Yard cycles after its release (R369): what is pending for it is
presented. -/
def windowEnd (s : State) (i : Nat) : State :=
  if clientHeld s i || !s.hatWin.contains i then s
  else hatPresent { s with hatWin := s.hatWin.filter (· ≠ i) } i

/-- Live value of a hatch register (R371). -/
def hatView (nm : String) (ix : List Nat) (a : Nat) (s : State) : Nat :=
  let i := ix.getD 0 0
  match nm with
  | "HAT_STATUS" =>
    s.rd a + 32 * b2n (clientReset s (hatReceiver s i))
      + 64 * b2n (match epClient (hatSender s i) with | some j => clientReset s j | none => false)
  | "HAT_RX_NEXT" => rxNext s i
  | "HAT_TX_NEXT" => txNext s i
  | "HAT_NT_NEXT" => ntNext s i
  | _ => s.rd a

/-- The hatch block's own part of a register write by `src` (R371). HAT_POST is posted to by `hatchPost`. -/
def hatWrite (src : Nat) : WriteHook := fun nm ix v s s1 =>
  let h := ix.getD 0 0
  match nm with
  | "HAT_POST" => hatchPost s src h v
  | "HAT_STATUS" =>
    if src = hatSender s h then (rspOk, match epClient src with | some j => dropLines s1 j | none => s1) else (rspTgt, s)
  | "HAT_CFG" =>
    if 275 < fld v 24 16 then (rspTgt, s)
    else if s.rb (hatC h 0) 0 ∧ (tb v 0 ∨ hatFull s h) then (rspTgt, s)
    else (rspOk, s1)
  | "HAT_SENDER" => if s.rb (hatC h 0) 0 then (rspTgt, s) else (rspOk, s1)
  | "HAT_TMO" => if fld v 19 0 = 0 ∨ 1000000 < fld v 19 0 then (rspTgt, s) else (rspOk, s1)
  | "HAT_CMD" => if tb v 0 then (rspOk, hatClear s h) else (rspOk, s)
  | _ => (rspOk, s1)

/-! ## Meanings -/

/-- R365. -/
def execHatchPost (src h val : Nat) (s : State) : Out :=
  if h < 4096 then
    let r := hatchPost s src h (val % 2 ^ 64)
    .next (r.2.answer r.1 0)
  else .fault .noSuchUnit
/-- R367. -/
def execHatchTake (src h : Nat) (s : State) : Out :=
  if h < 4096 then
    let r := hatchTake s src h
    .next (r.2.2.answer r.1 r.2.1)
  else .fault .noSuchUnit
/-- R367. -/
def execHatchWithdraw (src h : Nat) (s : State) : Out :=
  if h < 4096 then
    let r := hatchWithdraw s src h
    .next (r.2.2.answer r.1 r.2.1)
  else .fault .noSuchUnit
/-- R368. -/
def execHatchTimeout (h : Nat) (s : State) : Out := if h < 4096 then .next (hatchTimeout s h) else .fault .noSuchUnit
/-- R371. -/
def execHatchClear (h : Nat) (s : State) : Out := if h < 4096 then .next ((hatClear s h).answer rspOk 0) else .fault .noSuchUnit
/-- R369. -/
def execClientReset (i : Nat) (s : State) : Out := if i < 276 then .next (clientEnter s i) else .fault .noSuchUnit
/-- R369. -/
def execResetWindowEnd (i : Nat) (s : State) : Out := if i < 276 then .next (windowEnd s i) else .fault .noSuchUnit

end Sys2Proof.Machine
end

