-- ==== Sys2Proof/Machine/Plans.lean ====
section
/-! DEFINITION. Slot plans: the plan image (R48-R53), its check (R55), release (R57, R58), readiness of tasks
(R51, R276), admission and placement (R60-R62), deadlines (R64-R67) and the end of an activation (R282, R283,
R289). Table entries are named by their index in the image. -/

namespace Sys2Proof.Machine

/-! ## The image (R48-R53) -/

/-- `n` bytes of an image as its reader sees them, corrected. -/
def peek (s : State) (a n : Nat) : Nat := leNat (s.readMem a n 0 ymEp).1

def planA (p o : Nat) : Nat := ymRegs + 0x100000 + p * 0x20 + o

def nTask (s : State) (b : Nat) : Nat := peek s (b + 20) 2
def nEdge (s : State) (b : Nat) : Nat := peek s (b + 22) 2
def nOut (s : State) (b : Nat) : Nat := peek s (b + 24) 2
def nChan (s : State) (b : Nat) : Nat := peek s (b + 26) 2
/-- Address of task, edge, output and channel record `i` of the image at `b`. -/
def taskA (s : State) (b i : Nat) : Nat := b + peek s (b + 32) 4 + 32 * i
def edgeA (s : State) (b i : Nat) : Nat := b + peek s (b + 36) 4 + 8 * i
def outA (s : State) (b i : Nat) : Nat := b + peek s (b + 40) 4 + 16 * i
def chanA (s : State) (b i : Nat) : Nat := b + peek s (b + 44) 4 + 8 * i

/-- Fields of a task record (R49). -/
def tFallOnly (s : State) (b i : Nat) : Bool := tb (peek s (taskA s b i) 2) 0
def tDl (s : State) (b i : Nat) : Nat × Nat × Nat :=
  (peek s (taskA s b i + 12) 1, peek s (taskA s b i + 13) 1, peek s (taskA s b i + 14) 1)
def tFallback (s : State) (b i : Nat) : Nat := peek s (taskA s b i + 24) 2
/-- Outputs that task `i` produces. -/
def tOuts (s : State) (b i : Nat) : List Nat := (List.range (nOut s b)).filter (fun o => peek s (outA s b o + 2) 2 = i)
/-- Edges into task `i`. -/
def tEdges (s : State) (b i : Nat) : List Nat := (List.range (nEdge s b)).filter (fun e => peek s (edgeA s b e + 2) 2 = i)

/-! ## The commit check (R55) -/

/-- A table of `n` records of `w` bytes at offset `o` lies in an image of `len` bytes. -/
def tableIn (o n w len : Nat) : Bool := decide (o + n * w ≤ len)

/-- First failure a commit of the image at `b` finds; 0 if it passes. -/
def planCheck (s : State) (b : Nat) : Nat :=
  let len := peek s (b + 52) 4
  let hdr := (s.readMem b 64 0 ymEp).2.1
  if barnSize < b + 64 then 3
  else if hdr.isSome then 0xA
  else if peek s b 4 ≠ 0x4E4C5053 ∨ peek s (b + 4) 2 ≠ 1 then 1
  else if barnSize < b + len ∨ len < 64 ∨ len % 64 ≠ 0 then 3
  else
    let img := s.readMem b len 0 ymEp
    if img.2.1.isSome then 0xA
    else if crc32c (img.1.take 56 ++ [0, 0, 0, 0] ++ img.1.drop 60) ≠ le img.1 56 4 then 2
    else
      let l := img.1
      let nt := le l 20 2
      let ne := le l 22 2
      let no := le l 24 2
      let nc := le l 26 2
      let ot := le l 32 4
      let oe := le l 36 4
      let oo := le l 40 4
      let oc := le l 44 4
      let t := fun i o n => le l (ot + 32 * i + o) n
      let e := fun i o n => le l (oe + 8 * i + o) n
      let u := fun i o n => le l (oo + 16 * i + o) n
      let c := fun i o n => le l (oc + 8 * i + o) n
      let ts := List.range nt
      let es := List.range ne
      if !(tableIn ot nt 32 len && tableIn oe ne 8 len && tableIn oo no 16 len && tableIn oc nc 8 len && decide (le l 48 4 ≤ len))
        || (List.range no).any (fun i => decide (u i 8 4 % 8 ≠ 0 ∨ barnSize < u i 8 4 + 128)) then 3
      else if nt = 0 ∨ 1024 < nt ∨ 4096 < ne ∨ 256 < no ∨ 64 < nc ∨ 16 ≤ le l 12 1 ∨ le l 16 2 = 0
        ∨ ts.any (fun i => decide (63 < t i 2 1 ∨ t i 8 4 = 0 ∨ 16 ≤ t i 12 1 ∨ 1 < t i 15 1 ∨ 2 < t i 22 1
            ∨ (t i 24 2 ≠ 0xFFFF ∧ nt ≤ t i 24 2) ∨ (t i 26 2 ≠ 0xFFFF ∧ 4096 ≤ t i 26 2)
            ∨ t i 3 1 ≠ (es.filter (fun k => e k 2 2 = i)).length % 256))
        ∨ es.any (fun i => decide ((e i 0 2 ≠ 0xFFFF ∧ nt ≤ e i 0 2) ∨ nt ≤ e i 2 2 ∨ 3 ≤ e i 4 1 ∨ (e i 4 1 = 2 ∧ 4 ≤ e i 6 2 / 4096)))
        ∨ (List.range no).any (fun i => decide (nt ≤ u i 2 2 ∨ 3 ≤ u i 4 1))
        ∨ (List.range nc).any (fun i => decide ((32 ≤ c i 0 1 ∧ c i 0 1 ≠ 0xFF) ∨ (c i 0 1 < 32 ∧ 16 ≤ c i 1 1) ∨ 64 ≤ c i 1 1)) then 4
      else if es.any (fun i => decide ((e i 0 2 ≠ 0xFFFF ∧ e i 2 2 ≤ e i 0 2) ∨ (e i 4 1 = 0 ∧ e i 0 2 = 0xFFFF))) then 5
      else if ts.foldl (fun n i => if tb (t i 0 2) 0 then n else n + t i 8 4) 0 ≠ le l 28 4 then 6
      else if ts.any (fun i => decide (t i 14 1 = 0 ∨ 15 < t i 14 1 ∨ 3 < t i 13 1)) ∨ 3 < le l 13 1 then 7
      else if ts.any (fun i => decide (t i 16 4 = 0 ∨ t i 20 1 = 0) || !(tb (t i 16 4) (t i 21 1 / 8) && tb (t i 20 1) (t i 21 1 % 8))) then 8
      else if ts.any (fun i => decide (t i 24 2 ≠ 0xFFFF) && !tb (t (t i 24 2) 0 2) 0) then 9
      else 0

/-- Starting a commit (R54, R55). -/
def planCommit (s : State) (p : Nat) : State := s.wb (planA p 0) 1 true

/-- The check ends (R55, R56): a passing image becomes active; either way COMMIT clears. -/
def planDone (s : State) (p : Nat) : State :=
  if s.rb (planA p 0) 1 then
    let b := s.rd (planA p 8)
    let e := planCheck s b
    let s1 := ((s.wb (planA p 0) 1 false).wb (planA p 0) 2 (decide (e = 0))).wf (planA p 0) 7 4 e
    if e = 0 then s1.wr (planA p 4) b else s1
  else s

/-! ## Instances -/

def State.setInsts (s : State) (l : List Inst) : State := { s with ym := { s.ym with insts := l } }
def State.setPlace (s : State) (l : List Place) : State := { s with ym := { s.ym with place := l } }

/-- The instance of plan slot `p` with index `i` that is in flight. -/
def findInst (s : State) (p i : Nat) : Option Inst := s.ym.insts.find? (fun x => !x.dropped && decide (x.p = p ∧ x.idx = i))

/-- Change one instance. -/
def modInst (s : State) (p i : Nat) (f : Inst → Inst) : State :=
  s.setInsts (s.ym.insts.map (fun x => if !x.dropped && decide (x.p = p ∧ x.idx = i) then f x else x))

/-- Instances of plan slot `p` in flight (INFLIGHT). -/
def inflight (s : State) (p : Nat) : Nat := (s.ym.insts.filter (fun x => !x.dropped && decide (x.p = p))).length

def seen (s : State) (t l : Nat) : Nat := tget (fun _ => 0) s.ym.seen (4 * t + l)
def Inst.at' (x : Inst) (t l : Nat) : Nat := tget (fun _ => 0) x.counts (4 * t + l)

/-- Has the deadline tick of task `i` come (R65)? -/
def dlPast (s : State) (x : Inst) (i : Nat) : Bool :=
  let d := tDl s x.base i
  decide (x.at' d.1 d.2.1 + d.2.2 ≤ seen s d.1 d.2.1)

/-- Is edge `e` satisfied (R51, R276)? -/
def edgeOk (s : State) (x : Inst) (e : Nat) : Bool :=
  let a := edgeA s x.base e
  let src := peek s a 2
  let fromOk := decide (src = 0xFFFF) || x.done.contains src
  let tr := peek s (x.base + 12) 1
  let arg := peek s (a + 6) 2
  match peek s (a + 4) 1 with
  | 0 => x.done.contains src
  | 1 => x.evs.contains e && fromOk
  | _ => decide (x.at' tr (arg / 4096) + arg % 4096 ≤ seen s tr (arg / 4096)) && fromOk

/-- Queue the tasks of an instance that have become ready, in ascending index (R51, R61). -/
def readyTasks (s : State) (p i : Nat) : State :=
  match findInst s p i with
  | none => s
  | some x =>
    let new := (List.range (nTask s x.base)).filter (fun k =>
      !x.started.contains k && !tFallOnly s x.base k && !x.past.contains k && (tEdges s x.base k).all (edgeOk s x))
    (modInst s p i (fun x => { x with started := x.started ++ new })).setPlace
      (s.ym.place ++ new.map (fun k => ⟨p, i, k, none⟩))

/-- T_D of R272: the edge time of the `n`-th tick of level `l` of train `t` after time `x`. -/
def nthEdge (s : State) (t l : Nat) : Nat → Int → Int
  | 0, p => p
  | n + 1, p =>
    let f := trainFmt s t
    let r := p % (fmtPeriod f : Nat)
    nthEdge s t l n (p - r + nextEdge f l r.toNat)

def tdTime (s : State) (x : Int) (t l n : Nat) : Int :=
  edgeTime s t (nthEdge s t l n ((x - trainOfs s t) / cycU))

/-- cycles(c, D) (R272). -/
def cyclesTo (s : State) (g : Nat) (td : Int) : Nat :=
  ((td - sTime s) * (coreMhz s g : Nat) / (nsU * 1000)).toNat

/-- R60 for budget `b` and deadline `td` on core `g`. -/
def admits (s : State) (g b : Nat) (td : Int) : Bool :=
  decide (b + committed s g (fun a => decide (a.td ≤ td)) ≤ cyclesTo s g td)

/-! ## Outputs (R52, R64-R67) -/

/-- Write the status word of output `o` of an instance: the slot address with its flags, DONE bit 32, LATE 33,
FALLBACK 34, UE 35. -/
def putStatus (s : State) (x : Inst) (o flags : Nat) : State :=
  (s.put ymEp (peek s (outA s x.base o + 8) 4 + 8 * x.idx) (natLe 8 (x.slot + flags * 2 ^ 32))).2

/-- Order the downlink fallback for output `o` (R66, R67). -/
def orderFallback (s : State) (x : Inst) (o : Nat) : State :=
  let cell := peek s (outA s x.base o + 6) 2
  let gsm := decide (x.fmt = 11)
  let e := s.rd (ymRegs + 0x20000 + 4 * (if gsm then 768 + cell else cell))
  if tb e 31 then
    let r := s.niPosted ymEp (macEp (fld e 4 0))
    let fo : FbOrder := ⟨fld e 4 0, cell, gsm, x.slot, peek s (outA s x.base o + 12) 2⟩
    if r.1 then { r.2 with ym := { r.2.ym with fbOrders := r.2.ym.fbOrders ++ [fo] } } else r.2
  else s.cnt (ymRegs + 0x40) 1

/-- Add a LATE output to the report of its cell and slot address (R65 step 7). -/
def addOverrun (l : List Overrun) (cell : Nat) (gsm : Bool) (slot out : Nat) : List Overrun :=
  match l with
  | [] => [⟨cell, gsm, slot, [out]⟩]
  | h :: t => if h.cell = cell ∧ h.gsm = gsm ∧ h.slot = slot then { h with outs := h.outs ++ [out] } :: t
              else h :: addOverrun t cell gsm slot out

/-- Mark one output LATE (R65 steps 5-7). The outputs of a dropped release have no status word (R58). -/
def markLate (s : State) (x : Inst) (o : Nat) : State :=
  let s1 := if x.dropped then s else putStatus s x o 2
  let s2 := s1.cnt (planA x.p 0x10) 1
  let s3 := if peek s (outA s x.base o + 4) 1 = 1 ∧ !x.dropped then orderFallback s2 x o else s2
  let ov := addOverrun s3.ym.overruns (peek s (outA s x.base o + 6) 2) (decide (x.fmt = 11)) x.slot (peek s (outA s x.base o) 2)
  { s3 with ym := { s3.ym with overruns := ov } }

/-- Mark LATE every output of the tasks `ks` that is not yet DONE or LATE. -/
def lateOuts (s : State) (p i : Nat) (ks : List Nat) : State :=
  match findInst s p i with
  | none => s
  | some x =>
    let outs := (ks.map (tOuts s x.base)).flatten.filter (fun o => !x.outDone.contains o && !x.outLate.contains o)
    modInst (outs.foldl (fun s o => markLate s x o) s) p i (fun x => { x with outLate := x.outLate ++ outs })

/-- Activate the fallback task of task `k` (R61-R63); without one, its outputs are LATE at once. `rep` is the
task that `k` itself already replaces. -/
def activateFallback (s : State) (p i k : Nat) (rep : Option Nat) : State :=
  match findInst s p i with
  | none => s
  | some x =>
    let f := tFallback s x.base k
    let orig := rep.getD k
    if f = 0xFFFF then (lateOuts s p i [k, orig]).cnt (planA p 0x14) 1
    else
      let s1 := modInst (s.cnt (planA p 0x18) 1) p i (fun x => { x with fall := x.fall ++ [(orig, f)] })
      s1.setPlace (s1.ym.place ++ [⟨p, i, f, some orig⟩])

/-! ## Placement (R60-R62, R270-R275) -/

/-- Bind an activation to thread `gt` and start it (R270, R274). -/
def bindAct (s : State) (gt : Nat) (a : Act) : State :=
  let x := s.th gt
  let cnt := (x.cnt + 1) % 65536
  let s1 := s.setTh gt { x with cnt := cnt, act := some { a with id := gt + cnt * 65536 }, armed := false, woken := false, wait := 0, stop := none }
  let s2 := startAct s1 gt a.flow
  s2.modCore (gt / 256) (fun c => { c with accAdm := sat32 (c.accAdm + a.grant), accPeak := max c.accPeak (commitNow s2 (gt / 256)) })

/-- The activation a placement makes (R49, R280). -/
def planAct (s : State) (x : Inst) (pl : Place) : Act :=
  let a := taskA s x.base pl.task
  let d := tDl s x.base pl.task
  let fl := peek s (a + 26) 2
  { id := 0, prio := peek s (a + 2) 1, entry := peek s (a + 4) 4, budget := peek s (a + 8) 4, grant := peek s (a + 8) 4,
    fresh := true, dlTrain := d.1, dlLevel := d.2.1, dlAt := x.at' d.1 d.2.1 + d.2.2,
    td := tdTime s x.time d.1 d.2.1 d.2.2, flow := if fl = 0xFFFF then none else some fl,
    src := .plan pl.p pl.inst pl.task pl.rep, s1 := x.slot,
    s2 := x.base + peek s (x.base + 48) 4 + peek s (a + 28) 4 }

/-- Try the cores of a list in order (R61, R271): admitted on the first that R60 holds on. -/
def tryCores (s : State) (a : Act) : List Nat → Bool × State
  | [] => (false, s)
  | g :: t =>
    if !eligible s g then tryCores s a t
    else
      match idlePool s g with
      | none => tryCores ((s.cnt (ymCoreA g 0x20) 1).cnt (ymCoreA g 0x1C) 1) a t
      | some gt => if admits s g a.grant a.td then (true, bindAct s gt a) else tryCores (s.cnt (ymCoreA g 0x1C) 1) a t

/-- Place one ready activation (R61, R62, R275). -/
def placeOne (s : State) (pl : Place) : State :=
  match findInst s pl.p pl.inst with
  | none => s.setPlace (s.ym.place.erase pl)
  | some x =>
    let a := planAct s x pl
    let full := match a.flow with
      | some f => decide ((s.flow f).depth ≤ (s.flow f).held)
      | none => false
    if full then s.cnt (ymRegs + 0x3C) 1
    else
      let r := taskA s x.base pl.task
      let pref := peek s (r + 21) 1
      let ok := fun g => tb (peek s (r + 16) 4) (g / 8) && tb (peek s (r + 20) 1) (g % 8)
      let mode := peek s (r + 22) 1
      let cores := if mode = 1 then [pref] else ((List.range 256).map (fun k => (pref + k) % 256)).filter ok
      let s1 := s.setPlace (s.ym.place.erase pl)
      let t := tryCores s1 a cores
      if t.1 then t.2
      else if mode = 0 then (lateOuts t.2 pl.p pl.inst (pl.task :: pl.rep.toList)).cnt (planA pl.p 0x14) 1
      else activateFallback t.2 pl.p pl.inst pl.task pl.rep

/-! ## The end of an activation (R138, R160, R282, R289) -/

/-- Does any activation of the instance remain bound or unplaced? -/
def instBusy (s : State) (p i : Nat) : Bool :=
  s.ym.place.any (fun x => decide (x.p = p ∧ x.inst = i)) ||
  s.ym.threads.any (fun t => match t.2.act with
    | some a => match a.src with
      | .plan q j _ _ => decide (q = p ∧ j = i)
      | _ => false
    | none => false)

/-- An instance is no longer in flight once every task has completed or passed its deadline, every output is
DONE or LATE and no activation of it remains; a dropped release once every output is LATE. -/
def instOver (s : State) (x : Inst) : Bool :=
  let outs := (List.range (nOut s x.base)).all (fun o => x.outDone.contains o || x.outLate.contains o)
  if x.dropped then outs
  else outs && (List.range (nTask s x.base)).all (fun k => tFallOnly s x.base k || x.done.contains k || x.past.contains k)
    && !instBusy s x.p x.idx

/-- Forget the instances that are over. -/
def sweepInsts (s : State) : State := s.setInsts (s.ym.insts.filter (fun x => !instOver s x))

/-- Task `k` of an instance completes, with the task it stands in for (R51, R62). -/
def taskDone (s : State) (p i k : Nat) (rep : Option Nat) : State :=
  readyTasks (modInst s p i (fun x => { x with done := x.done ++ k :: rep.toList })) p i

/-- The bound activation of thread `gt` ends: 0 by END, 1 by a deadline stop, 2 by exhaustion, 3 by a reset
or KIND 0. The fallback of R63 has been activated when the budget ran out. -/
def endAct (s : State) (gt cause : Nat) : State :=
  let x := s.th gt
  match x.act with
  | none => s
  | some a =>
    let g := gt / 256
    let c := s.core g
    let mask := if c.run = gt % 256 ∧ !c.left then tmask s g else s.rd (tdA gt 0xC) + s.rd (tdA gt 0x10) * 2 ^ 32
    let s1 := endTags s g mask
    let s2 := if (s1.core g).owner = some (gt % 256) then s1.modCore g (fun c => { c with owner := none, dirty := 0 }) else s1
    let s3 := s2.setTh gt { x with st := 1, act := none, armed := false, woken := false, wait := 0, stop := none }
    let s4 := leaveFlow s3 gt a.flow
    let s5 := if cause = 1 then s4.cnt (ymCoreA g 0x28) 1 else s4
    let s6 := match a.src with
      | .plan p i k rep => if cause = 0 then taskDone s5 p i k rep else s5
      | .soft _ (some h) =>
        let r := hatchPost s5 ymEp h (a.id + cause * 2 ^ 32)
        if r.1 = rspOk then r.2 else r.2.cnt (ymRegs + 0x2C) 1
      | .soft _ none => s5
    sweepInsts s6

/-- The slice learns that core `g` has taken EC_BUDGET (R63, R283). -/
def exhausted (s : State) (g : Nat) : State :=
  let gt := runThread s g
  let x := s.th gt
  match x.act with
  | none => s
  | some a =>
    if x.stop.isSome ∨ (s.core g).left then s
    else
      let s1 := s.cnt (ymCoreA g 0x24) 1
      let s2 := match a.src with
        | .plan p i k rep =>
          match findInst s1 p i with
          | some y => if peek s1 (taskA s1 y.base k + 15) 1 = 1 then activateFallback s1 p i k rep else s1
          | none => s1
        | .soft _ _ => s1
      if preemptMode s g then s2.setTh gt { s2.th gt with stop := some 2 }
      else (endAct s2 gt 2).modCore g (fun c => { c with run := 0 })

/-! ## Release and deadlines (R56-R58, R65) -/

/-- Clear the status words of a released instance (R57). -/
def clearStatus (s : State) (x : Inst) : State := (List.range (nOut s x.base)).foldl (fun s o => putStatus s x o 0) s

/-- Barrow channel number of channel record `i` (R53, R344). -/
def chanOf (s : State) (b i : Nat) : Nat :=
  let a := chanA s b i
  let st := peek s a 1
  if st = 0xFF then 512 + peek s (a + 1) 1 else 16 * st + peek s (a + 1) 1

/-- The task whose deadline tick is the plan's last, by edge time (R53). -/
def lastDl (s : State) (x : Inst) : Nat × Nat × Nat :=
  let l := (List.range (nTask s x.base)).map (fun k => let d := tDl s x.base k; (d, tdTime s x.time d.1 d.2.1 d.2.2))
  match l with
  | [] => (0, 0, 0)
  | h :: t => (t.foldl (fun m y => if m.2 < y.2 then y else m) h).1

/-- Does the image at the active address of plan slot `p` release at tick `m` (R48, R57)? -/
def releases (s : State) (p : Nat) (m : Tick) : Bool :=
  let b := s.rd (planA p 4)
  let l := peek s (b + 13) 1
  s.rb (planA p 0) 0 && decide (peek s b 4 = 0x4E4C5053) && decide (peek s (b + 12) 1 = m.train) && tb m.mask l
    && decide (m.lvl.getD l 0 % peek s (b + 16) 2 = peek s (b + 18) 2)

/-- The tick releases plan slot `p` (R57, R58), but for its Barrow channels. -/
def release (s : State) (p : Nat) (m : Tick) : State :=
  let b := s.rd (planA p 4)
  let i := tget (fun _ => 0) s.ym.nextIdx p
  let x : Inst := { p := p, idx := i, base := b, slot := m.slot, fmt := trainFmt s m.train, dropped := (findInst s p i).isSome,
                    time := edgeTime s m.train m.pos, counts := s.ym.seen, started := [], done := [], evs := [], past := [],
                    outDone := [], outLate := [], fall := [] }
  if x.dropped then (s.setInsts (s.ym.insts ++ [x])).cnt (planA p 0x1C) 1
  else
    let s1 := (s.setInsts (s.ym.insts ++ [x])).cnt (planA p 0xC) 1
    let s2 := { s1 with ym := { s1.ym with nextIdx := tset (fun _ => 0) s1.ym.nextIdx p ((i + 1) % 16) } }
    let s3 := clearStatus s2 x
    let d := lastDl s3 x
    let stops := ((List.range (nChan s3 b)).filter (fun k => tb (peek s3 (chanA s3 b k + 2) 2) 1)).map (fun k =>
      (⟨chanOf s3 b k, d.1, d.2.1, x.at' d.1 d.2.1 + d.2.2⟩ : ChanStop))
    readyTasks { s3 with ym := { s3.ym with chanStops := s3.ym.chanStops ++ stops } } p i

/-- START_AT_RELEASE channels of the image at `b`, with their programs' addresses (R53). -/
def startChans (s : State) (b : Nat) : List (Nat × Nat) :=
  ((List.range (nChan s b)).filter (fun k => tb (peek s (chanA s b k + 2) 2) 0)).map (fun k =>
    (chanOf s b k, peek s (chanA s b k + 4) 4))

/-- Order a stop for a bound activation (R65 step 2). -/
def orderStop (s : State) (gt : Nat) : State := s.setTh gt { s.th gt with stop := some 1 }

/-- Threads with an activation for task `k` of an instance. -/
def actsOf (s : State) (p i k : Nat) : List Nat :=
  s.ym.threads.filterMap (fun t => match t.2.act with
    | some a => match a.src with
      | .plan q j n _ => if q = p ∧ j = i ∧ n = k then some t.1 else none
      | _ => none
    | none => none)

/-- The deadline tick of task `k` of instance `x` (R65): unplaced activations are never admitted, bound ones
are stopped and undone outputs are LATE. A task that has outputs, all DONE, is left alone. -/
def deadline (s : State) (x : Inst) (k : Nat) : State :=
  let outs := tOuts s x.base k
  if x.dropped then
    let new := outs.filter (fun o => !x.outLate.contains o)
    let s1 := new.foldl (fun s o => markLate s x o) s
    s1.setInsts (s1.ym.insts.map (fun y => if y = x then { y with outLate := y.outLate ++ new, past := y.past ++ [k] } else y))
  else
    let s1 := modInst s x.p x.idx (fun y => { y with past := y.past ++ [k] })
    if outs ≠ [] ∧ outs.all x.outDone.contains then s1
    else
      let s2 := s1.setPlace (s1.ym.place.filter (fun q => !decide (q.p = x.p ∧ q.inst = x.idx ∧ q.task = k)))
      let s3 := (actsOf s2 x.p x.idx k).foldl orderStop s2
      lateOuts s3 x.p x.idx [k]

/-- All tasks of an instance whose deadline tick has now come. -/
def deadlines (s : State) (p i : Nat) (dropped : Bool) : State :=
  let pick := fun (s : State) => s.ym.insts.find? (fun x => decide (x.dropped = dropped ∧ x.p = p ∧ x.idx = i))
  match pick s with
  | none => s
  | some x =>
    ((List.range (nTask s x.base)).filter (fun k => !x.past.contains k && dlPast s x k)).foldl (fun s k =>
      match pick s with
      | some y => deadline s y k
      | none => s) s

/-- Deadline ticks of software activations (R288). -/
def softDeadlines (s : State) : State :=
  s.ym.threads.foldl (fun s t => match t.2.act with
    | some a => match a.src with
      | .soft _ _ => if a.dlAt ≤ seen s a.dlTrain a.dlLevel ∧ t.2.stop = none then orderStop s t.1 else s
      | _ => s
    | none => s) s

/-- Record an event against each plan's oldest instance that waits for it (R276 step 1): whether any did. -/
def recordEvent (s : State) (n : Nat) : Bool × State :=
  (List.range 256).foldl (fun (r : Bool × State) p =>
    let waits := fun (x : Inst) => (List.range (nEdge r.2 x.base)).filter (fun e =>
      decide (peek r.2 (edgeA r.2 x.base e + 4) 1 = 1) && decide (peek r.2 (edgeA r.2 x.base e + 6) 2 = n) && !x.evs.contains e)
    match r.2.ym.insts.find? (fun x => !x.dropped && decide (x.p = p) && !(waits x).isEmpty) with
    | none => r
    | some x => (true, readyTasks (modInst r.2 p x.idx (fun y => { y with evs := y.evs ++ waits x })) p x.idx)) (false, s)

/-- An event reaches the Yardmaster (R276). -/
def applyEvent (s : State) (n : Nat) : State :=
  let r := recordEvent s n
  let w := eventWaiters r.2 n
  if !r.1 && w.isEmpty then r.2.cnt (ymRegs + 0x14) 1 else wakeAll r.2 w

/-- The accounting registers of every core latch the figures of the past interval (R291). -/
def latchAccounts (s : State) : State :=
  (List.range 256).foldl (fun s g =>
    let c := s.core g
    let cyc := coreCycle s g
    let total := cyc - c.accAt
    let s1 := (((s.wr (ymCoreA g 0xC) c.accAdm).wr (ymCoreA g 0x10) (sat32 c.accSpent)).wr (ymCoreA g 0x14) c.accPeak).wr
      (ymCoreA g 0x18) (sat32 (total - c.accSpent))
    s1.modCore g (fun c => { c with accAdm := 0, accSpent := 0, accAt := cyc, accPeak := commitNow s1 g })) s

end Sys2Proof.Machine
end

