-- ==== Sys2Proof/Machine/Kbound.lean ====
section
/-! DEFINITION. Bundle boundaries: entries and their order (R94), the end of holds (R92, R139, R148), hardware
switches and their frames (R100, R101, R279, R280), stops (R282, R283), halts and breakpoints (R103, R105), reset and
release (R104), and the commands of these rows. -/

namespace Sys2Proof.Machine

/-! ## The end of a hold -/

/-- The bundle held at PC is abandoned without effect (R92, R139, R148, R149). -/
def releaseHold (s : State) (g : Nat) : State :=
  let clear := fun (s : State) => s.modCore g (fun c => { c with hold := .none })
  match (s.core g).hold with
  | .none => s
  | .far _ _ _ => clear (squash (endWait s g true) g)
  | .scoreboard => let n := waitedCycles s g; clear ((endWait s g false).cnt (kA g 0x90) n)
  | .fence => clear (endWait s g true)
  | .resv => clear (endWait s g true)
  | .vswitch => abandonSwitch s g

/-- A core in WFE goes on (R98). -/
def endWfe (s : State) (g : Nat) : State :=
  if (s.core g).wfe then (endWait s g false).modCore g (fun c => { c with wfe := false }) else s

/-! ## Frames (R101) -/

/-- Address of a frame in its memory, and as a local address. -/
def frameNear (v : Nat) : Nat := fld v 17 6 * 64
def frameAt (g v : Nat) : Nat := (if tb v 18 then ymemBase g else xmemBase g) + frameNear v

/-- The 512 bytes of the context frame (R101). -/
def frameBytes (c : Core) : List Byte :=
  ((List.range 32).map (fun i => natLe 4 (c.gs i))).flatten
  ++ ((List.range 16).map (fun i => natLe 8 (c.ga i))).flatten
  ++ ((List.range 16).map (fun i => natLe 4 (c.gm i))).flatten
  ++ ((List.range 8).map (fun i => natLe 16 (uns 128 (c.gacc i)))).flatten
  ++ natLe 4 c.pc ++ natLe 4 c.sr.toNat
  ++ natLe 4 c.loop0.lc.toNat ++ natLe 4 c.loop0.ls.toNat ++ natLe 4 c.loop0.le.toNat
  ++ natLe 4 c.loop1.lc.toNat ++ natLe 4 c.loop1.ls.toNat ++ natLe 4 c.loop1.le.toNat
  ++ natLe 4 c.budget.toNat ++ List.replicate 28 0

/-- Read a frame: its bytes with poisoned words as zeros, and the offsets of those words. -/
def frameRead (s : State) (g v : Nat) : List Byte × List Nat × State :=
  (List.range 32).foldl (fun r i =>
    let q := r.2.2.readWord (frameAt g v + 16 * i) 0 (coreEp g)
    if q.2.1 then (r.1 ++ List.replicate 16 0, r.2.1 ++ [16 * i], q.2.2) else (r.1 ++ natLe 16 q.1, r.2.1, q.2.2)) ([], [], s)

/-- Scalar context from the bytes `l` of a frame whose words at `bad` are poisoned; `unspent` is the budget the
slice recorded (R101, R102). -/
def Core.fromFrame (c : Core) (l : List Byte) (bad : List Nat) (unspent : Nat) : Core :=
  let sr := if bad.contains 0x1C0 then 0x100 else le l 0x1C4 4
  { c with
    s := (List.range 32).foldl (fun t i => tset zw t i (BitVec.ofNat 32 (le l (4 * i) 4))) []
    a := (List.range 16).foldl (fun t i => tset za t i (BitVec.ofNat 44 (le l (0x80 + 8 * i) 8))) []
    m := (List.range 16).foldl (fun t i => tset zw t i (BitVec.ofNat 32 (le l (0x100 + 4 * i) 4))) []
    acc := (List.range 8).foldl (fun t i => tset zacc t i (BitVec.ofNat 72 (le l (0x140 + 16 * i) 16))) []
    pc := le l 0x1C0 4
    sr := BitVec.ofNat 32 (sr &&& 0x7F3F)
    loop0 := ⟨BitVec.ofNat 32 (le l 0x1C8 4), BitVec.ofNat 13 (le l 0x1CC 4), BitVec.ofNat 13 (le l 0x1D0 4)⟩
    loop1 := ⟨BitVec.ofNat 32 (le l 0x1D4 4), BitVec.ofNat 13 (le l 0x1D8 4), BitVec.ofNat 13 (le l 0x1DC 4)⟩
    budget := BitVec.ofNat 32 (if bad.contains 0x1E0 then unspent else le l 0x1E0 4) }

/-- s0 of a fresh activation (R280). -/
def Act.s0 (a : Act) : Nat :=
  match a.src with
  | .plan p i k _ => p % 256 + k % 1024 * 2 ^ 8 + i % 16 * 2 ^ 18 + 2 ^ 31
  | .soft _ _ => 0

/-- s3 of a fresh activation: the task it replaces. -/
def Act.s3 (a : Act) : Nat :=
  match a.src with
  | .plan _ _ _ (some r) => r % 1024 + 2 ^ 31
  | _ => 0

/-- The core as a fresh activation starts (R280). -/
def Core.freshFor (c : Core) (a : Act) : Core :=
  let r := [(0, a.s0), (1, a.s1), (2, a.s2), (3, a.s3), (4, a.id)]
  { c with
    s := r.foldl (fun t p => tset zw t p.1 (BitVec.ofNat 32 p.2)) []
    a := []
    m := []
    acc := []
    loop0 := ⟨0, 0, 0⟩
    loop1 := ⟨0, 0, 0⟩
    pc := fld a.entry 16 4
    sr := 0x100#32
    budget := BitVec.ofNat 32 a.budget }

/-! ## The hardware switch (R279, R280) -/

/-- The tags of a descriptor that are not ORPHAN (R160). -/
def grantOf (s : State) (g gt w : Nat) : Nat :=
  (List.range 32).foldl (fun v t => if tb v t && decide ((s.tag g (32 * w + t)).st = 4) then clrBit v t else v) (s.rd (tdA gt (0xC + 4 * w)))

/-- Record the unspent budget of an activation that leaves the core. -/
def recordUnspent (s : State) (g gt : Nat) : State :=
  let x := s.th gt
  s.setTh gt { x with act := x.act.map (fun a => { a with budget := (s.core g).budget.toNat }) }

/-- The outgoing side: the frame is saved unless the activation has ended; a preempted one becomes READY. -/
def switchOut (s : State) (g : Nat) : State :=
  let c := s.core g
  let gt := runThread s g
  if c.left && !c.saveOut then s
  else
    let s1 := s.writeNear (frameAt g (s.rd (tdA gt 4))) (frameBytes c) (coreEp g)
    if c.run = 0 then s1
    else
      let s2 := recordUnspent s1 g gt
      if c.left then s2 else (makeReady s2 gt).cnt (ymCoreA g 0x2C) 1

/-- The incoming side: thread `t` of the core, with its activation if it is not thread 0. -/
def switchIn (s : State) (g t : Nat) (a : Option Act) : State :=
  let gt := 256 * g + t
  let fresh := match a with
    | some x => x.fresh
    | none => false
  let fr := s.rd (tdA gt 4)
  let s1 := (s.wr (kA g 0x68) (grantOf s g gt 0)).wr (kA g 0x6C) (grantOf s g gt 1)
  let s2 := s1.modCore g (fun c => { c with
    ctxptr := BitVec.ofNat 32 fr
    vcCur := BitVec.ofNat 32 (t + 256 + (if fresh then 512 else 0))
    saveCur := BitVec.ofNat 32 (s.rd (tdA gt 8))
    run := t
    left := false
    saveOut := false
    offer := false })
  let s3 := match a with
    | some x => s2.setTh gt { s2.th gt with st := 3, act := some { x with fresh := false } }
    | none => s2
  let s4 := match a, fresh with
    | some x, true => s3.modCore g (fun c => c.freshFor x)
    | _, _ =>
      let f := frameRead s3 g fr
      f.2.2.modCore g (fun c => { c.fromFrame f.1 f.2.1 ((a.map Act.budget).getD 0) with
        frameUe := f.2.1.head?.map (fun o => frameNear fr + o) })
  s4.modCore g (fun c => { c with sample := c.budget.toNat })

/-- A hardware switch to the candidate, or to thread 0 (R100, R280): 24 cycles charged to no activation. -/
def doSwitch (s : State) (g : Nat) : State :=
  let s1 := endWfe (releaseHold s g) g
  let s2 := switchOut s1 g
  let s3 := s2.modCore g (fun c => { c.tick 24 with budget := c.budget, sample := c.sample, accSpent := c.accSpent })
  match candidate s3 g with
  | some x => switchIn s3 g (x.1 % 256) (some x.2.2)
  | none => switchIn s3 g 0 none

/-- A PREEMPT switch is to be made at this boundary (R279). -/
def preemptDue (s : State) (g : Nat) : Bool := preemptMode s g && switchDue s g && !deferred s g

/-! ## Stops (R65, R282, R283) -/

/-- The running activation is stopped: 1 by a deadline, 2 by exhaustion. -/
def stopRunning (s : State) (g cause : Nat) : State :=
  let s1 := endWfe (releaseHold s g) g
  let s2 := endAct s1 (runThread s1 g) cause
  if preemptMode s g then
    let s3 := s2.modCore g (fun c => { c with left := true, saveOut := false })
    if (s3.core g).halted then s3 else doSwitch s3 g
  else (takeLine (s2.modCore g (fun c => { c with run := 0 })) g 0).wb (ykA g 0x14) 1 true

/-- A deadline stop that has been ordered for thread `gt` reaches its core (R282). -/
def threadStop (s : State) (gt : Nat) : State :=
  let x := s.th gt
  if x.stop = none then s
  else if x.st = 3 ∧ runThread s (gt / 256) = gt then stopRunning s (gt / 256) 1
  else endAct s gt 1

/-- A stop of a BLOCKED or READY thread whose context is still to be saved leaves nothing to save. -/
def stopThread (s : State) (gt : Nat) : State :=
  let g := gt / 256
  let c := s.core g
  let s1 := threadStop s gt
  if c.left && c.saveOut && decide (c.run = gt % 256) then s1.modCore g (fun c => { c with saveOut := false }) else s1

/-! ## Entries (R94) -/

/-- The lowest pending line that is enabled (R94 step 3). -/
def dueLine (s : State) (g : Nat) : Option Nat :=
  let c := s.core g
  if c.ie then lowest 32 (fun i => tb (ipend s g &&& c.ien.toNat) i) else none

/-- The core can take an entry now: it stands at a boundary, in WFE, or in a stall that entries end. -/
def atEntry (c : Core) : Bool :=
  match c.hold with
  | .none => true
  | .scoreboard => true
  | .resv => true
  | .vswitch => true
  | _ => false

/-- A core that can act: its stable is ON with no descent in progress (R529), it is neither in reset nor halted. -/
def coreLive (s : State) (g : Nat) : Bool := s.shedReady (g / 8) && !s.inReset g && !(s.core g).halted

/-- Take the pending EC_BUS_ASYNC. -/
def busAsync (s : State) (g : Nat) : State :=
  match (s.core g).busAsync with
  | [] => s
  | (code, a) :: t => raiseExc (s.modCore g (fun c => { c with busAsync := t })) g ecBusAsync 0 code (some a)

/-- EC_BUDGET is due (R94 step 2). -/
def budgetDue (c : Core) : Bool := !c.km && decide (c.budget = 0)

/-- Take EC_BUDGET; the slice learns of it (R283). -/
def takeBudget (s : State) (g : Nat) : State := exhausted (raiseExc s g ecBudget 0 0 none) g

/-- A breakpoint stands at PC (R103). -/
def atBreak (s : State) (g : Nat) : Bool :=
  let c := s.core g
  let hit := fun o => s.rb (kA g o) 31 && decide (s.rf (kA g o) 12 0 = c.pc)
  decide (c.bpSkip ≠ some c.pc) && (hit 0x18 || hit 0x1C)

/-- Halt the core at the boundary it stands at. -/
def haltHere (s : State) (g : Nat) : State :=
  s.modCore g (fun c => { c with halted := true, stepping := false, since := s.now })

/-- One bundle boundary of a live core with no hold (R94, R101, R103, R105, R279, R283): the first that applies of
what may happen there, the issue of the next bundle last. -/
def boundary (s : State) (g : Nat) : State :=
  let s := chargeCtx s g
  let c := s.core g
  if (s.th (runThread s g)).stop = some 1 ∧ !c.left then stopRunning s g 1
  else
    match c.frameUe with
    | some a => raiseExc (s.modCore g (fun c => { c with frameUe := none })) g ecLoadUe 0 0 (some a)
    | none =>
      if c.busAsync ≠ [] then busAsync s g
      else if budgetDue c then takeBudget s g
      else
        match dueLine s g with
        | some n => takeLine s g n
        | none =>
          if (s.th (runThread s g)).stop = some 2 ∧ !c.left ∧ !c.exl then stopRunning s g 2
          else if s.rb (kA g 0) 1 ∧ !c.stepping then haltHere s g
          else if atBreak s g ∧ !c.stepping then haltHere (s.wb (kA g 0) 1 true) g
          else if preemptDue s g then doSwitch s g
          else issue s g

/-! ## Reset, release, halt, step (R96, R103-R105) -/

/-- A halted core goes on: the breakpoint it stands at is not taken again (R103). -/
def resume (s : State) (g : Nat) : State := (endHalt s g).modCore g (fun c => { c with bpSkip := some c.pc })

/-- KB_CORE_CTRL.RESET becomes 1 (R104, R164, R289): activations bound on the core end with cause 3. -/
def coreReset (s : State) (g : Nat) : State :=
  let s1 := resetTags (s.wb (kA g 0) 0 true) g
  let s2 := ((coreThreads s1 g).map (·.1)).foldl (fun s gt => endAct s gt 3) s1
  -- far stores already sent still reach their targets; their answers are discarded
  let s3 := s2.setCore g { Core.reset with stores := (s2.core g).stores, seq := (s2.core g).seq }
  clientEnter s3 g

/-- KB_CORE_CTRL.RESET becomes 0 (R104): the core starts at KB_BOOT_PC in kernel mode. -/
def coreRelease (s : State) (g : Nat) : State :=
  let s1 := s.wb (kA g 0) 0 false
  let h := s.rb (kA g 0) 1
  { (s1.modCore g (fun c => { c with pc := s.rf (kA g 8) 12 0, sr := 0x200#32, halted := h, since := s.now })) with
    hatWin := if s.hatWin.contains g then s.hatWin else s.hatWin ++ [g] }

/-- HALT set: a core that stands at a boundary, or waits in WFE, halts there; one that holds a bundle halts after
it (R105). -/
def setHalt (s : State) (g : Nat) : State :=
  let s1 := s.wb (kA g 0) 1 true
  let c := s1.core g
  if !coreLive s1 g ∨ c.hold ≠ .none then s1
  else if c.frameUe ≠ none ∨ c.busAsync ≠ [] ∨ budgetDue c ∨ (dueLine s1 g).isSome then haltHere (boundary (endWfe s1 g) g) g
  else haltHere (endWfe s1 g) g

/-- HALT cleared (R96, R103). -/
def clearHalt (s : State) (g : Nat) : State :=
  let s1 := s.wb (kA g 0) 1 false
  let c := s1.core g
  if c.halted ∧ !c.dfault ∧ !s.inReset g then resume s1 g else s1

/-- STEP written 1 (R103): entries that are due are taken first, then one bundle issues and the core halts. -/
def coreStep (s : State) (g : Nat) : State :=
  let c := s.core g
  if !c.halted ∨ c.dfault ∨ s.inReset g ∨ s.shedCur (g / 8) ≠ 3 then s
  else
    let s1 := ((resume s g).wb (kA g 0) 2 true).modCore g (fun c => { c with stepping := true })
    let go := fun (s : State) => let c := s.core g
      if c.stepping && !c.halted && decide (c.hold = .none) then boundary s g else s
    let before := (s1.rd (kA g 0x20))
    let s2 := go s1
    if s2.rd (kA g 0x20) ≠ before then s2 else go s2

/-! ## Commands -/

def inCore (g : Nat) (s : State) : Out := if g < 256 then .next s else .fault .noSuchUnit

/-- BUNDLE (R69-R92): what the core does at its next bundle boundary. A core that cannot reach one is unchanged. -/
def execBundle (g : Nat) (s : State) : Out :=
  inCore g (let c := s.core g
    if coreLive s g && !c.wfe && decide (c.hold = .none) then boundary s g else s)

/-- INTERRUPT_ENTRY (R94): a pending EC_BUS_ASYNC, else the lowest enabled pending line. -/
def execInterruptEntry (g : Nat) (s : State) : Out :=
  inCore g (let c := s.core g
    if !coreLive s g ∨ !atEntry c then s
    else if c.busAsync ≠ [] then busAsync (endWfe (releaseHold s g) g) g
    else if budgetDue c then s
    else match dueLine s g with
      | some n => takeLine (endWfe (releaseHold s g) g) g n
      | none => s)

/-- BUDGET_EXHAUST (R97): the budget runs out, in a stall if the bundle at PC is stalled, and EC_BUDGET is taken. -/
def execBudgetExhaust (g : Nat) (s : State) : Out :=
  inCore g (let c := s.core g
    if !coreLive s g ∨ !atEntry c ∨ c.km then s
    else
      let s1 := if c.hold = .none then s else releaseHold (s.until (c.since + c.budget.toNat * corePeriod s g)) g
      if budgetDue (s1.core g) ∧ (s1.core g).busAsync = [] then takeBudget s1 g else s)

/-- TIMER_MATCH (R98): a core that waits or is halted counts on to KB_TIMER. -/
def execTimerMatch (g : Nat) (s : State) : Out :=
  inCore g (let c := s.core g
    let d := (c.timer.toNat + 2 ^ 32 - c.cycle % 2 ^ 32) % 2 ^ 32
    let t := s.until (c.since + d * corePeriod s g)
    if s.inReset g ∨ s.shedCur (g / 8) ≠ 3 ∨ d = 0 then s
    else if c.halted then (endHalt t g).modCore g (fun c => { c with halted := true })
    else if c.wfe then endWait t g false
    else match c.hold with
      | .none => s
      | .scoreboard => (endWait t g false).cnt (kA g 0x90) (waitedCycles t g)
      | .vswitch => s
      | _ => endWait t g true)

/-- WFE_WAKE (R98). -/
def execWfeWake (g : Nat) (s : State) : Out :=
  inCore g (if coreLive s g ∧ (s.core g).wfe ∧ ipend s g ≠ 0 then endWfe s g else s)

/-- FENCE_COMPLETE (R84). -/
def execFenceComplete (g : Nat) (s : State) : Out :=
  inCore g (let c := s.core g
    if c.hold = .fence ∧ c.stores = [] then
      let s1 := (endWait s g true).modCore g (fun c => { c with hold := .none })
      daStage s1 g (heldBundle s1 g)
    else s)

/-- VECTOR_DATAPATH_DONE (R116). -/
def execVectorDatapathDone (g : Nat) (s : State) : Out := inCore g (s.modCore g Core.dpDone)

/-- The exception of a switch that could not restore (R140). -/
def switchFailed (s : State) (g : Nat) (code : Nat) (lost : Bool) : State :=
  raiseExc s g (if code = rspUe then ecVloadUe else ecBus) (vecSlot (heldBundle s g)) code
    (if lost then none else some (fld (s.core g).saveCur.toNat 29 6 * 64))

/-- VECTOR_SWITCH_DONE (R135, R136): the switch's cycles pass and the stalled bundle goes on. -/
def execVectorSwitchDone (g : Nat) (s : State) : Out :=
  inCore g (let c := s.core g
    if c.hold = .vswitch then
      let t := match switchCycles s g with
        | some n => s.until (c.since + n * corePeriod s g)
        | none => s
      let n := waitedCycles t g
      let s1 := ((endWait t g false).cnt (kA g 0x3C) n).modCore g (fun c => { c with hold := .none })
      let r := runSwitch s1 g
      match r.1 with
      | some (code, lost) => switchFailed r.2 g code lost
      | none => daStage r.2 g (heldBundle r.2 g)
    else s)

/-- VECTOR_SWITCH_ABANDON (R139). -/
def execVectorSwitchAbandon (g : Nat) (s : State) : Out := inCore g (abandonSwitch s g)

/-- FLUSH (R142), a debugger's write of KB_VEC_CTRL. -/
def execVecFlush (g : Nat) (s : State) : Out :=
  inCore g (if vecDbgOk s g then (vecFlush s g).answer rspOk 0 else s.answer rspTgt 0)

/-- RELOAD (R142). -/
def execVecReload (g : Nat) (s : State) : Out :=
  inCore g (if vecDbgOk s g then (vecReload s g).answer rspOk 0 else s.answer rspTgt 0)

/-- HITCH_STALL_END (R148, R153): the tag or guard lets the stalled bundle go on. -/
def execHitchStallEnd (g : Nat) (s : State) : Out :=
  inCore g (let c := s.core g
    let b := heldBundle s g
    if c.hold = .scoreboard ∧ !scoreboardStall s g c b then
      let n := waitedCycles s g
      daStage (((endWait s g false).cnt (kA g 0x90) n).modCore g (fun c => { c with hold := .none })) g b
    else s)

/-- CTX_CHARGE (R156). -/
def execCtxCharge (g : Nat) (s : State) : Out := inCore g (if coreLive s g then chargeCtx s g else s)

/-- PREEMPT_SWITCH (R279, R280). An entry that is due comes first. -/
def execPreemptSwitch (g : Nat) (s : State) : Out :=
  inCore g (let c := s.core g
    let entry := c.busAsync ≠ [] ∨ budgetDue c ∨ (dueLine s g).isSome
    if coreLive s g ∧ preemptDue s g ∧ ¬ entry ∧ c.hold ≠ .fence then doSwitch s g else s)

/-- DISPATCH_OFFER (R279). -/
def execDispatchOffer (g : Nat) (s : State) : Out :=
  inCore g (if !preemptMode s g && switchDue s g && (candidate s g).isSome then s.modCore g (fun c => { c with offer := true }) else s)

/-- THREAD_STOP (R65, R282). -/
def execThreadStop (g t : Nat) (s : State) : Out :=
  if g < 256 ∧ t < 256 then .next (stopThread s (256 * g + t)) else .fault .noSuchUnit

/-- CORE_RESET (R104): a write of KB_CORE_CTRL.RESET = 1. -/
def execCoreReset (g : Nat) (s : State) : Out :=
  inCore g (if s.inReset g then s.answer rspOk 0 else (coreReset s g).answer rspOk 0)

/-- CORE_RELEASE (R104): a write of KB_CORE_CTRL.RESET = 0. -/
def execCoreRelease (g : Nat) (s : State) : Out :=
  inCore g (if s.inReset g then (coreRelease s g).answer rspOk 0 else s.answer rspOk 0)

/-- HALT (R105). -/
def execCoreHalt (g : Nat) (s : State) : Out := inCore g ((setHalt s g).answer rspOk 0)

/-- HALT_CLEAR (R96, R103). -/
def execCoreHaltClear (g : Nat) (s : State) : Out := inCore g ((clearHalt s g).answer rspOk 0)

/-- STEP (R103). -/
def execCoreStep (g : Nat) (s : State) : Out := inCore g ((coreStep s g).answer rspOk 0)

/-- KB_SWI (R103): bit 0 raises line 22. -/
def execKbSwi (g : Nat) (s : State) : Out := inCore g ((setLine s g 22 true).answer rspOk 0)

/-! ## Debug access (R104) -/

/-- KB_DBG_SEL names a register. -/
def dbgOk (v : Nat) : Bool :=
  let i := fld v 5 0
  match fld v 7 6 with
  | 0 => decide (i < 32)
  | 1 => decide (i < 16)
  | 2 => decide (i < 16)
  | _ => decide (i ≤ 0x13)

/-- KB_DBG_DATA may be accessed. -/
def dbgAllowed (s : State) (g : Nat) : Bool := ((s.core g).halted || s.inReset g) && dbgOk (s.rd (kA g 0x10))

/-- The selected register. -/
def dbgRead (s : State) (g : Nat) : Nat :=
  let v := s.rd (kA g 0x10)
  let i := fld v 5 0
  let c := s.core g
  match fld v 7 6 with
  | 0 => c.gs i
  | 1 => c.ga i % 2 ^ 32
  | 2 => c.gm i
  | _ => ctlRead s g i (ipend s g)

/-- Write the selected register, control registers by the kernel's rules; a write of a read-only one is
discarded. -/
def dbgWrite (s : State) (g v : Nat) : State :=
  let d := s.rd (kA g 0x10)
  let i := fld d 5 0
  s.modCore g (fun c => match fld d 7 6 with
    | 0 => c.ss i v
    | 1 => c.sa i (setFld (c.ga i) 31 0 v)
    | 2 => c.sm i v
    | _ => c.ctlWrite true i v)

/-- DBG_DATA_READ (R104). -/
def execDbgDataRead (g : Nat) (s : State) : Out :=
  inCore g (if dbgAllowed s g then s.answer rspOk (dbgRead s g) else s.answer rspTgt 0)

/-- DBG_DATA_WRITE (R104). -/
def execDbgDataWrite (g val : Nat) (s : State) : Out :=
  inCore g (if dbgAllowed s g then (dbgWrite s g val).answer rspOk 0 else s.answer rspTgt 0)

/-! ## Clock points (R107) and tick messages (R99) -/

/-- A new point for stable `n`: what its cores have waited is accounted at the old one. -/
def setPoint (s : State) (n point : Nat) : State :=
  let s1 := (List.range 8).foldl (fun s k =>
    let g := 8 * n + k
    let c := s.core g
    if c.halted then (endHalt s g).modCore g (fun d => { d with halted := true })
    else if c.wfe then endWait s g false
    else match c.hold with
      | .none => s
      | .scoreboard => (endWait s g false).cnt (kA g 0x90) (waitedCycles s g)
      | .vswitch => s
      | _ => endWait s g true) s
  let a := stbRegs n + 0x8000
  (s1.wf a 1 0 point).wb a 8 (decide (point < s1.rf a 5 4))

/-- The highest Kubry point the derating level allows (R536). -/
def clockCap (s : State) : Nat :=
  match s.rf (shdRegs + 0x24) 2 0 with
  | 0 => 2
  | 1 => 1
  | 2 => 1
  | _ => 0

/-- The point stable `n` is to run at: REQ, or what the power manager holds it to (R106, R107). -/
def clockDue (s : State) (n : Nat) : Nat := min (s.rf (stbRegs n + 0x8000) 5 4) (clockCap s)

/-- CLOCK_POINT_CHANGE (R106, R107): CUR takes the point that is due. -/
def execClockPointChange (n point : Nat) (s : State) : Out :=
  if n < 32 then .next (if point = clockDue s n ∧ s.shedCur n ≠ 0 then setPoint s n point else s) else .fault .noSuchUnit

/-- A tick message at stable `n` (R99). -/
def stableTick (s : State) (n : Nat) (m : Tick) : State :=
  (List.range 8).foldl (fun s k =>
    let g := 8 * n + k
    if s.inReset g then s
    else
      let o := if m.train < 8 then 0 else 4
      let bits := s.rd (kA g (0xE0 + o)) &&& ((m.mask % 16) <<< (4 * (m.train % 8)))
      s.wr (kA g (0xE8 + o)) (s.rd (kA g (0xE8 + o)) ||| bits)) s

/-- STABLE_TICK_RECEIVE (R99, R301): the oldest tick message on its way to the stable. -/
def execStableTickReceive (n : Nat) (s : State) : Out :=
  if n < 32 then
    .next (match tget (fun _ => []) s.ticks (1 + n) with
      | [] => s
      | m :: t =>
        let s1 := { s with ticks := tset (fun _ => []) s.ticks (1 + n) t }
        if s1.shedReady n then stableTick s1 n m else s1)
  else .fault .noSuchUnit

/-! ## Hitch messages (R145, R151, R158, R159) -/

/-- HITCH_COMPLETION (R151): the oldest completion on its way to the hitch. -/
def execHitchCompletion (h : Nat) (s : State) : Out :=
  if h < 272 then
    .next (match tget noComps s.comps h with
      | [] => s
      | m :: t => hitchComp { s with comps := tset noComps s.comps h t } h m)
  else .fault .noSuchUnit

/-- HS_TIMEOUT (R159). -/
def execHsTimeout (h tag : Nat) (s : State) : Out :=
  if h < 272 ∧ tag < 64 then .next (hitchTimeout s h tag) else .fault .noSuchUnit

/-- Post and confirm through a Loft hitch (R162): the answer and the state after. A DESC or CTX that breaks R162
completes the tag by the hitch itself. -/
def htcPost (s : State) (c tag : Nat) : Nat × State :=
  let h := 256 + c
  let ctrl := s.rd (htcA c 0)
  let desc := s.rd (htcA c 4)
  let ctx := s.rd (htcA c 8)
  let bad := fun v => decide (fld v 31 30 ≠ 2 ∨ fld v 5 0 ≠ 0)
  if (s.tag h tag).st ≠ 0 ∨ 10 < fld ctrl 3 0 ∨ fld ctrl 15 12 ≠ 0 ∨ classCount (fld ctrl 3 0) ≤ fld ctrl 9 4 then (rspTgt, s)
  else
    let own := if bad desc then some 0x02 else if ctx ≠ 0 ∧ bad ctx then some 0x03 else none
    match own with
    | none => (rspOk, confirmTag (postTag s h tag ctrl desc ctx) h tag)
    | some st =>
      let x := s.tag h tag
      let gen := (x.gen + 1) % 16
      let due := if tb ctrl 11 then (gen, fld ctrl 31 16) :: x.evDue else x.evDue
      let s1 := s.setTag h tag { x with st := 2, gen := gen, ctrl := ctrl, conf := s.now, answer := none, own := some st, charge := 0, evDue := due }
      (rspOk, completeTag s1 h tag st 0)

/-- HTC_POST (R162). -/
def execHtcPost (c tag : Nat) (s : State) : Out :=
  if c < 16 ∧ tag < 64 then .next (let r := htcPost s c tag; r.2.answer r.1 0) else .fault .noSuchUnit

/-- HTC_FREE (R162). -/
def htcFree (s : State) (c tag : Nat) : Nat × State :=
  match (s.tag (256 + c) tag).st with
  | 0 => (rspOk, s)
  | 3 => (rspOk, freeTag s (256 + c) tag)
  | _ => (rspTgt, s)

def execHtcFree (c tag : Nat) (s : State) : Out :=
  if c < 16 ∧ tag < 64 then .next (let r := htcFree s c tag; r.2.answer r.1 0) else .fault .noSuchUnit

end Sys2Proof.Machine
end

