-- ==== Sys2Proof/Machine/Yardmaster.lean ====
section
/-! DEFINITION. The Yardmaster's commands but for ticks (R55, R61, R276-R289): kernel commands, software
activations, placement, commits and events; and its registers (R54, R67, R268, R285, R290, R291). -/

namespace Sys2Proof.Machine

/-! ## Kernel commands (R286, R287) -/

/-- Leave a kernel command's result in YM_K_RESULT: code, thread slot and FRESH. -/
def kResult (s : State) (g code slot : Nat) (fresh : Bool) : State :=
  s.wr (ykA g 0x10) (code + slot * 256 + b2n fresh * 2 ^ 16)

def yrOk : Nat := 0
def yrLate : Nat := 1
def yrWoken : Nat := 2
def yrNoarm : Nat := 3
def yrNone : Nat := 4
def yrBad : Nat := 5

/-- An activation runs on core `g` for which commands 0x01-0x05 may be given. -/
def kRunning (s : State) (g : Nat) : Bool := decide ((s.core g).run ≠ 0) && !(s.core g).left

/-- The running activation leaves the core: by the slice at the next boundary in PREEMPT mode, at once in
INTERRUPT mode, where the kernel has saved its context (R279, R281). -/
def leaveCore (s : State) (g : Nat) (save : Bool) : State :=
  s.modCore g (fun c => if preemptMode s g then { c with left := true, saveOut := save } else { c with run := 0 })

/-- END. -/
def kEnd (s : State) (g : Nat) : State :=
  if kRunning s g then kResult (leaveCore (endAct s (runThread s g) 0) g false) g yrOk 0 false
  else kResult s g yrBad 0 false

/-- YIELD. -/
def kYield (s : State) (g : Nat) : State :=
  if kRunning s g then
    let gt := runThread s g
    let mine := ((s.th gt).act.map Act.prio).getD 0
    let s1 := if (coreThreads s g).any (fun x => decide (x.2.1.st = 2 ∧ mine ≤ x.2.2.prio))
      then leaveCore (makeReady (recordUnspent s g gt) gt) g true else s
    kResult s1 g yrOk 0 false
  else kResult s g yrBad 0 false

/-- A wait word is well formed (R277); a hatch's receiver must be this core. -/
def waitOk (s : State) (g w : Nat) : Bool :=
  decide (fld w 15 2 = 0) &&
  (match fld w 1 0 with
    | 0 => true
    | 1 => decide (hatReceiver s (fld w 27 16) = g)
    | 2 => decide (fld w 27 24 ≠ 0)
    | _ => false)

/-- ARM (R277). -/
def kArm (s : State) (g : Nat) : State :=
  let w := s.rd (ykA g 8) % 2 ^ 32
  if kRunning s g && waitOk s g w then
    let gt := runThread s g
    let tr := fld w 19 16
    let full := decide (fld w 1 0 = 1) && hatFull s (fld w 27 16)
    kResult (s.setTh gt { s.th gt with
      armed := true, woken := full, wait := w, tickAt := seen s tr (fld w 21 20) + fld w 27 24 }) g yrOk 0 false
  else kResult s g yrBad 0 false

/-- BLOCK (R284). -/
def kBlock (s : State) (g : Nat) : State :=
  if kRunning s g then
    let gt := runThread s g
    let x := s.th gt
    if !x.armed then kResult s g yrNoarm 0 false
    else if x.woken then kResult s g yrWoken 0 false
    else
      let s1 := recordUnspent s g gt
      kResult (leaveCore (s1.setTh gt { s1.th gt with st := 4 }) g true) g yrOk 0 false
  else kResult s g yrBad 0 false

/-- OUT_DONE (R64): granted before the deadline tick of the output's task has been seen. -/
def kOutDone (s : State) (g : Nat) : State :=
  let arg := s.rd (ykA g 8)
  let bad := kResult s g yrBad 0 false
  if !kRunning s g then bad
  else
    match (s.th (runThread s g)).act with
    | none => bad
    | some a => match a.src with
      | .soft _ _ => bad
      | .plan p i k rep =>
        match findInst s p i with
        | none => bad
        | some x =>
          match (List.range (nOut s x.base)).find? (fun o => decide (peek s (outA s x.base o) 2 = fld arg 15 0)
              && (k :: rep.toList).contains (peek s (outA s x.base o + 2) 2)) with
          | none => bad
          | some o =>
            if x.outLate.contains o || x.past.contains (peek s (outA s x.base o + 2) 2) then kResult s g yrLate 0 false
            else
              let s1 := putStatus s x o (1 + 4 * b2n rep.isSome + 8 * b2n (tb arg 16))
              kResult (sweepInsts (modInst s1 p i (fun y => { y with outDone := if y.outDone.contains o then y.outDone else y.outDone ++ [o] })))
                g yrOk 0 false

/-- SIGNAL. -/
def kSignal (s : State) (g : Nat) : State :=
  kResult (signalEvent s (sliceEp (g / 8)) (s.rf (ykA g 8) 15 0)) g yrOk 0 false

/-- TAKE (R281): the candidate becomes RUNNING; an activation that still runs becomes READY (log 33). -/
def kTake (s : State) (g : Nat) : State :=
  if preemptMode s g then kResult s g yrBad 0 false
  else if !offerNow s g then kResult s g yrNone 0 false
  else
    match candidate s g with
    | none => kResult s g yrNone 0 false
    | some (gt, _, a) =>
      let s0 := if kRunning s g then makeReady (recordUnspent s g (runThread s g)) (runThread s g) else s
      let s1 := (s0.setTh gt { s0.th gt with st := 3, act := some { a with fresh := false } }).modCore g (fun c => { c with
        run := gt % 256, ctxptr := BitVec.ofNat 32 (s.rd (tdA gt 4)), offer := false, left := false, sample := a.budget })
      let vals := [a.s0, a.s1, a.s2, a.s3, a.id, a.budget, a.entry]
      let s2 := (List.range 7).foldl (fun s i => s.wr (ykA g (0x20 + 4 * i)) (vals.getD i 0)) s1
      kResult s2 g yrOk (gt % 256) a.fresh

/-- The kernel command of code `k` (R286). -/
def kCommand (s : State) (g k : Nat) : State :=
  match k with
  | 1 => kEnd s g
  | 2 => kYield s g
  | 3 => kArm s g
  | 4 => kBlock s g
  | 5 => kOutDone s g
  | 6 => kSignal s g
  | 7 => kTake s g
  | _ => kResult s g yrBad 0 false

/-- A command of core `g` to its kernel page (R285): answered RSP_TGT in thread mode. -/
def kPage (g : Nat) (f : State → State) (s : State) : Out :=
  inCore g (if (s.core g).km then (f s).answer rspOk 0 else s.answer rspTgt 0)

def execKEnd (g : Nat) (s : State) : Out := kPage g (fun s => kEnd s g) s
def execKYield (g : Nat) (s : State) : Out := kPage g (fun s => kYield s g) s
def execKArm (g : Nat) (s : State) : Out := kPage g (fun s => kArm s g) s
def execKBlock (g : Nat) (s : State) : Out := kPage g (fun s => kBlock s g) s
def execKOutDone (g : Nat) (s : State) : Out := kPage g (fun s => kOutDone s g) s
def execKSignal (g : Nat) (s : State) : Out := kPage g (fun s => kSignal s g) s
def execKTake (g : Nat) (s : State) : Out := kPage g (fun s => kTake s g) s

/-- KERNEL_BAD_COMMAND (R286): a code that is unknown or not allowed now has no effect but its result. -/
def execKernelBadCommand (g code : Nat) (s : State) : Out :=
  kPage g (fun s =>
    let r := kCommand s g (code % 256)
    if s.rd (ykA g 0x10) = r.rd (ykA g 0x10) ∨ r.rf (ykA g 0x10) 7 0 = yrBad then r else s) s

/-! ## Software activations (R288) -/

/-- A request record may lie here. -/
def recordOk (a : Nat) : Bool :=
  decide (a % 32 = 0) && (match regionOf a with
    | .barn _ => true
    | .xmem _ => true
    | .ymem _ => true
    | _ => false)

/-- The record's fields are in range, its thread BOUND and its train running. -/
def recordValid (s : State) (l : List Byte) : Bool :=
  decide (thKind s (le l 0 2) = 2 ∧ le l 8 4 ≠ 0 ∧ le l 12 1 < 16 ∧ le l 13 1 < 4 ∧ 1 ≤ le l 14 1 ∧ le l 14 1 ≤ 15
    ∧ (le l 20 2 < 4096 ∨ le l 20 2 = 0xFFFF)) && trainOn s (le l 12 1)

/-- Write the STATUS byte. -/
def actStatus (s : State) (a v : Nat) : State := (s.put ymEp (a + 3) (natLe 1 v)).2

/-- The request whose record lies at `a` (R288). -/
def ymAct (s : State) (a : Nat) : State :=
  let unread := fun (s : State) => s.cnt (ymRegs + 0x28) 1
  if !recordOk a then unread s
  else
    let f := s.fetch ymEp a 32
    let s1 := f.2.2
    let l := f.2.1
    if f.1 ≠ rspOk then unread s1
    else if !recordValid s1 l then actStatus (unread s1) a 4
    else
      let gt := le l 0 2
      let g := gt / 256
      let fl := if le l 20 2 = 0xFFFF then none else some (le l 20 2)
      let full := match fl with
        | some f => decide ((s1.flow f).depth ≤ (s1.flow f).held)
        | none => false
      let idle := decide ((s1.th gt).st = 1)
      if !idle || full then
        let s2 := if idle then s1.cnt (ymRegs + 0x3C) 1 else s1
        actStatus (s2.cnt (ymRegs + 0x24) 1) a 2
      else
        let x : Act := {
          id := 0, prio := s1.rf (tdA gt 0) 13 8, entry := le l 4 4, budget := le l 8 4, grant := le l 8 4, fresh := true,
          dlTrain := le l 12 1, dlLevel := le l 13 1, dlAt := seen s1 (le l 12 1) (le l 13 1) + le l 14 1,
          td := tdTime s1 (sTime s1) (le l 12 1) (le l 13 1) (le l 14 1), flow := fl,
          src := .soft (le l 16 4) (if tb (le l 2 1) 0 then some (fld (le l 22 2) 11 0) else none), s1 := 0, s2 := le l 16 4 }
        if !s1.rb ymRegs 0 ∨ !eligible s1 g ∨ !admits s1 g x.grant x.td then actStatus (s1.cnt (ymCoreA g 0x1C) 1) a 3
        else
          let s2 := bindAct s1 gt x
          let id := ((s2.th gt).act.map Act.id).getD 0
          actStatus ((s2.put ymEp (a + 24) (natLe 4 id)).2.cnt (ymRegs + 0x20) 1) a 1

/-- YM_ACT (R288): a write of endpoint `src`. -/
def execYmAct (src addr : Nat) (s : State) : Out :=
  let r := s.ni src ymEp
  .next (if r.1 = rspOk then (ymAct r.2 (addr % 2 ^ 44)).answer rspOk 0 else r.2.answer r.1 0)

/-! ## Plans, placement, events -/

/-- PLAN_COMMIT (R55). -/
def execPlanCommit (p : Nat) (s : State) : Out := if p < 256 then .next ((planCommit s p).answer rspOk 0) else .fault .noSuchUnit

/-- PLAN_CHECK_DONE (R55, R56). -/
def execPlanCheckDone (p : Nat) (s : State) : Out := if p < 256 then .next (planDone s p) else .fault .noSuchUnit

/-- TASK_PLACE (R61): the activation of `task` of an instance, if it is ready and unplaced. -/
def execTaskPlace (p inst task : Nat) (s : State) : Out :=
  match s.ym.place.find? (fun x => decide (x.p = p ∧ x.inst = inst ∧ x.task = task)) with
  | some pl => .next (if s.rb ymRegs 0 then sweepInsts (placeOne s pl) else s)
  | none => .next s

/-- YM_EVENT (R276): the oldest event on its way. -/
def execYmEvent (s : State) : Out :=
  .next (match s.ym.events with
    | [] => s
    | (_, n) :: t => applyEvent { s with ym := { s.ym with events := t } } n)

/-! ## Registers -/

/-- YM_CORE_STATUS of core `g` (R291). -/
def coreStatus (s : State) (g : Nat) : Nat :=
  let pool := ((List.range 256).filter (fun t => decide (thKind s (256 * g + t) = 1) && decide ((s.th (256 * g + t)).st = 1))).length
  (s.core g).run + ((coreThreads s g).filter (fun x => decide (x.2.1.st = 2))).length * 2 ^ 8 + min pool 255 * 2 ^ 16
    + b2n (eligible s g) * 2 ^ 24 + b2n (offerNow s g) * 2 ^ 25 + b2n (preemptMode s g && switchDue s g && deferred s g) * 2 ^ 26

/-- Reads of the central registers (R54, R290, R291). -/
def ymView (nm : String) (ix : List Nat) (a : Nat) (s : State) : Nat :=
  let i := ix.getD 0 0
  let f := s.flow (s.rf (ymRegs + 0x30) 11 0)
  match nm with
  | "YM_STATUS" => boundActs s
  | "YM_FLOW_CFG" => f.depth
  | "YM_FLOW_STATUS" => f.held + 128 * b2n f.service.isSome + 256 * f.service.getD 0
  | "YM_CORE_STATUS" => coreStatus s i
  | "YM_ACC_COMMIT" => commitNow s i
  | "YM_PLAN_CTRL" => s.rd a + 2 ^ 8 * inflight s i
  | _ => s.rd a

/-- The central block's own part of a register write (R54, R276, R288, R290, R291). -/
def ymWrite : WriteHook := fun nm ix v s s1 =>
  let i := ix.getD 0 0
  match nm with
  | "YM_EV_SIGNAL" => (rspOk, applyEvent s (v % 65536))
  | "YM_ACT" => (rspOk, ymAct s (v % 2 ^ 44))
  | "YM_FLOW_CFG" =>
    let f := s.rf (ymRegs + 0x30) 11 0
    let d := fld v 6 0
    if d = 0 ∨ 64 < d ∨ d < (s.flow f).held then (rspTgt, s) else (rspOk, s.setFlow f { s.flow f with depth := d })
  | "YM_CORE_CFG" =>
    if s.rf (ymCoreA i 0) 1 1 ≠ fld v 1 1 ∧ (s.rb (ymCoreA i 0) 0 ∨ coreThreads s i ≠ []) then (rspTgt, s) else (rspOk, s1)
  | _ => (rspOk, s1)

/-- The slice's reads in stable `n` (R268, R285). -/
def sliceView (n : Nat) (nm : String) (ix : List Nat) (a : Nat) (s : State) : Nat :=
  let g := 8 * n + ix.getD 0 0
  let gt := 256 * g + ix.getD 1 0
  let x := s.th gt
  match nm with
  | "YM_K_STATUS" => s.rd a + b2n (offerNow s g) + 4 * b2n (preemptMode s g && switchDue s g && deferred s g)
  | "YM_K_CUR" => if (s.core g).run = 0 then 0 else ((s.th (runThread s g)).act.map Act.id).getD 0
  | "YM_TD_STATE" => x.st + ((x.act.map Act.prio).getD 0) * 2 ^ 8 + b2n x.armed * 2 ^ 16 + b2n x.woken * 2 ^ 17
  | "YM_TD_ACTID" => (x.act.map Act.id).getD 0
  | "YM_TD_WAIT" => if x.armed then x.wait else 0
  | _ => s.rd a

/-- The slice's part of a write in stable `n` by `src` in mode `km` (R268, R285). -/
def sliceWrite (n src : Nat) (km : Bool) : WriteHook := fun nm ix v s s1 =>
  let g := 8 * n + ix.getD 0 0
  let t := ix.getD 1 0
  let gt := 256 * g + t
  let own := decide (src = coreEp g) && km
  let words := if t = 0 then s.inReset g else decide (thKind s gt = 0)
  match nm with
  | "YM_K_CMD" => if own then (rspOk, kCommand s g (v % 256)) else (rspTgt, s)
  | "YM_K_ARG" => if own then (rspOk, s1) else (rspTgt, s)
  | "YM_K_STATUS" => if own then (rspOk, s1) else (rspTgt, s)
  | "YM_TD_CFG" =>
    if t = 0 ∨ fld v 1 0 = 3 ∨ 2 ≤ (s.th gt).st then (rspTgt, s)
    else (rspOk, s1.setTh gt { s1.th gt with st := if fld v 1 0 = 0 then 0 else 1 })
  | "YM_TD_FRAME" => if words then (rspOk, s1) else (rspTgt, s)
  | "YM_TD_VSAVE" => if words then (rspOk, s1) else (rspTgt, s)
  | "YM_TD_TMASK_LO" => if words then (rspOk, s1) else (rspTgt, s)
  | "YM_TD_TMASK_HI" => if words then (rspOk, s1) else (rspTgt, s)
  | _ => (rspOk, s1)

/-! ## Core registers (R99, R103, R106, R141, R163) -/

/-- Reads of core `g`'s page. -/
def kbView (g : Nat) (nm : String) (ix : List Nat) (a : Nat) (s : State) : Nat :=
  let c := s.core g
  let r := s.inReset g
  let i := ix.getD 0 0
  let tags := fun (f : Nat → Bool) => ((List.range 64).filter (fun t => f (s.tag g t).st)).length
  match nm with
  | "KB_CORE_STATUS" =>
    b2n r + 2 * b2n (c.halted && !r) + 4 * b2n (c.wfe && !r) + 8 * b2n c.dfault + 16 * b2n c.km + 256 * c.lastCode
  | "KB_PC" => if c.halted && !r then c.pc else 0
  | "KB_DBG_DATA" => dbgRead s g
  | "KB_VEC_STATUS" => c.vcOwner + 2 ^ 9 * b2n c.dp.isSome + 2 ^ 10 * b2n (decide (c.hold = .vswitch)) + 2 ^ 16 * c.lastLost
  | "KB_HIT_STATUS" => tags (fun x => decide (x = 1 ∨ x = 2 ∨ x = 4)) + 2 ^ 8 * tags (fun x => decide (x = 3))
      + 2 ^ 16 * b2n (decide (c.hold = .scoreboard))
  | "KB_HIT_TAGINFO" =>
    let x := s.tag g (s.rf (kA g 0x78) 5 0)
    x.st + 8 * x.gen + (if x.st = 3 then 256 * (x.status % 256) else 0) + fld x.ctrl 3 0 * 2 ^ 16 + fld x.ctrl 9 4 * 2 ^ 20
  | "KB_HIT_GBASEg" => let x := s.guard g i; x.base + x.space * 2 ^ 18 + b2n x.armed * 2 ^ 31
  | "KB_HIT_GLENg" => let x := s.guard g i; x.len % 2 ^ 19 + x.tag * 2 ^ 20
  | _ => s.rd a

/-- The core's own part of a register write. -/
def kbWrite (g : Nat) : WriteHook := fun nm _ v s s1 =>
  match nm with
  | "KB_CORE_CTRL" =>
    let h := s.rb (kA g 0) 1
    let s2 := if tb v 1 && !h then setHalt s g else if !tb v 1 && h then clearHalt s g else s
    let s3 := if tb v 0 && !s.inReset g then coreReset s2 g else if !tb v 0 && s.inReset g then coreRelease s2 g else s2
    (rspOk, if tb v 2 && (s.core g).halted && !s.inReset g && !tb v 0 then
        (if (s3.core g).halted then coreStep s3 g else s3) else s3)
  | "KB_DBG_DATA" => if dbgAllowed s g then (rspOk, dbgWrite s g v) else (rspTgt, s)
  | "KB_SWI" => (rspOk, if tb v 0 then setLine s g 22 true else s)
  | "KB_VEC_CTRL" =>
    if !tb v 0 ∧ !tb v 1 then (rspOk, s)
    else if !vecDbgOk s g then (rspTgt, s)
    else
      let s2 := if tb v 0 then vecFlush s g else s
      (rspOk, if tb v 1 then vecReload s2 g else s2)
  | "KB_HIT_CFG" => if fld v 19 0 < 16 ∨ 1000000 < fld v 19 0 then (rspTgt, s) else (rspOk, s1)
  | _ => (rspOk, s1)

/-- KB_STB_CLK (R106, R107): a request takes effect at CLOCK_POINT_CHANGE. -/
def stbWrite (n src : Nat) (km : Bool) : WriteHook := fun nm ix v s s1 =>
  match nm with
  | "KB_STB_CLK" => if fld v 5 4 = 3 then (rspTgt, s) else (rspOk, s1)
  | _ => sliceWrite n src km nm ix v s s1

/-- Loft hitch registers (R162). -/
def htcView (nm : String) (ix : List Nat) (a : Nat) (s : State) : Nat :=
  match nm with
  | "HTC_STATUS_t" =>
    let x := s.tag (256 + ix.getD 0 0) (ix.getD 1 0)
    if x.st = 3 then x.status else 0xFFFFFF00 + x.st
  | _ => s.rd a

def htcWrite : WriteHook := fun nm ix v s s1 =>
  let c := ix.getD 0 0
  match nm with
  | "HTC_POST" => htcPost s c (fld v 5 0)
  | "HTC_FREE" => htcFree s c (fld v 5 0)
  | "HTC_CFG" => if fld v 19 0 < 16 ∨ 1000000 < fld v 19 0 then (rspTgt, s) else (rspOk, s1)
  | _ => (rspOk, s1)

end Sys2Proof.Machine
end

