-- ==== Sys2Proof/Machine/Barrow.lean ====
section
/-! DEFINITION. Barrow channels (R344-R363): programs and their slots, commands, waits, notices, halts and
interrupts. What a channel asks of the Yard and the fabric is in BarrowBus.lean. -/

namespace Sys2Proof.Machine

/-! ## Channels and groups (R344) -/

def chanDflt : Nat → Chan := fun _ => Chan.reset
def State.chan (s : State) (ch : Nat) : Chan := tget chanDflt s.chans ch
def State.setChan (s : State) (ch : Nat) (c : Chan) : State := { s with chans := tset chanDflt s.chans ch c }
def State.modChan (s : State) (ch : Nat) (f : Chan → Chan) : State := s.setChan ch (f (s.chan ch))

/-- Register `o` of channel `ch`. -/
def chA (ch o : Nat) : Nat := brwPage ch + o

/-- Group of a channel, 32 the system group. -/
def brwGroup (ch : Nat) : Nat := if ch < 512 then ch / 16 else 32

/-- STATE (R354): 0 IDLE, 1 RUN, 2 WAIT, 3 DRAIN, 4 HALTED. -/
def chSt (s : State) (ch : Nat) : Nat := s.rf (chA ch 0x10) 2 0
def setChSt (s : State) (ch st : Nat) : State := s.wf (chA ch 0x10) 2 0 st

def chPc (s : State) (ch : Nat) : Nat := s.rd (chA ch 0x18)
def chIter (s : State) (ch : Nat) : List Nat := (List.range 4).map (fun k => s.rd (chA ch (0x40 + 4 * k)))
def chCause (s : State) (ch : Nat) : Nat := s.rf (chA ch 0x28) 15 8

/-- Set PC, SO, DO and ITER. -/
def brwPoint (s : State) (ch pc so dd : Nat) (iter : List Nat) : State :=
  let s1 := ((s.wr (chA ch 0x18) (pc % 2 ^ 44)).wr (chA ch 0x30) (so % 2 ^ 64)).wr (chA ch 0x38) (dd % 2 ^ 64)
  (List.range 4).foldl (fun s k => s.wr (chA ch (0x40 + 4 * k)) (iter.getD k 0)) s1

/-- The channel's interrupt is asserted (R359). -/
def chIrq (s : State) (ch : Nat) : Bool := s.rb (chA ch 0x10) 8 || s.rb (chA ch 0x10) 9

/-- Change a channel's state or routing and let its interrupt follow (R359). -/
def withIrq (s : State) (ch : Nat) (f : State → State) : State :=
  let s1 := f s
  if ch < 512 then
    (List.range 8).foldl (fun s k =>
      setLine s (8 * (ch / 16) + k) (5 + ch % 16) (chIrq s ch && s.rb (chA ch 0) (8 + k))) s1
  else
    s1.rise (43 + (ch - 512)) (chIrq s ch && s.rb (chA ch 0) 8) (chIrq s1 ch && s1.rb (chA ch 0) 8)

/-! ## Flags (R350, R362) -/

def flagA (gr f : Nat) : Nat := brwGrp gr + f / 32 * 4
def brwFlag (s : State) (gr f : Nat) : Bool := s.rb (flagA gr f) (f % 32)
def setBrwFlag (s : State) (gr f : Nat) (b : Bool) : State := s.wb (flagA gr f) (f % 32) b

/-! ## Slots (R346-R351) -/

/-- A slot as the channel reads it. `absent` is a slot whose block is not fetched. -/
inductive BSlot where
  | absent
  | bad
  | nop
  | move (slots : Nat) (ofs : Bool) (src dst len0 n1 n2 : Nat) (sstr1 dstr1 sstr2 dstr2 : Int)
  | gather (ofs : Bool) (n list dst : Nat)
  | loop (k count : Nat) (target sinc dinc : Int)
  | wait (kind sel count : Nat) (rel clr mat : Bool) (sec ns value tmo : Nat)
  | signal (kind arg grp word : Nat) (retry : Bool)
  | stop
deriving DecidableEq, Repr

/-- Bytes `[o, o+n)` of a slot are reserved and 0. -/
def rsv (l : List Byte) (o n : Nat) : Bool := decide (le l o n = 0)

/-- MOVE (R347) with its second slot, if it has one. -/
def decMove (l : List Byte) (ext : Option (List Byte)) : BSlot :=
  let fl := le l 1 1
  let dim := fl % 4
  let len0 := le l 4 4
  let n1 := le l 24 4
  let n2 := le l 28 4
  let okHead := decide (dim < 3) && decide (fl / 8 = 0) && rsv l 2 2 && decide (0 < len0 ∧ len0 ≤ 2 ^ 24)
    && decide (0 < n1 ∧ n1 ≤ 2 ^ 24) && decide (0 < n2 ∧ n2 ≤ 2 ^ 24) && decide (dim = 0 → n1 = 1)
    && decide (dim < 2 → n2 = 1) && decide (len0 * n1 * n2 < 2 ^ 32)
  if !okHead then .bad
  else if dim = 0 then .move 1 (tb fl 2) (le l 8 8) (le l 16 8) len0 n1 n2 0 0 0 0
  else
    match ext with
    | none => .absent
    | some e =>
      if decide (le e 0 1 = 7) && rsv e 1 3 && rsv e 20 12 && (decide (dim = 2) || rsv e 12 8) then
        .move 2 (tb fl 2) (le l 8 8) (le l 16 8) len0 n1 n2 (sgn 32 (le e 4 4)) (sgn 32 (le e 8 4))
          (sgn 32 (le e 12 4)) (sgn 32 (le e 16 4))
      else .bad

/-- GATHER (R348). -/
def decGather (l : List Byte) : BSlot :=
  let n := le l 2 1
  if rsv l 3 1 && rsv l 4 4 && rsv l 24 8 && decide (le l 1 1 / 8 = 0 ∧ le l 1 1 % 4 = 0 ∧ 0 < n ∧ n ≤ 16) then
    .gather (tb (le l 1 1) 2) n (le l 8 8) (le l 16 8)
  else .bad

/-- LOOP (R349). -/
def decLoop (l : List Byte) : BSlot :=
  let t := sgn 32 (le l 8 4)
  if decide (le l 1 1 < 4) && rsv l 2 2 && rsv l 20 12 && decide (0 < le l 4 4) && decide (t < 0) then
    .loop (le l 1 1) (le l 4 4) t (sgn 32 (le l 12 4)) (sgn 32 (le l 16 4))
  else .bad

/-- WAIT (R350). -/
def decWait (l : List Byte) : BSlot :=
  let m := le l 1 1
  let kind := m % 4
  let sel := le l 2 2
  let count := le l 4 4
  let ns := le l 14 4
  let tmo := le l 24 4
  let okKind := match kind with
    | 0 => decide (sel < 64) && !tb m 2 && !tb m 4
    | 1 => decide (sel = 0) && !tb m 3 && !tb m 4 && (tb m 2 || decide (ns < 1000000000))
    | 2 => decide (sel < 64) && !tb m 2 && !tb m 3 && decide (0 < count ∧ count < 65536) && (!tb m 4 || decide (count = 1))
    | _ => false
  if okKind && decide (m < 32) && rsv l 22 2 && rsv l 28 4 && decide (tmo ≤ 1000000) then
    .wait kind sel count (tb m 2) (tb m 3) (tb m 4) (le l 8 6) ns (le l 18 4) tmo
  else .bad

/-- SIGNAL (R351). -/
def decSignal (l : List Byte) : BSlot :=
  let m := le l 1 1
  let kind := m % 4
  let arg := le l 2 2
  let grp := le l 4 1
  let okKind := match kind with
    | 0 => decide (arg < 4096)
    | 1 => decide (arg < 64) && decide (grp < 32 ∨ grp = 255) && !tb m 2
    | 2 => !tb m 2
    | _ => false
  if okKind && decide (m < 8) && rsv l 5 3 && rsv l 16 16 then .signal kind arg grp (le l 8 8) (tb m 2) else .bad

/-- A slot read from the fetched blocks at `pc`. -/
def slotBytes (blks : List (Nat × List Byte)) (pc : Nat) : Option (List Byte) :=
  (blks.find? (fun b => decide (b.1 = pc / 256 * 256))).map (fun b => sub b.2 (pc % 256) 32)

/-- The slot at `pc`. -/
def slotAt (blks : List (Nat × List Byte)) (pc : Nat) : BSlot :=
  match slotBytes blks pc with
  | none => .absent
  | some l =>
    match le l 0 1 with
    | 0 => .nop
    | 1 => decMove l (slotBytes blks ((pc + 32) % 2 ^ 44))
    | 2 => decGather l
    | 3 => decLoop l
    | 4 => decWait l
    | 5 => decSignal l
    | 6 => .stop
    | _ => .bad

/-- The transfer whose beats the channel is still issuing. -/
def curXfer (c : Chan) : Option Xfer :=
  match c.act.getLast? with
  | some x => if x.wr < x.total ∨ x.list.isSome then some x else none
  | none => none

/-- The channel is RUN and stands at a slot: every beat of the slots before it has been issued. -/
def atSlot (s : State) (ch : Nat) : Bool :=
  let c := s.chan ch
  decide (chSt s ch = 1) && (curXfer c).isNone && !c.ended && c.retry.isNone

/-- The slot the channel stands at, none if it is not at one. -/
def curSlot (s : State) (ch : Nat) : BSlot := if atSlot s ch then slotAt (s.chan ch).blks (chPc s ch) else .absent

/-! ## Halts (R355-R359) -/

/-- Write the halt record. -/
def haltRecord (s : State) (ch cause rsp addr elem ofs : Nat) : State :=
  (((s.wr (chA ch 0x20) (addr % 2 ^ 32)).wr (chA ch 0x24) (addr / 2 ^ 32 % 2 ^ 32)).wr (chA ch 0x28)
    (rsp % 8 + elem % 16 * 16 + cause * 256)).wr (chA ch 0x2C) ofs

/-- First byte of element `e` in a GATHER's packed output. -/
def elemBase (l : List (Nat × Nat)) (e : Nat) : Nat := ((l.take e).map (fun p => p.2)).sum

/-- Element that byte `o` of the packed output lies in. -/
def elemAt (l : List (Nat × Nat)) (o : Nat) : Nat :=
  (lowest l.length (fun e => decide (o < elemBase l (e + 1)))).getD l.length

/-- A channel with nothing outstanding halts: with the failure it met, or as STOPPED at the point it had
reached. PC, SO, DO and ITER return to the slot of the failed or unfinished transfer (DEDUCED, log 40). -/
def haltNow (s : State) (ch : Nat) : State :=
  let c := s.chan ch
  let cause := (c.fail.map BFail.cause).getD 1
  let x := match c.fail with
    | some f => c.act.find? (fun (x : Xfer) => decide (x.seq = f.seq))
    | none => curXfer c
  let s1 := match c.fail, x with
    | some f, some x =>
      let s0 := haltRecord s ch f.cause f.rsp f.addr f.elem (if x.gather then f.ofs else min f.ofs x.wr)
      (brwPoint s0 ch x.pc x.soff x.doff x.iter).wr (chA ch 0x14) (x.total - x.wr)
    | some f, none => haltRecord s ch f.cause f.rsp f.addr f.elem 0
    | none, some x =>
      let e := if x.gather then elemAt x.elems x.wr else 0
      let s0 := haltRecord s ch 1 0 0 e (if x.gather then elemBase x.elems e else x.wr)
      brwPoint s0 ch x.pc x.soff x.doff x.iter
    | none, none => haltRecord s ch 1 0 0 0 0
  let keep := match x with
    | some x => if x.gather ∧ cause ≠ 5 then x.elems else []
    | none => []
  let s2 := s1.setChan ch { Chan.reset with seq := c.seq, lastTick := c.lastTick, resume := some (0, 0, keep) }
  let s3 := { s2 with tickWaits := s2.tickWaits.filter (fun w => decide (w.ch ≠ ch)) }
  withIrq s3 ch (fun s =>
    let s4 := (setChSt s ch 4).wb (chA ch 0x10) (if cause = 3 then 8 else 9) true
    if cause = 1 then s4 else s4.wb (chA ch 0x10) 10 true)

/-- Stop issuing: DRAIN while responses are outstanding, else HALTED at once (R355). -/
def drainOrHalt (s : State) (ch : Nat) : State :=
  if (s.chan ch).out = [] then haltNow s ch else setChSt s ch 3

/-- Record a failure unless an earlier one in program order is recorded (R355). -/
def noteFail (s : State) (ch : Nat) (f : BFail) : State :=
  s.modChan ch (fun c => match c.fail with
    | some g => if f.seq < g.seq ∨ (f.seq = g.seq ∧ f.ofs < g.ofs) then { c with fail := some f } else c
    | none => { c with fail := some f })

/-- A failure of the slot the channel stands at. -/
def slotFail (s : State) (ch cause rsp addr : Nat) : State :=
  drainOrHalt (noteFail s ch ⟨cause, (s.chan ch).seq, 0, rsp, addr, 0⟩) ch

/-! ## Commands (R354, R358) -/

/-- Drop what the channel was doing. -/
def dropRun (s : State) (ch : Nat) : State :=
  let c := s.chan ch
  let s1 := s.setChan ch { Chan.reset with seq := c.seq, lastTick := c.lastTick }
  { s1 with tickWaits := s1.tickWaits.filter (fun w => decide (w.ch ≠ ch)) }

/-- START. -/
def brwStart (s : State) (ch : Nat) : State :=
  let s1 := haltRecord (dropRun s ch) ch 0 0 0 0 0
  setChSt (brwPoint s1 ch (s1.rd (chA ch 8)) 0 0 []) ch 1

/-- END completes (R352, R356, R359). -/
def endDone (s : State) (ch : Nat) : State :=
  withIrq (dropRun s ch) ch (fun s => (setChSt s ch 0).wb (chA ch 0x10) 8 true)

/-- END has been reached and every response has arrived (R352). -/
def endReady (s : State) (ch : Nat) : Bool :=
  decide (chSt s ch = 1) && (s.chan ch).ended && decide ((s.chan ch).out = [])

/-- RESUME (R358). -/
def brwResume (s : State) (ch : Nat) : State :=
  let l := match (s.chan ch).resume with | some (_, _, l) => l | none => []
  let c := chCause s ch
  let r := if c ≤ 4 then some (s.rd (chA ch 0x2C), s.rf (chA ch 0x28) 7 4, l) else none
  setChSt ((dropRun s ch).modChan ch (fun c => { c with resume := r })) ch 1

/-- CLEAR. -/
def brwClear (s : State) (ch : Nat) : State :=
  let s1 := haltRecord (dropRun s ch) ch 0 0 0 0 0
  setChSt ((brwPoint s1 ch (chPc s1 ch) 0 0 []).wr (chA ch 0x14) 0) ch 0

/-- A command of BRW_CH_CMD: its answer and effect (R354, R360). -/
def brwCmd (s : State) (ch cmd : Nat) : Nat × State :=
  let st := chSt s ch
  match cmd with
  | 1 => if st = 0 ∨ st = 4 then (rspOk, brwStart s ch) else (rspTgt, s)
  | 2 =>
    if endReady s ch then (rspTgt, endDone s ch)
    else if st = 1 ∨ st = 2 then (rspOk, drainOrHalt s ch)
    else (rspTgt, s)
  | 3 => if st = 4 ∧ chCause s ch ≠ 6 then (rspOk, brwResume s ch) else (rspTgt, s)
  | 4 => if st = 0 ∨ st = 4 then (rspOk, brwClear s ch) else (rspTgt, s)
  | _ => (rspTgt, s)

/-- A plan's START (R360). -/
def planStart (s : State) (ch : Nat) : State :=
  let r := brwCmd s ch 1
  if r.1 = rspOk then r.2 else s.cnt (chA ch 0x58) 1

/-- A plan's STOP at its last deadline (R65). -/
def planStop (s : State) (ch : Nat) : State := (brwCmd s ch 2).2

/-- Logic reset of a channel (R363). -/
def brwReset (s : State) (ch : Nat) : State :=
  { s with chans := tdrop (fun k => k == ch) s.chans, tickWaits := s.tickWaits.filter (fun w => decide (w.ch ≠ ch)) }

/-! ## Slots executed -/

/-- Continue at `pc`: what the first slot after a RESUME was given is used up. -/
def goSlot (s : State) (ch pc : Nat) : State :=
  (s.wr (chA ch 0x18) (pc % 2 ^ 44)).modChan ch (fun c => { c with seq := c.seq + 1, resume := none })

/-- MOVE begins at the channel's slot (R347, R358); its first byte is RESUME_OFS after a RESUME. -/
def beginMove (s : State) (ch : Nat) : State :=
  match curSlot s ch with
  | .move slots ofs src dst len0 n1 n2 a b c d =>
    let m := s.chan ch
    let so := s.rd (chA ch 0x30)
    let dd := s.rd (chA ch 0x38)
    let tot := len0 * n1 * n2
    let from' := match m.resume with | some (o, _, _) => min o tot | none => 0
    let x : Xfer :=
      { gather := false, slots := slots, seq := m.seq, pc := chPc s ch, soff := so, doff := dd, iter := chIter s ch,
        src := if ofs then (src + so) % 2 ^ 64 else src, dst := if ofs then (dst + dd) % 2 ^ 64 else dst,
        len0 := len0, n1 := n1, sstr1 := a, dstr1 := b, sstr2 := c, dstr2 := d, elems := [], list := none,
        total := tot, rd := from', wr := from' }
    let s1 := (s.modChan ch (fun c => { c with act := c.act ++ [x] })).wr (chA ch 0x14) (tot - from')
    goSlot s1 ch (chPc s ch + (if from' < tot then 0 else 32 * slots))
  | _ => s

/-- GATHER begins (R348): its list is to be read, but for one kept over a halt. -/
def beginGather (s : State) (ch : Nat) : State :=
  match curSlot s ch with
  | .gather ofs _ lst dst =>
    let m := s.chan ch
    let so := s.rd (chA ch 0x30)
    let dd := s.rd (chA ch 0x38)
    let r := match m.resume with | some (_, e, l) => (e, l) | none => (0, [])
    let tot := elemBase r.2 r.2.length
    let at' := elemBase r.2 r.1
    let x : Xfer :=
      { gather := true, slots := 1, seq := m.seq, pc := chPc s ch, soff := so, doff := dd, iter := chIter s ch,
        src := if ofs then so else 0, dst := if ofs then (dst + dd) % 2 ^ 64 else dst, len0 := 0, n1 := 0,
        sstr1 := 0, dstr1 := 0, sstr2 := 0, dstr2 := 0, elems := r.2, list := if r.2 = [] then some lst else none,
        total := tot, rd := at', wr := at' }
    let s1 := (s.modChan ch (fun c => { c with act := c.act ++ [x] })).wr (chA ch 0x14) (tot - at')
    goSlot s1 ch (chPc s ch)
  | _ => s

/-- LOOP (R349). -/
def doLoop (s : State) (ch : Nat) : State :=
  match curSlot s ch with
  | .loop k count target sinc dinc =>
    let so : Int := s.rd (chA ch 0x30)
    let dd : Int := s.rd (chA ch 0x38)
    let i0 := s.rd (chA ch (0x40 + 4 * k))
    let i := (if i0 = 0 then count else i0) - 1
    let s1 := s.wr (chA ch (0x40 + 4 * k)) i
    let put := fun (s : State) (a b : Int) => (s.wr (chA ch 0x30) (uns 64 a)).wr (chA ch 0x38) (uns 64 b)
    if i ≠ 0 then goSlot (put s1 (so + sinc) (dd + dinc)) ch (uns 44 ((chPc s ch : Nat) + 32 * target))
    else goSlot (put s1 (so - (count - 1 : Nat) * sinc) (dd - (count - 1 : Nat) * dinc)) ch (chPc s ch + 32)
  | _ => s

/-- NOP (R346). -/
def doNop (s : State) (ch : Nat) : State :=
  match curSlot s ch with
  | .nop => goSlot s ch (chPc s ch + 32)
  | _ => s

/-- A slot that halts the channel (R346). -/
def doErrProg (s : State) (ch : Nat) : State :=
  match curSlot s ch with
  | .bad => slotFail s ch 6 0 0
  | _ => s

/-- END is reached (R352). -/
def doEnd (s : State) (ch : Nat) : State :=
  match curSlot s ch with
  | .stop => s.modChan ch (fun c => { c with ended := true, seq := c.seq + 1, resume := none })
  | _ => s

/-- END_COMPLETE (R356). -/
def endComplete (s : State) (ch : Nat) : State := if endReady s ch then endDone s ch else s

/-! ## WAIT (R350) -/

/-- A WAIT or SIGNAL met while responses are outstanding holds at its fence (R352, R354); a channel that held
and has them all goes on. -/
def fenceHold (s : State) (ch : Nat) : Option State :=
  if chSt s ch = 2 ∧ (s.chan ch).wait.isNone then
    if (s.chan ch).out = [] then some (setChSt s ch 1) else none
  else some s

/-- WAIT begins, or holds at its fence. -/
def doWait (s : State) (ch : Nat) : State :=
  match fenceHold s ch with
  | none => s
  | some s0 =>
    match curSlot s0 ch with
    | .wait kind sel count rel clr mat sec ns value tmo =>
      if (s0.chan ch).out ≠ [] then setChSt s0 ch 2
      else
        let target := if rel then ((s0.chan ch).lastTick.getD (sTime s0)) + sgn 32 ns * nsU else sec * secU + ns * nsU
        let w : BWait := ⟨kind, sel, clr, target, s0.now, tmo⟩
        let s1 := setChSt (s0.modChan ch (fun c => { c with wait := some w })) ch 2
        if kind = 2 then
          { s1 with tickWaits := s1.tickWaits ++
            [⟨ch, 4 * (sel % 16) + sel / 16, count, if mat then some value else none, none⟩] }
        else s1
    | _ => s

/-- The wait of channel `ch` is over: it goes on behind the WAIT. -/
def waitDone (s : State) (ch : Nat) (tick : Option Int) : State :=
  let s1 := s.modChan ch (fun c => { c with wait := none, lastTick := if tick.isSome then tick else c.lastTick })
  let s2 := { s1 with tickWaits := s1.tickWaits.filter (fun w => decide (w.ch ≠ ch)) }
  goSlot (setChSt s2 ch 1) ch (chPc s2 ch + 32)

/-- A channel of the same group with a lower number waits with CLR for the same flag (R350). -/
def clrRival (s : State) (ch f : Nat) : Bool :=
  s.chans.any (fun p => decide (p.1 < ch ∧ brwGroup p.1 = brwGroup ch) && (match p.2.wait with
    | some w => w.clr && decide (w.kind = 0 ∧ w.sel = f)
    | none => false))

/-- Quantum at which a wait's timeout passes, if it has one. -/
def waitLimit (w : BWait) : Option Nat := if w.tmo = 0 then none else some (w.since + w.tmo * us)

/-- The condition of `w` holds by itself: what the next state is when it satisfies the channel's wait. -/
def satisfied (s : State) (ch : Nat) (w : BWait) : Option State :=
  match w.kind with
  | 0 =>
    if brwFlag s (brwGroup ch) w.sel && !(w.clr && clrRival s ch w.sel) then
      some (waitDone (if w.clr then setBrwFlag s (brwGroup ch) w.sel false else s) ch none)
    else none
  | 1 => if w.target ≤ sTime s then some (waitDone s ch none) else none
  | _ =>
    match s.tickWaits.find? (fun t => decide (t.ch = ch)) with
    | some t => if t.hit.isSome then some (waitDone s ch t.hit) else none
    | none => none

/-- WAIT_SATISFIED: for TIME, time passes until S reaches the target, unless the timeout comes first. -/
def waitSatisfied (s : State) (ch : Nat) : State :=
  match (s.chan ch).wait with
  | none => s
  | some w =>
    let s1 := if w.kind = 1 then untilS w.target 64 s else s
    if (match waitLimit w with | some t => decide (t < s1.now ∧ s.now < s1.now) | none => false) then s
    else (satisfied s1 ch w).getD s

/-- WAIT_TMO: the timeout passes with the condition not met, the channel halts. -/
def waitTmo (s : State) (ch : Nat) : State :=
  match (s.chan ch).wait with
  | none => s
  | some w =>
    match waitLimit w with
    | none => s
    | some t =>
      let s1 := s.until t
      if (satisfied s1 ch w).isSome then s
      else slotFail (s1.modChan ch (fun c => { c with wait := none })) ch 8 0 0

/-! ## SIGNAL (R351) -/

/-- The answer of a notice, what it was sent to, and the state after it. -/
def notice (s : State) (ch kind arg grp word : Nat) : Nat × Nat × State :=
  match kind with
  | 0 =>
    let r := s.ni (brwEp ch) hatEp
    let p := if r.1 = rspOk then hatchPost r.2 (brwEp ch) arg word else r
    let b := p.2.back (brwEp ch) hatEp p.1
    (b.1, hatA arg 0, b.2)
  | 1 => (rspOk, 0, setBrwFlag s (if grp = 255 then 32 else grp) arg true)
  | _ =>
    let r := s.ni (brwEp ch) ymEp
    let p := if r.1 = rspOk then (rspOk, applyEvent r.2 arg) else r
    let b := p.2.back (brwEp ch) ymEp p.1
    (b.1, ymRegs + 0x10, b.2)

/-- Send the notice of the SIGNAL at the channel's slot and act on its answer. -/
def sendNotice (s : State) (ch kind arg grp word : Nat) (retry : Bool) : State :=
  let r := notice s ch kind arg grp word
  if r.1 = rspOk then goSlot (r.2.2.modChan ch (fun c => { c with retry := none })) ch (chPc s ch + 32)
  else if r.1 = rspFull ∧ retry then r.2.2.modChan ch (fun c => { c with retry := some (r.2.2.now + 256 * 768) })
  else slotFail (r.2.2.modChan ch (fun c => { c with retry := none })) ch 7 r.1
    (s.rf (plRegs + 4) 19 0 * 2 ^ 44 + r.2.1)

/-- SIGNAL, or its hold at the fence (R352). -/
def doSignal (s : State) (ch : Nat) : State :=
  match fenceHold s ch with
  | none => s
  | some s0 =>
    match curSlot s0 ch with
    | .signal kind arg grp word retry =>
      if (s0.chan ch).out ≠ [] then setChSt s0 ch 2 else sendNotice s0 ch kind arg grp word retry
    | _ => s

/-- SIGNAL_RETRY: 256 Yard cycles after an answer RSP_FULL the post is repeated. -/
def signalRetry (s : State) (ch : Nat) : State :=
  match (s.chan ch).retry with
  | some t =>
    if chSt s ch = 1 then
      match slotAt (s.chan ch).blks (chPc s ch) with
      | .signal kind arg grp word retry => sendNotice (s.until t) ch kind arg grp word retry
      | _ => s
    else s
  | none => s

/-! ## Registers (R361, R362) -/

/-- Live value of a register of group `gr`; the CLR registers show the flags of the SET registers. -/
def brwView (nm : String) (a : Nat) (s : State) : Nat :=
  match nm with
  | "BRW_FLAG_CLR_LO" => s.rd (a - 8)
  | "BRW_FLAG_CLR_HI" => s.rd (a - 8)
  | _ => s.rd a

/-- A write to a Barrow register of group `gr`. -/
def brwWrite (gr : Nat) : WriteHook := fun nm ix v s s1 =>
  let ch := if gr = 32 then 512 + ix.getD 0 0 else 16 * gr + ix.getD 0 0
  let busy := decide (1 ≤ chSt s ch ∧ chSt s ch ≤ 3)
  let g := brwGrp gr
  match nm with
  | "BRW_CH_CFG" =>
    if busy then (rspTgt, s)
    else
      let s2 := if gr = 32 then s.wr (chA ch 0) (v &&& 0x103) else s1
      (rspOk, withIrq s ch (fun _ => s2))
  | "BRW_CH_PROG" => if busy || decide (v % 32 ≠ 0) then (rspTgt, s) else (rspOk, s1)
  | "BRW_CH_CMD" => brwCmd s ch (fld v 2 0)
  | "BRW_CH_STATUS" => (rspOk, withIrq s ch (fun _ => s1))
  | "BRW_FLAG_CLR_LO" => (rspOk, s.wr g (s.rd g &&& (0xFFFFFFFF - v % 2 ^ 32)))
  | "BRW_FLAG_CLR_HI" => (rspOk, s.wr (g + 4) (s.rd (g + 4) &&& (0xFFFFFFFF - v % 2 ^ 32)))
  | _ => (rspOk, s1)

/-! ## Meanings -/

/-- The answer of a command written to channel `ch`. -/
def brwCommand (ch cmd : Nat) (s : State) : Out :=
  if ch < 576 then .next (let r := brwCmd s ch cmd; r.2.answer r.1 0) else .fault .noSuchUnit

/-- An event of channel `ch`. -/
def brwEvent (f : State → Nat → State) (ch : Nat) (s : State) : Out :=
  if ch < 576 then .next (f s ch) else .fault .noSuchUnit

/-- R354. -/
def execBrwStart (ch : Nat) (s : State) : Out := brwCommand ch 1 s
/-- R354, R360. -/
def execBrwStop (ch : Nat) (s : State) : Out := brwCommand ch 2 s
/-- R358. -/
def execBrwResume (ch : Nat) (s : State) : Out := brwCommand ch 3 s
/-- R354. -/
def execBrwClear (ch : Nat) (s : State) : Out := brwCommand ch 4 s
/-- R347. -/
def execBrwMove (ch : Nat) (s : State) : Out := brwEvent beginMove ch s
/-- R348. -/
def execBrwGather (ch : Nat) (s : State) : Out := brwEvent beginGather ch s
/-- R349. -/
def execBrwLoop (ch : Nat) (s : State) : Out := brwEvent doLoop ch s
/-- R350, R352. -/
def execBrwWait (ch : Nat) (s : State) : Out := brwEvent doWait ch s
/-- R350. -/
def execWaitSatisfied (ch : Nat) (s : State) : Out := brwEvent waitSatisfied ch s
/-- R350. -/
def execWaitTmo (ch : Nat) (s : State) : Out := brwEvent waitTmo ch s
/-- R351, R352. -/
def execBrwSignal (ch : Nat) (s : State) : Out := brwEvent doSignal ch s
/-- R351. -/
def execSignalRetry (ch : Nat) (s : State) : Out := brwEvent signalRetry ch s
/-- R352. -/
def execBrwEnd (ch : Nat) (s : State) : Out := brwEvent doEnd ch s
/-- R346. -/
def execBrwNop (ch : Nat) (s : State) : Out := brwEvent doNop ch s
/-- R346. -/
def execErrProg (ch : Nat) (s : State) : Out := brwEvent doErrProg ch s
/-- R352, R356. -/
def execEndComplete (ch : Nat) (s : State) : Out := brwEvent endComplete ch s

end Sys2Proof.Machine
end

