-- ==== Sys2Proof/Machine/Shake.lean ====
section
/-! DEFINITION. SHAKE256 (FIPS 202) as the Tack room uses it (R502, R508-R510): Keccak-f[1600] on a list of 25
64-bit lanes, lane x + 5y first. -/

namespace Sys2Proof.Machine

def rotl64 (v n : Nat) : Nat := (v <<< n ||| v >>> (64 - n)) % 2 ^ 64

/-- Rotation offsets of the rho step. -/
def keccakRot : List Nat := [0, 1, 62, 28, 27, 36, 44, 6, 55, 20, 3, 10, 43, 25, 39, 41, 45, 15, 21, 8, 18, 2, 61, 56, 14]

/-- Round constants of the iota step. -/
def keccakRc : List Nat := [0x0000000000000001, 0x0000000000008082, 0x800000000000808A, 0x8000000080008000,
  0x000000000000808B, 0x0000000080000001, 0x8000000080008081, 0x8000000000008009,
  0x000000000000008A, 0x0000000000000088, 0x0000000080008009, 0x000000008000000A] ++
  [0x000000008000808B, 0x800000000000008B, 0x8000000000008089, 0x8000000000008003,
  0x8000000000008002, 0x8000000000000080, 0x000000000000800A, 0x800000008000000A,
  0x8000000080008081, 0x8000000000008080, 0x0000000080000001, 0x8000000080008008]

/-- One round. -/
def keccakRound (a : List Nat) (rc : Nat) : List Nat :=
  let g := fun (l : List Nat) i => l.getD i 0
  let c := (List.range 5).map (fun x => g a x ^^^ g a (x + 5) ^^^ g a (x + 10) ^^^ g a (x + 15) ^^^ g a (x + 20))
  let d := (List.range 5).map (fun x => g c ((x + 4) % 5) ^^^ rotl64 (g c ((x + 1) % 5)) 1)
  let e := (List.range 25).map (fun i => rotl64 (g a i ^^^ g d (i % 5)) (g keccakRot i))
  let b := (List.range 25).map (fun i => g e ((i % 5 + 3 * (i / 5)) % 5 + 5 * (i % 5)))
  (List.range 25).map (fun i =>
    let v := g b i ^^^ ((2 ^ 64 - 1 - g b ((i + 1) % 5 + i / 5 * 5)) &&& g b ((i + 2) % 5 + i / 5 * 5))
    if i = 0 then v ^^^ rc else v)

def keccak (a : List Nat) : List Nat := keccakRc.foldl keccakRound a

/-- Absorb whole 136-byte blocks. -/
def shakeAbsorb : Nat → List Nat → List Byte → List Nat
  | 0, a, _ => a
  | n + 1, a, l =>
    if l = [] then a
    else
      let w := (List.range 17).map (fun i => le l (8 * i) 8)
      shakeAbsorb n (keccak ((List.range 25).map (fun i => a.getD i 0 ^^^ w.getD i 0))) (l.drop 136)

/-- Squeeze `k` blocks. -/
def shakeSqueeze : Nat → List Nat → List Byte
  | 0, _ => []
  | k + 1, a => ((a.take 17).map (natLe 8)).flatten ++ shakeSqueeze k (keccak a)

/-- SHAKE256 of `l`, `n` bytes. -/
def shake256 (l : List Byte) (n : Nat) : List Byte :=
  let z := 135 - l.length % 136
  let pad := if z = 0 then [0x9F#8] else 0x1F#8 :: (List.replicate (z - 1) 0#8 ++ [0x80#8])
  (shakeSqueeze (n / 136 + 1) (shakeAbsorb (l.length / 136 + 2) (List.replicate 25 0) (l ++ pad))).take n

end Sys2Proof.Machine
end

