-- ==== Sys2Proof/Machine/EccCtl.lean ====
section
/-! DEFINITION. The ECC block's own side (R337-R343): the scrubber, injection and the registers. -/

namespace Sys2Proof.Machine

/-- Populated LPDDR5X size in bytes (R26, R494). -/
def ddrBytes (s : State) : Nat := 2 ^ 32 * 2 ^ s.rf lftRegs 2 1

/-- Words of controller `n` that a local address reaches (R324). -/
def ctlWords (s : State) (n : Nat) : Nat :=
  if n < 64 then 786432
  else if n < 96 then 8 * 40960
  else if n < 292 then
    let c := (List.range 11).foldl (fun m c => if classCtl c ≤ n then c else m) 0
    classBuf c / 16
  else if n < 296 then 262144
  else if n < 300 then 0
  else if n < 302 then ddrBytes s / 8 * 7 / 32
  else if n = 302 then 65536
  else 0

/-- Local address of word `i` of controller `n`, in ascending order, if it has one. -/
def ctlWord (s : State) (n i : Nat) : Option Nat :=
  if ctlWords s n ≤ i ∨ (292 ≤ n ∧ n < 300) then none
  else if n < 64 then some (n / 16 * 0x0C000000 + i / 16 * 4096 + n % 16 * 256 + i % 16 * 16)
  else if n < 96 then
    let g := 8 * (n - 64) + i / 40960
    let j := i % 40960
    some (imemBase g + (if j < 8192 then 16 * j else 0x20000 + 16 * j))
  else if n < 292 then
    let c := (List.range 11).foldl (fun m c => if classCtl c ≤ n then c else m) 0
    some (engBase c (n - classCtl c) + classStride c / 2 + 16 * i)
  else if n < 302 then some (ddrBase + i / 256 * 8192 + (n - 300) * 4096 + i % 256 * 16)
  else some (hltRegs + 0x800000 + 16 * i)

/-- Shed of controller `n`. -/
def ctlShed (n : Nat) : Nat :=
  if n < 64 then 40 + n / 16
  else if n < 96 then n - 64
  else if n < 292 then
    let c := (List.range 11).foldl (fun m c => if classCtl c ≤ n then c else m) 0
    accelShed c (n - classCtl c)
  else if n < 302 then shedLoft
  else if n = 302 then shedYard
  else if n < 319 then shedFh
  else shedPl

/-- What the scrubber does with the word at `w` (R337). -/
def scrubWord (s : State) (n w : Nat) : State :=
  match s.wordSt w with
  | .good => s
  | .poisoned => s
  | .fixed pos err syn => eccLog ((s.st w 16 (fixData w pos err (s.ld w 16))).setEcc w 0) n w pos syn true true
  | .bad => eccUe s n w 2 0xFFF

/-- The scrubber's next read (R337, R338): one word, once each period; none while it is disabled or its shed
is not ready. -/
def scrubRead (s : State) (n : Nat) : State :=
  let pos := s.rd (eccA n 0x28)
  if !s.rb (eccA n 0) 0 ∨ !s.shedReady (ctlShed n) ∨ tget noNat s.scrubDone n = 1 then s
  else
    let s1 := match ctlWord s n pos with
      | some w => scrubWord s n w
      | none => s
    if pos + 1 < ctlWords s n + Config.ramWords n then s1.wr (eccA n 0x28) (pos + 1)
    else { (s1.wr (eccA n 0x28) 0).cnt (eccA n 0x2C) 1 with scrubDone := tset noNat s1.scrubDone n 1 }
where
  noNat : Nat → Nat := fun _ => 0

/-- A scrub period ends (R338): a pass that is complete gives way to the next, one that is not is late. -/
def scrubPeriodEnd (s : State) (n : Nat) : State :=
  if !s.rb (eccA n 0) 0 then s
  else if tget (fun _ => 0) s.scrubDone n = 1 then { s with scrubDone := tset (fun _ => 0) s.scrubDone n 0 }
  else eccSet s n 4

/-! ## Registers (R339, R342) -/

def eccView (nm : String) (ix : List Nat) (a : Nat) (s : State) : Nat :=
  let n := ix.getD 0 0
  match nm with
  | "ECC_INT_MAPk" => (List.range 32).foldl (fun v j => v + b2n (eccFlagged s (32 * n + j) && decide (32 * n + j < 327)) * 2 ^ j) 0
  | "ECC_STATUS" =>
    s.rd a + 32 * b2n (s.rb (eccA n 0) 0 && decide (s.rd (eccA n 0x28) ≠ 0))
      + 2 ^ 16 * ((List.range 16).filter (fun e => s.rb (lgA n e + 8) 31)).length
  | _ => s.rd a

/-- A write of ECC_INJ_CTRL that sets ARM is turned away (R339). -/
def armRefused (n v : Nat) : Bool :=
  let lim := if n = 300 ∨ n = 301 then 137 else 36
  decide (fld v 19 16 = 0) || decide (lim ≤ fld v 15 8) || decide (lim ≤ fld v 27 20)
    || decide (fld v 31 28 ≠ 0 ∧ fld v 27 20 = fld v 15 8)

def eccWrite : WriteHook := fun nm ix v s s1 =>
  let n := ix.getD 0 0
  match nm with
  | "ECC_SCRUB_CFG" => if fld v 19 0 < 60 ∨ 1000000 < fld v 19 0 then (rspTgt, s) else (rspOk, s1)
  | "ECC_INJ_CTRL" => if tb v 0 && armRefused n v then (rspTgt, s) else (rspOk, s1)
  | _ => (rspOk, s1.rise 1 (eccIrq s) (eccIrq s1))

/-! ## Meanings -/

/-- R337. -/
def execScrubRead (n : Nat) (s : State) : Out := if n < 327 then .next (scrubRead s n) else .fault .noSuchUnit
/-- R339: a write that sets ARM and keeps the register's other fields. -/
def execEccInjectArm (n : Nat) (s : State) : Out :=
  if n < 327 then .next (s.regWriteBy eccWrite (eccA n 0x30) (setBit (s.rd (eccA n 0x30)) 0)) else .fault .noSuchUnit
/-- R338. -/
def execScrubPeriodEnd (n : Nat) (s : State) : Out := if n < 327 then .next (scrubPeriodEnd s n) else .fault .noSuchUnit

end Sys2Proof.Machine
end

