-- ==== Sys2Proof/Machine/Engine.lean ====
section
/-! DEFINITION. Accelerator engines apart from what their jobs compute: command queues (R147, R158, R161),
completions (R151, R157), reset and pause (R190, R191, R230), the slots of chained jobs (R187, R195), the
listen-before-talk units (R250-R253), burst channel enables (R255, R257) and the registers. -/

namespace Sys2Proof.Machine

def engDflt : Nat → Engine := fun _ => Engine.reset
def State.eng (s : State) (e : Nat) : Engine := tget engDflt s.engines e
def State.setEng (s : State) (e : Nat) (x : Engine) : State := { s with engines := tset engDflt s.engines e x }
def State.modEng (s : State) (e : Nat) (f : Engine → Engine) : State := s.setEng e (f (s.eng e))

/-- Register `o` of engine `e`. -/
def eA (e o : Nat) : Nat := engBase (engClass e) (engInst e) + o

/-- Start of engine `e`'s working buffer (R23). -/
def eBuf (e : Nat) : Nat := engBase (engClass e) (engInst e) + classStride (engClass e) / 2

/-- Shed of engine `e`. -/
def eShed (e : Nat) : Nat := accelShed (engClass e) (engInst e)

/-- The engine is held in reset by RESET or by its shed's hold (R191, R515). -/
def eHeld (s : State) (e : Nat) : Bool := s.rb (eA e 0) 0 || s.shedHeld (eShed e)

/-- Quanta of one engine cycle at the present derating level (R536): 1.2, 0.9 or 0.6 GHz. -/
def enginePeriod (s : State) : Nat :=
  match s.rf (shdRegs + 0x24) 2 0 with
  | 0 => 1280
  | 1 => 1280
  | 2 => 1707
  | 3 => 1707
  | _ => 2560

/-! ## Completions (R151, R157) -/

/-- The status word (R157). -/
def statusWord (status rsp : Nat) (sw : Bool) (summary : Nat) : Nat :=
  status % 256 + rsp % 8 * 2 ^ 8 + b2n sw * 2 ^ 11 + min summary 0xFFFF * 2 ^ 16

/-- Count a finished job of a hitch's command, or a chained one (R190). -/
def countJob (s : State) (e status rsp src : Nat) : State :=
  let s1 := s.cnt (eA e 8) 1
  if status = 0 then s1
  else (s1.cnt (eA e 0x14) 1).wr (eA e 0x18) (status % 256 + rsp % 8 * 2 ^ 8 + src % 4096 * 2 ^ 16)

/-- Engine `e` sends the completion of `j`. -/
def sendComp (s : State) (e : Nat) (j : EJob) (status rsp : Nat) (sw : Bool) (summary cyc : Nat) : State :=
  let s1 := countJob s e status rsp (hEp j.h)
  let c : Comp := ⟨eEp e, j.tag, j.gen, statusWord status rsp sw summary, cyc⟩
  { s1 with comps := tmod noComps s1.comps j.h (· ++ [c]) }

/-! ## The command queue (R147, R158, R161) -/

/-- ENGINE_POST: the oldest message on its way to `e`, if it is a POST, is queued or refused, and answered. -/
def enginePost (s : State) (e : Nat) : State :=
  match tget noMsgs s.hmsgs e with
  | .post h tag gen ctrl desc ctx :: rest =>
    let s1 := { s with hmsgs := tset noMsgs s.hmsgs e rest }
    let r := s1.ni (hEp h) (eEp e)
    let x := r.2.eng e
    let code := if r.1 ≠ rspOk then r.1 else if eHeld r.2 e then rspTgt else if 128 ≤ x.queue.length then rspFull else rspOk
    let s2 := if code = rspOk then
        let q : List EJob := x.queue ++ [⟨h, tag, gen, ctrl, desc, ctx, false⟩]
        r.2.setEng e { x with queue := q, doomed := x.doomed.filter (fun d => decide (d ≠ (h, tag, gen))) }
      else r.2
    let b := if r.1 = rspOk then s2.back (hEp h) (eEp e) code else (code, s2)
    let a : PostAns := ⟨tag, gen, b.1⟩
    { b.2 with postAns := tmod noAns b.2.postAns h (· ++ [a]) }
  | _ => s

/-- ENGINE_CONFIRM: the job's point of no return; a command that a reset has met completes HS_ABORT (R191). -/
def engineConfirm (s : State) (e : Nat) : State :=
  match tget noMsgs s.hmsgs e with
  | .confirm h tag gen :: rest =>
    let s1 := { s with hmsgs := tset noMsgs s.hmsgs e rest }
    let r := s1.niPosted (hEp h) (eEp e)
    if !r.1 then r.2
    else
      let x := r.2.eng e
      if x.doomed.contains (h, tag, gen) then
        sendComp (r.2.setEng e { x with doomed := x.doomed.filter (fun d => decide (d ≠ (h, tag, gen))) }) e ⟨h, tag, gen, 0, 0, 0, true⟩ 5 0 false 0 0
      else
        match x.queue.find? (fun (j : EJob) => decide (j.h = h ∧ j.tag = tag ∧ j.gen = gen) && !j.conf) with
        | some j =>
          let q : List EJob := x.queue.erase j ++ [{ j with conf := true }]
          r.2.setEng e { x with queue := q }
        | none => r.2
  | _ => s

/-- ENGINE_WITHDRAW: the matching POST is removed; one that finds none, or a reset engine, is discarded. -/
def engineWithdraw (s : State) (e : Nat) : State :=
  match tget noMsgs s.hmsgs e with
  | .withdraw h tag gen :: rest =>
    let s1 := { s with hmsgs := tset noMsgs s.hmsgs e rest }
    let r := s1.niPosted (hEp h) (eEp e)
    if !r.1 ∨ r.2.rb (eA e 0) 0 then r.2
    else
      let x := r.2.eng e
      let q := x.queue.filter (fun (j : EJob) => !(decide (j.h = h ∧ j.tag = tag ∧ j.gen = gen) && !j.conf))
      r.2.setEng e { x with queue := q }
  | _ => s

/-! ## Reset (R191, R187, R195, R230) -/

/-- The engine that keeps the slots of a chain between producer `p` and consumer `c`: the encoder's own buffer
for an encoder, the consumer's otherwise (R187, R195). -/
def slotOwner (p c : Nat) : Nat := if engClass p = 3 then p else c

/-- Release every slot that producer `p` holds with consumer `c` and forget what it has sent. -/
def dropChain (s : State) (p c : Nat) : State :=
  let s1 := s.modEng (slotOwner p c) (fun x => { x with grants := x.grants.filter (fun g => decide (g.2 ≠ p)) })
  let x := s1.eng c
  let q := x.chainQ.filter (fun (i : ChainIn) => decide (i.prod ≠ p))
  let mine := match x.run with
    | some r => (match r.chain with | some i => decide (i.prod = p) | none => false)
    | none => false
  s1.setEng c { x with chainQ := q, run := if mine then none else x.run }

/-- The running Hitch job of `e` ends HS_ABORT. -/
def abortRun (s : State) (e : Nat) : State :=
  match (s.eng e).run with
  | some r =>
    match r.job with
    | some j =>
      let s1 := if r.phase ≠ 0 then dropChain s e r.cons else s
      sendComp (s1.modEng e (fun x => { x with run := none, reports := [] })) e j 5 0 r.ctxSw 0 r.ctxCyc
    | none => s.modEng e (fun x => { x with run := none })
  | none => s

/-- Engines whose running job waits on consumer `e`. -/
def waitsOn (s : State) (e : Nat) : List Nat :=
  (s.engines.filter (fun p => match p.2.run with
    | some r => decide (r.phase ≠ 0 ∧ r.phase ≠ 5 ∧ r.cons = e) && r.job.isSome
    | none => false)).map (fun p => p.1)

/-- x_CTRL.RESET is set (R191). -/
def engineReset (s : State) (e : Nat) : State :=
  let s1 := abortRun s e
  let s2 := (waitsOn s1 e).foldl abortRun s1
  let x := s2.eng e
  let s3 := (x.queue.filter (fun (j : EJob) => j.conf)).foldl (fun s j => sendComp s e j 5 0 false 0 0) s2
  let lost := (x.queue.filter (fun (j : EJob) => !j.conf)).map (fun (j : EJob) => (j.h, j.tag, j.gen))
  s3.setEng e { Engine.reset with doomed := (s3.eng e).doomed ++ lost, recs := x.recs, chClr := x.chClr }

/-- x_CTRL.RESET is cleared: a HARQ engine clears the BUSY bit of each record it had set (R230). -/
def engineResetClear (s : State) (e : Nat) : State :=
  let s1 := (s.eng e).recs.foldl (fun s a =>
    let r := s.fetch (eEp e) a 8
    if r.1 = rspOk then (r.2.2.put (eEp e) a (natLe 8 (clrBit (leNat r.2.1) 15))).2 else r.2.2) s
  s1.modEng e (fun x => { x with recs := [] })

/-! ## Listen-before-talk (R250-R253) -/

def lbtDflt : Nat → Lbt := fun _ => Lbt.reset
def State.lbt (s : State) (c : Nat) : Lbt := tget lbtDflt s.lbts c
def State.setLbt (s : State) (c : Nat) (x : Lbt) : State := { s with lbts := tset lbtDflt s.lbts c x }

/-- Register `o` of sieve chain `c`. -/
def svA (c o : Nat) : Nat := engBase 9 c + o

/-- State of the unit: 0 IDLE, 1 DEFER, 2 COUNT, 3 ACQUIRED. -/
def lbtState (s : State) (c : Nat) : Nat := s.rf (svA c 0x4C) 2 0

/-- One step of the generator (R252). -/
def xorshift (u : Nat) : Nat :=
  let a := u ^^^ (u <<< 13) % 2 ^ 32
  let b := a ^^^ (a >>> 17)
  b ^^^ (b <<< 5) % 2 ^ 32

/-- START: N is drawn and the unit defers from its next sample on (R251, R252). -/
def lbtStart (s : State) (c : Nat) : State :=
  let u := xorshift (s.rd (svA c 0x44))
  let n := u * (s.rf (svA c 0x3C) 9 0 + 1) / 2 ^ 32
  ((s.wr (svA c 0x44) u).wr (svA c 0x4C) (1 + n * 16)).setLbt c Lbt.reset

/-- The unit returns to IDLE; N keeps its value. -/
def lbtIdle (s : State) (c : Nat) : State := ((s.wf (svA c 0x4C) 2 0 0).wf (svA c 0x4C) 18 16 0).setLbt c Lbt.reset

/-- ABORT. -/
def lbtAbort (s : State) (c : Nat) : State :=
  if lbtState s c = 0 then s else lbtIdle (s.cnt (svA c 0x58) 1) c

/-- RELEASE, and the end of the COT. -/
def lbtRelease (s : State) (c : Nat) : State := if lbtState s c = 3 then lbtIdle s c else s

/-- Entry to ACQUIRED with the COT starting at `t`: recorded, signalled and posted (R251). -/
def lbtAcquire (s : State) (c : Nat) (t : Int) : State :=
  let src := engEp 9 c
  let s1 := ((s.wrTime (svA c 0x5C) t).cnt (svA c 0x54) 1).wf (svA c 0x4C) 2 0 3
  let s2 := s1.setLbt c { Lbt.reset with acq := sTime s, cotEnd := t + (s1.rf (svA c 0x40) 15 0 : Nat) * 1000 * nsU }
  let cfg := s2.rd (svA c 0x30)
  let s3 := if tb cfg 1 then signalEvent s2 src (fld cfg 31 16) else s2
  if tb cfg 2 then
    let r := s3.ni src hatEp
    if r.1 = rspOk then (hatchPost r.2 src (fld cfg 15 4) (uns 44 (t / nsU))).2 else r.2
  else s3

/-- A command of SV_LBT_CMD (R251, R254). -/
def lbtCmd (s : State) (c v : Nat) : Nat × State :=
  match v % 8 with
  | 0 => (rspOk, s)
  | 1 => if s.rb (svA c 0x30) 0 ∧ lbtState s c = 0 then (rspOk, lbtStart s c) else (rspTgt, s)
  | 2 => (rspOk, lbtAbort s c)
  | 4 => (rspOk, lbtRelease s c)
  | _ => (rspTgt, s)

/-- COT_END: the corrected time reaches the end of the COT. -/
def cotEnd (s : State) (c : Nat) : State := lbtRelease s c

/-! ## Burst channels (R255, R257) -/

/-- Record of channel `j` of burst engine `i`. -/
def nbRec (i j : Nat) : Nat := engBase 10 i + 0x100000 + j * 0x800

/-- The channel's configuration keeps every range of R257. -/
def nbConfigOk (s : State) (i j : Nat) : Bool :=
  let l := s.bytes (nbRec i j) 64
  let mode := le l 0 1
  let lo := sgn 16 (le l 12 2)
  let hi := sgn 16 (le l 14 2)
  decide (mode ≤ 3) && decide (le l 3 1 ≤ 8) && decide (le l 6 1 ≤ 30) && decide (2 ≤ le l 9 1 ∧ le l 9 1 ≤ 16)
    && decide (le l 10 1 ≤ 8) && decide (1 ≤ le l 11 1 ∧ le l 11 1 ≤ 6) && decide (-255 ≤ lo ∧ lo ≤ 255)
    && decide (lo ≤ hi ∧ hi ≤ 255) && decide (le l 16 8 % 384 = 0) && decide (2 ≤ le l 24 2 ∧ le l 24 2 ≤ 1024)
    && decide (le l 26 2 / 2 ^ 12 % 8 = 0) && decide (le l 30 1 < 2) && decide (1 ≤ le l 31 1 ∧ le l 31 1 ≤ 64)
    && decide (le l 32 8 + le l 40 8 + le l 48 8 + le l 56 8 = 0)
    && (match mode with
        | 1 => decide (le l 1 1 < 32)
        | 2 => decide (le l 1 1 < 3)
        | 3 => decide (le l 1 1 < 8) && decide (le l 2 1 < 2)
        | _ => true)

/-- Enable channel `j` of burst engine `i`: its state is cleared at the next job boundary; a configuration that
breaks a range leaves the enable 0 and faults the channel. -/
def nbEnable (s : State) (i j : Nat) : State :=
  let a := engBase 10 i
  if nbConfigOk s i j then
    (s.wb (a + 0x2C + j / 32 * 4) (j % 32) true).modEng (engNum 10 i) (fun x => { x with chClr := x.chClr ++ [j] })
  else s.wb (a + 0x38 + j / 32 * 4) (j % 32) true

/-- A write of NB_CH_EN`k` (R255, R257, R265). -/
def nbEnWrite (s : State) (i k v : Nat) : State :=
  let a := engBase 10 i + 0x2C + 4 * k
  let old := s.rd a
  let s1 := s.wr a (old &&& v)
  (List.range 32).foldl (fun s j => if tb v j ∧ !tb old j then nbEnable s i (32 * k + j) else s) s1

/-! ## Registers (R190, R229, R254, R266) -/

/-- The engine whose registers lie at `a`. -/
def engOf (a : Nat) : Nat :=
  let c := (a - 0x02000000000) / 0x1000000
  engNum c (a % 0x1000000 / classStride c)

/-- Bits of the slots granted at an engine. -/
def grantBits (x : Engine) : Nat := x.grants.foldl (fun v g => v ||| 1 <<< g.1) 0

/-- The running job asks or waits for a slot. -/
def waitsSlot (x : Engine) : Bool := match x.run with | some r => decide (r.phase = 1 ∨ r.phase = 2) | none => false

def engView (nm : String) (a : Nat) (s : State) : Nat :=
  let e := engOf a
  let x := s.eng e
  let c := engClass e
  let hitch := match x.run with | some r => r.job.isSome | none => false
  match nm with
  | "x_STATUS" =>
    b2n (s.rb (eA e 0) 0) + 2 * b2n (s.rb (eA e 0) 1 && !hitch) + 4 * b2n x.run.isSome + 16 * min 128 x.queue.length
      + 2 ^ 12 * (if c = 0 then grantBits x else if c = 1 then b2n (waitsSlot x) else 0)
  | "x_CTXRES" => x.ctxs.length
  | "x_CHAINSTAT" => if c = 7 then b2n (waitsSlot x) else grantBits x
  | _ => s.rd a

/-- The engines' part of a register write. -/
def engWrite (a : Nat) : WriteHook := fun nm ix v s s1 =>
  let e := engOf a
  let i := engInst e
  match nm with
  | "x_CTRL" =>
    let was := s.rb (eA e 0) 0
    (rspOk, if tb v 0 ∧ !was then engineReset s1 e else if !tb v 0 ∧ was then engineResetClear s1 e else s1)
  | "SV_LBT_CFG" => if lbtState s i ≠ 0 ∧ tb v 0 ≠ s.rb a 0 then (rspTgt, s) else (rspOk, s1)
  | "SV_LBT_PRIO" => if lbtState s i ≠ 0 then (rspTgt, s) else (rspOk, s1)
  | "SV_LBT_CW" =>
    let p := s.rd (svA i 0x38)
    if fld v 9 0 < fld p 13 4 ∨ fld p 25 16 < fld v 9 0 then (rspTgt, s) else (rspOk, s1)
  | "SV_LBT_MCOT" => if fld v 15 0 = 0 ∨ 20000 < fld v 15 0 then (rspTgt, s) else (rspOk, s1)
  | "SV_LBT_SEED" => if v % 2 ^ 32 = 0 then (rspTgt, s) else (rspOk, s1)
  | "SV_LBT_CMD" => lbtCmd s i v
  | "SV_RAMPt_k" => if 0x8000 < fld v 15 0 ∨ 0x8000 < fld v 31 16 then (rspTgt, s) else (rspOk, s1)
  | "NB_CH_ENk" => (rspOk, nbEnWrite s i (ix.getD 0 0) v)
  | _ => (rspOk, s1)

/-! ## Meanings -/

def engEvent (f : State → Nat → State) (e : Nat) (s : State) : Out := if e < 196 then .next (f s e) else .fault .noSuchUnit

/-- R147, R158. -/
def execEnginePost (e : Nat) (s : State) : Out := engEvent enginePost e s
/-- R147, R191. -/
def execEngineConfirm (e : Nat) (s : State) : Out := engEvent engineConfirm e s
/-- R161. -/
def execEngineWithdraw (e : Nat) (s : State) : Out := engEvent engineWithdraw e s
/-- R191. -/
def execEngineReset (e : Nat) (s : State) : Out :=
  if e < 196 then .next (s.regWriteBy (engWrite (eA e 0)) (eA e 0) (setBit (s.rd (eA e 0)) 0)) else .fault .noSuchUnit
/-- R191, R230. -/
def execEngineResetClear (e : Nat) (s : State) : Out :=
  if e < 196 then .next (s.regWriteBy (engWrite (eA e 0)) (eA e 0) (clrBit (s.rd (eA e 0)) 0)) else .fault .noSuchUnit
/-- R190. -/
def execEnginePause (e : Nat) (s : State) : Out :=
  if e < 196 then .next (s.regWriteBy (engWrite (eA e 0)) (eA e 0) (setBit (s.rd (eA e 0)) 1)) else .fault .noSuchUnit

/-- A command written to SV_LBT_CMD of sieve chain `c`. -/
def lbtCommand (c v : Nat) (s : State) : Out :=
  if c < 64 then .next (s.regWriteBy (engWrite (svA c 0x48)) (svA c 0x48) v) else .fault .noSuchUnit

/-- R251, R252. -/
def execLbtStart (c : Nat) (s : State) : Out := lbtCommand c 1 s
/-- R251. -/
def execLbtAbort (c : Nat) (s : State) : Out := lbtCommand c 2 s
/-- R251. -/
def execLbtRelease (c : Nat) (s : State) : Out := lbtCommand c 4 s
/-- R251. -/
def execCotEnd (c : Nat) (s : State) : Out := if c < 64 then .next (cotEnd s c) else .fault .noSuchUnit
/-- R255, R257: the write that sets enable bit `j` of burst engine instance `e` and keeps the others. -/
def execNbChannelEnable (e j : Nat) (s : State) : Out :=
  if e < 8 ∧ j < 96 then
    let a := engBase 10 e + 0x2C + j / 32 * 4
    .next (s.regWriteBy (engWrite a) a (setBit (s.rd a) (j % 32)))
  else .fault .noSuchUnit

end Sys2Proof.Machine
end

