-- ==== Sys2Proof/Machine/Ethernet.lean ====
section
/-! DEFINITION. Ethernet MACs, receive side (R373-R385, R397, R399, R401): admission, classification, MACsec
validation, FRAME and PLACE queues, delivery and notices, received pause. -/

namespace Sys2Proof.Machine

def macDflt : Nat → Mac := fun _ => Mac.reset
def State.mac (s : State) (m : Nat) : Mac := tget macDflt s.macs m
def State.setMac (s : State) (m : Nat) (x : Mac) : State := { s with macs := tset macDflt s.macs m x }
def State.modMac (s : State) (m : Nat) (f : Mac → Mac) : State := s.setMac m (f (s.mac m))

/-- Register `o` of MAC `m`; of receive queue `q`; of cell entry `k`. -/
def macA (m o : Nat) : Nat := macBase m + o
def qA (m q o : Nat) : Nat := macBase m + 0x4000 + 0x40 * q + o
def cellA (m k o : Nat) : Nat := macBase m + 0x6000 + 0x40 * k + o

/-- Endpoint of MAC `m`, 32 being the management port. -/
def macEnd (m : Nat) : Nat := if m = 32 then mgmtEp else macEp m

/-- Set flag `i` of ETH_INT_STATUS (message sources 10-41 and 42). -/
def ethFlag (s : State) (m i : Nat) : State := s.flag (macA m 0x1018) (macA m 0x101C) (10 + m) i

/-- Counter `i` of R403's list. -/
def ethCnt (s : State) (m i : Nat) : State := s.cnt (macA m (0x1100 + 4 * i)) 1

def macLink (s : State) (m : Nat) : Bool := s.rb (macA m 0x1004) 0

/-- Time domain of port `m` (R418). -/
def macDom (s : State) (m : Nat) : Nat := s.rf (ctRegs + 0x10000 + m * 0x100) 0 0

/-- Receive queues, filter rules and transmit queues of MAC `m` (R378, R380, R386, R499). -/
def nQueues (m : Nat) : Nat := if m = 32 then 8 else 64
def nRules (m : Nat) : Nat := if m = 32 then 64 else 512
def nTxqs (m : Nat) : Nat := if m = 32 then 2 else 8

/-- First device lane of MAC `m` within its port, and its lanes (R374). -/
def macLane0 (m : Nat) : Nat := if m % 2 = 0 then 0 else 2
def macLaneCount (s : State) (m : Nat) : Nat :=
  if m % 2 = 0 then [0, 1, 2, 4].getD (s.rf (ethPort (m / 2)) 17 16) 0 else [0, 1, 2, 0].getD (s.rf (ethPort (m / 2)) 19 18) 0

/-- Lane mode of MAC `m` (R373). -/
def macMode (s : State) (m : Nat) : Nat :=
  if m = 32 then 1 else s.rf (ethPort (m / 2)) (4 * macLane0 m + 3) (4 * macLane0 m)

/-- Receive timestamp (R418): the capture to 31.25 ps in the port's domain, compensated. -/
def rxStamp (s : State) (m q : Nat) : Int :=
  let d := macDom s m
  let x := domTime { s with now := q } d
  let a := ctRegs + 0x10000 + m * 0x100
  x / (nsU / 32) * (nsU / 32)
    - ((Config.rxFix m).toNat + sgn 32 (s.rd (a + 0x10)) + sgn 32 (s.rd (a + 0x18))) * fracU

/-! ## Frames (R376) -/

/-- The VLAN tags of a frame: number of tag bytes, outer VID and PCP. -/
def frameTags (b : List Byte) : Nat × Nat × Nat :=
  let t := be b 12 2
  let tci := be b 14 2
  if t = 0x88A8 then (if be b 16 2 = 0x8100 then 8 else 4, tci % 4096, tci / 8192)
  else if t = 0x8100 then (4, tci % 4096, tci / 8192)
  else (0, 0, 0)

def frameEtype (b : List Byte) : Nat := be b (12 + (frameTags b).1) 2

/-- Offset of what follows the EtherType. -/
def frameOfs (b : List Byte) : Nat := 14 + (frameTags b).1

/-! ## Classification (R378, R379) -/

/-- Bytes of filter rule `r`. -/
def ruleBytes (s : State) (m r : Nat) : List Byte :=
  (List.range 4).flatMap (fun i => natLe 4 (s.rd (macA m (0x2000 + 16 * r + 4 * i))))

/-- Does rule `r` match the frame? -/
def ruleMatches (s : State) (m r : Nat) (b : List Byte) : Bool :=
  let x := ruleBytes s m r
  let f := le x 12 1
  let t := frameTags b
  let tagged := decide (t.1 ≠ 0)
  let same := fun (v w k : Nat) => decide ((v ^^^ w) &&& k = 0)
  let o := frameOfs b
  let mt := be b (o + 1) 1
  tb f 7 && (!tb f 0 || (tagged && same t.2.1 (le x 0 2 % 4096) (le x 2 2 % 4096)))
    && (!tb f 1 || (tagged && same t.2.2 (le x 4 1 % 8) (le x 5 1 % 8)))
    && (!tb f 2 || decide (frameEtype b = le x 6 2))
    && (!tb f 3 || (decide (frameEtype b = 0xAEFE) && (decide (mt = 0) || decide (mt = 2))
      && same (be b (o + 4) 2) (le x 8 2) (le x 10 2)))
    && (!tb f 4 || !tagged)

/-- What classification decides: queue and rule index, drop by rule, or no match. -/
inductive Class where
  | queue (q r : Nat)
  | drop
  | none
deriving DecidableEq, Repr

def classify (s : State) (m : Nat) (b : List Byte) : Class :=
  match lowest (nRules m) (fun r => ruleMatches s m r b) with
  | some r =>
    let a := le (ruleBytes s m r) 13 1
    if tb a 6 then .drop else .queue (a % 64) r
  | none =>
    let c := s.rd (macA m 0x1000)
    if tb c 1 then .queue (fld c 7 2) 0 else .none

/-! ## MACsec validation (R399) -/

/-- Register `o` of receive SA `i` (index 4 * channel + AN). -/
def rxSaA (m i o : Nat) : Nat := macA m (0xA800 + 0x20 * i + o)

/-- The SA a SecTAG names: its channel enabled with that SCI, and the SA enabled. -/
def secSa (s : State) (m : Nat) (t : SecTag) : Option Nat :=
  match lowest 32 (fun c => s.rb (macA m (0xA208 + 0x10 * c)) 0 && decide (s.rd (macA m (0xA200 + 0x10 * c)) = t.sci)) with
  | some c => if s.rb (rxSaA m (4 * c + t.an % 4) 0) 0 then some (4 * c + t.an % 4) else none
  | none => none

/-- MACsec on receive: whether the frame passes, the bytes that go on, whether they were verified, the state. -/
def secReceive (s : State) (m : Nat) (f : RxFrame) : Bool × List Byte × Bool × State :=
  let c := s.rd (macA m 0xA000)
  let v := fld c 2 1
  if !tb c 0 ∨ v = 0 ∨ m = 32 then (true, f.bytes, false, s)
  else match f.sec with
    | none => (decide (v ≠ 2), f.bytes, false, s)
    | some t => match secSa s m t with
      | none => (decide (v ≠ 2), f.bytes, false, s)
      | some i =>
        let low := s.rd (rxSaA m i 8) + s.rd (rxSaA m i 0xC) * 2 ^ 32
        if !t.icvOk ∨ (tb c 3 ∧ t.pn < low) then (false, f.bytes, false, s)
        else
          let n := max low (t.pn + 1 - s.rf (macA m 0xA004) 29 0)
          (true, t.plain, true,
            ((s.wr (rxSaA m i 8) (n % 2 ^ 32)).wr (rxSaA m i 0xC) (n / 2 ^ 32)).cnt (rxSaA m i 0x10) 1)

/-! ## Decompression (R382) -/

/-- Bits `[o, o + w)` of a byte string, the most significant bit of each byte first. -/
def bitsAt (l : List Byte) (o w : Nat) : Nat :=
  let n := (o + w + 7) / 8 - o / 8
  (be l (o / 8) n >>> ((n * 8 - (o % 8 + w)))) % 2 ^ w

/-- Round half to even of `x / 2^k`. -/
def rneShift (x : Int) (k : Nat) : Int :=
  let q := x / (2 ^ k : Nat)
  let r := x - q * (2 ^ k : Nat)
  if r * 2 > (2 ^ k : Nat) ∨ (r * 2 = (2 ^ k : Nat) ∧ q % 2 = 1) then q + 1 else q

/-- Width in bits of a compressed component: 0 stands for 16. -/
def compWidth (hdr : Nat) : Nat := if hdr / 16 % 16 = 0 then 16 else hdr / 16 % 16

/-- Bytes of a compressed block of 12 samples under `hdr` = udCompHdr. -/
def blockBytes (hdr : Nat) : Nat :=
  match hdr % 16 with
  | 0 => 48
  | 1 => 1 + 3 * compWidth hdr
  | 3 => 1 + 3 * compWidth hdr
  | _ => 3 * compWidth hdr

/-- Methods a MAC receives. -/
def rxMethod (hdr : Nat) : Bool :=
  let w := compWidth hdr
  match hdr % 16 with
  | 0 => decide (w = 16)
  | 1 => decide (w = 9 ∨ w = 12 ∨ w = 14)
  | 3 => decide (8 ≤ w ∧ w ≤ 12)
  | _ => false

/-- A block of 12 samples expanded to ci16, and the saturations met. -/
def expandBlock (hdr shift : Nat) (l : List Byte) : List Byte × Nat :=
  let w := compWidth hdr
  let o := if hdr % 16 = 0 then 0 else 8
  let p := le l 0 1
  (List.range 24).foldl (fun (r : List Byte × Nat) i =>
    let m := bitsAt l (o + i * w) w
    match hdr % 16 with
    | 0 => (r.1 ++ natLe 2 m, r.2)
    | 1 =>
      let v := rneShift (sgn w m * (2 ^ (p % 16) : Nat)) shift
      let x := satS 16 v
      (r.1 ++ natLe 2 (uns 16 x), r.2 + b2n (decide (x ≠ v)))
    | _ => (r.1 ++ natLe 2 (Config.muExpand w p m).toNat, r.2)) ([], 0)

/-- `n` consecutive blocks. -/
def expand (hdr shift : Nat) (l : List Byte) (n : Nat) : List Byte × Nat :=
  (List.range n).foldl (fun (r : List Byte × Nat) i =>
    let b := expandBlock hdr shift ((l.drop (i * blockBytes hdr)).take (blockBytes hdr))
    (r.1 ++ b.1, r.2 + b.2)) ([], 0)

/-! ## PLACE queues (R382-R384) -/

/-- Base address of queue `q`. -/
def qBase (s : State) (m q : Nat) : Nat := s.rd (qA m q 4) + s.rd (qA m q 8) * 2 ^ 32

/-- Absolute cycle of train `t` at the present S. -/
def trainNow (s : State) (t : Nat) : Int := (sTime s - trainOfs s t) / cycU

/-- Subframe number (10 * SFN + subframe) of train `t` now, modulo 10,240. -/
def subframeNow (s : State) (t : Nat) : Nat := (trainNow s t / (subframeC : Nat) % 10240).toNat

/-- Why a PLACE frame is dropped. -/
inductive PlaceErr where
  | limit
  | window
deriving DecidableEq, Repr

/-- A placement: writes (address, bytes) and saturations. -/
abbrev Placed := Except PlaceErr (List (Nat × List Byte) × Nat)

/-- Place ci16 samples of stream `st` from sample index `idx` of a subframe (R383). -/
def placeTd (s : State) (m q st idx : Nat) (l : List Byte) : List (Nat × List Byte) :=
  let ring := max 1 (s.rf (qA m q 0xC) 15 0)
  let base := qBase s m q + st * s.rd (qA m q 0x10)
  (List.range (l.length / 4)).map (fun i => (base + 4 * ((idx + i) % ring), sub l (4 * i) 4))

/-- A PLACE_TD payload (R383), `p` being the eCPRI payload after PC_ID and SEQ_ID. -/
def tdPayload (s : State) (m q st : Nat) (p : List Byte) : Placed :=
  let c := s.rd (qA m q 0)
  let hdr := if tb c 3 then fld c 23 16 else le p 6 1
  let idx := le p 0 4
  let fr := le p 4 2
  let body := p.drop 8
  let n := body.length / blockBytes hdr
  if p.length < 8 ∨ !rxMethod hdr ∨ body.length % blockBytes hdr ≠ 0 ∨ s.rd (qA m q 0x14) ≤ idx ∨ 10 ≤ fld fr 13 10 then
    .error .limit
  else
    let now := subframeNow s (fld c 15 12)
    let sf := fld fr 9 0 * 10 + fld fr 13 10
    if sf ≠ now ∧ sf ≠ (now + 10239) % 10240 then .error .window
    else
      let x := expand hdr (fld c 6 4) body n
      .ok (placeTd s m q st idx x.1, x.2)

/-- Sections of a PLACE_FD message (R384), `g` the symbol within the frame. -/
def fdSections (s : State) (m q st g : Nat) : Nat → List Byte → Placed
  | 0, _ => .error .limit
  | n + 1, p =>
    if p = [] then .ok ([], 0)
    else
      let c := s.rd (qA m q 0)
      let geom := s.rd (qA m q 0xC)
      let h := be p 0 4
      let nPrb := fld geom 24 16
      let start := fld h 17 8
      let num := if fld h 7 0 = 0 then nPrb - start else fld h 7 0
      let o := if tb c 3 then 4 else 6
      let hdr := if tb c 3 then fld c 23 16 else le p 4 1
      let bytes := num * blockBytes hdr
      if p.length < o + bytes ∨ tb h 19 ∨ tb h 18 ∨ !rxMethod hdr ∨ nPrb < start + num ∨ num = 0 then .error .limit
      else
        let x := expand hdr (fld c 6 4) (p.drop o) num
        let a := qBase s m q + g % (max 1 (fld geom 7 0)) * s.rd (qA m q 0x14) + st * s.rd (qA m q 0x10) + 48 * start
        match fdSections s m q st g n (p.drop (o + bytes)) with
        | .ok r => .ok ((a, x.1) :: r.1, x.2 + r.2)
        | .error e => .error e

/-- An O-RAN U-plane message for a PLACE_FD queue (R384). -/
def fdPayload (s : State) (m q st : Nat) (p : List Byte) : Placed :=
  let f := trainFmt s (s.rf (qA m q 0) 15 12)
  let b0 := be p 0 1
  let h := be p 2 2
  let nsym := symsPerSlot f
  let slots := if f = 11 then 1 else ((fmtShape f).1 * 2) / max 1 nsym
  let g := (fld h 15 12 * slots + fld h 11 6) * nsym + fld h 5 0
  if p.length < 4 ∨ tb b0 7 ∨ fld b0 6 4 ≠ 1 then .error .limit
  else fdSections s m q st g 64 (p.drop 4)

/-- What a PLACE queue makes of a frame (R382). -/
def placeFrame (s : State) (m q kind : Nat) (b : List Byte) : Placed :=
  let o := frameOfs b
  let size := be b (o + 2) 2
  let pc := be b (o + 4) 2
  let st := pc - s.rf (qA m q 0x18) 15 0
  if frameEtype b ≠ 0xAEFE ∨ be b o 1 / 16 ≠ 1 ∨ be b o 1 % 2 ≠ 0 ∨ be b (o + 1) 1 ≠ 0 ∨ b.length < o + 4 + size ∨ size < 4
    ∨ pc < s.rf (qA m q 0x18) 15 0 ∨ s.rf (qA m q 0x18) 22 16 ≤ st then .error .limit
  else
    let p := (b.drop (o + 8)).take (size - 4)
    if kind = 2 then tdPayload s m q st p else fdPayload s m q st p

/-- Write a placement, count its saturations and note the delivery to come. -/
def placeWrite (s : State) (m q : Nat) (w : List (Nat × List Byte)) (sat : Nat) (stamp : Int) : State :=
  let s1 := w.foldl (fun s p => s.putPostedAll (macEnd m) p.1 p.2) s
  let s2 := (s1.cnt (macA m 0x1120) sat).cnt (macA m 0x1100) 1
  s2.modMac m (fun x => { x with done := x.done ++ [⟨q, s2.now + 2 * us, [], stamp⟩] })

/-! ## FRAME queues (R380, R381) -/

def qHead (s : State) (m q : Nat) : Nat := s.rd (qA m q 0x20)
def qEntries (s : State) (m q : Nat) : Nat := max 2 (s.rf (qA m q 0xC) 15 0)
def qSlot (s : State) (m q : Nat) : Nat := 2048 * 2 ^ s.rf (qA m q 0xC) 17 16

/-- Frames written to queue `q` whose HEAD advance is still to come. -/
def qComing (s : State) (m q : Nat) : Nat :=
  ((s.mac m).done.filter (fun (d : RxDone) => decide (d.q = q) && !d.bytes.isEmpty)).length

/-- Slot the next frame goes to. -/
def qNext (s : State) (m q : Nat) : Nat := (qHead s m q + qComing s m q) % qEntries s m q

/-- Free slots of the ring. -/
def qFree (s : State) (m q : Nat) : Nat :=
  let n := qEntries s m q
  (n - 1) - (qNext s m q + n - s.rd (qA m q 0x24) % n) % n

/-- Pause the class of a FRAME queue whose free slots fall to XOFF (R397). -/
def qPause (s : State) (m q : Nat) : State :=
  let p := s.rd (qA m q 0x30)
  if fld p 15 0 ≠ 0 ∧ s.rf (macA m 0x100C) 1 0 ≠ 0 ∧ qFree s m q ≤ fld p 15 0 ∧ !(s.mac m).xoff.contains q then
    (s.modMac m (fun x => { x with xoff := x.xoff ++ [q] })).emit (.pause m (s.rf (qA m q 0) 26 24) true)
  else s

/-- Release it when they reach XON. -/
def qResume (s : State) (m q : Nat) : State :=
  if (s.mac m).xoff.contains q ∧ s.rf (qA m q 0x30) 31 16 ≤ qFree s m q then
    (s.modMac m (fun x => { x with xoff := x.xoff.filter (· ≠ q) })).emit (.pause m (s.rf (qA m q 0) 26 24) false)
  else s

/-- A timestamp in the order fraction, nanoseconds, seconds (12 bytes). -/
def stampBytes (x : Int) : List Byte :=
  let t := timeParts x
  natLe 2 t.2.2 ++ natLe 4 t.2.1 ++ natLe 6 t.1

/-- Write a frame to its slot (R381). -/
def frameWrite (s : State) (m q rule : Nat) (b : List Byte) (sec reasm : Bool) (stamp : Int) : State :=
  let tagged := decide ((frameTags b).1 ≠ 0)
  let h := natLe 2 b.length ++ natLe 1 (b2n tagged + 2 * b2n sec + 4 * b2n reasm) ++ natLe 1 rule ++ stampBytes stamp
  let s1 := (s.putPostedAll (macEnd m) (qBase s m q + qNext s m q * qSlot s m q) (h ++ b)).cnt (macA m 0x1100) 1
  let s2 := s1.modMac m (fun x => { x with done := x.done ++ [⟨q, s1.now + 2 * us, b, stamp⟩] })
  qPause s2 m q

/-- Steps 6 of R377 and the queue's own rules. -/
def toQueue (s : State) (m q rule : Nat) (b : List Byte) (sec reasm : Bool) (stamp : Int) : State :=
  let full := fun (s : State) => (ethCnt s m 5).cnt (qA m q 0x28) 1
  match s.rf (qA m q 0) 1 0 with
  | 0 => full s
  | 1 =>
    if qSlot s m q < b.length + 16 then ethCnt s m 3
    else if qFree s m q = 0 then full s
    else frameWrite s m q rule b sec reasm stamp
  | k =>
    match placeFrame s m q k b with
    | .ok w => placeWrite s m q w.1 w.2 stamp
    | .error .limit => ethCnt s m 6
    | .error .window => ethCnt s m 7

/-! ## Received pause (R397) -/

/-- Quanta of `n` pause quanta of 512 bit times at `mbps`. -/
def pauseQuanta (n mbps : Nat) : Nat := n * 512 * 1536 * 1000 / max 1 mbps

/-- MAC rate in Mbit/s (R374). -/
def macMbps (s : State) (m : Nat) : Nat :=
  if m = 32 then 10000
  else max 1 (macLaneCount s m) * [10000, 10000, 25000, 50000, 100000].getD (macMode s m) 10000

/-- Class `c` is paused for `n` quanta; 0 lets it send again. A class whose watchdog fired ignores pause. -/
def pauseClass (s : State) (m c n : Nat) : State :=
  let st := macA m 0x1010
  if s.rb st (8 + c) then s
  else if n = 0 then
    (s.wb st c false).modMac m (fun x => { x with pauseOn := tset (fun _ => none) x.pauseOn c none })
  else
    (s.wb st c true).modMac m (fun x =>
      { x with
        pauseEnd := tset (fun _ => 0) x.pauseEnd c (s.now + pauseQuanta n (macMbps s m))
        pauseOn := tset (fun _ => none) x.pauseOn c (if s.rb st c then tget (fun _ => none) x.pauseOn c else some s.now) })

/-- A received pause frame of the MAC's MODE; `none` for any other frame. -/
def pauseFrame (s : State) (m : Nat) (b : List Byte) : Option State :=
  let mode := s.rf (macA m 0x100C) 1 0
  if be b 12 2 ≠ 0x8808 then none
  else if mode = 1 ∧ be b 14 2 = 1 then some ((List.range 8).foldl (fun s c => pauseClass s m c (be b 16 2)) s)
  else if mode = 2 ∧ be b 14 2 = 0x101 then
    some ((List.range 8).foldl (fun s c => if tb (be b 16 2) c then pauseClass s m c (be b (18 + 2 * c) 2) else s) s)
  else none

/-! ## FRAME_RECEIVE (R377) -/

/-- Count the codewords of the port's lanes (R375). -/
def fecCount (s : State) (m : Nat) (corr unc : List Nat) : State :=
  if m = 32 then s
  else
    let a := ethPort (m / 2)
    let s1 := (List.range 4).foldl (fun s l =>
      (s.cnt (a + 0x10 + 4 * l) (corr.getD l 0)).cnt (a + 0x20 + 4 * l) (unc.getD l 0)) s
    if unc.any (fun n => decide (n ≠ 0)) then ethFlag s1 m 7 else s1

/-- What a CPRI link brings of one AxC goes to PLACE_TD queue DEFQ as that stream (R401). -/
def axcReceive (s : State) (m : Nat) (d : AxcData) : State :=
  let q := s.rf (macA m 0x1000) 7 2
  let now := subframeNow s (s.rf (qA m q 0) 15 12)
  if s.rf (qA m q 0) 1 0 ≠ 2 then (ethCnt s m 5).cnt (qA m q 0x28) 1
  else if s.rf (qA m q 0x18) 22 16 ≤ d.axc ∨ s.rd (qA m q 0x14) ≤ d.idx then ethCnt s m 6
  else if d.frame ≠ now ∧ d.frame ≠ (now + 10239) % 10240 then ethCnt s m 7
  else placeWrite s m q (placeTd s m q d.axc d.idx (d.bytes.take (d.bytes.length / 4 * 4))) 0 0

/-- FRAME_RECEIVE: the steps of R377 in order. -/
def frameReceive (s : State) (m : Nat) (f : RxFrame) (axc : Option AxcData) : State :=
  if !macEn s m ∨ !macLink s m then s
  else
    let s1 := fecCount s m f.fecCorr f.fecUnc
    match axc with
    | some d => if macMode s1 m = 5 then axcReceive s1 m d else s1
    | none =>
      if f.lineLen < 64 then ethCnt s1 m 1
      else if !f.fcsOk ∨ f.fecUnc.any (fun n => decide (n ≠ 0)) then ethCnt s1 m 2
      else if s1.rf (macA m 0x1000) 29 16 < f.lineLen then ethCnt s1 m 3
      else
        match pauseFrame s1 m f.bytes with
        | some t => t
        | none =>
          let v := secReceive s1 m f
          if !v.1 then ethCnt s1 m 22
          else
            let s2 := v.2.2.2
            match classify s2 m v.2.1 with
            | .none => ethCnt s2 m 4
            | .drop => s2
            | .queue q r =>
              if f.fifoOvf then ethFlag (ethCnt s2 m 9) m 8
              else if nQueues m ≤ q then ethCnt s2 m 5
              else toQueue s2 m q r v.2.1 v.2.2.1 f.reasm (rxStamp s2 m f.capture)

/-! ## Delivery (R381) -/

/-- The queue's notice. -/
def qNotice (s : State) (m q : Nat) : State :=
  let n := s.rd (qA m q 0x1C)
  let src := macEnd m
  let fail := fun (dst : Nat) => s.fenced src || s.fenced dst
  match s.rf (qA m q 0) 9 8 with
  | 1 => if fail ymEp then ethCnt s m 21 else signalEvent s src (fld n 15 0)
  | 2 =>
    let g := fld n 23 16
    let dst := if g < 32 then stableEp g else ep (sysRouter 3) 0
    if fail dst then ethCnt s m 21
    else
      let r := s.niPosted src dst
      if r.1 then setBrwFlag r.2 (if g < 32 then g else 32) (fld n 15 0 % 256) true else r.2
  | 3 => if fail (hltCoreEp (fld n 1 0)) then ethCnt s m 21 else s.emit (.doorbell (fld n 1 0))
  | _ => s

/-- FRAME_DELIVER: T_VIS after its last write the oldest frame of queue `q` becomes visible; the frame with its
timestamp, and the state. -/
def frameDeliver (s : State) (m q : Nat) : Option RxDone × State :=
  match (s.mac m).done.find? (fun (d : RxDone) => decide (d.q = q)) with
  | none => (none, s)
  | some d =>
    let s1 := (s.until d.due).modMac m (fun x => { x with done := x.done.erase d })
    let s2 := if d.bytes.isEmpty then s1 else s1.wr (qA m q 0x20) ((qHead s1 m q + 1) % qEntries s1 m q)
    (some d, qNotice (s2.cnt (qA m q 0x2C) 1) m q)

/-! ## Pause events -/

/-- PAUSE_WD: a class paused for WD_US without a break is unpaused (R397). -/
def pauseWd (s : State) (m c : Nat) : State :=
  let w := s.rf (macA m 0x100C) 31 16
  match tget (fun _ => none) (s.mac m).pauseOn c with
  | some t =>
    if w = 0 ∨ !s.rb (macA m 0x1010) c then s
    else
      let s1 := ((s.until (t + w * us)).wb (macA m 0x1010) c false).wb (macA m 0x1010) (8 + c) true
      let s2 := s1.modMac m (fun x => { x with pauseOn := tset (fun _ => none) x.pauseOn c none })
      ethFlag (ethCnt s2 m 19) m 1
  | none => s

/-- PAUSE_TIME_END: the pause of a class runs out. -/
def pauseEnd (s : State) (m c : Nat) : State :=
  if s.rb (macA m 0x1010) c then
    pauseClass (s.until (tget (fun _ => 0) (s.mac m).pauseEnd c)) m c 0
  else s

/-! ## Meanings -/

/-- R377. -/
def execFrameReceive (m : Nat) (f : RxFrame) (axc : Option AxcData) (s : State) : Out :=
  if m < 33 then .next (frameReceive s m f axc) else .fault .noSuchUnit
/-- R397. -/
def execPauseWd (m cls : Nat) (s : State) : Out := if m < 33 ∧ cls < 8 then .next (pauseWd s m cls) else .fault .noSuchUnit
/-- R397. -/
def execPauseTimeEnd (m cls : Nat) (s : State) : Out := if m < 33 ∧ cls < 8 then .next (pauseEnd s m cls) else .fault .noSuchUnit

end Sys2Proof.Machine
end

