-- ==== Sys2Proof/Machine/EthTx.lean ====
section
/-! DEFINITION. Ethernet MACs, transmit side (R386-R398, R402-R407): launch records, fallback and C-plane
tracking, gates, timed launch, frame building, link changes and the registers. -/

namespace Sys2Proof.Machine

/-! ## Records (R387) -/

def txqDflt : Nat → Txq := fun _ => Txq.reset
def State.txq (s : State) (m q : Nat) : Txq := tget txqDflt (s.mac m).txqs q
def State.setTxq (s : State) (m q : Nat) (x : Txq) : State :=
  s.modMac m (fun c => { c with txqs := tset txqDflt c.txqs q x })

/-- Cell entry bound to the record: its CFG register. -/
def recCfg (s : State) (m : Nat) (r : List Byte) : Nat := s.rd (cellA m (le r 2 1) 0)

/-- udCompHdr of the record's cell, the width of method 4 taken from MODC. -/
def recComp (s : State) (m : Nat) (r : List Byte) : Nat :=
  let c := s.rf (cellA m (le r 2 1) 8) 7 0
  if c % 16 = 4 then le r 30 1 % 16 * 16 + 4 else c

/-- Bytes of the compressed samples of a U-plane record. -/
def recIqBytes (s : State) (m : Nat) (r : List Byte) : Nat := le r 26 2 / 12 * blockBytes (recComp s m r)

/-- Frame length, FCS included, before padding. -/
def recFrameLen (s : State) (m : Nat) (r : List Byte) : Nat :=
  let k := le r 0 1
  (if k = 1 ∨ k = 2 then le r 24 2 + recIqBytes s m r else le r 20 2) + 4

/-- A record header breaks R387. -/
def recBad (s : State) (m : Nat) (r : List Byte) : Bool :=
  let k := le r 0 1
  let fl := le r 1 1
  let cell := le r 2 1
  let up := decide (k = 1 ∨ k = 2)
  decide (4 < k) || decide (8 ≤ fl) || (tb fl 1 && decide (k ≠ 3)) || (decide (64 ≤ cell) && decide (cell ≠ 255))
    || ((up || decide (k = 3)) && (decide (cell = 255) || !tb (recCfg s m r) 0))
    || (if up then decide (13 < le r 3 1) else decide (le r 3 1 ≠ 255) && decide (k ≠ 4))
    || (up && (decide (le r 26 2 % 12 ≠ 0) || decide (le r 20 2 ≠ le r 24 2 + 4 * le r 26 2)))
    || (decide (k = 2) && decide (recComp s m r % 16 = 4))
    || decide (16 ≤ le r 30 1) || decide (le r 56 8 ≠ 0)
    || (decide (k ≠ 4) && decide (s.rf (macA m 0x1000) 29 16 < max 64 (recFrameLen s m r)))

/-- A record is discarded: a requested timestamp is returned as DISCARDED (R420). -/
def recDiscard (s : State) (m : Nat) (r : List Byte) : State :=
  if tb (le r 1 1) 2 then tsPush s m ⟨le r 22 2, true, 0⟩ else s

/-- Take complete records off the bytes being written. -/
def txqParse (m q : Nat) : Nat → State → State
  | 0, s => s
  | n + 1, s =>
    let x := s.txq m q
    if x.part.length < 64 then s
    else if recBad s m x.part then
      ethFlag (recDiscard (ethCnt (s.setTxq m q { x with part := [], lost := true }) m 13) m x.part) m 3
    else
      let len := roundUp (64 + le x.part 20 2) 32
      if x.part.length < len then s
      else
        let r := x.part.take len
        let keep := if le r 0 1 = 4 then x.recs else x.recs ++ [r]
        txqParse m q n (s.setTxq m q { x with part := x.part.drop len, recs := keep })

/-- Bytes held by a queue. -/
def txqBytes (s : State) (m q : Nat) : Nat := ((s.txq m q).recs.map (fun r => r.length)).sum + (s.txq m q).part.length

/-- Bytes enter the queue; a queue without sync discards them (R386). -/
def txqFeed (s : State) (m q : Nat) (l : List Byte) : State :=
  let x := s.txq m q
  if x.lost then s else txqParse m q (l.length / 32 + 5) (s.setTxq m q { x with part := x.part ++ l })

/-- Writes that were held enter as far as there is room. -/
def txqUnhold (m q : Nat) : Nat → State → State
  | 0, s => s
  | n + 1, s =>
    match (s.txq m q).held with
    | [] => s
    | h :: t =>
      if 0x20000 < txqBytes s m q + h.bytes.length then s
      else txqUnhold m q n (txqFeed (s.setTxq m q { s.txq m q with held := t }) m q h.bytes)

def txqDrain (s : State) (m q : Nat) : State := txqUnhold m q (s.txq m q).held.length s

/-- A write of `l` to the window of queue `q` by endpoint `src` (R386): answered, or held by a full queue. -/
def txqWrite (s : State) (m q src : Nat) (l : List Byte) : Option Nat × State :=
  let o := s.rd (macA m (0x1020 + 4 * q))
  if !tb o 31 ∨ fld o 11 0 ≠ src then (some rspTgt, s)
  else
    let x := s.txq m q
    if !x.lost ∧ (x.held ≠ [] ∨ 0x20000 < txqBytes s m q + l.length) then
      (none, s.setTxq m q { x with held := x.held ++ [⟨s.now, l⟩] })
    else (some rspOk, txqFeed s m q l)

/-- TXQ_HOLD_REJECT: the oldest held write has waited HOLD_US. -/
def txqHoldReject (s : State) (m q : Nat) : State :=
  match (s.txq m q).held with
  | [] => s
  | h :: t =>
    let s1 := s.until (h.since + s.rf (macA m 0x1008) 31 16 * us)
    let x := s1.txq m q
    (ethFlag (ethCnt (s1.setTxq m q { x with held := t, part := [], lost := true }) m 14) m 3).answer rspTgt 0

/-- ETH_TXQ_CMD: [0] RESYNC, [1] FLUSH. -/
def txqCmd (s : State) (m q v : Nat) : State :=
  let s1 := if tb v 0 then s.setTxq m q { s.txq m q with part := [], lost := false } else s
  if tb v 1 then
    let r := (s1.txq m q).recs
    txqDrain (r.foldl (fun s r => recDiscard s m r) (s1.setTxq m q { s1.txq m q with recs := [] })) m q
  else txqDrain s1 m q

/-! ## Cells (R391-R393) -/

def noMasks : Nat → List SlotMask := fun _ => []

/-- FB and CP of a slot address in cell entry `k`. -/
def slotMask (s : State) (m k slot : Nat) : Nat × Nat :=
  match (tget noMasks (s.mac m).cells k).find? (fun (x : SlotMask) => decide (x.slot = slot)) with
  | some x => (x.fb, x.cp)
  | none => (0, 0)

/-- OR masks into a slot address's entry; a fifth address replaces the oldest. -/
def orMask (s : State) (m k slot fb cp : Nat) : State :=
  let l := tget noMasks (s.mac m).cells k
  let l1 := if l.any (fun (x : SlotMask) => decide (x.slot = slot)) then
      l.map (fun (x : SlotMask) => if x.slot = slot then ⟨slot, x.fb ||| fb, x.cp ||| cp⟩ else x)
    else (if 4 ≤ l.length then l.drop 1 else l) ++ [⟨slot, fb, cp⟩]
  s.modMac m (fun c => { c with cells := tset noMasks c.cells k l1 })

/-- FALLBACK_ORDER: the oldest order on its way to MAC `m` (R66, R391). -/
def fallbackOrder (s : State) (m : Nat) : State :=
  match s.ym.fbOrders.find? (fun (o : FbOrder) => decide (o.mac = m)) with
  | none => s
  | some o =>
    let s1 := { s with ym := { s.ym with fbOrders := s.ym.fbOrders.erase o } }
    match lowest 64 (fun k => s.rb (cellA m k 0) 0 && decide (s.rf (cellA m k 4) 9 0 = o.cell) && (s.rb (cellA m k 4) 10 == o.gsm)) with
    | some k => orMask s1 m k o.slot (o.mask % 2 ^ 14) 0
    | none => ethFlag (ethCnt s1 m 20) m 2

/-- Is LAUNCH inside an open gate of sieve chain `c` (R253, R393)? -/
def lbtOpen (s : State) (c : Nat) (launch : Int) : Bool :=
  let x := s.lbt c
  let cot := timeOf (s.rd (svA c 0x5C)) (s.rd (svA c 0x60)) (s.rd (svA c 0x64)) (s.rd (svA c 0x68))
  decide (lbtState s c = 3) && decide (max cot x.acq ≤ launch) && decide (launch < x.cotEnd)

/-- What happens to a record that is about to leave (R392-R394). -/
inductive Leave where
  | send
  | zero (ctr : Nat)
  | discard (ctr : Nat)
deriving DecidableEq, Repr

/-- A time of a record: fraction, nanoseconds, seconds from byte `o`. -/
def recTime (r : List Byte) (o : Nat) : Int :=
  (le r (o + 6) 6 : Nat) * secU + (le r (o + 2) 4 : Nat) * nsU + (le r o 2 : Nat) * fracU

/-- Absolute cycle of train `t` at the start of the slot that slot address `a` names, nearest to now. -/
def slotCycle (s : State) (t a : Nat) : Int :=
  let f := trainFmt s t
  let p := if f = 11 then gsmStart (8 * fld a 31 10 + fld a 9 7)
    else
      let slot := if 4 ≤ f ∧ f ≤ 6 then fld a 11 2 else fld a 11 5
      (fld a 31 22 * 1024 + fld a 21 12) * frameC + symStart f (slot * symsPerSlot f)
  let per : Int := (fmtPeriod f : Nat)
  let x := trainNow s t
  let d := ((p : Int) - x) % per
  if d * 2 < per then x + d else x + d - per

/-- A 10-byte PA field of R394: the difference to the slot's edge, or none outside the signed 32-bit range. -/
def paField (s : State) (t slot : Nat) (x : Int) : Option (List Byte) :=
  let d := x - edgeTime s t (slotCycle s t slot)
  let ns := d / nsU
  if ns < -(2 ^ 31 : Nat) ∨ (2 ^ 31 : Nat) ≤ ns then none
  else some (natBe 4 (uns 32 ns) ++ natBe 2 (((d - ns * nsU) / fracU).toNat) ++ [0, 0])

/-- The 20 extension bytes, `none` where the record is withheld. -/
def paExt (s : State) (m : Nat) (r : List Byte) : Option (List Byte) :=
  let c := recCfg s m r
  let t := fld c 22 19
  let o := 64 + le r 28 2
  match paField s t (le r 4 4) (recTime r 32), paField s t (le r 4 4) (recTime r 44) with
  | some a, some b => some (natLe 1 (le r o 1 / 128 * 128 + fld c 18 12) ++ natLe 1 5 ++ [0, 0] ++ a ++ b)
  | _, _ => none

def paWanted (s : State) (m : Nat) (r : List Byte) : Bool :=
  decide (le r 0 1 = 3) && tb (le r 1 1) 1 && tb (recCfg s m r) 11

/-- R392-R394 for the record. Counters: 15 FALLBACK, 16 FORCED, 17 GATE, 23 ENVFAIL. -/
def leave (s : State) (m : Nat) (r : List Byte) : Leave :=
  let k := le r 0 1
  let c := recCfg s m r
  let fm := slotMask s m (le r 2 1) (le r 4 4)
  if k = 3 then
    if tb c 4 ∧ !lbtOpen s (fld c 10 5) (recTime r 8) then .discard 17
    else if fm.1 &&& le r 26 2 ≠ 0 then .discard 15
    else if paWanted s m r ∧ (paExt s m r).isNone then .discard 23
    else .send
  else if k = 1 ∨ k = 2 then
    let silent := decide (fld c 2 1 = 1)
    let sym := le r 3 1
    if tb fm.1 sym then (if silent then .discard 15 else .zero 15)
    else if tb c 3 ∧ !tb fm.2 sym then (if silent then .discard 16 else .zero 16)
    else .send
  else .send

/-! ## Building a frame (R388, R394) -/

/-- Headroom of a block of 16-bit components (R123): common leading sign bits. -/
def headroom16 (l : List Int) : Nat :=
  (List.range 16).foldl (fun h k => if l.all (fun x => decide (-(2 ^ (15 - k) : Nat) ≤ x ∧ x < (2 ^ (15 - k) : Nat))) then k + 1 else h) 0

/-- Pack components of `w` bits, most significant first. -/
def packBits (w : Nat) (l : List Nat) : List Byte :=
  natBe (l.length * w / 8) (l.foldl (fun v x => v * 2 ^ w + x % 2 ^ w) 0)

/-- Compress 24 components; the clamps are counted. -/
def squeeze (hdr : Nat) (l : List Int) : List Byte × Nat :=
  let w := compWidth hdr
  match hdr % 16 with
  | 0 => (packBits 16 (l.map (uns 16)), 0)
  | 1 =>
    let e := 16 - headroom16 l - w
    let v := l.map (fun x => rneShift x e)
    (natLe 1 e ++ packBits w (v.map (fun x => uns w (satS w x))), (v.filter (fun x => decide (satS w x ≠ x))).length)
  | 3 =>
    let sh := (Config.muShift w (l.map (uns 16))).toNat
    (natLe 1 sh ++ packBits w (l.map (fun x => (Config.muCompress w sh (uns 16 x)).toNat)), 0)
  | _ => (packBits w (l.map (fun x => (Config.modCompress w (uns 16 x)).toNat)), 0)

/-- The samples of a U-plane record, compressed, all zero under ZERO substitution. -/
def recIq (s : State) (m : Nat) (r : List Byte) (zero : Bool) : List Byte × Nat :=
  let n := le r 26 2 / 12
  if zero then (List.replicate (recIqBytes s m r) 0, 0)
  else
    (List.range n).foldl (fun (q : List Byte × Nat) b =>
      let c := (List.range 24).map (fun i => sgn 16 (le r (64 + le r 24 2 + 48 * b + 2 * i) 2))
      let x := squeeze (recComp s m r) c
      (q.1 ++ x.1, q.2 + x.2)) ([], 0)

/-- Replace bytes from `o`. -/
def patch (l : List Byte) (o : Nat) (b : List Byte) : List Byte := l.take o ++ b ++ l.drop (o + b.length)

/-- The frame of a record without its FCS, padded, and the clamps counted. -/
def recFrame (s : State) (m : Nat) (r : List Byte) (zero : Bool) : List Byte × Nat :=
  let k := le r 0 1
  let b : List Byte × Nat :=
    if k = 1 ∨ k = 2 then
      let h := sub r 64 (le r 24 2)
      let x := recIq s m r zero
      let f := h ++ x.1
      let o := frameOfs f
      (if frameEtype f = 0xAEFE then patch f (o + 2) (natBe 2 (f.length - o - 4)) else f, x.2)
    else
      let f := sub r 64 (le r 20 2)
      match paWanted s m r, paExt s m r with
      | true, some e => (patch f (le r 28 2) e, 0)
      | _, _ => (f, 0)
  (b.1 ++ List.replicate (60 - b.1.length) 0, b.2)

/-- The FCS of IEEE 802.3. -/
def fcs32 (l : List Byte) : Nat := crcLsb 0xEDB88320 0xFFFFFFFF l ^^^ 0xFFFFFFFF

/-! ## Gates (R395) -/

/-- Gate states in effect; all open without an operational list. -/
def gates (s : State) (m : Nat) : Nat :=
  if s.rb (macA m 0x1200) 0 ∧ s.rb (macA m 0x1214) 0 then s.rf (macA m (0x8400 + 4 * (s.mac m).qbvIdx)) 7 0 else 255

/-- Nanoseconds until the gate of class `t` closes, counted from the end of the interval in effect over the
list's further entries; `none` while it never closes. -/
def gateRun (s : State) (m t : Nat) : Option Nat :=
  if s.rb (macA m 0x1200) 0 ∧ s.rb (macA m 0x1214) 0 then
    let n := s.rf (macA m 0x1214) 10 2
    let i := (s.mac m).qbvIdx
    let r := (List.range n).foldl (fun (q : Nat × Bool) k =>
      if q.2 then q
      else
        let e := s.rd (macA m (0x8400 + 4 * ((i + 1 + k) % max 1 n)))
        if tb e t then (q.1 + fld e 31 8, false) else (q.1, true)) (0, false)
    if r.2 then some r.1 else none
  else none

/-- Would a frame of `ns` nanoseconds that starts now end before the gate of class `t` closes? -/
def gateFits (s : State) (m t ns : Nat) : Bool :=
  tb (gates s m) t && (match gateRun s m t with
    | none => true
    | some r => decide (domTime s (macDom s m) + (ns : Int) * nsU ≤ (s.mac m).qbvEnd + (r : Int) * nsU))

/-- Time passes until domain `d` reaches `x`, if it runs. -/
def untilDom (d : Nat) (x : Int) : Nat → State → State
  | 0, s => s
  | n + 1, s =>
    if x ≤ domTime s d ∨ !domEn s d then s
    else
      let inc := 3125 * (65536 * 1000000000 + domFreq s d + 65536 * 131072)
      let k := max 1 ((x - domTime s d) / inc).toNat
      untilDom d x n (s.until ((s.now / 3125 + k) * 3125))

/-! ## Launch (R389-R392, R396, R398, R399) -/

/-- Quanta that `n` bytes take on the line, preamble and gap included. -/
def lineQuanta (s : State) (m n : Nat) : Nat := (n + 20) * 8 * 1536 * 1000 / macMbps s m

/-- Frame preemption is in force and class `t` is preemptable. -/
def preemptable (s : State) (m t : Nat) : Bool :=
  s.rb (macA m 0x1014) 16 && s.rb (macA m 0x1004) 2 && s.rb (macA m 0x1014) t

/-- A timed record at the head of a higher queue whose LAUNCH falls while a frame of `q` of `ns` ns would still be
on the line (R396). -/
def higherDue (s : State) (m t ns : Nat) : Bool :=
  !preemptable s m t && (List.range (nTxqs m)).any (fun h => decide (t < h) && (match (s.txq m h).recs with
    | r :: _ => tb (le r 1 1) 0 && (let l := recTime r 8
        decide (domTime s (macDom s m) ≤ l) && decide (l < domTime s (macDom s m) + (ns : Int) * nsU))
    | [] => false))

/-- Register `o` of transmit SA `i`. -/
def txSaA (m i o : Nat) : Nat := macA m (0xB800 + 0x20 * i + o)

/-- MACsec on transmit (R398, R399): no protection, the SA and packet number used, or no SA that may send. -/
inductive Protect where
  | off
  | sa (i pn : Nat)
  | stopped
deriving DecidableEq, Repr

def protect (s : State) (m q : Nat) : Protect :=
  let t := s.rf (macA m 0xA008) (4 * q + 3) (4 * q)
  if m = 32 ∨ !s.rb (macA m 0xA000) 0 ∨ !tb t 3 then .off
  else match lowest 4 (fun a => s.rb (txSaA m (4 * (t % 8) + a) 0) 0) with
    | some a =>
      let i := 4 * (t % 8) + a
      let pn := s.rd (txSaA m i 8) + s.rd (txSaA m i 0xC) * 2 ^ 32
      if pn = 2 ^ 64 - 1 then .stopped else .sa i pn
    | none => .stopped

/-- The SA's packet number advances; its threshold and exhaustion are flagged. -/
def advancePn (s : State) (m i pn : Nat) : State :=
  let n := pn + 1
  let s1 := ((s.wr (txSaA m i 8) (n % 2 ^ 32)).wr (txSaA m i 0xC) (n / 2 ^ 32)).cnt (txSaA m i 0x10) 1
  let s2 := if s.rd (macA m 0xA010) ≤ n then ethFlag s1 m 4 else s1
  if n = 2 ^ 64 - 1 then ethFlag s2 m 5 else s2

/-- Drop the record at the head. -/
def popRec (s : State) (m q : Nat) : State :=
  txqDrain (s.setTxq m q { s.txq m q with recs := (s.txq m q).recs.drop 1 }) m q

/-- Send the record now. -/
def sendRec (s : State) (m q : Nat) (r : List Byte) (zero : Bool) : State :=
  let f := recFrame s m r zero
  let t := domTime s (macDom s m)
  let go := fun (s : State) (sa : Option (Nat × Nat)) =>
    let s1 := (s.emit (.frame m t sa (f.1 ++ natLe 4 (fcs32 f.1)))).cnt (macA m 0x1148) f.2
    let s2 := ethCnt s1 m 10
    let dur := lineQuanta s m (f.1.length + 4)
    let onto := decide (s.now < (s.mac m).busy)
    let s3 := s2.modMac m (fun x => { x with
      busy := (if onto then x.busy else s.now) + dur, busyPre := if onto then x.busyPre else preemptable s m q })
    let s4 := if tb (le r 1 1) 2 then tsPush s3 m ⟨le r 22 2, false, t⟩ else s3
    if le r 0 1 = 3 then orMask s4 m (le r 2 1) (le r 4 4) 0 (le r 26 2 % 2 ^ 14)
    else if le r 0 1 = 0 then s4
    else orMask s4 m (le r 2 1) (le r 4 4) 0 0
  match protect s m q with
  | .off => go s none
  | .sa i pn => go (advancePn s m i pn) (some (i, pn))
  | .stopped => recDiscard (ethCnt s m 13) m r

/-- The record starts to leave: R392-R394, then the frame. -/
def startRec (s : State) (m q : Nat) (r : List Byte) : State :=
  let s1 := popRec s m q
  let subst := fun (s : State) (c : Nat) => if c = 23 then ethCnt s m c else (ethCnt s m c).cnt (cellA m (le r 2 1) 0xC) 1
  match leave s m r with
  | .send => sendRec s1 m q r false
  | .zero c => sendRec (subst s1 c) m q r true
  | .discard c => recDiscard (orMask (subst s1 c) m (le r 2 1) (le r 4 4) 0 0) m r

/-- FRAME_LAUNCH of queue `q`. -/
def frameLaunch (s : State) (m q : Nat) : State :=
  match (s.txq m q).recs with
  | [] => s
  | r :: _ =>
    let d := macDom s m
    let timed := tb (le r 1 1) 0
    let l := recTime r 8
    let ns := lineQuanta s m (max 64 (recFrameLen s m r)) / 1536
    if !macEn s m ∨ !macLink s m ∨ s.rb (macA m 0x1010) q then s
    else
      let s0 := if timed then untilDom d l 64 s else s
      let free := (s.mac m).busyPre && !preemptable s m q
      let s1 := if free then s0 else s0.until (s.mac m).busy
      let t := domTime s1 d
      if !(if preemptable s1 m q then tb (gates s1 m) q else gateFits s1 m q ns) ∨ higherDue s1 m q ns then s1
      else if !timed then startRec s1 m q r
      else if t < l then s1
      else if t - l < nsU * 3 then startRec s1 m q r
      else if t ≤ l + (s1.rf (macA m 0x1008) 15 0 : Nat) * nsU then startRec (ethCnt s1 m 11) m q r
      else recDiscard (ethCnt (popRec s1 m q) m 12) m r

/-! ## Gate lists (R395) -/

/-- QBV_CHANGE: a list of length or total 0 is not taken. -/
def qbvChange (s : State) (m : Nat) : State :=
  let n := s.rf (macA m 0x1200) 10 2
  let total := ((List.range n).map (fun i => s.rf (macA m (0x8000 + 4 * i)) 31 8)).sum
  if total = 0 then ethFlag (s.wb (macA m 0x1200) 1 false) m 6 else s.wb (macA m 0x1214) 1 true

/-- QBV_LIST_TAKE: the first cycle start at or after the base time. -/
def qbvTake (s : State) (m : Nat) : State :=
  if !s.rb (macA m 0x1214) 1 then s
  else
    let d := macDom s m
    let base := timeOf (s.rd (macA m 0x1204)) (s.rd (macA m 0x1208)) (s.rd (macA m 0x120C)) 0
    let n := s.rf (macA m 0x1200) 10 2
    let total := ((List.range n).map (fun i => s.rf (macA m (0x8000 + 4 * i)) 31 8)).sum
    let cyc := let c := s.rf (macA m 0x1210) 29 0; if c = 0 then total else c
    let c : Int := (cyc : Int) * nsU
    let t := domTime s d
    let start := if t ≤ base then base else base + (t - base + c - 1) / c * c
    let s1 := untilDom d start 64 s
    let s2 := (List.range 256).foldl (fun s i => s.wr (macA m (0x8400 + 4 * i)) (s.rd (macA m (0x8000 + 4 * i)))) s1
    let s3 := ((s2.wr (macA m 0x1214) (1 + n * 4)).wb (macA m 0x1200) 1 false)
    let i0 := s3.rf (macA m 0x8400) 31 8
    s3.modMac m (fun x => { x with
      qbvStart := start, qbvIdx := 0, qbvCycle := cyc,
      qbvEnd := start + (if n = 1 then c else min ((i0 : Int) * nsU) c) })

/-- GATE_INTERVAL_END: the next entry takes effect; the last lasts to the end of the cycle. -/
def gateEnd (s : State) (m : Nat) : State :=
  if !s.rb (macA m 0x1200) 0 ∨ !s.rb (macA m 0x1214) 0 then s
  else
    let x := s.mac m
    let s1 := untilDom (macDom s m) x.qbvEnd 64 s
    let n := s.rf (macA m 0x1214) 10 2
    let fin := x.qbvStart + (x.qbvCycle : Int) * nsU
    let i := x.qbvIdx + 1
    let wrap := decide (n ≤ i) || decide (fin ≤ x.qbvEnd)
    let j := if wrap then 0 else i
    let st := if wrap then fin else x.qbvStart
    let e := s.rf (macA m (0x8400 + 4 * j)) 31 8
    let cycEnd := st + (x.qbvCycle : Int) * nsU
    s1.setMac m { s1.mac m with
      qbvStart := st, qbvIdx := j, qbvEnd := if j + 1 = n then cycEnd else min (x.qbvEnd + (e : Int) * nsU) cycEnd }

/-! ## Links (R375, R396) -/

/-- LINK_CHANGE: the MAC's lanes gain or lose alignment; VAR is measured at link-up (R418). -/
def linkChange (s : State) (m : Nat) (up : Bool) (txvar rxvar : Nat) : State :=
  if up = macLink s m then s
  else
    let s1 := if m = 32 then s
      else
        let a := ethPort (m / 2) + 4
        let s2 := (List.range (macLaneCount s m)).foldl (fun s i =>
          let l := macLane0 m + i
          ((s.wb a l up).wb a (4 + l) up).wb a (8 + l) up) s
        s2.wb a (16 + m % 2) up
    let s3 := s1.wb (macA m 0x1004) 0 up
    let p := ctRegs + 0x10000 + m * 0x100
    let s4 := if up then (s3.wr (p + 0xC) (txvar % 2 ^ 32)).wr (p + 0x10) (rxvar % 2 ^ 32)
      else (s3.wb (macA m 0x1004) 2 false).modMac m (fun x => { x with busy := s.now, busyPre := false })
    ethFlag s4 m 0

/-- PREEMPTION_VERIFY. -/
def preemptVerify (s : State) (m : Nat) : State :=
  if m ≠ 32 ∧ macLink s m ∧ s.rb (macA m 0x1014) 16 ∧ s.rb (macA m 0x1014) 17 then s.wb (macA m 0x1004) 2 true else s

/-! ## Registers (R402-R406) -/

/-- A combination of ETH_PORT_CFG is in R374's table. -/
def portCfgOk (v : Nat) : Bool :=
  let lm := fun l => fld v (4 * l + 3) (4 * l)
  let one := fun (l0 n fec : Nat) =>
    let md := lm l0
    (List.range n).all (fun i => decide (lm (l0 + i) = md))
      && (match md with
        | 1 => decide (n = 1) && decide (fec ≤ 1)
        | 2 => (decide (n = 1) && decide (fec ≤ 2)) || (decide (n = 4) && decide (fec = 2))
        | 3 => true
        | 4 => true
        | 5 => decide (n = 1)
        | _ => false)
  let w0 := fld v 17 16
  let w1 := fld v 19 18
  (List.range 4).all (fun l => decide (lm l ≤ 5)) && decide (w1 ≠ 3) && decide (fld v 21 20 ≠ 3) && decide (fld v 23 22 ≠ 3)
    && (decide (w0 = 0) || one 0 ([0, 1, 2, 4].getD w0 0) (fld v 21 20))
    && (decide (w1 = 0) || (decide (w0 ≠ 3) && one 2 w1 (fld v 23 22)))

/-- udCompHdr allowed for transmission (R382). -/
def txComp (h : Nat) : Bool :=
  match h % 16 with
  | 4 => decide (1 ≤ h / 16 ∧ h / 16 ≤ 4)
  | _ => rxMethod h

/-- A queue's base lies where R380 lets it. -/
def qBaseOk (m a : Nat) : Bool :=
  match regionOf a with
  | .barn _ => true
  | .xmem _ => true
  | .ymem _ => true
  | .ddr => decide (m = 32)
  | _ => false

/-- The queue's geometry suits KIND `k` (R383, R384, R404). -/
def qGeomOk (s : State) (m q k train : Nat) : Bool :=
  let g := s.rd (qA m q 0xC)
  let pc := s.rf (qA m q 0x18) 22 16
  let strm := decide (1 ≤ pc ∧ pc ≤ 64)
  match k with
  | 1 => decide (2 ≤ fld g 15 0)
  | 2 => strm && decide (fld g 15 0 ≠ 0) && decide (s.rd (qA m q 0x14) % fld g 15 0 = 0)
  | 3 => strm && decide (fld g 7 0 ≠ 0) && decide (1 ≤ fld g 24 16 ∧ fld g 24 16 ≤ 275)
      && decide ((fmtShape (trainFmt s train)).1 * 20 % fld g 7 0 = 0)
  | _ => true

/-- The registers of R404 that a queue in use locks. -/
def qLocked (nm : String) : Bool :=
  nm == "ETH_Q_BASE_LO" || nm == "ETH_Q_BASE_HI" || nm == "ETH_Q_GEOM" || nm == "ETH_Q_STREAM_STRIDE"
    || nm == "ETH_Q_SYM_STRIDE" || nm == "ETH_Q_PCID" || nm == "ETH_Q_NOTIFY" || nm == "ETH_Q_PAUSE"

/-- A cell entry other than `k` is enabled with identity `id` (R391). -/
def cellDup (s : State) (m k id : Nat) : Bool :=
  (List.range 64).any (fun j => decide (j ≠ k) && s.rb (cellA m j 0) 0 && decide (s.rf (cellA m j 4) 10 0 = id % 2 ^ 11))

def ethView (m : Nat) (nm : String) (ix : List Nat) (a : Nat) (s : State) : Nat :=
  let i := ix.getD 0 0
  match nm with
  | "ETH_TXQ_STATUS_t" =>
    let x := s.txq m i
    let wait := match x.recs with
      | r :: _ => (tb (le r 1 1) 0 && decide (domTime s (macDom s m) < recTime r 8)) || !tb (gates s m) i
      | [] => false
    txqBytes s m i % 2 ^ 18 + b2n x.lost * 2 ^ 20 + b2n wait * 2 ^ 21
  | "ETH_MAC_STATUS" => s.rd a % 8 &&& 5 ||| 2 * b2n (s.rb (macA m 0xA000) 0)
  | "ETH_CPRI_T14_l" => if macMode s m = 5 then (Config.cpriT14 (2 * m + i)).toNat else 0
  | _ => s.rd a

/-- SA_CFG.EN (R406, R520): refused without a key; clearing it erases the key. -/
def saCfg (s s1 : State) (m key a v : Nat) : Nat × State :=
  if tb v 0 ∧ !s.rb a 1 then (rspTgt, s)
  else if s.rb a 0 ∧ !tb v 0 then
    (rspOk, (s1.wb a 1 false).modMac m (fun x => { x with keys := tset (fun _ => []) x.keys key [] }))
  else (rspOk, s1)

/-- The MACs' own part of a register write. -/
def ethWrite (m : Nat) : WriteHook := fun nm ix v s s1 =>
  let i := ix.getD 0 0
  let gate := fun (ok : Bool) => if ok then (rspOk, s1) else (rspTgt, s)
  if qLocked nm && decide (s.rf (qA m i 0) 1 0 ≠ 0) then (rspTgt, s)
  else
  match nm with
  | "ETH_PORT_CFG" =>
    let p := m / 2 * 2
    let old := s.rd (ethPort (m / 2))
    gate (decide (v % 2 ^ 24 = old) || (portCfgOk v && !macEn s p && !macEn s (p + 1)))
  | "ETH_PORT_CPRI" => gate ((List.range 4).all (fun l => decide (fld v (4 * l + 3) (4 * l) < 12)))
  | "ETH_MAC_CFG" => gate (decide (64 ≤ fld v 29 16 ∧ fld v 29 16 ≤ 9728))
  | "ETH_TX_CFG" => gate (decide (1 ≤ fld v 31 16 ∧ fld v 31 16 ≤ 500))
  | "ETH_PAUSE_CFG" => gate (decide (fld v 1 0 ≤ 2))
  | "ETH_PREEMPT_CFG" => (rspOk, if tb v 16 ∧ tb v 17 then s1 else s1.wb (macA m 0x1004) 2 false)
  | "ETH_INT_EN" => (rspOk, s1.rise (10 + m) (decide (s.rd (macA m 0x1018) &&& s.rd (macA m 0x101C) ≠ 0))
      (decide (s1.rd (macA m 0x1018) &&& s1.rd (macA m 0x101C) ≠ 0)))
  | "ETH_TXQ_OWNER_t" => gate (decide (txqBytes s m i = 0) || decide (v &&& 0x80000FFF = s.rd (macA m (0x1020 + 4 * i))))
  | "ETH_TXQ_CMD_t" => (rspOk, txqCmd s m i v)
  | "ETH_QBV_CTRL" =>
    if s.rb (macA m 0x1214) 1 ∨ 256 < fld v 10 2 then (rspTgt, s) else (rspOk, if tb v 1 then qbvChange s1 m else s1)
  | "ETH_QBV_BASE_NS" => gate (decide (s1.rd (macA m 0x120C) < 1000000000))
  | "ETH_GCL_ADMIN_i" => gate (decide (1 ≤ fld v 31 8))
  | "ETH_Q_CFG" =>
    let old := s.rd (qA m i 0)
    if fld old 1 0 ≠ 0 then gate (decide (v % 4 = 0) && decide (v &&& 0x7FFF378 = old &&& 0x7FFF378))
    else gate (decide (v % 4 = 0) || (qGeomOk s m i (v % 4) (fld v 15 12) && qBaseOk m (qBase s m i) && (decide (m ≠ 32) || decide (v % 4 ≤ 1))))
  | "ETH_Q_BASE_HI" => gate (qBaseOk m (qBase s1 m i))
  | "ETH_Q_STREAM_STRIDE" => gate (decide (v % 16 = 0))
  | "ETH_Q_PCID" => gate (decide (1 ≤ fld v 22 16 ∧ fld v 22 16 ≤ 64))
  | "ETH_Q_NOTIFY" => gate (decide (fld v 23 16 ≤ 31) || decide (fld v 23 16 = 255))
  | "ETH_Q_TAIL" =>
    if s.rf (qA m i 0xC) 15 0 ≤ v % 2 ^ 32 then (rspTgt, s) else (rspOk, qResume s1 m i)
  | "ETH_Q_PAUSE" =>
    gate (decide (fld v 15 0 = 0) || (decide (fld v 15 0 < fld v 31 16) && decide (fld v 31 16 + 1 ≤ s.rf (qA m i 0xC) 15 0)))
  | "ETH_CELL_CFG" =>
    let old := s.rd (cellA m i 0)
    if tb old 0 then gate (decide (v % 2 ^ 23 = old - 1))
    else gate (decide (fld v 2 1 ≤ 1) && !(tb v 0 && cellDup s m i (s.rd (cellA m i 4))))
  | "ETH_CELL_ID" => gate (!s.rb (cellA m i 0) 0 && decide (fld v 9 0 < 768))
  | "ETH_CELL_COMP" => gate (txComp (v % 256))
  | "ETH_MSEC_CFG" =>
    gate ((!s.rb (macA m 0xA000) 0 || decide (v % 64 = s.rd (macA m 0xA000))) && decide (fld v 2 1 ≤ 2) && decide (fld v 5 4 ≤ 2))
  | "ETH_RXSA_CFG" => saCfg s s1 m i (rxSaA m i 0) v
  | "ETH_TXSA_CFG" => saCfg s s1 m (128 + i) (txSaA m i 0) v
  | "ETH_RXSA_PN_LO" => gate (!s.rb (rxSaA m i 0) 0)
  | "ETH_RXSA_PN_HI" => gate (!s.rb (rxSaA m i 0) 0)
  | "ETH_TXSA_PN_LO" => gate (!s.rb (txSaA m i 0) 0)
  | "ETH_TXSA_PN_HI" => gate (!s.rb (txSaA m i 0) 0)
  | _ => (rspOk, s1)

/-! ## Meanings -/

def macEvent (f : State → Nat → State) (m : Nat) (s : State) : Out := if m < 33 then .next (f s m) else .fault .noSuchUnit
def txqEvent (f : State → Nat → Nat → State) (m q : Nat) (s : State) : Out :=
  if m < 33 ∧ q < nTxqs m then .next (f s m q) else .fault .noSuchUnit
def macReg (m o v : Nat) (s : State) : Out :=
  if m < 33 then .next (s.regWriteBy (ethWrite m) (macA m o) v) else .fault .noSuchUnit

/-- R386, R387. -/
def execTxqWrite (m q src : Nat) (bytes : List Byte) (s : State) : Out :=
  if m < 33 ∧ q < nTxqs m then
    let r := txqWrite s m q src bytes
    .next (match r.1 with | some c => r.2.answer c 0 | none => r.2)
  else .fault .noSuchUnit
/-- R386. -/
def execTxqHoldReject (m q : Nat) (s : State) : Out := txqEvent txqHoldReject m q s
/-- R386. -/
def execTxqResync (m q : Nat) (s : State) : Out := if q < nTxqs m then macReg m (0x1040 + 4 * q) 1 s else .fault .noSuchUnit
/-- R402. -/
def execTxqFlush (m q : Nat) (s : State) : Out := if q < nTxqs m then macReg m (0x1040 + 4 * q) 2 s else .fault .noSuchUnit
/-- R389. -/
def execFrameLaunch (m q : Nat) (s : State) : Out := txqEvent frameLaunch m q s
/-- R391. -/
def execFallbackOrder (m : Nat) (s : State) : Out := macEvent fallbackOrder m s
/-- R375. -/
def execLinkChange (m : Nat) (up : Bool) (txvar rxvar : Nat) (s : State) : Out :=
  if m < 33 then .next (linkChange s m up txvar rxvar) else .fault .noSuchUnit
/-- R395. -/
def execQbvChange (m : Nat) (s : State) : Out := if m < 32 then macReg m 0x1200 (s.rd (macA m 0x1200) ||| 2) s else .fault .noSuchUnit
/-- R395. -/
def execQbvListTake (m : Nat) (s : State) : Out := if m < 32 then .next (qbvTake s m) else .fault .noSuchUnit
/-- R395. -/
def execGateIntervalEnd (m : Nat) (s : State) : Out := if m < 32 then .next (gateEnd s m) else .fault .noSuchUnit
/-- R404. -/
def execQueueDisable (m q : Nat) (s : State) : Out :=
  if q < nQueues m then macReg m (0x4000 + 0x40 * q) (setFld (s.rd (qA m q 0)) 1 0 0) s else .fault .noSuchUnit
/-- R396. -/
def execPreemptionVerify (m : Nat) (s : State) : Out := if m < 32 then .next (preemptVerify s m) else .fault .noSuchUnit

end Sys2Proof.Machine
end

