-- ==== Sys2Proof/Machine/Phinerlink.lean ====
section
/-! DEFINITION. Phinerlink (R430-R465): ports, trainings and power states, the link layer, routes and epochs, the
fence list and generations, management messages, time markers and CAL, and the registers. -/

namespace Sys2Proof.Machine

def plDflt : Nat → PlPort := fun _ => PlPort.reset
def State.plp (s : State) (p : Nat) : PlPort := tget plDflt s.pl.ports p
def State.setPlp (s : State) (p : Nat) (x : PlPort) : State := { s with pl := { s.pl with ports := tset plDflt s.pl.ports p x } }
def State.modPlp (s : State) (p : Nat) (f : PlPort → PlPort) : State := s.setPlp p (f (s.plp p))
def fenceDflt : Nat → PlFence := fun _ => PlFence.reset

/-- Global register `o`, and register `o` of port `p` (R463, R464). -/
def plA (o : Nat) : Nat := plRegs + o
def plP (p o : Nat) : Nat := plRegs + 0x20000 + p * 0x1000 + o

/-- Set flag `i` of PL_INT_STATUS (message source 3). -/
def plFlag (s : State) (i : Nat) : State := s.flag (plA 0xC) (plA 0x10) 3 i

def plState (s : State) (p : Nat) : Nat := s.rf (plP p 4) 2 0
def plPm (s : State) (p : Nat) : Nat := s.rf (plP p 4) 4 3
def plUnit (s : State) : Nat := s.rf (plA 4) 19 0
def plValid (s : State) : Bool := s.rb (plA 4) 31
def plFgen (s : State) : Nat := s.rf (plA 8) 3 0
def plEpoch (s : State) : Nat := s.rf (plA 0x24) 0 0
def plDraining (s : State) : Bool := s.rb (plA 0x24) 2
def plUp (s : State) (p : Nat) : Bool := decide (2 ≤ plState s p)

/-- Lanes of port `p`'s width (R430). -/
def plLanes (s : State) (p : Nat) : List Nat :=
  match s.rf (plP p 0) 4 3 with
  | 0 => List.range 8
  | 1 => List.range 4
  | _ => [4, 5, 6, 7]

/-- Port `p` is in a time transmit mask or is a time parent (R436). A domain has a parent only with SRC = FABRIC. -/
def plTimeRole (s : State) (p : Nat) : Bool :=
  let t := s.rd (plA 0x1C)
  tb t (8 + p) || tb t (16 + p) || (decide (domSrc s 0 = 3) && decide (fld t 2 0 = p))
    || (decide (domSrc s 1 = 3) && decide (fld t 6 4 = p))

/-- Parent port of domain `d`. -/
def plParent (s : State) (d : Nat) : Nat := s.rf (plA 0x1C) (2 + 4 * d) (4 * d)

/-- Raise FGEN modulo 16 (R454). -/
def fgenInc (s : State) : State := s.wf (plA 8) 3 0 ((plFgen s + 1) % 16)

def anyAdmitted (s : State) : Bool := (List.range 8).any (fun p => decide (plState s p = 3))

/-- Port `p` enters `st`: LINK_CHG on a change, FGEN when the unit gains its first ADMITTED port, and the loss
of a fabric source when a time parent leaves LINKED and ADMITTED. -/
def plEnter (s : State) (p st : Nat) : State :=
  let old := plState s p
  let had := anyAdmitted s
  let s1 := s.wf (plP p 4) 2 0 st
  let s2 := if old = st then s1 else plFlag s1 0
  let s3 := if !had && anyAdmitted s2 then fgenInc s2 else s2
  if 2 ≤ old ∧ st < 2 then
    (List.range 2).foldl (fun s d => if domSrc s d = 3 ∧ plParent s d = p then fabricLost s d else s) s3
  else s3

/-! ## Packets (R437, R439, R440) -/

/-- Bytes of a packet with its link sequence number, CRC included. -/
def plBytes (k : PlPkt) (lseq : Nat) : List Byte :=
  let h := k.kind % 16 + k.ch % 4 * 2 ^ 4 + k.epoch % 2 * 2 ^ 6 + k.hops % 16 * 2 ^ 8 + k.rgen % 16 * 2 ^ 12
    + k.pgen % 16 * 2 ^ 16 + k.dst % 2 ^ 20 * 2 ^ 20 + k.src % 2 ^ 20 * 2 ^ 40 + lseq % 4096 * 2 ^ 60
    + k.payload.length % 512 * 2 ^ 72
  let l := natLe 16 h ++ k.payload
  l ++ natLe 4 (crc32c l)

/-- The packet in bytes whose CRC holds, with its LSEQ. -/
def plParse (l : List Byte) : Option (PlPkt × Nat) :=
  let n := l.length - 4
  if l.length < 20 ∨ le l n 4 ≠ crc32c (l.take n) then none
  else
    let h := le l 0 16
    some (⟨fld h 3 0, fld h 5 4, fld h 6 6, fld h 11 8, fld h 15 12, fld h 19 16, fld h 39 20, fld h 59 40,
      sub l 16 (fld h 80 72)⟩, fld h 71 60)

/-- May a waiting packet leave port `p` now: a credit of its channel, and not held back under R450. -/
def plMayLeave (s : State) (p : Nat) (w : PlWait) : Bool :=
  decide (0 < tget (fun _ => 0) (s.plp p).credits w.pkt.ch)
    && !(plDraining s && decide (w.pkt.ch ≠ 2) && decide (w.pkt.epoch = plEpoch s) && decide (w.pkt.src = plUnit s)
      && s.pl.hold.contains (w.pkt.dst % 4096))

/-- Send one packet out of port `p`. -/
def plEmit (s : State) (p : Nat) (k : PlPkt) : State :=
  let x := s.plp p
  let b := plBytes k x.tx
  let s1 := s.setPlp p { x with
    tx := (x.tx + 1) % 4096, replay := x.replay ++ [(x.tx, b)], idle := s.now,
    credits := tmod (fun _ => 0) x.credits k.ch (fun n => n - 1) }
  (s1.emit (.plPacket p b)).cnt (plP p 0x40) 1

/-- Send every waiting packet that may leave, oldest first within its channel. -/
def plPumpList (s : State) (p : Nat) : List PlWait → State
  | [] => s
  | w :: t =>
    if plMayLeave s p w then
      plPumpList (plEmit (s.modPlp p (fun x => { x with queue := x.queue.erase w })) p w.pkt) p t
    else plPumpList s p t

/-- Let port `p` send, if it is up and ACTIVE. -/
def plPump (s : State) (p : Nat) : State :=
  if plUp s p ∧ plPm s p = 0 then plPumpList s p (s.plp p).queue else s

/-- Queue a packet at port `p`; a port in QUIET or COLD keeps it until it has left that state (R435). -/
def plEnqueue (s : State) (p : Nat) (mtx : Bool) (k : PlPkt) : State :=
  plPump (s.modPlp p (fun x => { x with queue := x.queue ++ [⟨mtx, k⟩] })) p

/-! ## Routes (R445, R446) -/

/-- Entry of table `t` at byte `o` of the table. -/
def plEntry (s : State) (t o : Nat) : Nat := s.rf (plA (0x10000 + t * 0x200 + o / 4 * 4)) (8 * (o % 4) + 3) (8 * (o % 4))

/-- Output for unit `d` on table `t`: a port, 8 for this unit, 15 for none. -/
def plRoute (s : State) (t d : Nat) : Nat :=
  let own := plUnit s
  if d = own ∧ plValid s then 8
  else if fld d 19 12 ≠ fld own 19 12 then plEntry s t (fld d 19 12)
  else if fld d 11 6 ≠ fld own 11 6 then plEntry s t (0x100 + fld d 11 6)
  else plEntry s t (0x140 + fld d 5 0)

/-! ## YARD payloads (R437) -/

/-- A YARD payload. -/
def yardPayload (opc len sb rsp xid addr : Nat) (data : List Byte) : List Byte :=
  natLe 16 (opc % 16 + (len - 1) % 256 * 2 ^ 4 + sb % 256 * 2 ^ 12 + rsp % 8 * 2 ^ 20 + xid % 4096 * 2 ^ 23
    + addr % 2 ^ 44 * 2 ^ 35) ++ data

def yOpc (k : PlPkt) : Nat := le k.payload 0 16 % 16
def yLen (k : PlPkt) : Nat := fld (le k.payload 0 16) 11 4 + 1
def ySub (k : PlPkt) : Nat := fld (le k.payload 0 16) 19 12
def yRsp (k : PlPkt) : Nat := fld (le k.payload 0 16) 22 20
def yXid (k : PlPkt) : Nat := fld (le k.payload 0 16) 34 23
def yAddr (k : PlPkt) : Nat := fld (le k.payload 0 16) 78 35

/-- A request that expects a response: RD, WR or RMW (R297). -/
def plAsks (k : PlPkt) : Bool := decide (k.kind = 0) && (decide (yOpc k = 0) || decide (yOpc k = 1) || decide (yOpc k = 3))
def plAnswers (k : PlPkt) : Bool := decide (k.kind = 0) && (decide (yOpc k = 8) || decide (yOpc k = 9))

/-- The response of code `rsp` to request `k`, as from its target. -/
def plReply (s : State) (k : PlPkt) (rsp : Nat) (data : List Byte) : PlPkt :=
  let opc := if rsp = rspOk ∧ data ≠ [] then 9 else 8
  ⟨0, 2, plEpoch s, 0, k.rgen, k.pgen, k.src, k.dst, yardPayload opc (yLen k) (ySub k) rsp (yXid k) (yAddr k) data⟩

/-! ## Generations and outstanding XIDs (R438, R452, R454) -/

/-- The entry of unit `u` in the fence list, by index. -/
def fenceOf (s : State) (u : Nat) : Option (Nat × PlFence) :=
  s.pl.fences.find? (fun (p : Nat × PlFence) => decide (p.2.unit = u) && decide (p.2.st ≠ 0))

/-- PGEN toward unit `u`. -/
def plPgen (s : State) (u : Nat) : Nat := match fenceOf s u with | some f => f.2.gen | none => 0

/-- The unit's entry is FENCED or READMIT (R453). -/
def plFenced (s : State) (u : Nat) : Bool := match fenceOf s u with | some f => decide (f.2.st < 3) | none => false

/-- Deliver the response of an outstanding XID to its initiator. -/
def xidDone (s : State) (x : PlXid) (code : Nat) (data : List Byte) : State :=
  let e := plPortEp x.port
  let r : YResp := ⟨x.src, x.seq, x.gen, code, data, e, (s.epSt e).gen, yrdEpoch s⟩
  { s with pl := { s.pl with xids := s.pl.xids.erase x }, resps := s.resps ++ [r] }

/-- A response packet arrives for this unit (R453, R454): delivered, or discarded as stale. -/
def plResponse (s : State) (k : PlPkt) : State :=
  let stale := s.cnt (plA 0x3C) 1
  if plFenced s k.src ∨ k.rgen ≠ plFgen s ∨ k.pgen ≠ plPgen s k.src then stale
  else match s.pl.xids.find? (fun (x : PlXid) => decide (x.xid = yXid k) && decide (x.unit = k.src)) with
    | some x => xidDone s x (if yOpc k = 9 then rspOk else yRsp k) (k.payload.drop 16)
    | none => stale

/-! ## Absorption (R437, R449, R457) -/

/-- Send a response packet on; one that meets a port that is not ADMITTED or no route is discarded and counted. -/
def plSendResp (s : State) (k : PlPkt) : State :=
  match plRoute s (plEpoch s) k.dst with
  | 8 => plResponse s k
  | 15 => s.cnt (plA 0x50) 1
  | p => if plState s p = 3 then plEnqueue s p false { k with hops := k.hops + 1 } else s.cnt (plA 0x48) 1

/-- Absorb a packet: a request is answered `code`, a response carries it on to the same XID, a posted packet is
discarded. -/
def plAbsorb (s : State) (k : PlPkt) (code ctr : Nat) : State :=
  let s1 := s.cnt (plA ctr) 1
  if plAsks k then
    let r := plReply s1 k code []
    if k.src = plUnit s1 ∧ plValid s1 then plResponse s1 r else plSendResp s1 r
  else if plAnswers k then
    plSendResp s1 { k with epoch := plEpoch s1, payload := yardPayload 8 (yLen k) (ySub k) code (yXid k) (yAddr k) [] }
  else s1

/-- Send packet `k` out towards its destination on its epoch's table (R445, R457). MGMT packets leave a LINKED port
too. -/
def plForward (s : State) (k : PlPkt) : State :=
  match plRoute s k.epoch k.dst with
  | 8 => s
  | 15 => plAbsorb s k rspNone 0x50
  | p =>
    if plState s p = 3 ∨ (k.kind = 1 ∧ plState s p = 2) then plEnqueue s p false { k with hops := k.hops + 1 }
    else if p < 8 then plAbsorb s k rspNone 0x48
    else plAbsorb s k rspNone 0x50

/-! ## Port states (R434, R442) -/

/-- Start a training of port `p`, which returns to `prior` once every lane has aligned. -/
def plTrain (s : State) (p prior : Nat) : State :=
  let x := s.plp p
  let s1 := if x.trained then s.cnt (plP p 0x54) 1 else s
  let s2 := plEnter (s1.wf (plP p 4) 4 3 0) p 1
  s2.setPlp p { s2.plp p with prior := prior, trainAt := s2.now, trained := true, errs := [], secHi := [] }

/-- Port `p` enters DOWN: its replay buffer is discarded, AUTH_OK cleared, and what waits for it is absorbed. -/
def plDown (s : State) (p : Nat) : State :=
  let q := (s.plp p).queue
  let s1 := plEnter ((s.wf (plP p 4) 4 3 0).wb (plP p 4) 5 false) p 0
  let x := s1.plp p
  let s2 := s1.setPlp p { PlPort.reset with msgs := x.msgs, tmk := x.tmk, fails := x.fails }
  q.foldl (fun s w => if w.mtx then s else plAbsorb s w.pkt rspNone 0x48) s2

/-- LOS or LOL of a lane (R434). -/
def laneFault (s : State) (p lane : Nat) (los : Bool) : State :=
  if plPm s p ≠ 0 ∧ los then s
  else
    let s1 := s.wb (plP p 4) ((if los then 8 else 16) + lane) true
    if plUp s p ∧ (plLanes s p).contains lane then plTrain s1 p (plState s p) else s1

/-- A training has not aligned within 100 us (R434). -/
def trainingTimeout (s : State) (p : Nat) : State :=
  if plState s p = 1 then
    let s1 := s.until ((s.plp p).trainAt + 100 * us)
    let f := s1.now :: (s1.plp p).fails.filter (fun t => decide (s1.now < t + 1000000 * us))
    let s2 := s1.modPlp p (fun x => { x with fails := f })
    if 3 ≤ f.length then (plDown s2 p).modPlp p (fun x => { x with fails := [] }) else plTrain s2 p (s2.plp p).prior
  else s

/-- Resend what the peer has not acknowledged (R439). -/
def plReplay (s : State) (p : Nat) : State :=
  (s.plp p).replay.foldl (fun s r => s.emit (.plPacket p r.2)) s

/-- Every lane of the width has aligned (R434). -/
def trainingDone (s : State) (p : Nat) : State :=
  if plState s p = 1 then
    let m := (plLanes s p).foldl (fun v l => clrBit (clrBit v (8 + l)) (16 + l)) (s.rd (plP p 4))
    let s1 := plEnter (s.wr (plP p 4) m) p (s.plp p).prior
    plPump (plReplay (s1.modPlp p (fun x => { x with idle := s1.now })) p) p
  else s

/-- Change of PL_P_CFG.EN: training out of DOWN, or DOWN. LRATE 0 keeps the lanes off (R430). -/
def plEnable (s : State) (p : Nat) (was : Bool) : State :=
  let c := s.rd (plP p 0)
  if tb c 0 ∧ !was then
    if fld c 2 1 = 0 then s else plTrain (s.setPlp p { PlPort.reset with msgs := (s.plp p).msgs }) p 2
  else if !tb c 0 ∧ was then plDown s p
  else s

/-! ## Power states (R435, R436) -/

/-- Enter QUIET (1) or COLD (2), unless a packet is queued, which cancels the entry. -/
def plSleep (s : State) (p st : Nat) : State :=
  if (s.plp p).queue ≠ [] then s
  else ((s.wf (plP p 4) 4 3 st).emit (.plPwr p (st - 1))).modPlp p (fun x => { x with idle := s.now })

/-- The port is ACTIVE again and sends what waits. -/
def plExit (s : State) (p : Nat) : State :=
  if plPm s p = 0 then s
  else plPump ((s.wf (plP p 4) 4 3 0).modPlp p (fun x => { x with idle := s.now })) p

/-- AUTO_PM (R435): Q_IDLE_NS without a packet leads to QUIET, C_IDLE_US more to COLD. -/
def autoPm (s : State) (p : Nat) : State :=
  let pm := s.rd (plP p 8)
  let since := (s.plp p).idle
  if !s.rb (plP p 0) 5 ∨ !plUp s p ∨ plTimeRole s p then s
  else if plPm s p = 0 ∧ fld pm 15 0 ≠ 0 then plSleep (s.until (since + fld pm 15 0 * 1536)) p 1
  else if plPm s p = 1 ∧ fld pm 31 16 ≠ 0 then plSleep (s.until (since + fld pm 31 16 * us)) p 2
  else s

/-! ## CAL (R460) -/

/-- Start the measurement, in a domain that the port sends. -/
def calStart (s : State) (p : Nat) : State :=
  let d := if s.rb (plA 0x1C) (8 + p) then 0 else 1
  ((s.wb (plP p 4) 7 true).wb (plP p 4) 6 false).modPlp p (fun x =>
    { x with calAt := s.now, calDom := d, cal := [], peer := none })

/-- Mean of a lane's captures in domain units. -/
def calMean (x : PlPort) (l : Nat) : Int := let c := tget (fun _ => ((0 : Int), 0)) x.cal l; c.1 / (max 1 c.2 : Nat)

def calFull (s : State) (p : Nat) : Bool :=
  (plLanes s p).all (fun l => decide (4096 ≤ (tget (fun _ => ((0 : Int), 0)) (s.plp p).cal l).2))

/-- CAL ends: the tables are written, or a lane had too few captures within 10 ms. -/
def calComplete (s : State) (p : Nat) : State :=
  if !s.rb (plP p 4) 7 then s
  else
    let x := s.plp p
    let done := s.wb (plP p 4) 7 false
    match calFull s p, x.peer with
    | true, some g =>
      let ls := plLanes s p
      let n : Int := (ls.length : Nat)
      let fb := (ls.map (calMean x)).sum / n
      let gb := (ls.map (fun l => g.getD l 0)).sum / n
      let s1 := ls.foldl (fun s l =>
        (s.wr (plP p (0x80 + 4 * l)) (uns 32 ((g.getD l 0 + (fb - gb) / 2) / fracU))).wr (plP p (0xA0 + 4 * l))
          (uns 32 ((calMean x l + (gb - fb) / 2) / fracU))) done
      plFlag (s1.wb (plP p 4) 6 true) 4
    | _, _ => done.until (x.calAt + 10000 * us)

/-! ## Management messages (R443) -/

/-- A one-segment MGMT packet to unit `u` on channel `ch`. -/
def mgmtPkt (s : State) (ch mtype id u : Nat) (body : List Byte) : PlPkt :=
  ⟨1, ch, plEpoch s, 0, 0, 0, u, plUnit s, natLe 8 (mtype + 2 ^ 16 + id % 2 ^ 32 * 2 ^ 32) ++ body⟩

/-- Segments of a message of type `mtype`. -/
def mgmtSegs (body : List Byte) : List (List Byte) :=
  (List.range (max 1 (cdiv body.length 248))).map (fun i => (body.drop (248 * i)).take 248)

/-- Queue a message to the neighbour of port `p`. -/
def mgmtSend (s : State) (p mtype id : Nat) (body : List Byte) : State :=
  let sg := mgmtSegs body
  ((List.range sg.length).zip sg).foldl (fun s (i, b) =>
    let k : PlPkt := ⟨1, 0, plEpoch s, 0, 0, 0, s.rf (plP p 0x14) 19 0, plUnit s,
      natLe 8 (mtype + i * 2 ^ 8 + sg.length * 2 ^ 16 + id % 2 ^ 32 * 2 ^ 32) ++ b⟩
    plEnqueue s p true k) s

/-- Packets of a message still waiting to leave (MTX_BUSY). -/
def mtxBusy (s : State) (p : Nat) : Bool := (s.plp p).queue.any (fun (w : PlWait) => w.mtx)

/-- PL_P_MTX_SEND: the Barn holds the message as a ring slot does, header first (R443). -/
def mtxSend (s : State) (p len : Nat) : Nat × State :=
  let a := s.rd (plP p 0x30)
  if len < 8 ∨ 7936 < len ∨ mtxBusy s p ∨ !plUp s p ∨ barnSize < a + len then (rspTgt, s)
  else
    let r := s.fetchAll (plPortEp p) a len
    (rspOk, mgmtSend r.2.2 p (le r.2.1 2 1) (le r.2.1 4 4) (r.2.1.drop 8))

/-- Add a segment that has arrived on port `p` (R443). -/
def mgmtSegment (s : State) (p : Nat) (k : PlPkt) : State :=
  let mt := le k.payload 0 1
  let i := le k.payload 1 1
  let n := le k.payload 2 1
  let id := le k.payload 4 4
  let b := k.payload.drop 8
  if n = 0 ∨ 32 < n ∨ n ≤ i then s
  else
    let x := s.plp p
    let same := fun (m : PlMsg) => decide (m.mtype = mt ∧ m.id = id ∧ m.nseg = n ∧ m.ch = k.ch)
    let m : PlMsg := match x.parts.find? same with
      | some m => { m with segs := (m.segs.filter (fun g => decide (g.1 ≠ i))) ++ [(i, b)] }
      | none => ⟨mt, id, n, [(i, b)], k.ch, s.now⟩
    let rest := x.parts.filter (fun m => !same m)
    if m.segs.length = n then s.setPlp p { x with parts := rest, msgs := x.msgs ++ [m] }
    else s.setPlp p { x with parts := rest ++ [m] }

/-- The bytes of a complete message. -/
def mgmtBody (m : PlMsg) : List Byte :=
  (List.range m.nseg).foldl (fun l i => match m.segs.find? (fun g => decide (g.1 = i)) with
    | some g => l ++ g.2
    | none => l) []

/-- A barrier acknowledgement of unit `u` on channel `ch` (R455). -/
def barrierAck (s : State) (u ch : Nat) : State :=
  match fenceOf s u with
  | some (i, f) =>
    if f.st = 2 then
      let a := if f.acks.contains ch then f.acks else f.acks ++ [ch]
      let g : PlFence := if 4 ≤ a.length then { f with st := 3, acks := [], auto := false, barFail := false } else { f with acks := a }
      { s with pl := { s.pl with fences := tset fenceDflt s.pl.fences i g } }
    else s
  | none => s

/-- A message that a port consumes itself (R443): BARRIER is acknowledged on its channel, BARRIER_ACK counts
toward the barrier, CAL brings the peer's means. -/
def mgmtConsume (s : State) (p : Nat) (m : PlMsg) : State :=
  let b := mgmtBody m
  match m.mtype with
  | 0x10 => plForward s (mgmtPkt s m.ch 0x11 0 (le b 4 4 % 2 ^ 20) (natLe 4 (le b 0 4) ++ natLe 4 (plUnit s)))
  | 0x11 => barrierAck s (le b 4 4 % 2 ^ 20) m.ch
  | _ => s.modPlp p (fun x => { x with peer := some ((List.range 8).map (fun l => sgn 64 (le b (8 * l) 8) * fracU)) })

/-- Message types a port writes to its ring: those of R443's table that are not its own. -/
def mgmtKnown (t : Nat) : Bool := decide (1 ≤ t ∧ t ≤ 5) || decide (0x20 ≤ t ∧ t ≤ 0x7F)

/-- MGMT_MESSAGE: the oldest complete message of port `p` is consumed, dropped or written to the ring. -/
def mgmtMessage (s : State) (p : Nat) : State :=
  match (s.plp p).msgs with
  | [] => s
  | m :: rest =>
    let s1 := s.modPlp p (fun x => { x with msgs := rest })
    if 0x10 ≤ m.mtype ∧ m.mtype ≤ 0x12 then mgmtConsume s1 p m
    else
      let b := mgmtBody m
      let n := s1.rd (plP p 0x20)
      let h := s1.rd (plP p 0x24)
      let full := decide (n < 2) || decide ((h + 1) % n = s1.rd (plP p 0x28))
      if !mgmtKnown m.mtype || full then s1.cnt (plP p 0x5C) 1
      else
        let base := s1.rd (plP p 0x18) + s1.rd (plP p 0x1C) * 2 ^ 32 + h * 8192
        let l := natLe 2 b.length ++ natLe 2 m.mtype ++ natLe 4 m.id ++ b
        let s2 := (s1.putAll (plPortEp p) base l).2
        let s3 := if m.mtype = 1 then
            s2.wr (plP p 0x14) (le b 0 4 % 2 ^ 20 + le b 4 1 % 8 * 2 ^ 20 + le b 3 1 / 128 * 2 ^ 31)
          else s2
        plFlag (s3.wr (plP p 0x24) ((h + 1) % n)) 3

/-- MGMT_REASSEMBLY_TIMEOUT: the oldest message still incomplete 1 ms after its first segment is dropped. -/
def mgmtTimeout (s : State) (p : Nat) : State :=
  match (s.plp p).parts with
  | [] => s
  | m :: rest => ((s.until (m.since + 1000 * us)).modPlp p (fun x => { x with parts := rest })).cnt (plP p 0x5C) 1

/-! ## Commits (R447-R451) -/

/-- Old-epoch packets held (PL_DRAIN). -/
def plDrain (s : State) : Nat :=
  if plDraining s then
    ((List.range 8).map (fun p => ((s.plp p).queue.filter (fun (w : PlWait) => decide (w.pkt.epoch ≠ plEpoch s))).length)).sum
  else 0

/-- The first failure of the shadow table (R448). -/
def plCheck (s : State) (force : Bool) : Nat :=
  let t := 1 - plEpoch s
  let own := 0x140 + fld (plUnit s) 5 0
  let es := List.range 384
  let e := plEntry s t
  if es.any (fun o => decide (9 ≤ e o ∧ e o ≤ 14)) then 1
  else if es.any (fun o => decide ((e o = 8) ≠ (o = own))) then 2
  else if es.any (fun o => decide (e o < 8) && !s.rb (plP (e o) 0) 0) then 3
  else if plDraining s ∧ !force then 4
  else if !plValid s then 5
  else 0

/-- STALE packets of a forced commit (R449): those of the epoch about to be current again, in order. -/
def plStale (s : State) (e : Nat) : State :=
  (List.range 8).foldl (fun s p =>
    let old := (s.plp p).queue.filter (fun (w : PlWait) => decide (w.pkt.epoch = e) && decide (w.pkt.kind ≠ 1))
    let s1 := s.modPlp p (fun x => { x with queue := x.queue.filter (fun w => !old.contains w) })
    old.foldl (fun s w => plFlag (plAbsorb s w.pkt rspEpoch 0x44) 7) s1) s

def plPrepare (s : State) : State :=
  let st := plA 0x24
  let force := s.rb (plA 0x20) 3
  let err := plCheck s force
  let s1 := (s.wf st 11 8 err).wb st 4 (decide (err = 0))
  if err = 0 then
    let s2 := plFlag (s1.wb st 1 true) 5
    if plDraining s then plStale s2 (1 - plEpoch s) else s2
  else s1

/-- PL_RT_CTRL: one step of the commit; out of order it is answered RSP_TGT (R447, R451). -/
def plRtCtrl (s : State) (v : Nat) : Nat × State :=
  let st := plA 0x24
  let s1 := s.wf (plA 0x20) 3 3 (fld v 3 3)
  match v % 8 with
  | 0 => (rspOk, s1)
  | 1 => (rspOk, plPrepare s1)
  | 2 =>
    if s.rb st 1 then
      let s2 := s1.wr st ((clrBit (clrBit (s1.rd st) 1) 3 ||| 4) ^^^ 1)
      (rspOk, { s2 with pl := { s2.pl with hold := s2.pl.sent, sent := [] } })
    else (rspTgt, s)
  | 4 =>
    if s.rb st 2 ∧ s.rb st 3 then
      let s2 := s1.wb st 2 false
      (rspOk, (List.range 8).foldl plPump { s2 with pl := { s2.pl with hold := [] } })
    else (rspTgt, s)
  | _ => (rspTgt, s)

def plDrained (s : State) : State :=
  let st := plA 0x24
  if s.rb st 2 ∧ !s.rb st 3 ∧ plDrain s = 0 then plFlag (s.wb st 3 true) 6 else s

/-! ## The fence list (R452-R456) -/

def setFence (s : State) (i : Nat) (f : PlFence) : State := { s with pl := { s.pl with fences := tset fenceDflt s.pl.fences i f } }

/-- Complete every outstanding XID to unit `u` with RSP_FENCED (R453). -/
def fenceXids (s : State) (u : Nat) : State :=
  (s.pl.xids.filter (fun (x : PlXid) => decide (x.unit = u))).foldl (fun s x => xidDone s x rspFenced []) s

/-- Fence unit `u`; false where the list is full. -/
def plFenceUnit (s : State) (u : Nat) (auto : Bool) : Bool × State :=
  match fenceOf s u with
  | some (i, f) => (true, fenceXids (setFence s i { f with st := 1, auto := auto, acks := [] }) u)
  | none =>
    match lowest 256 (fun i => decide ((tget fenceDflt s.pl.fences i).st = 0)) with
    | some i => (true, fenceXids (setFence s i ⟨u, 1, 1, auto, false, [], 0⟩) u)
    | none => (false, s)

/-- UNFENCE (R455): GEN is raised and a BARRIER sent on each channel. -/
def plUnfence (s : State) (u : Nat) : Nat × State :=
  match fenceOf s u with
  | some (i, f) =>
    if f.st = 1 then
      let g := if f.gen = 15 then 1 else f.gen + 1
      let s1 := setFence s i { f with st := 2, gen := g, acks := [], since := s.now }
      (rspOk, (List.range 4).foldl (fun s ch =>
        plForward s (mgmtPkt s ch 0x10 0 u (natLe 4 g ++ natLe 4 (plUnit s)))) s1)
    else (rspTgt, s)
  | none => (rspTgt, s)

/-- PL_FENCE_CMD. -/
def plFenceCmd (s : State) (v : Nat) : Nat × State :=
  let u := fld v 19 0
  match fld v 21 20 with
  | 1 => let r := plFenceUnit s u false; (if r.1 then rspOk else rspTgt, r.2)
  | 2 => plUnfence s u
  | 3 => match fenceOf s u with
    | some (i, f) => if f.st = 3 then (rspOk, setFence s i PlFence.reset) else (rspTgt, s)
    | none => (rspTgt, s)
  | _ => (rspTgt, s)

/-- The barrier of unit `u` misses PL_BAR_TMO (R455). -/
def plBarrierTimeout (s : State) (u : Nat) : State :=
  match fenceOf s u with
  | some (i, f) =>
    if f.st = 2 then
      plFlag (setFence (s.until (f.since + s.rf (plA 0x18) 19 0 * us)) i { f with st := 1, barFail := true, acks := [] }) 2
    else s
  | none => s

/-- Fence unit `u` because a response is missing (R452, R453). -/
def plAutoFence (s : State) (u : Nat) : State :=
  let r := plFenceUnit s u true
  if r.1 then plFlag r.2 1 else plFlag r.2 8

/-- The oldest outstanding XID of number `xid` misses PL_RSP_TMO (R452). -/
def plRspTimeout (s : State) (xid : Nat) : State :=
  match s.pl.xids.find? (fun (x : PlXid) => decide (x.xid = xid)) with
  | some x =>
    let s1 := s.until (x.since + s.rf (plA 0x14) 19 0 * us)
    plAutoFence ((xidDone s1 x rspFenced []).cnt (plA 0x40) 1) x.unit
  | none => s

/-! ## Requests for other units (R28-R30, R438) -/

/-- The Phinerlink port endpoint nearest to endpoint `e`: of the block's four routers, the nearest by mesh distance. -/
def nearestPl (e : Nat) : Nat :=
  let dist := fun (r : Nat) =>
    let x := e / 32
    (max (x % 12) (r % 12) - min (x % 12) (r % 12)) + (max (x / 12) (r / 12) - min (x / 12) (r / 12))
  (List.range 4).foldl (fun b i => if dist (plRouter i) < dist (plRouter (b / 2)) then 2 * i else b) 0

/-- The global address of a local address inside a remote window, if the window is enabled (R29). -/
def windowGlobal (s : State) (a : Nat) : Option (Nat × Nat) :=
  let w := s.rd (plA (0x100 + 4 * ((a - 0x80000000000) / 0x2000000000)))
  if tb w 31 then some (fld w 19 0, fld w 26 20 * 2 ^ 37 + a % 2 ^ 37) else none

/-- What the source side does with a request for unit `u` (R438, R453, R457): the answer it gives at once, or
RSP_OK and the packet on its way under `xid`. -/
def plRequest (s : State) (u opc len sb xid addr : Nat) (data : List Byte) : Nat × State :=
  let asks := decide (opc ≠ 2 ∧ opc ≠ 4)
  if !plValid s then (rspNone, s)
  else if plFenced s u then (rspFenced, s.cnt (plA (if asks then 0x34 else 0x38)) 1)
  else
    let e := plEpoch s
    match plRoute s e u with
    | 15 => (rspNone, s.cnt (plA 0x50) 1)
    | p =>
      if p < 8 ∧ plState s p = 3 then
        let ch := if opc = 4 then 1 else 0
        let k : PlPkt := ⟨0, ch, e, 1, plFgen s, plPgen s u, u, plUnit s, yardPayload opc len sb 0 xid addr data⟩
        let d := u % 4096
        let s1 := if s.pl.sent.contains d then s else { s with pl := { s.pl with sent := s.pl.sent ++ [d] } }
        (rspOk, plEnqueue s1 p false k)
      else (rspNone, s.cnt (plA (if p < 8 then 0x48 else 0x50)) 1)

/-- The lowest XID toward unit `u` that is not outstanding. -/
def freeXid (s : State) (u : Nat) : Option Nat :=
  lowest 4096 (fun i => !s.pl.xids.any (fun (x : PlXid) => decide (x.xid = i) && decide (x.unit = u)))

/-! ## Time markers (R458, R459) -/

/-- TMK_SEND: a marker of domain `d` leaves port `p`. -/
def tmkSend (s : State) (p d : Nat) : State :=
  if s.rb (plA 0x1C) (8 + 8 * d + p) ∧ domValid s d ∧ plUp s p ∧ plPm s p = 0 then
    let x := s.plp p
    let n := tget (fun _ => 0) x.tmk d
    let t := timeParts (domTime s d)
    let w := if n = 0 then t.1 / 2 ^ 24 % 2 ^ 24 * 2 ^ 40
      else t.1 % 2 ^ 24 * 2 ^ 40 + t.2.1 % 2 ^ 30 * 2 ^ 10 + t.2.2 / 64 % 1024
    (s.setPlp p { x with tmk := tset (fun _ => 0) x.tmk d ((n + 1) % 128) }).emit (.plTmk p (d * 128 + n) w)
  else s

/-- Domain time at an earlier quantum, to the sampler's 31.25 ps. -/
def sampledAt (s : State) (d q : Nat) : Int :=
  let x := domTime { s with now := q } d
  x / (nsU / 32) * (nsU / 32)

/-- A valid marker error reaches the servo of domain `d`: once per 2^AVG markers (R459). -/
def tmkServo (s : State) (p d : Nat) (e : Int) : State :=
  let s0 := s.setDom d { s.dom d with lastPulse := s.now }
  let n := 2 ^ s.rf (plA 0x1C) 27 24
  let x := s0.plp p
  let a := tget (fun _ => ((0 : Int), 0)) x.errs d
  let sum := a.1 + e
  if n ≤ a.2 + 1 then
    let s1 := s0.setPlp p { x with errs := tset (fun _ => ((0 : Int), 0)) x.errs d (0, 0) }
    servo s1 d (sum / (n : Nat)) true
  else s0.setPlp p { x with errs := tset (fun _ => ((0 : Int), 0)) x.errs d (sum, a.2 + 1) }

/-- Add captures to a CAL in progress; when every lane has 4,096 the means go to the peer. -/
def tmkCal (s : State) (p d : Nat) (word : Int) (caps : List (Nat × Int)) : State :=
  let x := s.plp p
  if s.rb (plP p 4) 7 ∧ x.calDom = d ∧ !calFull s p then
    let c := caps.foldl (fun c (l, t) =>
      let o := tget (fun _ => ((0 : Int), 0)) c l
      if 4096 ≤ o.2 then c else tset (fun _ => ((0 : Int), 0)) c l (o.1 + (t - word), o.2 + 1)) x.cal
    let s1 := s.setPlp p { x with cal := c }
    if calFull s1 p then
      let l := (List.range 8).flatMap (fun l => natLe 8 (uns 64 (calMean (s1.plp p) l / fracU)))
      mgmtSend s1 p 0x12 0 l
    else s1
  else s

/-- TMK_RECEIVE: SEQ, time word and the quanta at which lanes captured TMK. -/
def tmkReceive (s : State) (p sq word : Nat) (capts : List (Nat × Nat)) : State :=
  if !plUp s p then s
  else
    let d := sq / 128 % 2
    let x := s.plp p
    let ls := plLanes s p
    let mine := capts.filter (fun c => ls.contains c.1)
    if sq % 128 = 0 then s.setPlp p { x with secHi := tset (fun _ => none) x.secHi d (some (word / 2 ^ 40)) }
    else
      match tget (fun _ => none) x.secHi d with
      | none => s.cnt (plP p 0x58) 1
      | some hi =>
        if mine.length * 2 < ls.length ∨ 999999999 < fld word 39 10 then s.cnt (plP p 0x58) 1
        else
          let t : Int := (hi * 2 ^ 24 + fld word 63 40 : Nat) * secU + (fld word 39 10 : Nat) * nsU + (fld word 9 0 : Nat) * (nsU / 1024)
          let caps := mine.map (fun c => (c.1, sampledAt s d c.2))
          let s1 := tmkCal s p d t caps
          let good := caps.filter (fun c => !s.rb (plP p 4) (8 + c.1) && !s.rb (plP p 4) (16 + c.1))
          let es := good.map (fun c => c.2 - sgn 32 (s.rd (plP p (0xA0 + 4 * c.1))) * fracU - t)
          if domEn s1 d ∧ domSrc s1 d = 3 ∧ plParent s1 d = p ∧ es ≠ [] then
            tmkServo s1 p d (es.sum / (es.length : Nat))
          else s1

/-! ## Link layer (R439) -/

/-- LCTL: an acknowledgement (below 4096) frees the replay buffer, a NAK also replays; three NAKs for one LSEQ
retrain the port. Credits are added to channels 0-3. -/
def plLctl (s : State) (p ack nak : Nat) (credits : List Nat) : State :=
  if !plUp s p then s
  else
    let upTo := fun (r : List (Nat × List Byte)) (n : Nat) =>
      if n < 4096 ∧ r.any (fun e => decide (e.1 = n)) then (r.dropWhile (fun e => decide (e.1 ≠ n))).drop 1 else r
    let x := s.plp p
    let c := (List.range 4).foldl (fun c i => tmod (fun _ => 0) c i (· + credits.getD i 0)) x.credits
    let s1 := s.setPlp p { x with replay := upTo (upTo x.replay ack) nak, credits := c, idle := s.now }
    if nak < 4096 then
      let n := if x.naks.1 = nak then x.naks.2 + 1 else 1
      let s2 := (s1.modPlp p (fun x => { x with naks := (nak, n) })).cnt (plP p 0x4C) 1
      if 3 ≤ n then plTrain (s2.modPlp p (fun x => { x with naks := (0, 0) })) p (plState s2 p)
      else plPump (plReplay s2 p) p
    else plPump s1 p

/-! ## Registers (R463, R464) -/

def plCmd (s : State) (p v : Nat) : Nat × State :=
  match v % 128 with
  | 0 => (rspOk, s)
  | 1 => if s.rb (plP p 0) 0 ∧ s.rf (plP p 0) 2 1 ≠ 0 then
      (rspOk, plTrain s p (if plState s p = 1 then (s.plp p).prior else max 2 (plState s p))) else (rspTgt, s)
  | 2 => if plState s p = 2 ∧ s.rb (plP p 4) 5 ∧ plValid s then (rspOk, plEnter s p 3) else (rspTgt, s)
  | 4 => if plState s p = 3 then (rspOk, plEnter s p 2) else (rspTgt, s)
  | 8 => if plUp s p ∧ !s.rb (plP p 4) 7 ∧ (s.rb (plA 0x1C) (8 + p) ∨ s.rb (plA 0x1C) (16 + p)) then (rspOk, calStart s p)
    else (rspTgt, s)
  | 16 => if plUp s p ∧ plPm s p = 0 ∧ !plTimeRole s p then (rspOk, plSleep s p 1) else (rspTgt, s)
  | 32 => if plUp s p ∧ plPm s p ≤ 1 ∧ !plTimeRole s p then (rspOk, plSleep s p 2) else (rspTgt, s)
  | 64 => if plUp s p then (rspOk, plExit s p) else (rspTgt, s)
  | _ => (rspTgt, s)

def plView (nm : String) (ix : List Nat) (a : Nat) (s : State) : Nat :=
  match nm with
  | "PL_STATUS" => plFgen s + (List.range 8).foldl (fun v p => v + b2n (decide (plState s p = 3)) * 2 ^ (4 + p)) 0
  | "PL_DRAIN" => min 0xFFFF (plDrain s)
  | "PL_FENCE_ENTRY" =>
    let f := tget fenceDflt s.pl.fences (s.rf (plA 0x2C) 7 0)
    f.unit % 2 ^ 20 + f.st % 4 * 2 ^ 20 + f.gen % 16 * 2 ^ 22 + b2n f.auto * 2 ^ 26 + b2n f.barFail * 2 ^ 27
  | "PL_P_STATUS" => s.rd a % 2 ^ 31 + b2n (mtxBusy s (ix.getD 0 0)) * 2 ^ 31
  | _ => s.rd a

/-- Would a write of PL_TIME_CFG move a port with packets queued into or out of a time role? -/
def plTimeMoves (s s1 : State) : Bool :=
  (List.range 8).any (fun p => decide ((s.plp p).queue ≠ []) && (plTimeRole s p != plTimeRole s1 p))

/-- The block's own part of a register write by `src`. -/
def plWrite (src : Nat) : WriteHook := fun nm ix v s s1 =>
  let p := ix.getD 0 0
  match nm with
  | "PL_CFG" => (rspOk, if tb v 1 then (fgenInc s1).wb (plA 0) 1 false else s1)
  | "PL_UNIT_ID" => if anyAdmitted s then (rspTgt, s) else (rspOk, s1)
  | "PL_RSP_TMO" =>
    let t := fld v 19 0
    if t < 10 ∨ 1000000 < t ∨ s.rf (yrdA 0) 19 0 ≤ t then (rspTgt, s) else (rspOk, s1)
  | "PL_BAR_TMO" => if fld v 19 0 < 10 ∨ 1000000 < fld v 19 0 then (rspTgt, s) else (rspOk, s1)
  | "PL_TIME_CFG" => if 12 < fld v 27 24 ∨ plTimeMoves s s1 then (rspTgt, s) else (rspOk, s1)
  | "PL_RT_CTRL" => plRtCtrl s v
  | "PL_FENCE_CMD" => plFenceCmd s v
  | "PL_RT_WORD" => if p = plEpoch s ∨ plDraining s then (rspTgt, s) else (rspOk, s1)
  | "PL_P_CFG" =>
    let old := s.rd (plP p 0)
    if fld v 4 3 = 3 ∨ (tb old 0 ∧ fld v 4 1 ≠ fld old 4 1) then (rspTgt, s) else (rspOk, plEnable s1 p (tb old 0))
  | "PL_P_CMD" => plCmd s p v
  | "PL_P_AUTH" =>
    if src ≠ tackEp then (rspTgt, s)
    else (rspOk, if tb v 0 ∧ plState s p ≠ 0 then (s1.wr (plP p 0x10) 0).wb (plP p 4) 5 true else s)
  | "PL_P_MRX_GEOM" => if fld v 10 0 < 2 ∨ 1024 < fld v 10 0 then (rspTgt, s) else (rspOk, s1)
  | "PL_P_MRX_TAIL" => if s.rd (plP p 0x20) ≤ v % 2 ^ 32 then (rspTgt, s) else (rspOk, s1)
  | "PL_P_MTX_SEND" => mtxSend s p (fld v 12 0)
  | "PL_INT_EN" => (rspOk, s1.rise 3 (decide (s.rd (plA 0xC) &&& s.rd (plA 0x10) ≠ 0)) (decide (s1.rd (plA 0xC) &&& s1.rd (plA 0x10) ≠ 0)))
  | _ => (rspOk, s1)

/-! ## Meanings -/

def plEvent (f : State → Nat → State) (p : Nat) (s : State) : Out := if p < 8 then .next (f s p) else .fault .noSuchUnit

/-- A write of `v` by `src` to the Phinerlink register at `a`. -/
def plReg (src a v : Nat) (s : State) : Out := .next (s.regWriteBy (plWrite src) a v)

/-- Software's writes of these rows come from a Loft core. -/
def plPortCmd (v p : Nat) (s : State) : Out := if p < 8 then plReg (loftEp 0) (plP p 0xC) v s else .fault .noSuchUnit

/-- R434. -/
def execLaneFault (p lane : Nat) (los : Bool) (s : State) : Out :=
  if p < 8 ∧ lane < 8 then .next (laneFault s p lane los) else .fault .noSuchUnit
/-- R434. -/
def execTrainingTimeout (p : Nat) (s : State) : Out := plEvent trainingTimeout p s
/-- R434. -/
def execTrainingDone (p : Nat) (s : State) : Out := plEvent trainingDone p s
/-- R434, R464. -/
def execPlRetrain (p : Nat) (s : State) : Out := plPortCmd 1 p s
/-- R442. -/
def execPlAdmit (p : Nat) (s : State) : Out := plPortCmd 2 p s
/-- R442. -/
def execPlUnadmit (p : Nat) (s : State) : Out := plPortCmd 4 p s
/-- R460. -/
def execPlCal (p : Nat) (s : State) : Out := plPortCmd 8 p s
/-- R435, R436. -/
def execPlQuiet (p : Nat) (s : State) : Out := plPortCmd 16 p s
/-- R435, R436. -/
def execPlCold (p : Nat) (s : State) : Out := plPortCmd 32 p s
/-- R435. -/
def execPlWakeCmd (p : Nat) (s : State) : Out := plPortCmd 64 p s
/-- R460. -/
def execCalComplete (p : Nat) (s : State) : Out := plEvent calComplete p s
/-- R435. -/
def execAutoPmIdle (p : Nat) (s : State) : Out := plEvent autoPm p s
/-- R435. -/
def execPortWakeExit (p : Nat) (s : State) : Out := plEvent plExit p s
/-- R439. -/
def execPlLctl (p ack nak : Nat) (credits : List Nat) (s : State) : Out :=
  if p < 8 then .next (plLctl s p ack nak credits) else .fault .noSuchUnit
/-- R443. -/
def execMgmtMessage (p : Nat) (s : State) : Out := plEvent mgmtMessage p s
/-- R443. -/
def execMgmtReassemblyTimeout (p : Nat) (s : State) : Out := plEvent mgmtTimeout p s
/-- R443. -/
def execMtxSend (p len : Nat) (s : State) : Out := if p < 8 then plReg (loftEp 0) (plP p 0x38) len s else .fault .noSuchUnit
/-- R442: only the Tack room's write sets AUTH_OK. -/
def execAuthOk (src p : Nat) (s : State) : Out := if p < 8 then plReg src (plP p 0x10) 1 s else .fault .noSuchUnit
/-- A commit step, FORCE as it stands. -/
def plStep (b : Nat) (s : State) : Out := plReg (loftEp 0) (plA 0x20) (s.rd (plA 0x20) % 16 / 8 * 8 + b) s
/-- R447, R448. -/
def execPlPrepare (s : State) : Out := plStep 1 s
/-- R447. -/
def execPlSwitch (s : State) : Out := plStep 2 s
/-- R447. -/
def execPlRelease (s : State) : Out := plStep 4 s
/-- R447. -/
def execPlDrained (s : State) : Out := .next (plDrained s)
/-- R453. -/
def execPlFence (unit : Nat) (s : State) : Out := plReg (loftEp 0) (plA 0x28) (unit % 2 ^ 20 + 2 ^ 20) s
/-- R455. -/
def execPlUnfence (unit : Nat) (s : State) : Out := plReg (loftEp 0) (plA 0x28) (unit % 2 ^ 20 + 2 * 2 ^ 20) s
/-- R455. -/
def execPlRemove (unit : Nat) (s : State) : Out := plReg (loftEp 0) (plA 0x28) (unit % 2 ^ 20 + 3 * 2 ^ 20) s
/-- R455. -/
def execBarrierAck (unit vc : Nat) (s : State) : Out := if vc < 4 then .next (barrierAck s unit vc) else .fault .noSuchUnit
/-- R455. -/
def execPlBarrierTimeout (unit : Nat) (s : State) : Out := .next (plBarrierTimeout s unit)
/-- R452. -/
def execPlResponseTimeout (xid : Nat) (s : State) : Out := .next (plRspTimeout s xid)
/-- R454. -/
def execFgenInc (s : State) : Out := plReg (loftEp 0) (plA 0) (s.rd (plA 0) ||| 2) s
/-- R458. -/
def execTmkSend (p d : Nat) (s : State) : Out := if p < 8 ∧ d < 2 then .next (tmkSend s p d) else .fault .noSuchUnit
/-- R459. -/
def execTmkReceive (p sq word : Nat) (capts : List (Nat × Nat)) (s : State) : Out :=
  if p < 8 then .next (tmkReceive s p (sq % 256) (word % 2 ^ 64) capts) else .fault .noSuchUnit
/-- R464. -/
def execPlPortEnable (p : Nat) (en : Bool) (s : State) : Out :=
  if p < 8 then plReg (loftEp 0) (plP p 0) (setFld (s.rd (plP p 0)) 0 0 (b2n en)) s else .fault .noSuchUnit

end Sys2Proof.Machine
end

