-- ==== Sys2Proof/Machine/Yard.lean ====
section
/-! DEFINITION. The Yard network control block (R298, R307-R320): fences and drain barriers, response and wake
timeouts, link failures, route tables and commits, and the delivery of responses. -/

namespace Sys2Proof.Machine

/-- Set flag `i` of YRD_INT_STATUS (message source 0). -/
def yrdFlag (s : State) (i : Nat) : State := s.flag (yrdA 0xC) (yrdA 0x10) 0 i

/-- Timeouts in quanta. -/
def rspTmo (s : State) : Nat := s.rf (yrdA 0) 19 0 * us
def wakeTmo (s : State) : Nat := s.rf (yrdA 4) 13 0 * us
def barTmo (s : State) : Nat := s.rf (yrdA 8) 13 0 * us

/-! ## Which endpoints exist (R568) -/

/-- Number of endpoints of router `r`; they are ports 0 and up. -/
def epCount (r : Nat) : Nat :=
  match attachment r with
  | 0 => 26
  | 1 => let s := (r - 36) / 3
         match (r - 36) % 3 with
         | 0 => 9
         | 1 => 9
         | _ => if s % 2 = 0 then 7 else 6
  | 2 => 4
  | 3 => 4
  | 4 => 2
  | 5 => if r = 72 ∨ r = 73 then 6 else if r = 82 ∨ r = 83 then 5 else 0
  | _ => match r with
    | 86 => 1
    | 87 => 5
    | 88 => 1
    | 89 => 32
    | 90 => 1
    | 91 => 1
    | 92 => 2
    | 93 => 5
    | _ => 0

/-- Endpoint ID `e` names an endpoint. -/
def epExists (e : Nat) : Bool := decide (e / 32 < 96) && decide (e % 32 < epCount (e / 32))

/-- Kind of an endpoint as YRD_EP_INFO gives it (R319). -/
def epKindOf (e : Nat) : Nat :=
  let r := e / 32
  let p := e % 32
  if r < 24 ∨ (74 ≤ r ∧ r ≤ 81) then (if p < 16 then 1 else if p < 24 then 0 else if p = 24 then 2 else 3)
  else match attachment r with
    | 1 => 4
    | 2 => 5
    | 3 => 6
    | 4 => 7
    | 5 => if p = 5 then 9 else 8
    | _ => 10

/-- Index of an endpoint within its kind where R568 numbers that kind; the order of the accelerator instances,
the Loft cluster and the system functions is a free value (log 34). -/
def epIndexOf (e : Nat) : Nat :=
  let r := e / 32
  let p := e % 32
  let st := if r < 24 then r else r - 50
  match epKindOf e with
  | 0 => 8 * st + (p - 16)
  | 1 => 16 * st + p
  | 2 => st
  | 3 => st
  | 5 => 4 * (if r < 60 then r - 26 else r - 54) + p
  | 6 => 4 * (match r with
    | 24 => 0
    | 25 => 1
    | 60 => 2
    | 61 => 3
    | 34 => 4
    | 35 => 5
    | 70 => 6
    | _ => 7) + p
  | 7 => 2 * (if r < 90 then r - 84 else r - 92) + p
  | 9 => r - 72
  | _ => (Config.epIndex e).toNat

/-! ## Fences (R307-R312) -/

/-- Complete what is held for an endpoint that is fenced (R306): requests answered RSP_FENCED, posted discarded. -/
def dropHeld (s : State) (e : Nat) : State :=
  let mine := s.held.filter (fun h => decide (h.dst = e))
  mine.foldl (fun s h =>
    if h.kind = 2 ∨ h.kind = 4 then s.discardAt e
    else
      let r : YResp := ⟨h.req.src, h.req.seq, h.req.gen, rspFenced, [], e, (s.epSt e).gen, yrdEpoch s⟩
      { s.absorb e with resps := s.resps ++ [r] })
    { s with held := s.held.filter (fun h => decide (h.dst ≠ e)) }

/-- An endpoint becomes FENCED (R307): its outstanding reservations complete RSP_FENCED at once (R309). -/
def fence (s : State) (e : Nat) (auto : Bool) : State :=
  let s1 := s.setEp e { s.epSt e with st := 1, auto := auto }
  dropHeld { s1 with resvs := s1.resvs.filter (fun v => decide (v.src ≠ e)) } e

/-- Record a fence in YRD_LAST_FENCE. -/
def lastFence (s : State) (e : Nat) (auto : Bool) (by' : Nat) : State :=
  s.wr (yrdA 0x44) (e % 4096 + b2n auto * 2 ^ 12 + by' % 4096 * 2 ^ 16)

/-- The control block's own endpoint, which is never fenced (R308). -/
def yrdEp : Nat := ep (sysRouter 7) 0

/-- FENCE (R307, R308, R312). -/
def cmdFence (s : State) (e : Nat) : Nat × State :=
  if !epExists e ∨ e = yrdEp then (rspTgt, s) else (rspOk, lastFence (fence s e false) e false 0)

/-- UNFENCE (R311, R312): the generation is raised and the barrier starts. -/
def cmdUnfence (s : State) (e : Nat) : Nat × State :=
  if !epExists e ∨ (s.epSt e).st ≠ 1 then (rspTgt, s)
  else (rspOk, s.setEp e { s.epSt e with st := 2, gen := ((s.epSt e).gen + 1) % 16, since := s.now })

/-- A write of YRD_EP_CMD. -/
def epCmd (s : State) (v : Nat) : Nat × State :=
  match fld v 13 12 with
  | 1 => cmdFence s (fld v 11 0)
  | 2 => cmdUnfence s (fld v 11 0)
  | _ => (rspTgt, s)

/-- The barrier completes (R311 step 3). -/
def barrierDone (s : State) (e : Nat) : State :=
  if (s.epSt e).st = 2 then s.setEp e { s.epSt e with st := 0, auto := false, barFail := false } else s

/-- The barrier misses YRD_BAR_TMO (R311). -/
def barrierTimeout (s : State) (e : Nat) : State :=
  if (s.epSt e).st = 2 then
    let s1 := s.until ((s.epSt e).since + barTmo s)
    yrdFlag (s1.setEp e { s1.epSt e with st := 1, barFail := true }) 1
  else s

/-- A request of `src` for `dst` misses YRD_RSP_TMO (R308): the destination is fenced. -/
def timeoutFence (s : State) (src dst : Nat) : State :=
  let s1 := s.cnt (yrdA 0x48) 1
  if dst = yrdEp then s1 else yrdFlag (lastFence (fence s1 dst true) dst true src) 0

/-- RESPONSE_TIMEOUT of the request `seq` of endpoint `src`: RSP_FENCED is delivered. -/
def responseTimeout (s : State) (src seq : Nat) : State :=
  match s.resvs.find? (fun v => decide (v.src = src ∧ v.seq = seq)) with
  | none => s
  | some v =>
    let s1 := s.until (v.sent + rspTmo s)
    (timeoutFence { s1 with resvs := s1.resvs.erase v } src v.dst).answer rspFenced 0

/-! ## Responses (R298, R309, R310) -/

/-- A response reaches the initiator's NI: delivered, or discarded as stale. -/
def respond (s : State) (r : YResp) : State :=
  let stale := s.cnt (yrdA 0x4C) 1
  match s.resvs.find? (fun v => decide (v.src = r.src ∧ v.seq = r.seq ∧ v.gen = r.gen)) with
  | none => stale
  | some v =>
    if s.fenced r.src ∨ (s.epSt r.src).gen ≠ r.gen ∨ (s.epSt r.dst).gen ≠ r.dstGen then stale
    else
      let b := s.back r.src r.dst r.code
      ({ b.2 with resvs := b.2.resvs.erase v }).answer b.1 (if b.1 = rspOk then leNat r.data else 0)

/-- YARD_RESPONSE (R310): the oldest response on its way to `src` under `seq`. -/
def yardResponse (s : State) (src seq : Nat) : State :=
  match s.resps.find? (fun r => decide (r.src = src ∧ r.seq = seq)) with
  | none => s
  | some r => respond { s with resps := s.resps.erase r } r

/-! ## Wake timeouts (R305) -/

/-- WAKE_TIMEOUT for shed `k`: at every NI whose timer has expired, held requests are answered RSP_WAKE and held
posted worms discarded. -/
def wakeTimeout (s : State) (k : Nat) : State :=
  let mine := s.held.filter (fun h => decide (h.shed = k))
  match mine with
  | [] => s
  | h :: t =>
    let first := t.foldl (fun m x => min m x.start) h.start
    let s1 := s.until (first + wakeTmo s)
    let due := fun (x : Held) => decide (x.shed = k) && decide (x.start + wakeTmo s ≤ s1.now)
    (mine.filter due).foldl (fun s x =>
      let s2 := s.cnt (yrdA 0x50) 1
      if x.kind = 2 ∨ x.kind = 4 then s2
      else
        let r : YResp := ⟨x.req.src, x.req.seq, x.req.gen, rspWake, [], x.dst, (s.epSt x.dst).gen, yrdEpoch s⟩
        { s2 with resps := s2.resps ++ [r] })
      { s1 with held := s1.held.filter (fun x => !due x) }

/-! ## Links (R298) -/

/-- Both ends of the link of router `r` through port `p`. -/
def linkEnds (r p : Nat) : List Nat :=
  match neighbour r p with
  | some q => [4 * r + (p - 1), 4 * q + (if p ≤ 2 then p + 1 else p - 3)]
  | none => []

def noCount : Nat → Nat := fun _ => 0

/-- FLIT_RECEIVE: router `r` receives a flit through `port` (R298, R314). -/
def flitReceive (s : State) (r port : Nat) (ok express tail : Bool) (epoch : Nat) : State :=
  let k := 8 * r + port
  let a := yrdA (0x10000 + r * 0x20)
  if ok then
    let s1 := { s with replays := tset noCount s.replays k 0 }
    let s2 := s1.cnt (a + (if express then 0x10 else 0xC)) 1
    { s2 with worms := tset noCount s2.worms k (if tail then 0 else 1 + epoch % 2) }
  else
    let n := tget noCount s.replays k
    if n < 3 then ({ s with replays := tset noCount s.replays k (n + 1) }).cnt (a + 0x18) 1
    else
      let s1 := { s with replays := tset noCount s.replays k 0, down := s.down ++ (linkEnds r port).filter (fun e => !s.down.contains e) }
      yrdFlag s1 5

/-- LINK_RETRAIN: a DOWN bit is written 1; the link is retrained in both directions. -/
def linkRetrain (s : State) (r dir : Nat) : State :=
  if s.down.contains (4 * r + dir) then { s with down := s.down.filter (fun e => !(linkEnds r (dir + 1)).contains e) } else s

/-- YRD_RTR_DRAIN: old-epoch worms a router holds. -/
def rtrDrain (s : State) (r : Nat) : Nat :=
  if s.rb (yrdA 0x24) 1 then
    ((List.range 5).filter (fun p => decide (tget noCount s.worms (8 * r + p) = 1 + (1 - yrdEpoch s)))).length
  else 0

/-! ## Commits (R314-R318) -/

/-- Is destination `d` reached from `r` within the given hops on table `t`? -/
def reaches (s : State) (t d : Nat) : Nat → Nat → Bool
  | 0, r => decide (r = d)
  | n + 1, r =>
    if r = d then true
    else match neighbour r (routePort s t r d) with
      | some q => reaches s t d n q
      | none => false

/-- The first failure of table `t`, its code and router (R315). -/
def rtCheck (s : State) (t : Nat) : Nat × Nat :=
  let rs := List.range 96
  let bad := fun (f : Nat → Nat → Bool) => rs.find? (fun r => rs.any (f r))
  match bad (fun r d => let p := routePort s t r d; decide (p ≠ 0) && (neighbour r p).isNone) with
  | some r => (1, r)
  | none => match bad (fun r d => decide ((routePort s t r d = 0) ≠ (r = d))) with
    | some r => (2, r)
    | none => match bad (fun r d => !reaches s t d 30 r) with
      | some r => (3, r)
      | none => match bad (fun r d => decide (r ≠ d) && s.down.contains (4 * r + (routePort s t r d - 1))) with
        | some r => (4, r)
        | none => (0, 0)

/-- Responses in the mesh that are two commits stale when epoch `e` is made current again (R317). -/
def absorbStale (s : State) (e : Nat) : State :=
  let n := (s.resps.filter (fun r => decide (r.epoch = e))).length
  if n = 0 then s
  else
    let l := s.resps.map (fun (r : YResp) => if r.epoch = e then { r with code := rspEpoch, data := [] } else r)
    let s1 := { s with resps := l }
    yrdFlag (s1.cnt (yrdA 0x54) n) 6

/-- COMMIT (R314, R315, R317): the check, phase 1 and phase 2. -/
def commit (s : State) : State :=
  let st := yrdA 0x24
  let e := yrdEpoch s
  let force := s.rb (yrdA 0x20) 1
  let drain := s.rb st 1
  let r := rtCheck s (1 - e)
  let err := if r.1 = 0 ∧ drain ∧ !force then (5, 0) else r
  let s1 := ((s.wf st 7 4 err.1).wf st 14 8 err.2).wb st 3 (decide (err.1 = 0))
  if err.1 = 0 then
    let s2 := if drain then absorbStale s1 (1 - e) else s1
    yrdFlag ((s2.wf st 0 0 (1 - e)).wb st 1 true) 2
  else yrdFlag s1 2

/-- DRAINED (R314 step 5). -/
def drained (s : State) : State :=
  let st := yrdA 0x24
  if s.rb st 1 ∧ (List.range 96).all (fun r => decide (rtrDrain s r = 0)) then yrdFlag (s.wb st 1 false) 3 else s

/-- DRAIN_TMO (R314). -/
def drainTmo (s : State) : State := if s.rb (yrdA 0x24) 1 then yrdFlag s 4 else s

/-! ## Registers (R319) -/

def yrdView (nm : String) (ix : List Nat) (a : Nat) (s : State) : Nat :=
  let i := ix.getD 0 0
  let e := s.rf (yrdA 0x34) 11 0
  let x := s.epSt e
  match nm with
  | "YRD_EP_STATUS" => x.st + 4 * b2n x.auto + 8 * b2n x.barFail + 16 * x.gen + 2 ^ 8 * b2n (!s.shedReady (epShed e))
      + 2 ^ 9 * (s.held.filter (fun h => decide (h.router = e / 32))).length
  | "YRD_EP_ABSORBED" => x.absorbed
  | "YRD_EP_DISCARD" => x.discard
  | "YRD_FENCE_MAPr" => (List.range 32).foldl (fun v p => v + b2n (decide ((s.epSt (32 * i + p)).st ≠ 0)) * 2 ^ p) 0
  | "YRD_RTR_INFO" => i % 12 + i / 12 * 16 + attachment i * 2 ^ 8 + epCount i % 32 * 2 ^ 16
  | "YRD_RTR_LINK" => s.rd a % 16 + (List.range 4).foldl (fun v d => v + b2n (s.down.contains (4 * i + d)) * 2 ^ (4 + d)) 0
  | "YRD_RTR_DRAIN" => rtrDrain s i
  | "YRD_EP_INFO" => if epExists i then epKindOf i + epIndexOf i % 4096 * 16 + 2 ^ 16 else 0
  | _ => s.rd a

/-- The block's own part of a register write. -/
def yrdWrite : WriteHook := fun nm ix v s s1 =>
  let i := ix.getD 0 0
  match nm with
  | "YRD_RSP_TMO" => if fld v 19 0 < 10 ∨ 1000000 < fld v 19 0 then (rspTgt, s) else (rspOk, s1)
  | "YRD_WAKE_TMO" => if fld v 13 0 = 0 ∨ 10000 < fld v 13 0 then (rspTgt, s) else (rspOk, s1)
  | "YRD_BAR_TMO" => if fld v 13 0 = 0 ∨ 10000 < fld v 13 0 then (rspTgt, s) else (rspOk, s1)
  | "YRD_RT_CTRL" =>
    let s2 := s.wf (yrdA 0x20) 1 1 (fld v 1 1)
    (rspOk, if tb v 0 then commit s2 else s2)
  | "YRD_EP_CMD" => epCmd s v
  | "YRD_RTR_LINK" => (rspOk, (List.range 4).foldl (fun s d => if tb v (4 + d) then linkRetrain s i d else s) s)
  | "YRD_RT_WORD" =>
    if ix.getD 1 0 = yrdEpoch s ∨ s.rb (yrdA 0x24) 1 then (rspTgt, s) else (rspOk, s1)
  | _ => (rspOk, s1)

/-- Reads that clear of the selected endpoint's counters. -/
def yrdClear (nm : String) (s : State) : State :=
  let e := s.rf (yrdA 0x34) 11 0
  match nm with
  | "YRD_EP_ABSORBED" => s.setEp e { s.epSt e with absorbed := 0 }
  | "YRD_EP_DISCARD" => s.setEp e { s.epSt e with discard := 0 }
  | _ => s

/-! ## Commands -/

def execFlitReceive (r port : Nat) (fcrcOk express tail epoch : Bool) (s : State) : Out :=
  if r < 96 ∧ port < 5 then .next (flitReceive s r port fcrcOk express tail (b2n epoch)) else .fault .noSuchUnit

def execYardResponse (src seq : Nat) (s : State) : Out := .next (yardResponse s src seq)

def execWakeTimeout (sh : Nat) (s : State) : Out := if sh < 50 then .next (wakeTimeout s sh) else .fault .noSuchUnit

def execResponseTimeout (src seq : Nat) (s : State) : Out := .next (responseTimeout s src seq)

def execYrdFence (ep : Nat) (s : State) : Out := .next (let r := cmdFence s ep; r.2.answer r.1 0)

def execYrdUnfence (ep : Nat) (s : State) : Out := .next (let r := cmdUnfence s ep; r.2.answer r.1 0)

def execBarrierComplete (ep : Nat) (s : State) : Out := .next (barrierDone s ep)

def execBarrierTimeout (ep : Nat) (s : State) : Out := .next (barrierTimeout s ep)

def execYrdCommit (s : State) : Out := .next ((commit s).answer rspOk 0)

def execYrdDrained (s : State) : Out := .next (drained s)

def execYrdDrainTmo (s : State) : Out := .next (drainTmo s)

def execLinkRetrain (r dir : Nat) (s : State) : Out :=
  if r < 96 ∧ dir < 4 then .next ((linkRetrain s r dir).answer rspOk 0) else .fault .noSuchUnit

end Sys2Proof.Machine
end

