-- ==== Sys2Proof/Machine/Ymtick.lean ====
section
/-! DEFINITION. Ticks at the Yardmaster (R46, R57, R58, R65, R276, R277, R291): releases, tick edges, deadlines,
channel stops and accounting; and what the stop of a train means for the plan instances on it. -/

namespace Sys2Proof.Machine

/-- Count the ticks that a message brings (R57). -/
def countTicks (s : State) (m : Tick) : State :=
  (List.range 4).foldl (fun s l =>
    if tb m.mask l then { s with ym := { s.ym with seen := tset (fun _ => 0) s.ym.seen (4 * m.train + l) (seen s m.train l + 1) } } else s) s

/-- Shed of channel `ch` (R344). -/
def chanShed (ch : Nat) : Nat := if ch < 512 then ch / 16 else shedYard

/-- START of channel `ch` with the program of its plan record (R53, R360). A channel that refuses keeps its
BRW_CH_PROG; one whose shed is down has no register to count the refusal. -/
def releaseChan (s : State) (ch prog : Nat) : State :=
  if 576 ≤ ch ∨ !s.shedReady (chanShed ch) then s
  else if chSt s ch = 0 ∨ chSt s ch = 4 then planStart (s.wr (chA ch 8) prog) ch
  else planStart s ch

/-- One plan slot at a release tick: its instance, and its START_AT_RELEASE channels unless it is dropped (R57, R58). -/
def releasePlan (s : State) (p : Nat) (m : Tick) : State :=
  if releases s p m then
    let n := s.rd (planA p 0x1C)
    let b := s.rd (planA p 4)
    let s1 := release s p m
    if s1.rd (planA p 0x1C) ≠ n then s1
    else (startChans s1 b).foldl (fun s c => releaseChan s c.1 c.2) s1
  else s

/-- Stop the STOP_AT_DEADLINE channels whose last deadline `f` says has come (R53, R65 step 8). -/
def stopChans (s : State) (f : ChanStop → Bool) : State :=
  let due := s.ym.chanStops.filter f
  due.foldl (fun s c => if c.ch < 576 ∧ s.shedReady (chanShed c.ch) then planStop s c.ch else s)
    { s with ym := { s.ym with chanStops := s.ym.chanStops.filter (fun c => !f c) } }

/-- Deadlines of every instance, oldest first, dropped releases included. -/
def allDeadlines (s : State) : State :=
  s.ym.insts.foldl (fun s x => deadlines s x.p x.idx x.dropped) s

/-- A tick message reaches the Yardmaster: releases come first, in ascending plan slot, then tick edges, deadlines,
channel stops, tick waits and accounting. -/
def ymTick (s : State) (m : Tick) : State :=
  let s1 := countTicks s m
  let s2 := if s1.rb ymRegs 0 then (List.range 256).foldl (fun s p => releasePlan s p m) s1 else s1
  let s3 := s2.ym.insts.foldl (fun s x => if x.dropped then s else readyTasks s x.p x.idx) s2
  let s4 := sweepInsts (softDeadlines (allDeadlines s3))
  let s5 := stopChans s4 (fun c => decide (c.train < 16 ∧ c.at' ≤ seen s4 c.train c.level))
  let s6 := wakeTicks s5 m.train
  let cfg := s6.rd (ymRegs + 8)
  if tb cfg 8 ∧ fld cfg 3 0 = m.train ∧ tb m.mask (fld cfg 5 4) then latchAccounts s6 else s6

/-- The oldest tick of train `t` on its way to the Yardmaster; one that finds the Yard shed not running is lost. -/
def takeYmTick (s : State) (t : Nat) : State :=
  match (tget noTicks s.ticks 0).find? (fun (m : Tick) => decide (m.train = t)) with
  | none => s
  | some m =>
    let s1 := { s with ticks := tset noTicks s.ticks 0 ((tget noTicks s.ticks 0).erase m) }
    if s1.shedReady shedYard then ymTick s1 m else s1

/-- Train `t` has stopped (R46): instances released by it reach every deadline at once, others those that count its
ticks, and channels that were to stop at one of its ticks stop. -/
def trainStopped (s : State) (t : Nat) : State :=
  let s1 := s.ym.insts.foldl (fun s x0 =>
    let pick := fun (s : State) => s.ym.insts.find? (fun x => decide (x.dropped = x0.dropped ∧ x.p = x0.p ∧ x.idx = x0.idx))
    ((List.range (nTask s x0.base)).filter (fun k => !x0.past.contains k &&
      (decide (peek s (x0.base + 12) 1 = t) || decide ((tDl s x0.base k).1 = t)))).foldl (fun s k =>
        match pick s with
        | some y => deadline s y k
        | none => s) s) s
  stopChans (sweepInsts s1) (fun c => decide (c.train = t))

/-- Deal with the trains that have stopped and whose last tick has been delivered (R46). -/
def ymStops (s : State) : State :=
  let done := s.ct.stopped.filter (fun t => !(tget noTicks s.ticks 0).any (fun (m : Tick) => decide (m.train = t)))
  done.foldl trainStopped { s with ct := { s.ct with stopped := s.ct.stopped.filter (fun t => !done.contains t) } }

end Sys2Proof.Machine
end

