-- ==== Sys2Proof/Machine/Sheds.lean ====
section
/-! DEFINITION. The sheds controller (R524-R540, R546, R553, R555): what logic reset of each shed loses, power-up and
power-down, wakes, unit standby, supply derating, brownout and the block's registers. -/

namespace Sys2Proof.Machine

def shdA (o : Nat) : Nat := shdRegs + o

/-! ## Flags (R496, R546) -/

/-- The conditions of message sources 6 and 7. -/
def shdIrq (s : State) : Nat := s.rd (shdA 4) &&& s.rd (shdA 8)

/-- Do `f`, and note the message sources of the block that have risen. -/
def withShd (s : State) (f : State → State) : State :=
  let t := f s
  (t.rise 6 (tb (shdIrq s) 0) (tb (shdIrq t) 0)).rise 7 (decide (shdIrq s / 2 ≠ 0)) (decide (shdIrq t / 2 ≠ 0))

/-- Set flag `i` of SHD_INT_STATUS. -/
def shdFlag (s : State) (i : Nat) : State := withShd s (fun s => s.wb (shdA 4) i true)

/-! ## Logic reset of a shed -/

/-- Registers marked P keep their values (R12): FGEN (R454) and everything in the AON shed. -/
def keptReg (a : Nat) : Bool := decide (a = plRegs + 8) || decide (shedOf a = shedAon)

/-- Every register of shed `k`, with what its groups have captured or staged, returns to its reset value. -/
def dropRegs (s : State) (k : Nat) : State :=
  let f := fun a => decide (shedOf a = k) && !keptReg a
  { s with regs := tdrop f s.regs, caps := tdrop f s.caps, stage := tdrop f s.stage }

/-- Hatch clients that enter reset together: none of them is told of what the others' resets bring (R369). -/
def enterWindows (s : State) (l : List Nat) : State :=
  { s with hatWin := s.hatWin ++ l.filter (fun i => !s.hatWin.contains i) }

/-- A stable (R164, R292, R363): every activation bound there ends, every tag is free with its generation kept, every
thread, core and channel returns to its reset state. -/
def resetStable (s : State) (n : Nat) : State :=
  let s0 := enterWindows s ((List.range 8).map (8 * n + ·))
  let s1 := (List.range 8).foldl (fun s k => coreReset s (8 * n + k)) s0
  let s2 := (List.range 16).foldl (fun s k => brwReset s (16 * n + k)) s1
  let s3 := dropRegs s2 n
  { s3 with
    cores := tdrop (fun g => g / 8 == n) s3.cores
    ym := { s3.ym with threads := tdrop (fun t => t / 2048 == n) s3.ym.threads }
    ticks := tdrop (fun k => k == 1 + n) s3.ticks
    brwLast := tdrop (fun k => k == n) s3.brwLast }

/-- The engines of an accelerator shed. -/
def resetAccel (s : State) (k : Nat) : State :=
  let s1 := dropRegs s k
  { s1 with
    engines := tdrop (fun e => eShed e == k) s1.engines
    lbts := tdrop (fun c => accelShed 9 c == k) s1.lbts
    nbch := tdrop (fun j => accelShed 10 (j / 96) == k) s1.nbch }

/-- The Phinerlink block (R441, R465): ID_STRAP is sampled again. -/
def resetPl (s : State) : State :=
  let s1 := { dropRegs s shedPl with pl := Pl.reset }
  let u := s1.power.strap
  if u = 0xFFFFF then s1 else s1.wr (plA 4) (u % 2 ^ 20 + 3 * 2 ^ 30)

/-- The Clocktower (R429): every train stops under R46. -/
def resetClock (s : State) : State :=
  let on := (List.range 16).filter (trainOn s)
  let s1 := on.foldl (fun s t => emitDue 16 s t) s
  let s2 := dropRegs s1 shedCt
  ymStops { s2 with ct := { Clock.reset with stopped := s1.ct.stopped ++ on } }

/-- Former holders of a cell (R491): those the firmware may tell after a restart. -/
def formerHolders (s : State) : List (Nat × HSrc) :=
  s.hlt.lost ++ s.hlt.cells.filterMap (fun c => c.2.holder.map (fun h => (c.1, h)))

/-- The Yard shed (R292, R320, R343, R363, R372, R491). The slices lie in the stables. -/
def resetYard (s : State) : State :=
  let s1 := dropRegs s shedYard
  { s1 with
    eps := []
    resps := []
    resvs := []
    held := []
    down := []
    replays := []
    worms := []
    ym := { Ym.reset with threads := s1.ym.threads }
    hatWin := []
    hatTmo := []
    scrubDone := []
    chans := tdrop (fun c => decide (512 ≤ c)) s1.chans
    tickWaits := s1.tickWaits.filter (fun w => decide (w.ch < 512))
    ticks := tdrop (fun k => k == 0) s1.ticks
    hlt := { Hlt.reset with lost := formerHolders s } }

/-- The Loft shed with the Tack room (R523): its cores enter reset as hatch clients (R369). The generations of the Loft
hitches' tags are kept (R164). -/
def resetLoft (s : State) : State :=
  let cores := (List.range 16).map (256 + ·)
  let s1 := dropRegs (cores.foldl clientEnter (enterWindows s cores)) shedLoft
  { s1 with
    tack := Tack.reset
    macs := tdrop (fun m => decide (m = 32)) s1.macs
    tags := s1.tags.foldl (fun t x => tset tagDflt t x.1 (if 256 ≤ x.1 / 64 then { Tag.reset with gen := x.2.gen } else x.2)) []
    msiRise := []
    uartRx := [] }

/-- Logic reset of shed `k`; the AON shed has none but AON power-on. -/
def shedReset (s : State) (k : Nat) : State :=
  if k < 32 then resetStable s k
  else if k < 40 then resetAccel s k
  else if k = shedFh then { dropRegs s k with macs := tdrop (fun m => decide (m < 32)) s.macs }
  else if k = shedPl then resetPl s
  else if k = shedCt then resetClock s
  else if k = shedYard then resetYard s
  else if k = shedLoft then resetLoft s
  else dropRegs s k

/-- R325's initialisation of the memories of shed `k`, behind which their scrubbers restart at word 0 (R343). -/
def shedMemInit (s : State) (k : Nat) : State :=
  let s1 := s.initMem (fun a => decide (shedOf a = k))
  ((List.range 327).filter (fun n => ctlShed n = k)).foldl (fun s n =>
    { s.wr (eccA n 0x28) 0 with scrubDone := tdrop (fun m => m == n) s.scrubDone }) s1

/-- Every shed but AON is reset at once (R539, R546): every rail has been off, so memories hold nothing. The AON
shed, the values marked P, the OTP, the flash, what the pins have carried and the generations of the Hitch tags (R164) stay.
REQ of every shed is as after R512. -/
def resetUnit (s : State) (trs : Tab ShedTr) : State :=
  let shd := fun (a : Nat) => decide (shdRegs + 0x100 ≤ a ∧ a < shdRegs + 0x400)
  let keep := s.regs.filter (fun r => keptReg r.1 && !shd r.1)
  let off := ((List.range 49) ++ [62]).foldl (fun (u : State) k => u.wr (shdStatus k) (s.rd (shdStatus k) &&& 0x700)) { State.reset with regs := keep }
  let u := s.power.strap
  let pl := if u = 0xFFFFF then off else off.wr (plA 4) (u % 2 ^ 20 + 3 * 2 ^ 30)
  { pl with
    pending := s.pending
    now := s.now
    fresh := s.fresh
    bus := s.bus
    wire := s.wire
    caps := s.caps.filter (fun r => keptReg r.1)
    stage := s.stage.filter (fun r => keptReg r.1)
    tags := s.tags.foldl (fun t x => tset tagDflt t x.1 { Tag.reset with gen := x.2.gen }) []
    hlt := { Hlt.reset with lost := formerHolders s }
    otp := s.otp
    flash := s.flash
    gpio := s.gpio
    power := { s.power with trs := trs, standby := 0, derHi := s.now, derLow := none } }

/-! ## Rises and descents (R526-R530) -/

/-- CUR, BUSY and STEP of shed `k`. -/
def setShed (s : State) (k cur : Nat) (busy : Bool) (step : Nat) : State :=
  ((s.wf (shdStatus k) 1 0 cur).wb (shdStatus k) 2 busy).wf (shdStatus k) 6 4 step

/-- Shed `k` begins its descent to state `st`. -/
def shedDescend (s : State) (k st : Nat) : State :=
  (s.wb (shdStatus k) 2 true).setShedTr k { s.shedTr k with tr := 4 + st, since := s.now }

/-- A shed at rest goes after REQ: below the requested state it rises, to ON, above it it descends. -/
def shedDrive (s : State) (k : Nat) : State :=
  let c := s.shedCur k
  let r := s.rf (shdCtrl k) 1 0
  if s.shedBusy k ∨ r = c then s else if c < r then shedKick s k else shedDescend s k r

/-- Is state `st` marked for shed `k` (R524)? -/
def shedState (k st : Nat) : Bool :=
  if k < 44 then true
  else if k = shedFh ∨ k = shedCt then decide (st = 0 ∨ st = 3)
  else if k = shedPl then decide (st = 0 ∨ st = 1 ∨ st = 3)
  else false

/-- Does something in the shed forbid a state below ON (R526)? -/
def shedInUse (s : State) (k : Nat) : Bool :=
  if k < 32 then (List.range 8).any (fun j => s.rb (ymCoreA (8 * k + j) 0) 0)
  else if k < 40 then s.engines.any (fun e => decide (eShed e.1 = k) && (e.2.run.isSome || !e.2.queue.isEmpty))
  else if k = shedPl then (List.range 8).any (fun p => s.rb (plP p 0) 0 && decide (plPm s p ≠ 2))
  else if k = shedFh then (List.range 32).any (fun m => s.rb (macA m 0x1000) 0)
  else false

/-- A write of SHD_CTRL_k.REQ (R526). One below ON that meets a rise ends the wake that began it (R529; log 61). -/
def shedReq (s : State) (k req : Nat) : Nat × State :=
  if !shedState k req ∨ (req < 3 ∧ shedInUse s k) then (rspTgt, s)
  else
    let s1 := s.wf (shdCtrl k) 1 0 req
    let rising := decide (1 ≤ (s.shedTr k).tr ∧ (s.shedTr k).tr ≤ 3)
    let s2 := if s.shedBusy k ∧ rising ∧ req < 3 then s1.wb (shdStatus k) 3 false else s1
    (rspOk, shedDrive s2 k)

/-- Hatch clients that a shed holds. -/
def shedClients (k : Nat) : List Nat :=
  if k < 32 then (List.range 8).map (8 * k + ·)
  else if k = shedLoft then (List.range 16).map (256 + ·)
  else if k = shedYard then (List.range 4).map (272 + ·)
  else []

/-- Unit standby ends (R534): the Yard shed rises first, the Loft shed after it. A descent is completed before. -/
def endStandby (s : State) : State :=
  match s.power.standby with
  | 1 => { s with power := { s.power with standby := 0 } }
  | 2 => s.wb (shdStatus shedLoft) 3 true
  | 3 => s.wb (shdStatus shedYard) 3 true
  | 4 => let t := shedKick s shedYard
         { t with power := { t.power with standby := 5 } }
  | _ => s

/-- WAKE_N is enabled and acts by its level (R532). -/
def wakeLevel (s : State) : Bool := s.rb (shdA 0x2C) 0 && !s.rb (shdA 0x2C) 1 && !s.power.wakePin

/-- WAKE_N acts. -/
def wakeActs (s : State) : State := endStandby (shdFlag s 4)

/-- Stable `n` takes the clock point that the derating level leaves it (R107, R538). -/
def capStable (s : State) (n : Nat) : State :=
  let a := stbRegs n + 0x8000
  if s.shedCur n = 0 ∨ (s.rf a 1 0 = clockDue s n ∧ s.rb a 8 = decide (clockDue s n < s.rf a 5 4)) then s
  else setPoint s n (clockDue s n)

/-- Shed `k` has come up (R527, R529, R533): its clients' hatches are presented (R366), a pending wake is spent, and a
state requested meanwhile is gone after. -/
def shedUp (s : State) (k : Nat) (held : Bool) : State :=
  let s1 := setShed s k 3 false (if held then 4 else 5)
  let s2 := s1.setShedTr k { tr := 0, since := s1.now, held := held }
  let s3 := if s2.rb (shdStatus k) 3 then (s2.wb (shdStatus k) 3 false).wf (shdCtrl k) 1 0 3 else s2
  let s4 := (shedClients k).foldl hatPresent s3
  let s5 := if k < 32 then capStable s4 k else s4
  let s6 := if s5.power.standby = 5 then
      (if k = shedYard then shedKick s5 shedLoft
       else if k = shedLoft then { s5 with power := { s5.power with standby := 0 } } else s5)
    else s5
  shedDrive s6 k

/-- An external rail that shed `k` needs is absent (R553). -/
def railGone (s : State) (k : Nat) : Bool := (decide (k = shedFh) && !s.power.fhRail) || (decide (k = shedPl) && !s.power.plRail)

/-- A ready signal of a rising shed asserts (R527). -/
def stepReady (s : State) (k : Nat) : State :=
  let x := s.shedTr k
  let n := s.shedStep k
  let next := fun (s : State) => (s.wf (shdStatus k) 6 4 (n + 1)).setShedTr k { x with since := s.now }
  match x.tr with
  | 1 =>
    if n = 0 ∧ railGone s k then s
    else if n < 2 then next s
    else if n = 2 then next (shedMemInit s k)
    else
      let s1 := shedReset (if k = shedYard then (setShed s 62 3 false 4).setShedTr 62 { ShedTr.reset with held := true } else s) k
      shedUp s1 k (decide (k < 40))
  | 2 => if n < 3 then next s else shedUp s k x.held
  | 3 => shedUp s k x.held
  | _ => s

/-- Limit in microseconds of the step after `n` ready signals, for a rise of kind `tr` (R527). -/
def stepLimit (tr k n : Nat) : Option Nat :=
  match tr, n with
  | 1, 0 => some 20
  | 1, 1 => some (if k = shedCt then 2000 else 15)
  | 1, 2 => some (if k < 32 then 25 else if k < 40 then 30 else if k < 44 then 250 else if k = shedLoft then 60
      else if k = shedYard then 20 else if k = shedCt then 5 else 10)
  | 2, 0 => some 10
  | 2, 1 => some 15
  | 2, 2 => some 1
  | _, _ => none

/-- A shed goes to OFF with a fault recorded (R528, R553). -/
def shedFail (s : State) (k fault : Nat) : State :=
  let s1 := ((setShed s k 0 false 0).wb (shdStatus k) 3 false).wf (shdStatus k) 10 8 fault
  let s2 := shdFlag (s1.setShedTr k { ShedTr.reset with since := s1.now }) 2
  if k = shedYard ∨ k = shedLoft then s2.wb (shdA 0x14) 3 true else s2

/-- A ready signal misses twice its limit (R528). -/
def stepFault (s : State) (k : Nat) : State :=
  let x := s.shedTr k
  match stepLimit x.tr k (s.shedStep k) with
  | some m => let t := shedFail (s.until (x.since + 2 * m * us)) k (s.shedStep k + 1)
              if x.tr = 2 then shedReset t k else t
  | none => s

/-- Is a response owed to or by an endpoint of shed `k` (R529 step 2)? -/
def shedOwed (s : State) (k : Nat) : Bool :=
  s.resvs.any (fun (r : Resv) => decide (epShed r.src = k ∨ epShed r.dst = k)) ||
  s.cores.any (fun (c : Nat × Core) => c.2.stores.any (fun (f : FarStore) => decide (c.1 / 8 = k ∨ shedOf f.addr = k)) ||
    (match c.2.hold with
     | .far _ a _ => decide (c.1 / 8 = k ∨ shedOf a = k)
     | _ => false)) ||
  s.chans.any (fun (c : Nat × Chan) => c.2.out.any (fun (b : Beat) =>
    decide (chanShed c.1 = k ∨ shedOf (if b.wr then b.dst else b.src) = k)))

/-- A descent is complete (R529): what was asked meanwhile begins at once. -/
def descentDone (s : State) (k : Nat) : State :=
  let x := s.shedTr k
  if x.tr < 4 ∨ shedOwed s k then s
  else
    let st := x.tr - 4
    let s1 := setShed s k st false (if st = 2 then 3 else 0)
    let s2 := s1.setShedTr k { tr := 0, since := s1.now, held := x.held && decide (st ≠ 0) }
    let s3 := if st = 0 then shedReset s2 k else s2
    let pend := s3.rb (shdStatus k) 3
    if k = shedLoft ∧ s3.power.standby = 2 then
      if pend then shedKick { s3 with power := { s3.power with standby := 0 } } k
      else shedDescend { s3 with power := { s3.power with standby := 3 } } shedYard 1
    else if k = shedYard ∧ s3.power.standby = 3 then
      if pend then shedKick { s3 with power := { s3.power with standby := 5 } } k
      else
        let s4 := { s3 with power := { s3.power with standby := 4 } }
        if wakeLevel s4 then wakeActs s4 else s4
    else if pend then shedKick s3 k
    else shedDrive s3 k

/-- The Tack room releases the logic reset of a held target (R515): the clients of domain 62 leave reset. -/
def shedRelease (s : State) (k : Nat) : State :=
  let s1 := (s.wf (shdStatus k) 6 4 5).setShedTr k { s.shedTr k with held := false }
  if k = 62 then
    let new := (shedClients shedYard).filter (fun i => !s1.hatWin.contains i)
    ({ s1 with hatWin := s1.hatWin ++ new }).wf (hltRegs + 4) 7 4 4
  else s1

/-! ## Standby (R534) -/

/-- Every shed but the Yard, the Loft and AON is OFF or RET. -/
def othersDown (s : State) : Bool :=
  (List.range 49).all (fun k => decide (k = shedYard ∨ k = shedLoft) || (decide (s.shedCur k ≤ 1) && !s.shedBusy k))

/-- A write of SHD_STANDBY by endpoint `src`. -/
def standbyWrite (s : State) (src v : Nat) : Nat × State :=
  if tb v 0 ∧ (List.range 16).any (fun c => decide (loftEp c = src)) ∧ othersDown s then
    (rspOk, if s.power.standby = 0 then { s with power := { s.power with standby := 1 } } else s)
  else (rspTgt, s)

/-- Every Loft core out of reset is in WFI: the Loft shed descends. -/
def coresInWfi (s : State) : State :=
  if s.power.standby = 1 then shedDescend { s with power := { s.power with standby := 2 } } shedLoft 1 else s

/-! ## Derating (R535-R538) -/

/-- Total power in W at level `l` (R536). -/
def derPower (l : Nat) : Nat := [370, 326, 287, 254, 226].getD l 226

/-- The highest level R537 allows at `vin` mV. -/
def derMax (vin : Nat) (low : Bool) : Nat :=
  if !low then 0 else if 1140 ≤ vin then 1 else if 1000 ≤ vin then 2 else if 890 ≤ vin then 3 else 4

/-- Put level `l` into effect. -/
def setLevel (s : State) (l : Nat) : State :=
  let s1 := (shdFlag (s.wf (shdA 0x24) 2 0 l) 3)
  (List.range 32).foldl capStable { s1 with power := { s1.power with derLow := none } }

/-- One measurement, 1 us after the last: `vin` in mV, `cur` in 0.1 A. -/
def derateMeasure (s : State) (vin cur : Nat) : State :=
  let t := s.until (s.power.derHi + us)
  let low := if 1220 ≤ vin then false else if vin < 1200 then true else t.rb (shdA 0x24) 8
  let lim := if low then 3200 else 3600
  let mx := derMax vin low
  let s1 := ((t.wr (shdA 0x20) (vin % 4096 + cur % 4096 * 2 ^ 16)).wf (shdA 0x24) 6 4 mx).wb (shdA 0x24) 8 low
  let s2 := { s1 with power := { s1.power with derHi := t.now } }
  let l := s2.rf (shdA 0x24) 2 0
  if 97 * lim ≤ 100 * cur ∧ l < mx then (setLevel s2 (l + 1)).cnt (shdA 0x28) 1
  else if 0 < l ∧ cur * derPower (l - 1) * 100 < 90 * lim * derPower l then
    match s2.power.derLow with
    | none => { s2 with power := { s2.power with derLow := some t.now } }
    | some a => if a + 1000 * us ≤ t.now then setLevel s2 (l - 1) else s2
  else { s2 with power := { s2.power with derLow := none } }

/-! ## Brownout, resets, rails (R539, R540, R546, R553, R560) -/

/-- BOW rises or falls (R539). -/
def bow (s : State) (below : Bool) : State :=
  if s.rb (shdA 0xC) 8 = below then s
  else
    let s1 := s.wb (shdA 0xC) 8 below
    if below then
      let s2 := shdFlag s1 0
      if s2.shedCur shedLoft = 0 then s2 else s2.flag (tkRegs + 0x10) (tkRegs + 0x14) 5 1
    else shdFlag s1 1

/-- Yard and then Loft rise (R512). -/
def powerUp (s : State) : State :=
  shedKick { s with power := { s.power with standby := 5, brown := false } } shedYard

/-- The brownout reset begins (R539, R561). -/
def brownout (s : State) : State :=
  let s1 := s.wb (shdA 0x14) 1 true
  let s2 := resetUnit s1 []
  { s2 with power := { s2.power with brown := true } }

/-- A write of SHD_SYSRST (R546). -/
def sysrst (s : State) (v : Nat) : Nat × State :=
  if v % 2 ^ 32 = 0xA5C30001 then (rspOk, powerUp (resetUnit (s.wb (shdA 0x14) 2 true) [])) else (rspTgt, s)

/-- AON power-on (R540, R541, R546, R548, R560): the straps are sampled, P values other than the calendar's are
cleared, LOST is set if the calendar has lost its supplies or its oscillator. -/
def aonPowerOn (s : State) (fsel strap : Nat) : State :=
  let cal := s.regs.filter (fun r => decide (calRegs ≤ r.1 ∧ r.1 < calRegs + 0x20))
  let st := s.rd (calA 0x20)
  let lost := s.power.calLose
  let p := { Power.reset with strap := strap % 2 ^ 20, fsel := fsel % 8, fhRail := s.power.fhRail, plRail := s.power.plRail,
                              wakePin := s.power.wakePin, calAt := if lost then s.now else s.power.calAt,
                              calTrim := if lost then s.now else s.power.calTrim }
  let s1 := resetUnit { s with regs := if lost then [] else cal, caps := [], stage := [], power := p } []
  let s2 := s1.wr (calA 0x20) (setFld (st % 32) 1 1 (b2n (tb st 1 || lost)))
  powerUp s2

/-- AVDD_FH or AVDD_PL is lost or returns (R553). -/
def railChange (s : State) (fh lost : Bool) : State :=
  let k := if fh then shedFh else shedPl
  let s1 := { s with power := if fh then { s.power with fhRail := !lost } else { s.power with plRail := !lost } }
  if lost ∧ s1.shedCur k = 3 then shedReset (shedFail s1 k 1) k else s1

/-! ## Registers (R546) -/

/-- The block's own part of a register write by `src`. -/
def shdWrite (src : Nat) : WriteHook := fun nm ix v s s1 =>
  let k := ix.getD 0 0
  match nm with
  | "SHD_STANDBY" => standbyWrite s src v
  | "SHD_INT_STATUS" => (rspOk, withShd s (fun _ => s1))
  | "SHD_INT_EN" => (rspOk, withShd s (fun _ => s1))
  | "SHD_BO_WARN" => if 100 < fld v 6 0 ∨ fld v 6 0 ≤ s.rf (shdA 0x10) 6 0 then (rspTgt, s) else (rspOk, s1)
  | "SHD_BO_RESET" => if 100 < fld v 6 0 ∨ s.rf (shdA 0xC) 6 0 ≤ fld v 6 0 then (rspTgt, s) else (rspOk, s1)
  | "SHD_SYSRST" => sysrst s v
  | "SHD_WAKE_CFG" => (rspOk, if wakeLevel s1 && !wakeLevel s then wakeActs s1 else s1)
  | "SHD_CTRL_s" => if k < 50 ∨ k = 62 then shedReq s k (v % 4) else (rspOk, s)
  | _ => (rspOk, s1)

/-! ## Meanings -/

/-- Shed numbers (R524); 62 is a reset domain and takes no command of its own. -/
def shedCmd (f : State → Nat → State) (k : Nat) (s : State) : Out := if k < 50 then .next (f s k) else .fault .noSuchUnit

/-- R526: the answer of the write and its effect. -/
def execShedRequest (k req : Nat) (s : State) : Out :=
  if k < 50 ∨ k = 62 then .next (s.regWriteBy (shdWrite (loftEp 0)) (shdCtrl k) (req % 4)) else .fault .noSuchUnit
/-- R528. -/
def execStepFault (k : Nat) (s : State) : Out := shedCmd stepFault k s
/-- R529. -/
def execShedDescentDone (k : Nat) (s : State) : Out := shedCmd descentDone k s
/-- R533. -/
def execShedWake (k : Nat) (s : State) : Out := shedCmd wakeShed k s
/-- R532, R534. -/
def execWakeN (level : Bool) (s : State) : Out :=
  let s1 := { s with power := { s.power with wakePin := level } }
  let fell := s.power.wakePin && !level
  .next (if wakeLevel s1 ∨ (s1.rb (shdA 0x2C) 0 ∧ s1.rb (shdA 0x2C) 1 ∧ fell) then wakeActs s1 else s1)
/-- R532, R436: signal on a lane of port `p`, which must be one of the eight. -/
def execPlWake (p : Nat) (s : State) : Out :=
  if p < 8 then .next (if s.rb (shdA 0x2C) 2 then endStandby (wakeShed (shdFlag s 5) shedPl) else s) else .fault .noSuchUnit
/-- R534: a Loft core's write of ENTER. -/
def execStandbyEnter (s : State) : Out := .next (s.regWriteBy (shdWrite (loftEp 0)) (shdA 0) 1)
/-- R534. -/
def execLoftCoresInWfi (s : State) : Out := .next (coresInWfi s)
/-- R535-R538. -/
def execDerateMeasure (vin cur : Nat) (s : State) : Out := .next (derateMeasure s vin cur)
/-- R539. -/
def execShdBow (below : Bool) (s : State) : Out := .next (bow s below)
/-- R539, R540, R561. -/
def execBrownoutReset (s : State) : Out := .next (brownout s)
/-- R539, R512: 1 ms above THR_RESET + 20 mV. -/
def execBrownoutResetEnd (s : State) : Out := .next (if s.power.brown then powerUp s else s)
/-- R546. -/
def execShdSysrst (val : Nat) (s : State) : Out := .next (s.regWriteBy (shdWrite (loftEp 0)) (shdA 0x18) val)
/-- R548, R560. -/
def execAonPowerOn (fsel strap : Nat) (s : State) : Out := .next (aonPowerOn s fsel strap)
/-- R555: THERMTRIP_N is driven until the next AON power-on. -/
def execThermtrip (s : State) : Out :=
  .next (if s.power.therm then s else { s with power := { s.power with therm := true } }.emit .thermtrip)
/-- R553. -/
def execAnalogRailLoss (fh lost : Bool) (s : State) : Out := .next (railChange s fh lost)
/-- R542, R11: CAL_TIME and CAL_DATE written as a group. -/
def execCalWrite (src time date : Nat) (s : State) : Out :=
  if src < 4096 then .next ((calWrite s time date).2.answer (calWrite s time date).1 0) else .fault .noSuchUnit
/-- R544: the whole-second change at which the calendar equals the alarm. It may bring the unit out of standby (R532). -/
def execCalAlarm (s : State) : Out :=
  let n := alarmSecond s * 32768
  .next (if s.rb (calA 0x1C) 0 ∧ calTicks s ≤ n then
    let s1 := s.until (calReaches s n)
    let s2 := (s1.wb (calA 0x20) 0 true).rise 8 (s1.rb (calA 0x20) 0) true
    if s2.rb (calA 0x1C) 1 then endStandby s2 else s2
  else s)
/-- R543. -/
def execTrimApply (s : State) : Out := .next (trimApply s)
/-- R541: VBAT is sampled. -/
def execVbatSample (mv : Nat) (s : State) : Out := .next (s.wb (calA 0x20) 3 (decide (mv < 1700)))
/-- R541: the calendar changes supply; with none left it loses its contents. -/
def execVbatSwitch (onVbat : Bool) (mv : Nat) (s : State) : Out :=
  let s1 := { s with power := { s.power with calVbat := onVbat, calLose := s.power.calLose || (onVbat && decide (mv = 0)) } }
  .next (s1.wb (calA 0x20) 2 (onVbat || s.rb (calA 0x20) 2))
/-- R541: XTAL32K has stopped for 4 ms. -/
def execOscFail (s : State) : Out :=
  .next ({ s with power := { s.power with calLose := true } }.wb (calA 0x20) 4 true)

end Sys2Proof.Machine
end

