-- ==== Sys2Proof/Machine/Tack.lean ====
section
/-! DEFINITION. The Tack room (R500-R521, R523): OTP, signed images, measurements, boot, its commands and its
registers. Falcon-1024, AES-256-GCM and AES key wrap are opaque functions of Config (log 70). -/

namespace Sys2Proof.Machine

def tkA (o : Nat) : Nat := tkRegs + o

/-- Set flag `i` of TK_INT_STATUS (message source 5). -/
def tkFlag (s : State) (i : Nat) : State := s.flag (tkA 0x10) (tkA 0x14) 5 i

/-- Status codes (R503). -/
def tkOk : Nat := 0
def tkBadCmd : Nat := 1
def tkBadAddr : Nat := 2
def tkKey : Nat := 3
def tkSig : Nat := 4
def tkDigest : Nat := 5
def tkRollback : Nat := 6
def tkType : Nat := 7
def tkNoId : Nat := 8
def tkCert : Nat := 9
def tkSaBusy : Nat := 10
def tkUnwrap : Nat := 11
def tkOtp : Nat := 12
def tkBrownout : Nat := 13
def tkLifecycle : Nat := 14

/-! ## OTP (R505-R507) -/

def otpBlank : Nat → Byte := fun _ => 0
def State.otpByte (s : State) (i : Nat) : Byte := tget otpBlank s.otp i
def State.otpBytes (s : State) (i n : Nat) : List Byte := (List.range n).map (fun k => s.otpByte (i + k))

/-- Bits are only ever set. -/
def State.otpSet (s : State) (i : Nat) (b : Byte) : State := { s with otp := tset otpBlank s.otp i (s.otpByte i ||| b) }

/-- 0 MANUF, 1 DEPLOYED, 2 RMA. -/
def lifecycle (s : State) : Nat :=
  let b := (s.otpByte 0xA1).toNat
  if tb b 1 then 2 else if tb b 0 then 1 else 0

/-- Value of counter `c`: its consecutive set bits from the lowest. -/
def otpCounter (s : State) (c : Nat) : Nat :=
  let v := leNat (s.otpBytes (0x100 + 28 * c) 28)
  ((List.range 224).find? (fun i => !tb v i)).getD 224

/-- Set counter `c` to `v`. -/
def setCounter (s : State) (c v : Nat) : State :=
  (List.range 28).foldl (fun s i =>
    let n := min 8 (v - 8 * i)
    if n = 0 then s else s.otpSet (0x100 + 28 * c + i) (BitVec.ofNat 8 (2 ^ n - 1))) s

/-- Key hash slot `k`, and whether it is programmed and not revoked. -/
def keyHash (s : State) (k : Nat) : List Byte := s.otpBytes (0x20 + 32 * k) 32
def keyUsable (s : State) (k : Nat) : Bool := (keyHash s k).any (fun b => b ≠ 0) && !tb (s.otpByte 0xA0).toNat k

/-- The storage key (R517). -/
def storageKey (s : State) : List Byte := shake256 (s.otpBytes 0xC0 32 ++ [0x49#8, 0x44#8]) 32

/-- The device serial. -/
def serial (s : State) : List Byte := s.otpBytes 0 16

/-! ## The flash's identity partition (R511, R517, R518) -/

def flashBytes (s : State) (o n : Nat) : List Byte := (List.range n).map (fun i => tget otpBlank s.flash (o + i))
def idBytes (s : State) (k n : Nat) : List Byte := flashBytes s (0x1000000 + (Config.idLayout k).toNat) n
def certificate (s : State) : List Byte := idBytes s 2 3144
def caKey (s : State) : List Byte := idBytes s 3 1793

/-- The identity private key as the ROM unseals it, none if it cannot. -/
def unsealIdentity (s : State) : List Byte :=
  let n := (Config.idLayout 1).toNat
  let b := idBytes s 0 n
  if lifecycle s = 2 ∨ n < 28 ∨ b.all (fun x => x = 0) then []
  else
    match Config.gcmOpen (storageKey s) (b.take 12) (serial s) ((b.drop 12).take (n - 28)) (b.drop (n - 16)) with
    | some k => k
    | none => []

/-! ## Images and measurements (R508-R510) -/

def noBytes : Nat → List Byte := fun _ => []

/-- MR `i`: 64 bytes, 0 at reset. -/
def mrOf (s : State) (i : Nat) : List Byte := sub (tget noBytes s.tack.mr i) 0 64

def setMr (s : State) (i : Nat) (l : List Byte) : State := { s with tack := { s.tack with mr := tset noBytes s.tack.mr i l } }

/-- A verified image of type `t` extends MR(t - 1), unless its digest is the one last extended there. -/
def measure (s : State) (t svn : Nat) (digest : List Byte) : State :=
  if tget noBytes s.tack.digest (t - 1) = digest then s
  else
    let s1 := setMr s (t - 1) (shake256 (mrOf s (t - 1) ++ natLe 1 t ++ natLe 4 svn ++ digest) 64)
    { s1 with tack := { s1.tack with digest := tset noBytes s1.tack.digest (t - 1) digest,
                                     svn := tset (fun _ => 0) s1.tack.svn t (1 + svn) } }

/-- Zero bytes `[o, o+n)`. -/
def zeros (l : List Byte) (o n : Nat) : Bool := (sub l o n).all (fun b => b = 0)

/-- Step 1 of R509 on a header. -/
def headerOk (h : List Byte) (t : Nat) : Bool :=
  decide (le h 0 4 = 0x4D494C54 ∧ le h 4 2 = 1 ∧ le h 6 1 = t) && zeros h 12 4 && zeros h 40 8 && zeros h 1905 15 && zeros h 3200 896
    && (decide (t ≤ 2) || zeros h 24 16)

/-- R509 steps 2-5 on a header and its payload: the status code. -/
def imageCheck (s : State) (h payload : List Byte) : Nat :=
  let t := le h 6 1
  let slot := le h 7 1
  let pub := sub h 112 1793
  let hash := shake256 pub 32
  let keyOk := if lifecycle s = 0 then decide (hash = Config.romKeyHash) else decide (slot < 4) && keyUsable s slot && decide (hash = keyHash s slot)
  if !keyOk then tkKey
  else if !Config.falconVerify pub (h.take 1920) (sub h 1920 1280) then tkSig
  else if shake256 payload 64 ≠ sub h 48 64 then tkDigest
  else if le h 8 4 < otpCounter s (t - 1) then tkRollback
  else tkOk

/-! ## Boot (R512, R513) -/

/-- One copy of the loader at flash offset `o`: the failure code and the state with its payload in the boot SRAM. -/
def bootCopy (s : State) (o : Nat) : Nat × List Byte × State :=
  let h := flashBytes s o 4096
  let n := le h 16 8
  let inSram := fun (a : Nat) => decide (ddrBase ≤ a ∧ a < ddrBase + 0x800000)
  if !headerOk h 1 ∨ !inSram (le h 24 8) ∨ !inSram (le h 32 8) ∨ 0x800000 - 4096 < n then (tkType, h, s)
  else
    let p := flashBytes s (o + 4096) n
    let s1 := (s.writeMem (le h 24 8) p tackEp).2
    (imageCheck s1 h p, h, s1)

/-- The loader is taken: measured, and Loft core 0 goes. -/
def bootDone (s : State) (h : List Byte) (c1 : Nat) (backup : Bool) : State :=
  let s1 := measure s 1 (le h 8 4) (sub h 48 64)
  let s2 := { s1 with tack := { s1.tack with slot := some (le h 7 1) } }
  s2.wr (tkA 0x1C) (c1 + b2n backup * 2 ^ 16 + 2 ^ 17)

/-- The ROM runs (R512, R513, R517). -/
def boot (s : State) : State :=
  if s.tack.halted ∨ s.rb (tkA 0x1C) 17 ∨ !s.shedReady shedLoft then s
  else
    let s0 := { s with tack := { s.tack with ident := unsealIdentity s } }
    let a := bootCopy s0 0
    if a.1 = tkOk then bootDone a.2.2 a.2.1 0 false
    else
      let b := bootCopy a.2.2 0x800000
      if b.1 = tkOk then bootDone b.2.2 b.2.1 a.1 true
      else
        let s1 := { b.2.2 with tack := { b.2.2.tack with halted := true } }
        (s1.wr (tkA 0x1C) (a.1 + b.1 * 2 ^ 8 + 2 ^ 16)).emit (.bootRecord [0x54, 0x4B, 0x46, BitVec.ofNat 8 a.1, BitVec.ofNat 8 b.1, 0, 0, 0])

/-! ## Commands (R501-R503) -/

/-- A descriptor. -/
structure TkDesc where
  addr : Nat
  opc : Nat
  irq : Bool
  inA : Nat
  inLen : Nat
  arg0 : Nat
  outA : Nat
  outLen : Nat
  arg1 : Nat

/-- What a command comes to: its status, the response code of a failed access, its output, the state. -/
structure TkRes where
  code : Nat
  rsp : Nat
  out : List Byte
  st : State

def tkFail (code : Nat) (s : State) : TkRes := ⟨code, 0, [], s⟩
def tkDone (out : List Byte) (s : State) : TkRes := ⟨tkOk, 0, out, s⟩

/-- A local address range in the Barn or the LPDDR5X of this unit, from a global address (R28, R501). -/
def tkLocal (s : State) (g n : Nat) : Option Nat :=
  let a := g % 2 ^ 44
  if g / 2 ^ 44 ≠ plUnit s then none
  else if a + n ≤ barnSize ∨ (ddrBase ≤ a ∧ a + n ≤ 0x10800000000) then some a else none

/-- Read the command's input, of a length from `lo` to `hi`, and go on with `f`. -/
def tkInput (s : State) (d : TkDesc) (lo hi : Nat) (f : List Byte → State → TkRes) : TkRes :=
  if d.inLen < lo ∨ hi < d.inLen then tkFail tkBadCmd s
  else
    match tkLocal s d.inA d.inLen with
    | none => tkFail tkBadAddr s
    | some a =>
      let r := s.fetchAll tackEp a d.inLen
      if r.1 ≠ rspOk then ⟨tkBadAddr, r.1, [], r.2.2⟩ else f r.2.1 r.2.2

/-- `n` bytes of the TRNG (R500): free values. -/
def drawBytes : Nat → State → List Byte × State
  | 0, s => ([], s)
  | n + 1, s =>
    let d := s.draw
    let r := drawBytes n d.2
    (natLe 8 d.1 ++ r.1, r.2)

def trng (s : State) (n : Nat) : List Byte × State := let r := drawBytes (cdiv n 8) s; (r.1.take n, r.2)

/-- Opcodes of R502. -/
def tkKnown (opc : Nat) : Bool := decide (1 ≤ opc ∧ opc ≤ 0x0E)

/-- Write STATUS, after OUT_WRITTEN, and raise DONE (R501). -/
def tkFinish (s : State) (d : TkDesc) (code rsp written : Nat) : State :=
  let s1 := (s.put tackEp (d.addr + 36) (natLe 4 written)).2
  let s2 := (s1.put tackEp (d.addr + 4) (natLe 4 (code + rsp * 2 ^ 8 + 2 ^ 31))).2
  if d.irq then tkFlag s2 0 else s2

/-- The command at the front of the queue, if its opcode is `opc`: its output is written, then its STATUS. A front
descriptor with a reserved opcode or field ends TK_BAD_CMD whichever command the row names; one that cannot be read
is dropped. -/
def tkRun (opc : Nat) (f : TkDesc → State → TkRes) (s : State) : State :=
  if s.tack.halted ∨ !s.shedReady shedLoft then s
  else
    match s.tack.queue with
    | [] => s
    | a :: rest =>
      let r := s.fetch tackEp a 64
      let pop := fun (s : State) => { s with tack := { s.tack with queue := rest } }
      if a % 64 ≠ 0 ∨ (tkLocal s (plUnit s * 2 ^ 44 + a) 64).isNone then pop s
      else if r.1 ≠ rspOk then pop r.2.2
      else
        let b := r.2.1
        let d : TkDesc := ⟨a, le b 0 1, tb (le b 1 1) 0, le b 8 8, le b 16 4, le b 20 4, le b 24 8, le b 32 4, le b 40 8⟩
        if !tkKnown d.opc ∨ 2 ≤ le b 1 1 ∨ !zeros b 2 2 ∨ !zeros b 48 16 then tkFinish (pop r.2.2) d tkBadCmd 0 0
        else if d.opc ≠ opc then s
        else
          let q := f d (pop r.2.2)
          if q.code ≠ tkOk then tkFinish q.st d q.code q.rsp 0
          else if q.out = [] then tkFinish q.st d tkOk 0 0
          else if d.outLen < q.out.length then tkFinish q.st d tkBadCmd 0 0
          else
            match tkLocal q.st d.outA q.out.length with
            | none => tkFinish q.st d tkBadAddr 0 0
            | some o =>
              let w := q.st.putAll tackEp o q.out
              if w.1 ≠ rspOk then tkFinish w.2 d tkBadAddr w.1 0 else tkFinish w.2 d tkOk 0 q.out.length

/-- RNG. -/
def tkRngCmd (d : TkDesc) (s : State) : TkRes :=
  if d.outLen = 0 ∨ 4096 < d.outLen then tkFail tkBadCmd s
  else let r := trng s d.outLen; tkDone r.1 r.2

/-- HASH. -/
def tkHashCmd (d : TkDesc) (s : State) : TkRes :=
  if d.arg0 = 0 ∨ 64 < d.arg0 then tkFail tkBadCmd s
  else tkInput s d 1 (2 ^ 32 - 1) (fun l s => tkDone (shake256 l d.arg0) s)

/-- EXTEND (R510). -/
def tkExtendCmd (d : TkDesc) (s : State) : TkRes :=
  if d.arg0 < 5 ∨ 15 < d.arg0 then tkFail tkBadCmd s
  else tkInput s d 1 4096 (fun l s => tkDone [] (setMr s d.arg0 (shake256 (mrOf s d.arg0 ++ l) 64)))

/-- A signed image read in full and verified as type `t` (R509). -/
def tkImage (s : State) (d : TkDesc) (t : Nat) (f : List Byte → List Byte → State → TkRes) : TkRes :=
  tkInput s d 4096 (2 ^ 32 - 1) (fun l s =>
    let h := l.take 4096
    let n := le h 16 8
    if !headerOk h t then tkFail tkType s
    else if d.inLen < 4096 + n then tkFail tkBadCmd s
    else
      let p := (l.drop 4096).take n
      let c := imageCheck s h p
      if c ≠ tkOk then tkFail c s else f h p s)

/-- VERIFY (R509). -/
def tkVerifyCmd (d : TkDesc) (s : State) : TkRes :=
  if d.arg0 ≠ 2 then tkFail tkBadCmd s
  else tkImage s d 2 (fun h _ s => tkDone [] (measure s 2 (le h 8 4) (sub h 48 64)))

/-- Segments of a TYPE 3-5 payload (R508): destination and data, none where the list is malformed. -/
def imageSegs : Nat → List Byte → Option (List (Nat × List Byte))
  | 0, l => if l = [] then some [] else none
  | k + 1, l =>
    if l = [] then some []
    else
      let n := le l 8 4
      if l.length < 12 + n then none
      else (imageSegs k (l.drop (12 + roundUp n 16))).map (fun t => (le l 0 8, (l.drop 12).take n) :: t)

/-- A segment lies in the memories of the target (R515): a stable's window, an accelerator shed's windows, the
Halter SRAM. -/
def segOk (t : Nat) (g : Nat × List Byte) : Bool :=
  let last := g.1 + g.2.length - 1
  let inside := fun (a : Nat) => match regionOf a with
    | .imem c => decide (c / 8 = t)
    | .xmem c => decide (c / 8 = t)
    | .ymem c => decide (c / 8 = t)
    | .engBuf c i => decide (accelShed c i = t)
    | .hltMem _ => decide (t = 62)
    | _ => false
  decide (g.1 % 16 = 0) && (g.2.isEmpty || (inside g.1 && inside last && decide (ctlOf g.1 = ctlOf last)))

/-- LOAD (R515). A target that is not held is answered TK_BAD_CMD (DESIGN CHOICE, log 73). -/
def tkLoadCmd (d : TkDesc) (s : State) : TkRes :=
  let t := d.arg1 % 64
  let ty := d.arg0
  if ty < 3 ∨ 5 < ty ∨ 2 ≤ d.arg1 / 256 ∨ fld d.arg1 7 6 ≠ 0 ∨ (39 < t ∧ t ≠ 62) then tkFail tkBadCmd s
  else if (ty = 3 ∧ 31 < t) ∨ (ty = 4 ∧ t ≠ 62) ∨ (ty = 5 ∧ (t < 32 ∨ t = 62)) then tkFail tkType s
  else if !s.shedHeld t ∨ (t = 62 ∧ !s.shedReady shedYard) then tkFail tkBadCmd s
  else tkImage s d ty (fun h p s =>
    match imageSegs (p.length / 12 + 1) p with
    | none => tkFail tkType s
    | some segs =>
      if !segs.all (segOk t) then tkFail tkType s
      else
        let w := segs.foldl (fun (q : Nat × State) g => if q.1 = rspOk then q.2.putAll tackEp g.1 g.2 else q) (rspOk, s)
        if w.1 ≠ rspOk then ⟨tkBadAddr, w.1, [], w.2⟩
        else
          let s1 := measure w.2 ty (le h 8 4) (sub h 48 64)
          tkDone [] (if tb d.arg1 8 then shedRelease s1 t else s1))

/-- A signature by the identity key. -/
def idSign (s : State) (m : List Byte) : List Byte × State :=
  let r := s.draw
  (sub (Config.falconSign r.1 s.tack.ident m) 0 1280, r.2)

/-- SIGN. -/
def tkSignCmd (d : TkDesc) (s : State) : TkRes :=
  if s.tack.ident = [] then tkFail tkNoId s
  else tkInput s d 1 8192 (fun l s => let r := idSign s l; tkDone r.1 r.2)

/-- A certificate is accepted (R518). -/
def certOk (s : State) (c : List Byte) : Bool :=
  let ca := caKey s
  let h := shake256 ca 32
  decide (h = Config.romCaHash) && decide (sub c 32 32 = h) && Config.falconVerify ca (c.take 1864) (sub c 1864 1280)

/-- VERIFY_PEER. -/
def tkPeerCmd (d : TkDesc) (s : State) : TkRes :=
  if 16 ≤ d.arg0 then tkFail tkBadCmd s
  else tkInput s d 4425 (2 ^ 32 - 1) (fun l s =>
    if !certOk s (l.take 3144) then tkFail tkCert s
    else if !Config.falconVerify (sub l 64 1793) (l.drop 4424) (sub l 3144 1280) then tkSig |> (tkFail · s)
    else if tb d.arg0 3 then
      let p := d.arg0 % 8
      let r := s.ni tackEp (plPortEp p)
      if r.1 ≠ rspOk then ⟨tkBadAddr, r.1, [], r.2⟩
      else
        let w := r.2.regWriteBy (plWrite tackEp) (plP p 0x10) 1
        if w.bus.code ≠ rspOk then ⟨tkBadAddr, w.bus.code, [], w⟩ else tkDone [] { w with bus := s.bus }
    else tkDone [] s)

/-- Bytes 0-1,415 of the report (R519). -/
def report (s : State) (nonce : List Byte) : List Byte :=
  let t := timeParts (sTime s)
  natLe 4 0x54525441 ++ natLe 2 1 ++ natLe 1 (lifecycle s)
    ++ natLe 1 (b2n (domValid s (selDom s)) + 2 * b2n (s.rb (tkA 0x1C) 16)) ++ serial s ++ natLe 4 (s.rd (plA 4))
    ++ natLe 2 t.2.2 ++ natLe 4 t.2.1 ++ natLe 6 t.1 ++ List.replicate 24 0 ++ sub nonce 0 32
    ++ ((List.range 16).map (mrOf s)).flatten ++ ((List.range 64).map (fun c => natLe 4 (otpCounter s c))).flatten
    ++ shake256 (certificate s) 32 ++ natLe 2 1280 ++ List.replicate 6 0

/-- ATTEST (R519). -/
def tkAttestCmd (d : TkDesc) (s : State) : TkRes :=
  if s.tack.ident = [] then tkFail tkNoId s
  else tkInput s d 32 32 (fun l s => let r := report s l; let g := idSign s r; tkDone (r ++ g.1) g.2)

/-- The BOW condition holds (R504, R539). -/
def bowHolds (s : State) : Bool := s.rb (shdA 0xC) 8

/-- The bits that `f` sets are programmed and read back. Whether they read back is open: a free value decides, and a
programming that fails ends TK_OTP and changes nothing (R503; log 67). -/
def otpProgrammed (s : State) (f : State → State) : TkRes :=
  let r := s.draw
  if r.1 % 2 = 1 then tkFail tkOtp r.2 else tkDone [] (f r.2)

/-- CTR_INC (R506). -/
def ctrIncCmd (d : TkDesc) (s : State) : TkRes :=
  if 63 < d.arg0 ∨ d.arg1 ≤ otpCounter s d.arg0 ∨ 224 < d.arg1 then tkFail tkBadCmd s
  else if d.arg0 < 5 ∧ tget (fun _ => 0) s.tack.svn (d.arg0 + 1) ≤ d.arg1 then tkFail tkRollback s
  else if bowHolds s then tkFail tkBrownout s
  else otpProgrammed s (fun s => setCounter s d.arg0 d.arg1)

/-- KEK_SEAL (R520). The storage key is withheld in RMA (R507; log 74). -/
def kekSealCmd (d : TkDesc) (s : State) : TkRes :=
  if lifecycle s = 2 then tkFail tkLifecycle s
  else tkInput s d 32 32 (fun l s =>
    let iv := trng s 12
    let c := Config.gcmSeal (storageKey s) iv.1 [] l
    tkDone (iv.1 ++ sub c.1 0 32 ++ sub c.2 0 16 ++ List.replicate 4 0) iv.2)

/-- KEK_LOAD (R520). -/
def kekLoadCmd (d : TkDesc) (s : State) : TkRes :=
  if 15 < d.arg0 then tkFail tkBadCmd s
  else if lifecycle s = 2 then tkFail tkLifecycle s
  else tkInput s d 64 64 (fun l s =>
    match Config.gcmOpen (storageKey s) (l.take 12) [] (sub l 12 32) (sub l 44 16) with
    | some k => if zeros l 60 4 then tkDone [] { s with tack := { s.tack with keks := tset noBytes s.tack.keks d.arg0 (sub k 0 32) } }
                else tkFail tkUnwrap s
    | none => tkFail tkUnwrap s)

/-- SAK_DELIVER (R520). -/
def sakDeliverCmd (d : TkDesc) (s : State) : TkRes :=
  let a := d.arg0
  let m := fld a 8 4
  let tx := tb a 9
  let i := 4 * fld a 14 10 + fld a 16 15
  if 2 ^ 17 ≤ a ∨ (tx ∧ 8 ≤ fld a 14 10) then tkFail tkBadCmd s
  else tkInput s d 52 52 (fun l s =>
    let cfg := if tx then txSaA m i 0 else rxSaA m i 0
    let r := s.ni tackEp (macEp m)
    if tget noBytes s.tack.keks (a % 16) = [] then tkFail tkKey s
    else if r.1 ≠ rspOk then ⟨tkBadAddr, r.1, [], r.2⟩
    else if s.rb cfg 0 then tkFail tkSaBusy s
    else
      match Config.keyUnwrap (tget noBytes s.tack.keks (a % 16)) (l.take 40) with
      | none => tkFail tkUnwrap s
      | some k => tkDone [] ((s.wb cfg 1 true).modMac m (fun (x : Mac) =>
          { x with keys := tset noBytes x.keys (if tx then 128 + i else i) (sub k 0 32 ++ l.drop 40) })))

/-- ID_GENERATE (R517). -/
def idGenerateCmd (_ : TkDesc) (s : State) : TkRes :=
  if lifecycle s ≠ 0 then tkFail tkLifecycle s
  else
    let seed := s.draw
    let k := Config.falconKeys seed.1
    let iv := trng seed.2 12
    let c := Config.gcmSeal (storageKey s) iv.1 (serial s) k.2
    tkDone (sub k.1 0 1793 ++ iv.1 ++ c.1 ++ sub c.2 0 16) iv.2

/-- OTP_PROGRAM (R507). -/
def otpProgramCmd (d : TkDesc) (s : State) : TkRes :=
  let k := fld d.arg0 3 2
  if 16 ≤ d.arg0 then tkFail tkBadCmd s
  else
    match d.arg0 % 4 with
    | 0 =>
      if lifecycle s ≠ 0 then tkFail tkLifecycle s
      else if (keyHash s k).any (fun b => b ≠ 0) then tkFail tkKey s
      else tkInput s d 32 32 (fun l s =>
        if bowHolds s then tkFail tkBrownout s
        else otpProgrammed s (fun s => (List.range 32).foldl (fun s i => s.otpSet (0x20 + 32 * k + i) (l.getD i 0)) s))
    | 1 =>
      if s.tack.slot = some k then tkFail tkKey s
      else if bowHolds s then tkFail tkBrownout s
      else otpProgrammed s (fun s => s.otpSet 0xA0 (BitVec.ofNat 8 (2 ^ k)))
    | 2 =>
      if k = 3 then tkFail tkBadCmd s
      else if k ≤ lifecycle s then tkFail tkLifecycle s
      else if bowHolds s then tkFail tkBrownout s
      else otpProgrammed s (fun s => s.otpSet 0xA1 (BitVec.ofNat 8 (2 ^ k - 1)))
    | _ => tkFail tkBadCmd s

/-! ## Registers (R521) -/

/-- Is `e` the endpoint of a Loft core? -/
def isLoftCore (e : Nat) : Bool := (List.range 16).any (fun c => decide (loftEp c = e))

def tkView (nm : String) (ix : List Nat) (a : Nat) (s : State) : Nat :=
  let i := ix.getD 0 0
  match nm with
  | "TK_STATUS" => lifecycle s + 4 * b2n (decide (s.tack.ident ≠ [])) + 8 * b2n (decide (s.tack.queue ≠ [])) + 16 * min 8 s.tack.queue.length
  | "TK_OTP_RECi" => leNat (s.otpBytes (4 * i) 4)
  | "TK_MR_i" => le (mrOf s i) (4 * ix.getD 1 0) 4
  | "TK_CTR_c" => otpCounter s i
  | _ => s.rd a

/-- The block's own part of a register write by `src`. -/
def tkWrite (src : Nat) : WriteHook := fun nm _ v s s1 =>
  match nm with
  | "TK_CMD_ADDR_LO" => if isLoftCore src then (rspOk, s1) else (rspTgt, s)
  | "TK_CMD_ADDR_HI" => if isLoftCore src then (rspOk, s1) else (rspTgt, s)
  | "TK_CMD_GO" =>
    if !isLoftCore src then (rspTgt, s)
    else if !tb v 0 then (rspOk, s)
    else if 8 ≤ s.tack.queue.length then (rspTgt, tkFlag s 2)
    else (rspOk, { s with tack := { s.tack with queue := s.tack.queue ++ [s.rd (tkA 4) + s.rd (tkA 8) * 2 ^ 32] } })
  | "TK_INT_EN" => (rspOk, s1.rise 5 (decide (s.rd (tkA 0x10) &&& s.rd (tkA 0x14) ≠ 0)) (decide (s1.rd (tkA 0x10) &&& s1.rd (tkA 0x14) ≠ 0)))
  | _ => (rspOk, s1)

/-! ## Meanings -/

/-- R501: a write of 1 to TK_CMD_GO by endpoint `src`. -/
def execTkCmdGo (src : Nat) (s : State) : Out := .next (s.regWriteBy (tkWrite src) (tkA 0xC) 1)
/-- R502. -/
def execTkRng (s : State) : Out := .next (tkRun 0x01 tkRngCmd s)
/-- R502. -/
def execTkHash (s : State) : Out := .next (tkRun 0x02 tkHashCmd s)
/-- R510. -/
def execTkExtend (s : State) : Out := .next (tkRun 0x03 tkExtendCmd s)
/-- R509, R510. -/
def execTkVerify (s : State) : Out := .next (tkRun 0x04 tkVerifyCmd s)
/-- R515. -/
def execTkLoad (s : State) : Out := .next (tkRun 0x05 tkLoadCmd s)
/-- R502. -/
def execTkSign (s : State) : Out := .next (tkRun 0x06 tkSignCmd s)
/-- R518. -/
def execVerifyPeer (s : State) : Out := .next (tkRun 0x07 tkPeerCmd s)
/-- R519. -/
def execTkAttest (s : State) : Out := .next (tkRun 0x08 tkAttestCmd s)
/-- R504, R506. -/
def execCtrInc (s : State) : Out := .next (tkRun 0x09 ctrIncCmd s)
/-- R520. -/
def execKekSeal (s : State) : Out := .next (tkRun 0x0A kekSealCmd s)
/-- R520. -/
def execKekLoad (s : State) : Out := .next (tkRun 0x0B kekLoadCmd s)
/-- R520. -/
def execSakDeliver (s : State) : Out := .next (tkRun 0x0C sakDeliverCmd s)
/-- R517. -/
def execIdGenerate (s : State) : Out := .next (tkRun 0x0D idGenerateCmd s)
/-- R507. -/
def execOtpProgram (s : State) : Out := .next (tkRun 0x0E otpProgramCmd s)
/-- R516. -/
def execTkLockImem (src : Nat) (s : State) : Out := .next (s.regWriteBy (tkWrite src) (tkA 0x18) 1)
/-- R512, R513. -/
def execTkBoot (s : State) : Out := .next (boot s)

end Sys2Proof.Machine
end

