-- ==== Sys2Proof/Machine/Loft.lean ====
section
/-! DEFINITION. The Loft block (R492-R498, R522): LPDDR5X control, core resets, message routes, RAS records and
the board peripherals' inputs. -/

namespace Sys2Proof.Machine

def lftA (o : Nat) : Nat := lftRegs + o

/-- The masked flags of the register pair at `a` and `b` are not all 0. -/
def anyFlag (s : State) (a b : Nat) : Bool := decide (s.rd a &&& s.rd b ≠ 0)

/-- The condition of message source `n` is true (R496, R497). The board peripherals' own enables are not laid out in
the spec (R498), so theirs counts as true once it has risen. -/
def msiCond (s : State) (n : Nat) : Bool :=
  if n = 0 then anyFlag s (yrdA 0xC) (yrdA 0x10)
  else if n = 1 then eccIrq s
  else if n = 2 then anyFlag s (ctRegs + 8) (ctRegs + 0xC)
  else if n = 3 then anyFlag s (plA 0xC) (plA 0x10)
  else if n = 4 then anyFlag s (hltRegs + 8) (hltRegs + 0xC)
  else if n = 5 then anyFlag s (tkA 0x10) (tkA 0x14)
  else if n = 6 then tb (shdIrq s) 0
  else if n = 7 then decide (shdIrq s / 2 ≠ 0)
  else if n = 8 then s.rb (calA 0x20) 0
  else if n = 9 then s.rb (lftA 8) 0 && s.rb (lftA 8) 1
  else if n < 43 then anyFlag s (macA (n - 10) 0x1018) (macA (n - 10) 0x101C)
  else if n < 107 then chIrq s (512 + (n - 43)) && s.rb (chA (512 + (n - 43)) 0) 8
  else if n < 139 then decide (s.rd (stbRegs (n - 107) + 0x8004) ≠ 0)
  else if n < 155 then decide (s.rd (htcA (n - 139) 0x18) ≠ 0 ∨ s.rd (htcA (n - 139) 0x1C) ≠ 0)
  else decide (n < 168)

/-- Register and bit of LFT_MSI_PEND for source `n`. -/
def pendA (n : Nat) : Nat := lftA (0x20 + n / 32 * 4)
def routeA (n : Nat) : Nat := lftA (0x10000 + 4 * n)

/-- Send the message of source `n` by its route (R496, R497): a 4-byte write of the identity to the IMSIC file of its
hart. A write that is not answered RSP_OK is dropped and counted. -/
def msiSend (s : State) (n : Nat) : State :=
  let r := s.rd (routeA n)
  let hart := if 139 ≤ n ∧ n < 155 then n - 139 else fld r 14 11
  let t := s.niPosted (ep (sysRouter 7) 2) (ep (sysRouter 7) 2)
  if t.1 then t.2.emit (.aia hart (fld r 16 15) (fld r 10 0)) else t.2.cnt (lftA 0x14) 1

/-- The oldest rise of source `n` reaches the router (R497). -/
def msiRisen (s : State) (n : Nat) : State :=
  if s.msiRise.contains n ∧ s.shedReady shedLoft then
    let s1 := { s with msiRise := s.msiRise.erase n }
    if s1.rb (routeA n) 31 then msiSend s1 n else s1.wb (pendA n) (n % 32) true
  else s

/-- A route is written (R497, R522). -/
def routeWrite (s s1 : State) (n v : Nat) : Nat × State :=
  if fld v 10 0 = 0 ∨ 2 ≤ fld v 16 15 then (rspTgt, s)
  else if tb v 31 ∧ s1.rb (pendA n) (n % 32) then
    let s2 := s1.wb (pendA n) (n % 32) false
    (rspOk, if msiCond s2 n then msiSend s2 n else s2)
  else (rspOk, s1)

/-- LFT_CORE_RESET changes to `v`: cores that leave or enter reset, as the hatches see them (R369). -/
def coreResetChange (s : State) (v : Nat) : State :=
  let s1 := s.wr (lftA 4) (v % 65536)
  (List.range 16).foldl (fun t c =>
    let i := 256 + c
    if s.rb (lftA 4) c ∧ !tb v c then
      { t with hatWin := if t.hatWin.contains i then t.hatWin else t.hatWin ++ [i] }
    else if !s.rb (lftA 4) c ∧ tb v c then clientEnter t i
    else t) s1

/-- LFT_DDR_CFG is written (R494, R522): TRAIN starts a training, whose outcome replaces the last one's. -/
def ddrCfg (s s1 : State) (v : Nat) : Nat × State :=
  let old := s.rd (lftA 0)
  if tb old 0 ∧ fld v 2 0 ≠ fld old 2 0 then (rspTgt, s)
  else if tb v 0 ∧ !tb old 0 ∧ !tb old 16 then (rspTgt, s)
  else if tb v 8 ∧ !tb old 8 then (rspOk, s1.wf (lftA 0) 17 16 0)
  else (rspOk, s1)

/-- Training ends. -/
def trainDone (s : State) (ok : Bool) : State :=
  if s.rb (lftA 0) 8 then ((s.wb (lftA 0) 8 false).wb (lftA 0) 16 ok).wb (lftA 0) 17 (!ok) else s

/-- An uncorrectable error on a Loft access (R495): recorded while no record stands. -/
def rasError (s : State) (core level : Nat) (async : Bool) (addr : Nat) : State :=
  if s.rb (lftA 8) 0 then s
  else
    let s1 := s.wr (lftA 8) (1 + 2 * b2n async + core % 16 * 4 + level % 4 * 64)
    ((s1.wr (lftA 0xC) (addr % 2 ^ 32)).wr (lftA 0x10) (addr / 2 ^ 32 % 2 ^ 24)).rise 9 (msiCond s 9) async

/-- A character arrives (R498). A full FIFO loses this one or the oldest, which the spec leaves open (log 76). -/
def uartReceive (s : State) (u ch : Nat) : State :=
  let q := tget noBytes s.uartRx u
  let d := s.draw
  let b := BitVec.ofNat 8 ch
  let r : List Byte × State := if q.length < 64 then (q ++ [b], s) else if d.1 % 2 = 0 then (q, d.2) else (q.drop 1 ++ [b], d.2)
  { r.2 with uartRx := tset noBytes r.2.uartRx u r.1, msiRise := r.2.msiRise ++ [155 + u] }

/-! ## Registers (R522) -/

def lftView (nm : String) (ix : List Nat) (a : Nat) (s : State) : Nat :=
  match nm with
  | "LFT_MSI_PEND_k" => (List.range 32).foldl (fun v j =>
      v + b2n (s.rb a j && msiCond s (32 * ix.getD 0 0 + j)) * 2 ^ j) 0
  | _ => htcView nm ix a s

/-- The block's own part of a register write. -/
def lftWrite : WriteHook := fun nm ix v s s1 =>
  match nm with
  | "LFT_DDR_CFG" => ddrCfg s s1 v
  | "LFT_CORE_RESET" => if tb v 0 then (rspTgt, s) else (rspOk, coreResetChange s v)
  | "LFT_MSI_ROUTE_s" => routeWrite s s1 (ix.getD 0 0) v
  | _ => htcWrite nm ix v s s1

/-! ## Meanings -/

/-- R522: TRAIN written 1. -/
def execDdrTrain (s : State) : Out := .next (s.regWriteBy lftWrite (lftA 0) (setBit (s.rd (lftA 0)) 8))
/-- R522. -/
def execTrainDone (ok : Bool) (s : State) : Out := .next (trainDone s ok)
/-- R494: EN written 1. The boot SRAM's contents keep their addresses, so memory reads as before. -/
def execDdrEnable (s : State) : Out := .next (s.regWriteBy lftWrite (lftA 0) (setBit (clrBit (s.rd (lftA 0)) 8) 0))
/-- R522: the bits of `mask` are cleared. -/
def execCoreResetRelease (mask : Nat) (s : State) : Out :=
  .next (s.regWriteBy lftWrite (lftA 4) (s.rd (lftA 4) &&& (65535 - mask % 65536)))
/-- R497. -/
def execMsiSend (n : Nat) (s : State) : Out := if n < 256 then .next (msiRisen s n) else .fault .noSuchUnit
/-- R495. -/
def execRasError (core level : Nat) (async : Bool) (addr : Nat) (s : State) : Out :=
  if core < 16 then .next (rasError s core level async addr) else .fault .noSuchUnit
/-- R498, R553. -/
def execGpioInputChange (pin : Nat) (level : Bool) (s : State) : Out :=
  if pin < 48 then
    .next (if tb s.gpio pin = level then s
      else { s with gpio := setFld s.gpio pin pin (b2n level), msiRise := s.msiRise ++ [166] })
  else .fault .noSuchUnit
/-- R498. -/
def execSmbalert (s : State) : Out := .next { s with msiRise := s.msiRise ++ [167] }
/-- R498. -/
def execUartReceive (u ch : Nat) (s : State) : Out := if u < 2 then .next (uartReceive s u ch) else .fault .noSuchUnit

end Sys2Proof.Machine
end

