-- ==== Sys2Proof/Machine/HltPkt.lean ====
section
/-! DEFINITION. Halter packets (R466-R473): their fields, the checks a request passes, and the way of replies and
unit-originated packets over the three transports (R470, R471). -/

namespace Sys2Proof.Machine

def hlA (o : Nat) : Nat := hltRegs + o

/-- Counter `i` of R488. -/
def hltCnt (s : State) (i : Nat) : State := s.cnt (hlA (0x200 + 4 * i)) 1

/-- Set flag `i` of HLT_INT_STATUS (message source 4). -/
def hltFlag (s : State) (i : Nat) : State := s.flag (hlA 8) (hlA 0xC) 4 i

/-- The firmware runs and accepts packets (R488). -/
def hltReady (s : State) : Bool := s.rb (hlA 0) 0 && s.rb (hlA 4) 0

/-- Status codes (R467). -/
def stOk : Nat := 0x00
def stPending : Nat := 0x01
def stBusy : Nat := 0x02
def stNotHolder : Nat := 0x10
def stBadOpcode : Nat := 0x11
def stBadParam : Nat := 0x12
def stLate : Nat := 0x13
def stOverrun : Nat := 0x20
def stAborted : Nat := 0x21
def stUe : Nat := 0x22

/-! ## Header and TLVs (R466, R468) -/

def hOp (h : List Byte) : Nat := le h 4 2 % 4096
def hCellW (h : List Byte) : Nat := le h 6 2
def hSeq (h : List Byte) : Nat := le h 8 4
def hSlot (h : List Byte) : Nat := le h 12 4
def hTok (h : List Byte) : Nat := le h 16 4
def hLen (h : List Byte) : Nat := le h 20 4
def hTag (h : List Byte) : Nat := le h 24 4
def hQuiet (h : List Byte) : Bool := tb (le h 3 1) 0
def hForce (h : List Byte) : Bool := tb (le h 3 1) 1

/-- Key of the cell or TRX that a header names, as `Hlt.cells` has it. -/
def hCell (h : List Byte) : Nat := hCellW h % 2048

/-- The header of a reply or of a packet the unit originates, under R466. -/
def hHeader (op st cell seq slot tok len tag : Nat) : List Byte :=
  let h := natLe 2 0x4854 ++ natLe 1 1 ++ natLe 1 st ++ natLe 2 op ++ natLe 2 cell ++ natLe 4 seq ++ natLe 4 slot
    ++ natLe 4 tok ++ natLe 4 len ++ natLe 4 tag
  h ++ natLe 4 (crc32c h)

/-- One TLV, padded to a multiple of 4. -/
def tlv (ty : Nat) (v : List Byte) : List Byte := natLe 2 ty ++ natLe 2 v.length ++ sub v 0 (roundUp v.length 4)

/-- Fill payloads of at most `n` bytes with whole TLVs, in order. -/
def hFill (n : Nat) : List Byte → List (List Byte) → List (List Byte)
  | cur, [] => [cur]
  | cur, t :: r => if cur.length + t.length ≤ n then hFill n (cur ++ t) r else cur :: hFill n t r

/-- The payloads of a reply: one, or several that each start with a SEG TLV (R473). -/
def hPayloads (tlvs : List (List Byte)) : List (List Byte) :=
  if tlvs.flatten.length ≤ 8160 then [tlvs.flatten]
  else
    let p := hFill 8152 [] tlvs
    ((List.range p.length).zip p).map (fun (i, b) => tlv 0x53 (natLe 1 i ++ natLe 1 p.length ++ natLe 2 0) ++ b)

/-! ## Sources (R470, R490) -/

/-- Source key of a packet: kind, MAC instance, address, IP address, UDP port. -/
def hKey (x : HSrc) : List Nat :=
  match x.kind with
  | 0 => [0]
  | 1 => [1, x.mac, x.addr]
  | 2 => [2, x.mac, x.ip, x.port]
  | _ => [3, x.addr]

/-- Source key of a unit-control-list entry or OVERRIDE key (R490); unused entries have none. -/
def keyEntry (l : List Byte) : Option (List Nat) :=
  match le l 0 1 % 4 with
  | 1 => some [1, fld (le l 0 4) 8 4, le l 4 6]
  | 2 => some [2, fld (le l 0 4) 8 4, le l 12 16, le l 28 2]
  | 3 => some [3, le l 4 4 % 2 ^ 20]
  | _ => none

/-- The unit control list holds the source. -/
def inUcl (s : State) (x : HSrc) : Bool :=
  (List.range 8).any (fun j =>
    decide (keyEntry ((List.range 8).map (fun w => natLe 4 (s.rd (hlA (0x100 + 0x20 * j + 4 * w))))).flatten = some (hKey x)))

/-! ## Cells -/

def hcDflt : Nat → HCell := fun _ => HCell.reset
def State.hcell (s : State) (c : Nat) : HCell := tget hcDflt s.hlt.cells c
def State.setHcell (s : State) (c : Nat) (x : HCell) : State := { s with hlt := { s.hlt with cells := tset hcDflt s.hlt.cells c x } }
def State.modHcell (s : State) (c : Nat) (f : HCell → HCell) : State := s.setHcell c (f (s.hcell c))

/-- Control core of a cell or TRX (R486), and the endpoint from which it acts. -/
def hltCoreOf (c : Nat) : Nat := c % 1024 % 4
def hltCoreEpOf (c : Nat) : Nat := hltCoreEp (hltCoreOf c)

/-! ## Transports (R470, R471) -/

/-- The 16-bit one's complement checksum of IPv4 and UDP. -/
def onesSum (l : List Byte) : Nat :=
  let t := ((List.range (l.length / 2 + 1)).map (fun i => be l (2 * i) 2)).sum
  let f := fun x => x % 65536 + x / 65536
  0xFFFF - f (f (f t))

/-- Into the reply ring; a full or absent ring drops the reply. -/
def loftSend (s : State) (k : Nat) (pkt : List Byte) : State :=
  let n := s.rf (hlA 0x3C) 10 0
  let h := s.rd (hlA 0x40)
  if n < 2 ∨ (h + 1) % n = s.rd (hlA 0x44) then hltCnt s 4
  else
    let r := s.putAll (hltCoreEp k) (s.rd (hlA 0x34) + s.rf (hlA 0x38) 11 0 * 2 ^ 32 + h * 8192) pkt
    if r.1 = rspOk then hltFlag (hltCnt (r.2.wr (hlA 0x40) ((h + 1) % n)) 3) 0 else hltCnt r.2 4

/-- The frame of a reply, FCS apart: addresses swapped, tags kept, hop limit 64, UDP checksum computed. What R470 does
not say of an IP header (traffic class, identification, fragmentation bits, flow label) is free (log 82). -/
def ethReply (s : State) (x : HSrc) (pkt : List Byte) : List Byte × State :=
  let o := frameOfs x.hdr
  let l2 := sub x.hdr 6 6 ++ sub x.hdr 0 6 ++ (x.hdr.take o).drop 12
  if x.kind = 1 then (l2 ++ pkt, s)
  else
    let d := s.draw
    let n := pkt.length + 8
    let udp := fun (ps : List Byte) =>
      let h := natBe 2 (s.rf (hlA 0x10) 15 0) ++ natBe 2 x.port ++ natBe 2 n
      let c := onesSum (ps ++ h ++ natBe 2 0 ++ pkt)
      h ++ natBe 2 (if c = 0 then 0xFFFF else c) ++ pkt
    if frameEtype x.hdr = 0x0800 then
      let adr := sub x.hdr (o + 16) 4 ++ sub x.hdr (o + 12) 4
      let a := [0x45#8] ++ natLe 1 d.1 ++ natBe 2 (n + 20) ++ natLe 2 (d.1 / 256) ++ natBe 2 (d.1 / 2 ^ 24 % 2 * 2 ^ 14)
        ++ [64#8, 17#8]
      (l2 ++ a ++ natBe 2 (onesSum (a ++ natBe 2 0 ++ adr)) ++ adr ++ udp (adr ++ natBe 2 17 ++ natBe 2 n), d.2)
    else
      let adr := sub x.hdr (o + 24) 16 ++ sub x.hdr (o + 8) 16
      let a := natBe 4 (6 * 2 ^ 28 + d.1 % 2 ^ 28) ++ natBe 2 n ++ [17#8, 64#8]
      (l2 ++ a ++ adr ++ udp (adr ++ natBe 4 n ++ natBe 4 17), d.2)

/-- A Halter endpoint (R568). -/
def isHltEp (e : Nat) : Bool := decide (e / 32 = sysRouter 1)

/-- Through the bound transmit queue, as a RAW record; dropped where the queue cannot be written. -/
def ethSend (s : State) (x : HSrc) (pkt : List Byte) : State :=
  let b := s.rd (hlA (0x50 + 4 * x.bind))
  let m := x.mac
  let q := fld b 13 11
  let w := s.rd (macA m (0x1020 + 4 * q))
  if !tb b 31 ∨ fld b 4 0 ≠ m ∨ !tb w 31 ∨ !isHltEp (fld w 11 0) then hltCnt s 4
  else
    let f := ethReply s x pkt
    let r := sub (natLe 4 0xFFFF0000 ++ sub [] 0 16 ++ natLe 2 f.1.length ++ sub [] 0 42 ++ f.1) 0 (roundUp (64 + f.1.length) 32)
    let y := f.2.txq m q
    if recBad f.2 m r ∨ y.lost ∨ y.held ≠ [] ∨ 0x20000 < txqBytes f.2 m q + r.length then hltCnt f.2 4
    else
      let n := f.2.ni (fld w 11 0) (macEp m)
      if n.1 ≠ rspOk then hltCnt n.2 4 else hltCnt (txqWrite n.2 m q (fld w 11 0) r).2 3

/-- One HALTER packet to unit `u` (R437, R453, R457). -/
def fabricPkt (s : State) (u : Nat) (payload : List Byte) : State :=
  if plFenced s u then s.cnt (plA 0x38) 1
  else
    let s1 := if s.pl.sent.contains (u % 4096) then s else { s with pl := { s.pl with sent := s.pl.sent ++ [u % 4096] } }
    plForward s1 ⟨3, 1, plEpoch s, 0, plFgen s, plPgen s u, u, plUnit s, payload⟩

/-- In fragments to a unit of the fabric, under a FRAG_ID that the spec does not choose (log 82). -/
def fabricSend (s : State) (u : Nat) (pkt : List Byte) : State :=
  if !plValid s then hltCnt s 4
  else
    let d := s.draw
    let n := max 1 (cdiv pkt.length 264)
    hltCnt ((List.range n).foldl (fun s i =>
      fabricPkt s u (natLe 2 d.1 ++ natLe 1 i ++ natLe 1 n ++ natLe 4 0 ++ (pkt.drop (264 * i)).take 264)) d.2) 3

/-- Send a packet of control core `k` to a source. -/
def hltSend (s : State) (k : Nat) (x : HSrc) (pkt : List Byte) : State :=
  match x.kind with
  | 0 => loftSend s k pkt
  | 3 => fabricSend s x.addr pkt
  | _ => ethSend s x pkt

/-- Can a source still be addressed (R491)? -/
def addressable (s : State) (x : HSrc) : Bool :=
  match x.kind with
  | 0 => decide (2 ≤ s.rf (hlA 0x3C) 10 0)
  | 3 => plValid s && !plFenced s x.addr
  | _ => s.rb (hlA (0x50 + 4 * x.bind)) 31 && decide (s.rf (hlA (0x50 + 4 * x.bind)) 4 0 = x.mac)

/-! ## Replies and reports -/

/-- Send the packets of one reply or report; `op` carries the flags of OPCODE[15:13]. -/
def hltEmit (s : State) (k : Nat) (x : HSrc) (op st cell seq slot tok tag : Nat) (tlvs : List (List Byte)) : State :=
  (hPayloads tlvs).foldl (fun s p => hltSend s k x (hHeader op st cell seq slot tok p.length tag ++ p)) s

/-- The reply to the request of header `h`, with REPEAT, the generation if it names one, and its slot address. -/
def hltReply (s : State) (k : Nat) (x : HSrc) (h : List Byte) (st : Nat) (rep : Bool) (gen : Option Nat) (slot : Nat)
    (tlvs : List (List Byte)) : State :=
  let s1 := if st = stBusy then hltCnt s 5 else if st = stNotHolder then hltCnt s 7 else s
  if st = stOk ∧ hQuiet h then s1
  else
    let g := gen.getD 0 % 65536
    hltEmit s1 k x (0x8000 + b2n rep * 2 ^ 14 + g % 2 * 2 ^ 13 + hOp h) st (hCellW h) (hSeq h) slot (hTok h)
      (hTag h % 65536 + g * 65536) tlvs

/-- A REPORT for cell `c` (R472, R473). -/
def hltReport (s : State) (c : Nat) (x : HSrc) (st slot : Nat) (tlvs : List (List Byte)) : State :=
  hltEmit s (hltCoreOf c) x 0x80F0 st c 0 slot 0 0 tlvs

/-! ## Requests (R469, R472, R473) -/

/-- A request as its opcode's rule meets it: core, source, arrival time, header, TLVs. -/
structure HReq where
  k : Nat
  src : HSrc
  time : Int
  h : List Byte
  tlvs : List (Nat × List Byte)
deriving DecidableEq, Repr

/-- TLVs as (type, offset, value), or the TLV at which the payload breaks. -/
def hTlvs : Nat → Nat → List Byte → Except (Nat × Nat) (List (Nat × Nat × List Byte))
  | 0, _, _ => .ok []
  | n + 1, o, l =>
    if l.length = 0 then .ok []
    else
      let v := le l 2 2
      if l.length < 4 + v then .error (le l 0 2, o)
      else
        match hTlvs n (o + 4 + roundUp v 4) (l.drop (4 + roundUp v 4)) with
        | .ok r => .ok ((le l 0 2, o, sub l 4 v) :: r)
        | .error e => .error e

/-- Request TLVs of an opcode. -/
def opTlvs (op : Nat) : List Nat :=
  match op with
  | 0x020 => [0x20, 0x21, 0x22, 0x23, 0x24, 0x25]
  | 0x021 => [0x26]
  | 0x030 => [0x30, 0x32, 0x34]
  | 0x031 => [0x31, 0x33, 0x35, 0x34]
  | 0x032 => [0x36, 0x37]
  | 0x040 => [0x40]
  | 0x050 => [0x50]
  | 0x051 => [0x50]
  | 0x060 => [0x60]
  | 0x070 => [0x70, 0x71]
  | 0x080 => [0x80]
  | 0x081 => [0x80]
  | 0x090 => [0x90]
  | 0x0A0 => [0xA0]
  | _ => []

/-- TLVs that an opcode cannot do without. -/
def opNeeds (op : Nat) : List Nat :=
  match op with
  | 0x020 => [0x20, 0x21, 0x23, 0x24, 0x22]
  | 0x030 => []
  | 0x031 => []
  | 0x032 => []
  | 0x070 => [0x70]
  | op => opTlvs op

/-- A value has its type's length and its reserved bytes at 0. -/
def tlvOk (ty : Nat) (v : List Byte) : Bool :=
  let n := v.length
  match ty with
  | 0x20 => decide (n = 12 ∧ le v 11 1 = 0)
  | 0x21 => decide (n = 12)
  | 0x22 => decide (n = 8 ∧ le v 2 1 < 2 ∧ le v 3 1 = 0)
  | 0x23 => decide (n = 4)
  | 0x24 => decide (n = 8 ∧ le v 5 3 = 0)
  | 0x25 => decide (n % 24 = 0 ∧ n ≤ 96)
  | 0x26 => decide (n = 4)
  | 0x30 => decide (n = 20)
  | 0x31 => decide (n = 20)
  | 0x32 => decide (6 ≤ n ∧ n = 6 + cdiv (le v 4 2) 8)
  | 0x33 => decide (n = 10 ∧ le v 7 1 = 0)
  | 0x34 => decide (n = 4)
  | 0x35 => decide (n = 4 ∧ le v 0 1 < 4)
  | 0x36 => decide (8 ≤ n ∧ le v 2 2 = 0)
  | 0x37 => decide (n = 16 ∧ le v 2 2 = 0)
  | 0x40 => decide (n = 18)
  | 0x50 => decide (n = 5 ∧ le v 4 1 < 2)
  | 0x60 => decide (n = 10 ∧ le v 1 1 = 0)
  | 0x70 => decide (n = 16 ∧ le v 1 1 < 2 ∧ le v 2 6 = 0)
  | 0x71 => decide (4 ≤ n)
  | 0x80 => decide (n = 8 ∧ le v 0 1 < 2 ∧ le v 1 3 = 0)
  | 0x90 => decide (n = 2)
  | 0xA0 => decide (n = 2)
  | _ => true

/-- An opcode of R472 that may come from outside. -/
def opKnown (op : Nat) : Bool :=
  [0x001, 0x010, 0x011, 0x020, 0x021, 0x022, 0x030, 0x031, 0x032, 0x040, 0x050, 0x051, 0x060, 0x070, 0x080, 0x081, 0x090,
    0x0A0].contains op

def opUnitWide (op : Nat) : Bool := decide (op = 0x001 ∨ (0x070 ≤ op ∧ op ≠ 0x0F0))

/-- The header breaks step 5 of R469. -/
def headerBad (h : List Byte) : Bool :=
  let op := hOp h
  decide (4 ≤ le h 3 1) || (hForce h && decide (op ≠ 0x010)) || decide (le h 4 2 ≠ op) || decide (65536 ≤ hTag h)
    || (if opUnitWide op then decide (hCellW h ≠ 0xFFFF) else decide (2048 ≤ hCellW h ∨ 768 ≤ hCellW h % 1024))

/-- A TLV that breaks R468: one of unknown type that is critical, or a known one with a wrong value. -/
def tlvBad (op : Nat) (t : Nat × Nat × List Byte) : Bool :=
  let ty := t.1 % 0x8000
  if (opTlvs op).contains ty then !tlvOk ty t.2.2 else decide (0x8000 ≤ t.1)

/-- Step 5: the TLVs the opcode takes and the number ignored, or the cause of the failure where a TLV is it. -/
def hCheck (h payload : List Byte) : Except (Option (Nat × Nat)) (List (Nat × List Byte) × Nat) :=
  if headerBad h then .error none
  else
    match hTlvs (payload.length + 1) 0 payload with
    | .error e => .error (some e)
    | .ok l =>
      match l.find? (tlvBad (hOp h)) with
      | some t => .error (some (t.1, t.2.1))
      | none =>
        let mine := l.filter (fun t => (opTlvs (hOp h)).contains (t.1 % 0x8000))
        match (opNeeds (hOp h)).find? (fun ty => !mine.any (fun t => decide (t.1 % 0x8000 = ty))) with
        | some ty => .error (some (ty, payload.length))
        | none => .ok (mine.map (fun t => (t.1 % 0x8000, t.2.2)), l.length - mine.length)

/-- First value of a type among the TLVs, empty if there is none. -/
def HReq.val (r : HReq) (ty : Nat) : List Byte :=
  match r.tlvs.find? (fun t => decide (t.1 = ty)) with
  | some t => t.2
  | none => []

/-- Every value of a type. -/
def HReq.vals (r : HReq) (ty : Nat) : List (List Byte) := (r.tlvs.filter (fun t => decide (t.1 = ty))).map (·.2)

/-- The cell a request names. -/
def HReq.cell (r : HReq) : Nat := hCell r.h

/-- The plain reply to a request. -/
def HReq.reply (r : HReq) (s : State) (st : Nat) (tlvs : List (List Byte)) : State :=
  hltReply s r.k r.src r.h st false none (hSlot r.h) tlvs

end Sys2Proof.Machine
end

