-- ==== Sys2Proof/Machine/HltCell.lean ====
section
/-! DEFINITION. Halter cells (R474-R484): slot addresses and generations, the pool, staged orders, result streams and
the words exchanged with the plans; and the state of the firmware that these commands share. -/

namespace Sys2Proof.Machine

/-! ## Slot addresses and generations (R47, R477, R482) -/

def slotsPerFrame (f : Nat) : Nat := (symAt f (frameC - 1) + 1) / symsPerSlot f

/-- A slot address is one of format `f` (R47). -/
def slotOk (f a : Nat) : Bool :=
  if f = 11 then decide (fld a 31 10 < 2715648 ∧ fld a 6 0 = 0)
  else if 4 ≤ f ∧ f ≤ 6 then decide (fld a 1 0 = 0 ∧ fld a 11 2 < slotsPerFrame f)
  else decide (fld a 0 0 = 0 ∧ fld a 11 5 < slotsPerFrame f ∧ fld a 4 1 < symsPerSlot f)

/-- Ticks of level `l` of format `f` that precede the one a slot address names, within the counter period. -/
def lvlIdx (f l a : Nat) : Nat :=
  if f = 11 then (fld a 31 10 * 8 + fld a 9 7) / [1, 8, 208, 408].getD l 1
  else
    let fr := fld a 31 22 * 1024 + fld a 21 12
    let sl := if 4 ≤ f ∧ f ≤ 6 then fld a 11 2 else fld a 11 5
    let sy := if 4 ≤ f ∧ f ≤ 6 then 0 else fld a 4 1
    match l with
    | 0 => (fr * slotsPerFrame f + sl) * symsPerSlot f + sy
    | 1 => fr * slotsPerFrame f + sl
    | 2 => fr * 10 + sl * 10 / slotsPerFrame f
    | _ => fr

/-- Ticks of level `l` in a counter period, and after how many the level's counter (R569) starts again. -/
def lvlTotal (f l : Nat) : Nat :=
  if f = 11 then 2715648 * 8 / [1, 8, 208, 408].getD l 1
  else 1024 * 1024 * [slotsPerFrame f * symsPerSlot f, slotsPerFrame f, 10, 1].getD l 1

def lvlWrap (f l : Nat) : Nat :=
  if f = 11 then (if l = 0 then 8 else lvlTotal f l) else [symsPerSlot f, slotsPerFrame f, 10, 1024].getD l 1

/-- How many of the first `n` ticks of a level have a counter equal to `ph` modulo `per` (R48). -/
def lvlHits (f l per ph n : Nat) : Nat :=
  let c := lvlWrap f l
  let part := fun m => if ph < per then (m + per - 1 - ph) / per else 0
  n / c * part c + part (n % c)

def cfgByte (c : HCell) (i : Nat) : Nat := le c.cfg i 1

/-- The enabled plan and output record of a cell's stream: plan slot and output index (R52, R482). -/
def streamPlan (s : State) (ck out : Nat) : Option (Nat × Nat) :=
  let c := s.hcell ck
  let look := fun p =>
    if s.rb (planA p 0) 0 then
      let b := s.rd (planA p 4)
      ((List.range (nOut s b)).find? (fun o => decide (peek s (outA s b o) 2 = out ∧ peek s (outA s b o + 4) 1 = 0
        ∧ peek s (outA s b o + 6) 2 = ck % 1024))).map (fun o => (p, o))
    else none
  match look (cfgByte c 7) with
  | some r => some r
  | none => look (cfgByte c 6)

/-- Releases of a stream's plan from the cell's START slot up to, and not including, index `i` of its level. -/
def releasesTo (s : State) (ck p i : Nat) : Nat :=
  let b := s.rd (planA p 4)
  let f := trainFmt s (peek s (b + 12) 1)
  let l := peek s (b + 13) 1
  let hits := lvlHits f l (peek s (b + 16) 2) (peek s (b + 18) 2)
  let i0 := lvlIdx f l (s.hcell ck).start
  if i0 ≤ i then hits i - hits i0 else hits (lvlTotal f l) - hits i0 + hits i

/-- Generation of the release at slot address `a`. -/
def genOf (s : State) (ck p a : Nat) : Nat :=
  let b := s.rd (planA p 4)
  releasesTo s ck p (lvlIdx (trainFmt s (peek s (b + 12) 1)) (peek s (b + 13) 1) a) % 65536

/-- The generation next to open, by the present slot; 0 before the START slot. -/
def genNext (s : State) (ck out : Nat) : Nat :=
  match streamPlan s ck out with
  | none =>
    match (s.hcell ck).streams.find? (fun (x : HStream) => decide (x.out = out)) with
    | some x => match x.gens.getLast? with | some g => (g.gen + 1) % 65536 | none => 0
    | none => 0
  | some (p, _) =>
    let b := s.rd (planA p 4)
    let t := peek s (b + 12) 1
    let f := trainFmt s t
    let l := peek s (b + 13) 1
    let now := trainNow s t
    if now < slotCycle s t (s.hcell ck).start then 0
    else (releasesTo s ck p (lvlIdx f l (slotAddr f (now % (fmtPeriod f : Nat)).toNat) + 1)) % 65536

/-! ## The pool (R484) -/

def poolBase (s : State) : Nat := s.rd (hlA 0x14) + s.rf (hlA 0x18) 11 0 * 2 ^ 32 + 2 ^ 20
def poolSize (s : State) : Nat := s.rf (hlA 0x1C) 24 0 - 2 ^ 20

/-- What the cells but `ck` hold of the pool: (address, bytes). -/
def poolUsed (s : State) (ck : Nat) : List (Nat × Nat) :=
  ((s.hlt.cells.filter (fun c => decide (c.1 ≠ ck))).map (fun c =>
    (c.2.qaddr, roundUp c.2.quota 256) :: c.2.streams.map (fun (x : HStream) => (x.addr, roundUp x.size 256)))).flatten.filter
      (fun r => decide (0 < r.2))

def poolSum (l : List (Nat × Nat)) : Nat := (l.map (·.2)).sum

/-- A place for `n` bytes in the region `[lo, hi)` beside what is used: at the start or the end of one of its gaps. The
spec leaves the choice among them open: it is a free value (log 83). -/
def place (s : State) (lo hi n : Nat) (used : List (Nat × Nat)) : Option Nat × State :=
  let free := fun a => decide (lo ≤ a ∧ a + n ≤ hi) && used.all (fun u => decide (a + n ≤ u.1 ∨ u.1 + u.2 ≤ a))
  let spots := ([lo, hi - n] ++ (used.map (fun u => [u.1 + u.2, u.1 - n])).flatten).filter free
  let d := s.draw
  (spots[d.1 % max 1 spots.length]?, d.2)

/-- Places for several sizes in turn. -/
def placeAll (s : State) (lo hi : Nat) : List Nat → List (Nat × Nat) → Option (List Nat) × State
  | [], _ => (some [], s)
  | n :: t, used =>
    match place s lo hi n used with
    | (none, s1) => (none, s1)
    | (some a, s1) =>
      match placeAll s1 lo hi t ((a, n) :: used) with
      | (some l, s2) => (some (a :: l), s2)
      | (none, s2) => (none, s2)

/-! ## Words to the plan (R481) -/

/-- Queue a word for the plan hatch. -/
def planWord (s : State) (ck w : Nat) : State := s.modHcell ck (fun c => { c with words := c.words ++ [w] })

/-- Post the cell's oldest word if its hatch is empty. -/
def postWord (s : State) (ck : Nat) : State :=
  match (s.hcell ck).words with
  | [] => s
  | w :: t =>
    let h := le (s.hcell ck).hatches 2 2
    if hatFull s h then s
    else
      let n := s.ni (hltCoreEpOf ck) hatEp
      if n.1 ≠ rspOk then s
      else
        let r := hatchPost n.2 (hltCoreEpOf ck) h w
        if r.1 = rspOk then r.2.modHcell ck (fun c => { c with words := t }) else s

/-! ## Results (R482, R483) -/

/-- Change the record of generation `g` of a stream, made new at the end if there is none; the last 64 are kept. -/
def setGen (s : State) (ck out g slot : Nat) (f : HGen → HGen) : State :=
  s.modHcell ck (fun c => { c with streams := c.streams.map (fun (x : HStream) =>
    if x.out ≠ out then x
    else
      let l := if x.gens.any (fun (y : HGen) => decide (y.gen = g))
        then x.gens.map (fun (y : HGen) => if y.gen = g then f y else y)
        else x.gens ++ [f ⟨g, slot, 0, false, false⟩]
      { x with gens := l.drop (l.length - 64) }) })

/-- The stream's buffer as RDATA TLVs, behind the result's RHDR: the code of the read, the TLVs and the state. -/
def resultTlvs (s : State) (ck : Nat) (x : HStream) (g : HGen) : Nat × List (List Byte) × State :=
  let r := s.fetchAll (hltCoreEpOf ck) x.addr x.size
  let hd := tlv 0x51 (natLe 2 x.out ++ natLe 2 g.gen ++ natLe 4 g.slot ++ natLe 1 (b2n g.fb) ++ natLe 3 0 ++ natLe 4 x.size)
  let n := if x.size ≤ 8132 then max 4 x.size else 8120
  let ds := (List.range (cdiv x.size n)).map (fun i => tlv 0x52 (natLe 4 (n * i) ++ (r.2.1.drop (n * i)).take n))
  (r.1, hd :: ds, r.2.2)

/-- Status, TLVs and state of a delivery of a generation that has ended (R482). -/
def deliver (s : State) (ck : Nat) (x : HStream) (g : HGen) : Nat × List (List Byte) × State :=
  match g.st with
  | 1 =>
    let r := resultTlvs s ck x g
    if r.1 = rspOk then (stOk, r.2.1, r.2.2) else if r.1 = rspUe then (stUe, [], r.2.2) else (stAborted, [], hltCnt r.2.2 13)
  | 2 => (stUe, [], s)
  | 3 => (stOverrun, [], s)
  | _ => (stAborted, [], hltCnt s 13)

/-- PUSH: a generation that has ended goes to the holder unsolicited (R483). -/
def pushGen (s : State) (ck out g : Nat) : State :=
  let c := s.hcell ck
  match c.streams.find? (fun (x : HStream) => decide (x.out = out)), c.holder with
  | some x, some h =>
    match x.gens.find? (fun (y : HGen) => decide (y.gen = g)) with
    | some y =>
      if x.push then
        let r := deliver s ck x y
        let s1 := setGen r.2.2 ck out g y.slot (fun y => { y with read := true })
        hltEmit s1 (hltCoreOf ck) h (0x8050 + g % 2 * 2 ^ 13) r.1 ck 0 y.slot 0 (g * 65536) r.2.1
      else s
    | none => s
  | _, _ => s

/-- One slot address and cell whose outputs a plan marked LATE (R483): their generations end as overrun, and the
holder is told. -/
def reportOverrun (s : State) (o : Overrun) : State :=
  let ck := o.cell + (if o.gsm then 1024 else 0)
  let s1 := hltCnt s 11
  let s2 := o.outs.foldl (fun s out =>
    match streamPlan s ck out with
    | some (p, _) =>
      if (s.hcell ck).streams.any (fun (x : HStream) => decide (x.out = out)) then
        setGen s ck out (genOf s ck p o.slot) o.slot (fun y => { y with st := 3 })
      else s
    | none => s) s1
  let s3 := match (s2.hcell ck).holder with
    | some h => hltReport s2 ck h stOverrun o.slot [tlv 0xF1 (o.outs.map (natLe 2)).flatten]
    | none => s2
  o.outs.foldl (fun s out =>
    match streamPlan s ck out with
    | some (p, _) => pushGen s ck out (genOf s ck p o.slot)
    | none => s) s3

/-! ## Fences that wait (R485) -/

/-- Outcome of an UNFENCE so far: its status, none while the barrier runs. -/
def fenceDone (s : State) (f : HFence) : Option Nat :=
  if f.kind = 0 then
    let e := s.epSt f.id
    if e.st = 0 then some stOk else if e.st = 1 then some stAborted else none
  else
    match fenceOf s f.id with
    | some (_, x) => if x.st = 3 then some stOk else if x.st = 1 then some stAborted else none
    | none => some stOk

/-- What the firmware does of itself: it reports overruns, posts waiting words and answers UNFENCEs that are over. -/
def hltSettle (s : State) : State :=
  if !s.rb (hlA 4) 0 then s
  else
    let s1 := s.ym.overruns.foldl reportOverrun { s with ym := { s.ym with overruns := [] } }
    let s2 := (s1.hlt.cells.map (·.1)).foldl postWord s1
    s2.hlt.fences.foldl (fun s f =>
      match fenceDone s f with
      | some st => hltReply { s with hlt := { s.hlt with fences := s.hlt.fences.erase f } } 0 f.src f.hdr st false none (hSlot f.hdr) []
      | none => s) s2

/-! ## Holders (R474, R475) -/

/-- The source and token are the holder's. -/
def isHolder (s : State) (r : HReq) : Bool :=
  match (s.hcell r.cell).holder with
  | some h => decide (hKey h = hKey r.src) && decide (hTok r.h = (s.hcell r.cell).token)
  | none => false

/-- A token: nonzero and not the cell's last one, from the TRNG (R474, R500). -/
def newToken (s : State) (last : Nat) : Nat × State :=
  let d := s.draw
  if last = 0 then (d.1 % (2 ^ 32 - 1) + 1, d.2)
  else
    let t := d.1 % (2 ^ 32 - 2) + 1
    (if last ≤ t then t + 1 else t, d.2)

/-- Answer ST_ABORTED to the staged orders that `f` picks, and forget them and their fields. -/
def abortOrders (s : State) (ck : Nat) (f : HOrder → Bool) : State :=
  let c := s.hcell ck
  let gone := (c.staged.map (fun (q : HSlot) => q.orders.filter f)).flatten
  let kept := (c.staged.map (fun (q : HSlot) =>
    let out := (q.orders.filter f).map (fun (o : HOrder) => o.seq)
    { q with orders := q.orders.filter (fun o => !f o), fields := q.fields.filter (fun (x : HField) => !out.contains x.seq) })).filter
      (fun (q : HSlot) => !q.orders.isEmpty)
  gone.foldl (fun s (o : HOrder) => hltReply s (hltCoreOf ck) o.src o.hdr stAborted false none (hSlot o.hdr) [])
    (s.setHcell ck { c with staged := kept })

/-- HOLD_TAKE. -/
def holdTake (r : HReq) (s : State) : State :=
  let c := s.hcell r.cell
  let mine := match c.holder with | some h => decide (hKey h = hKey r.src) | none => false
  let take := fun (other : Bool) (s : State) =>
    let t := newToken s (s.hcell r.cell).last
    r.reply (t.2.modHcell r.cell (fun c => { c with holder := some r.src, token := t.1, last := t.1 })) stOk
      [tlv 0x10 (natLe 4 t.1 ++ natLe 1 (b2n other))]
  if !hForce r.h then
    if mine then r.reply s stOk [tlv 0x10 (natLe 4 c.token ++ natLe 1 0)]
    else if c.holder.isSome then r.reply s stNotHolder []
    else take false s
  else if r.src.kind = 0 ∨ c.override.any (fun k => decide (keyEntry k = some (hKey r.src))) then
    match c.holder with
    | some h =>
      if mine then take false s
      else
        let s1 := hltReport s r.cell h stNotHolder 0 [tlv 0xF3 (natLe 1 0)]
        take true (abortOrders s1 r.cell (fun o => decide (hKey o.src = hKey h)))
    | none => take false s
  else r.reply s stNotHolder []

/-- HOLD_RELEASE. -/
def holdRelease (r : HReq) (s : State) : State :=
  r.reply (s.modHcell r.cell (fun c => { c with holder := none, token := 0 })) stOk []

/-! ## Configuration (R472, R481, R484) -/

/-- Fields of CELL_CONFIG are in range. -/
def configOk (r : HReq) : Bool :=
  let c := r.val 0x20
  let t := r.val 0x21
  let h := r.val 0x24
  let lead := fun o => decide (20 ≤ le t o 4 ∧ le t o 4 ≤ 20000)
  let outs := (r.vals 0x22).map (fun v => le v 0 2)
  decide (le c 0 1 < 4 ∧ le c 1 1 < 12 ∧ le c 2 1 < 16 ∧ le c 8 1 < 32 ∧ le c 9 1 < 64 ∧ (le c 10 1 < 64 ∨ le c 10 1 = 255))
    && lead 0 && lead 4 && decide (le t 8 4 ≤ 1000) && decide (le h 0 2 < 4096 ∧ le h 2 2 < 4096 ∧ le h 0 2 ≠ le h 2 2)
    && decide (outs.length ≤ 16) && decide (outs.eraseDups.length = outs.length)
    && ((r.val 0x25).isEmpty || decide (r.src.kind = 0))

/-- Write the two hatches through their registers; false where one refuses. -/
def cellHatches (s : State) (ck : Nat) (h : List Byte) : Bool × State :=
  let e := hltCoreEpOf ck
  let wr := fun (q : Bool × State) (a v : Nat) =>
    if q.1 then let t := q.2.regWriteBy (hatWrite e) a v; (decide (t.bus.code = rspOk), { t with bus := q.2.bus }) else q
  let f := le h 0 2
  let p := le h 2 2
  let q1 := wr (wr (true, s) (hatC f 0) 0) (hatC p 0) 0
  let q2 := wr q1 (hatC f 0) (1 + 2 + 8 + (272 + hltCoreOf ck) * 2 ^ 16)
  wr (wr q2 (hatC p 4) e) (hatC p 0) (1 + 16 + le h 4 1 * 2 ^ 16)

/-- Entry of the cell route table (R67). -/
def cellRoute (ck : Nat) : Nat := ymRegs + 0x20000 + 4 * (if ck < 1024 then ck else 768 + ck % 1024)

/-- CELL_CONFIG. -/
def cellConfig (r : HReq) (s : State) : State :=
  let ck := r.cell
  if (s.hcell ck).st = 2 ∨ !configOk r then r.reply s stBadParam []
  else
    let sizes := (r.vals 0x22).map (fun v => roundUp (le v 4 4) 256)
    let quota := le (r.val 0x23) 0 4
    let used := poolUsed s ck
    if poolSize s < poolSum used + sizes.sum + roundUp quota 256 then r.reply s stBadParam []
    else
      match placeAll s (poolBase s) (poolBase s + poolSize s) (roundUp quota 256 :: sizes) used with
      | (some (q :: as), s1) =>
        match cellHatches s1 ck (r.val 0x24) with
        | (false, _) => r.reply s stBusy []
        | (true, s2) =>
          let streams := ((r.vals 0x22).zip as).map (fun (v, a) => (⟨le v 0 2, tb (le v 2 1) 0, le v 4 4, a, []⟩ : HStream))
          let cfg := r.val 0x20
          let keys := (List.range ((r.val 0x25).length / 24)).map (fun i => sub (r.val 0x25) (24 * i) 24)
          let s3 := s2.modHcell ck (fun c => { c with
            st := 1, cfg := cfg, dlLead := le (r.val 0x21) 0 4, ulLead := le (r.val 0x21) 4 4, dataLag := le (r.val 0x21) 8 4,
            quota := quota, qaddr := q, hatches := r.val 0x24, streams := streams,
            override := if (r.vals 0x25).isEmpty then c.override else keys, blocks := [], words := [], staged := [], done := [] })
          r.reply (s3.wr (cellRoute ck) (2 ^ 31 + le cfg 8 1)) stOk []
      | (_, _) => r.reply s stBusy []

/-- CELL_START. -/
def cellStart (r : HReq) (s : State) : State :=
  let c := s.hcell r.cell
  let a := le (r.val 0x26) 0 4
  if c.st ≠ 1 ∨ !slotOk (cfgByte c 1) a then r.reply s stBadParam []
  else r.reply (s.setHcell r.cell { c with
    st := 2, start := a, streams := c.streams.map (fun (x : HStream) => { x with gens := [] }) }) stOk []

/-- CELL_STOP: staged orders are aborted, the route entry is withdrawn (R67). -/
def cellStop (r : HReq) (s : State) : State :=
  if (s.hcell r.cell).st ≠ 2 then r.reply s stBadParam []
  else
    let s1 := abortOrders s r.cell (fun _ => true)
    let s2 := s1.modHcell r.cell (fun c => { c with st := 1 })
    r.reply (s2.wb (cellRoute r.cell) 31 false) stOk []

/-- PRACH_CONFIG: the values are kept as the cell's (R225). -/
def prachConfig (r : HReq) (s : State) : State :=
  let v := r.val 0x40
  let ok := decide ((s.hcell r.cell).st ≠ 2 ∧ le v 3 1 < 3 ∧ 1 ≤ le v 8 1 ∧ le v 8 1 ≤ 64 ∧ 1 ≤ le v 9 1 ∧ le v 9 1 ≤ 128
    ∧ 1 ≤ le v 12 2 ∧ le v 12 2 ≤ 1024)
  if ok then r.reply (s.modHcell r.cell (fun c => { c with prach := v })) stOk [] else r.reply s stBadParam []

/-! ## Slot orders (R477-R479) -/

/-- Edge time of a slot of the cell, less a lead in microseconds. -/
def slotLess (s : State) (c : HCell) (slot us' : Nat) : Int :=
  let t := cfgByte c 2
  edgeTime s t (slotCycle s t slot) - (us' * 1000 : Nat) * nsU

/-- Command deadline of an order. -/
def cmdDeadline (s : State) (c : HCell) (up : Bool) (slot : Nat) : Int := slotLess s c slot (if up then c.ulLead else c.dlLead)

/-- Data deadline of the blocks of a downlink slot (R480). -/
def dataDeadline (s : State) (c : HCell) (slot : Nat) : Int := cmdDeadline s c false slot + (c.dataLag * 1000 : Nat) * nsU

/-- More than 32 slots ahead of the current slot. -/
def tooFar (s : State) (c : HCell) (slot : Nat) : Bool :=
  let t := cfgByte c 2
  let f := trainFmt s t
  let n := lvlTotal f 1
  let cur := lvlIdx f 1 (slotAddr f (trainNow s t % (fmtPeriod f : Nat)).toNat)
  let d := (lvlIdx f 1 slot + n - cur) % n
  decide (32 < d ∧ d < n / 2)

/-- `a` is later than `b` in serial arithmetic. -/
def later (a b : Nat) : Bool := let d := (a + 2 ^ 32 - b) % 2 ^ 32; decide (1 ≤ d ∧ d < 2 ^ 31)

/-- Record in the reply of order `a` that order `b` overrides its field. -/
def addOvr (q : HSlot) (a b ty key : Nat) : HSlot :=
  { q with orders := q.orders.map (fun (o : HOrder) => if o.seq = a then { o with ovr := o.ovr ++ [(b, ty, key)] } else o) }

/-- Stage one field, or the DELETE of one (`del`), of order `sq` (R478). -/
def stageField (sq : Nat) (q : HSlot) (ty key : Nat) (v : List Byte) (del : Bool) : HSlot :=
  let new : HField := ⟨ty, key, v, sq, del⟩
  match q.fields.find? (fun (x : HField) => decide (x.ty = ty ∧ x.key = key)) with
  | none => { q with fields := q.fields ++ [new] }
  | some x =>
    if later x.seq sq then (if del then q else addOvr q sq x.seq ty key)
    else
      let q1 := { q with fields := q.fields.map (fun (y : HField) => if y = x then new else y) }
      if x.seq ≠ sq ∧ !x.del then addOvr q1 x.seq sq ty key else q1

/-- Every TLV of an order. -/
def stageAll (sq : Nat) (q : HSlot) (tlvs : List (Nat × List Byte)) : HSlot :=
  tlvs.foldl (fun q t =>
    if t.1 = 0x34 then stageField sq q (le t.2 0 2) (le t.2 2 2) [] true
    else stageField sq q t.1 (le t.2 0 2) t.2 false) q

/-- Bytes of a slot's staged fields, as TLVs. -/
def stagedBytes (q : HSlot) : List Byte :=
  ((q.fields.filter (fun (x : HField) => !x.del)).map (fun (x : HField) => tlv x.ty x.value)).flatten

def findSlot (c : HCell) (up : Bool) (slot : Nat) : Option HSlot :=
  c.staged.find? (fun (q : HSlot) => decide (q.slot = slot ∧ q.up = up))

/-- The committed reply of a sequence number, if it stands. -/
def findDone (c : HCell) (up : Bool) (slot sq : Nat) : Option (Nat × List Byte) :=
  match c.done.find? (fun (d : HDone) => decide (d.slot = slot ∧ d.up = up) && d.replies.any (fun x => decide (x.1 = sq))) with
  | some d => (d.replies.find? (fun x => decide (x.1 = sq))).map (·.2)
  | none => none

/-- DL_SLOT and UL_SLOT. -/
def slotOrder (up : Bool) (r : HReq) (s : State) : State :=
  let c := s.hcell r.cell
  let slot := hSlot r.h
  let sq := hSeq r.h
  if c.st ≠ 2 ∨ !slotOk (trainFmt s (cfgByte c 2)) slot then r.reply s stBadParam []
  else
    let q0 := findSlot c up slot
    let q := q0.getD ⟨slot, up, [], [], []⟩
    match findDone c up slot sq with
    | some d => hltReply s r.k r.src r.h d.1 true none slot (if d.2.isEmpty then [] else [d.2])
    | none =>
      if q.orders.any (fun (o : HOrder) => decide (o.seq = sq)) then hltCnt s 8
      else if cmdDeadline s c up slot ≤ r.time then r.reply (hltCnt s 6) stLate []
      else if tooFar s c slot then r.reply s stBadParam []
      else
        let slots := (c.staged.map (fun (x : HSlot) => x.slot)).eraseDups
        let q1 := stageAll sq { q with orders := q.orders ++ [⟨sq, r.src, r.h, []⟩] } r.tlvs
        if (!slots.contains slot ∧ 16 ≤ slots.length) ∨ 65536 < (stagedBytes q1).length then r.reply s stBusy []
        else if q0.isSome then
          s.setHcell r.cell { c with staged := c.staged.map (fun (x : HSlot) => if x.slot = slot ∧ x.up = up then q1 else x) }
        else s.setHcell r.cell { c with staged := c.staged ++ [q1] }

/-- Order staged orders by ascending sequence number. -/
def bySeq : List HOrder → List HOrder
  | [] => []
  | o :: t => ins o (bySeq t)
where
  ins (o : HOrder) : List HOrder → List HOrder
    | [] => [o]
    | p :: t => if later o.seq p.seq then p :: ins o t else o :: p :: t

/-- TLVs of an order's reply at the commit (R479). -/
def orderTlvs (q : HSlot) (o : HOrder) : List (List Byte) :=
  let by' := (o.ovr.map (·.1)).eraseDups
  let ovr := by'.map (fun b => tlv 0xF0 (natLe 4 b ++ ((o.ovr.filter (fun x => decide (x.1 = b))).map (fun x =>
    natLe 2 x.2.1 ++ natLe 2 x.2.2)).flatten))
  let miss := (q.missing.filter (fun x => decide (x.1 = o.seq))).map (fun x => natLe 2 x.2)
  if miss.isEmpty then ovr else ovr ++ [tlv 0xF2 miss.flatten]

/-- Keep what is committed for the last 32 slot addresses. -/
def keepDone (l : List HDone) : List HDone :=
  let last := ((l.map (fun (d : HDone) => d.slot)).reverse.eraseDups).take 32
  l.filter (fun d => last.contains d.slot)

/-- A reply at the commit: QUIET suppresses it only where it carries no TLV. -/
def commitReply (s : State) (ck : Nat) (o : HOrder) (st : Nat) (tlvs : List (List Byte)) : State :=
  let h := if tlvs.isEmpty then o.hdr else patch o.hdr 3 [0#8]
  hltReply s (hltCoreOf ck) o.src h st false none (hSlot o.hdr) tlvs

/-- The commit writes of a slot: into the parameter area of the direction's plan (R48, R479). -/
def commitWrites (s : State) (ck : Nat) (q : HSlot) : Nat × State :=
  let p := cfgByte (s.hcell ck) (if q.up then 7 else 6)
  let b := s.rd (planA p 4)
  let o := peek s (b + 48) 4
  let n := peek s (b + 52) 4 - o
  let ws := (Config.paramWrites q.slot (stagedBytes q)).filter (fun w => decide (w.1 + w.2.length ≤ n))
  if !s.rb (planA p 0) 0 then (rspOk, s)
  else ws.foldl (fun t w => if t.1 = rspOk then t.2.putAll (hltCoreEpOf ck) (b + o + w.1) w.2 else t) (rspOk, s)

/-- SLOT_COMMIT. -/
def slotCommit (s : State) (ck slot : Nat) (up : Bool) : State :=
  match findSlot (s.hcell ck) up slot with
  | none => s
  | some _ =>
    let s1 := untilS (cmdDeadline s (s.hcell ck) up slot) 64 s
    match findSlot (s1.hcell ck) up slot with
    | none => s1
    | some q =>
      let s2 := s1.modHcell ck (fun c => { c with staged := c.staged.erase q })
      let w := commitWrites s2 ck q
      let os := bySeq q.orders
      if w.1 ≠ rspOk then os.foldl (fun s o => commitReply s ck o stAborted []) w.2
      else
        let tbs := (q.fields.filter (fun (x : HField) => !x.del && decide (x.ty = 0x30))).map (fun (x : HField) => (x.key, cdiv (le x.value 12 4) 8))
        let d : HDone := ⟨slot, up, os.map (fun o => (o.seq, stOk, (orderTlvs q o).flatten)), tbs⟩
        let s3 := w.2.modHcell ck (fun c => { c with done := keepDone (c.done ++ [d]) })
        os.foldl (fun s o => commitReply s ck o stOk (orderTlvs q o)) s3

/-! ## Downlink data (R480) -/

/-- Slot address and bytes of a block that is staged or committed for the cell. -/
def findAlloc (c : HCell) (id : Nat) : Option (Nat × Nat) :=
  let st := c.staged.findSome? (fun (q : HSlot) =>
    if q.up then none
    else (q.fields.find? (fun (x : HField) => !x.del && decide (x.ty = 0x30 ∧ x.key = id))).map (fun x => (q.slot, cdiv (le x.value 12 4) 8)))
  match st with
  | some r => some r
  | none => c.done.reverse.findSome? (fun (d : HDone) => if d.up then none else (d.tbs.find? (fun t => decide (t.1 = id))).map (fun t => (d.slot, t.2)))

/-- The ranges cover `[0, size)`. -/
def covers (got : List (Nat × Nat)) (size : Nat) : Bool :=
  decide (size ≤ got.foldl (fun p _ => (got.filter (fun r => decide (r.1 ≤ p))).foldl (fun m r => max m r.2) p) 0)

/-- Read from another unit now (R28-R30, R438): the source side's checks are made and the requests sent; what comes
back is free (log 84). -/
def remoteRead (s : State) (g n : Nat) : Nat × List Byte × State :=
  (blocks256 (g % 2 ^ 44) (List.replicate n (0 : Byte))).foldl (fun q p =>
    if q.1 = rspOk then
      let r := plRequest q.2.2 (g / 2 ^ 44) 0 (p.2.length - 1) 0 ((freeXid q.2.2 (g / 2 ^ 44)).getD 0) p.1 []
      if r.1 ≠ rspOk then (r.1, q.2.1, r.2)
      else
        let d := r.2.draw
        let t := trng d.2 p.2.length
        (d.1 % 8, q.2.1 ++ t.1, t.2)
    else q) (rspOk, [], s)

/-- Read `n` bytes at a global address as endpoint `e`. -/
def globalRead (s : State) (e g n : Nat) : Nat × List Byte × State :=
  if g / 2 ^ 44 = plUnit s then s.fetchAll e (g % 2 ^ 44) n else remoteRead s g n

/-- One TB_SEG or TB_PTR: its status and the state it leaves. -/
def dataTlv (r : HReq) (s : State) (t : Nat × List Byte) : Nat × State :=
  let ck := r.cell
  let c := s.hcell ck
  let id := le t.2 0 2
  match findAlloc c id with
  | none => (stBadParam, s)
  | some (slot, size) =>
    let ptr := decide (t.1 = 0x37)
    let ofs := if ptr then 0 else le t.2 4 4
    let n := if ptr then le t.2 4 4 else t.2.length - 8
    if dataDeadline s c slot ≤ r.time then (stLate, s)
    else if (if ptr then decide (n ≠ size) || !(decide (r.src.kind = 0) || decide (r.src.kind = 3)) else decide (size < ofs + n)) then
      (stBadParam, s)
    else
      let found := c.blocks.find? (fun (b : HBlock) => decide (b.id = id))
      let got : Option HBlock × State := match found with
        | some b => (some b, s)
        | none =>
          let used := c.blocks.map (fun (b : HBlock) => (b.addr, roundUp b.size 256))
          let need := roundUp size 256
          if c.quota < poolSum used + need then (none, s)
          else
            let p := place s c.qaddr (c.qaddr + roundUp c.quota 256) need used
            (p.1.map (fun a => ⟨id, slot, size, a, [], false⟩), p.2)
      match got with
      | (none, _) => (stBusy, s)
      | (some b, s1) =>
        let d := if ptr then globalRead s1 (hltCoreEpOf ck) (le t.2 8 8) n else (rspOk, t.2.drop 8, s1)
        if d.1 ≠ rspOk then (stAborted, s)
        else
          let w := d.2.2.putAll (hltCoreEpOf ck) (b.addr + ofs) (sub d.2.1 0 n)
          if w.1 ≠ rspOk then (stAborted, s)
          else
            let g := b.got ++ [(ofs, ofs + n)]
            let full := covers g b.size
            let b1 := { b with got := g, ready := b.ready || full }
            let s2 := w.2.modHcell ck (fun c => { c with blocks := c.blocks.filter (fun (x : HBlock) => decide (x.id ≠ id)) ++ [b1] })
            (stOk, if full && !b.ready then planWord s2 ck (2 * 2 ^ 60 + b.addr % 2 ^ 44 * 2 ^ 16 + id) else s2)

/-- DL_DATA: a packet that any of its TLVs fails changes nothing. -/
def dlData (r : HReq) (s : State) : State :=
  let q := r.tlvs.foldl (fun (q : Nat × State) t => if q.1 = stOk then dataTlv r q.2 t else q) (stOk, s)
  if q.1 = stOk then r.reply q.2 stOk [] else r.reply s q.1 []

/-- DATA_DEADLINE of a block of the cell (R480). -/
def dataDeadlineOf (s : State) (ck id : Nat) : State :=
  match findAlloc (s.hcell ck) id with
  | none => s
  | some (slot, _) =>
    let s1 := untilS (dataDeadline s (s.hcell ck) slot) 64 s
    let c := s1.hcell ck
    if c.blocks.any (fun (b : HBlock) => decide (b.id = id) && b.ready) then s1
    else
      let s2 := hltCnt (planWord (s1.modHcell ck (fun c => { c with blocks := c.blocks.filter (fun (b : HBlock) => decide (b.id ≠ id)) }))
        ck (3 * 2 ^ 60 + id)) 12
      let isIt := fun (x : HField) => !x.del && decide (x.ty = 0x30 ∧ x.key = id)
      if c.staged.any (fun (q : HSlot) => decide (q.slot = slot ∧ q.up = false) && q.fields.any isIt) then
        s2.modHcell ck (fun c => { c with staged := c.staged.map (fun (q : HSlot) =>
          if q.slot = slot ∧ q.up = false then
            { q with fields := q.fields.filter (fun x => !isIt x), missing := q.missing ++ (q.fields.filter isIt).map (fun (x : HField) => (x.seq, id)) }
          else q) })
      else
        let s3 := s2.modHcell ck (fun c => { c with done := c.done.map (fun (d : HDone) =>
          if d.slot = slot ∧ d.up = false then { d with tbs := d.tbs.filter (fun t => decide (t.1 ≠ id)) } else d) })
        match c.holder with
        | some h => hltReport s3 ck h stLate slot [tlv 0xF2 (natLe 2 id)]
        | none => s3

/-! ## Result reads (R482) -/

/-- The generation an RSEL names, with its record if it has one: none where it is too old or not yet next. -/
def namedGen (s : State) (ck : Nat) (x : HStream) (v : List Byte) : Option (Nat × Option HGen) :=
  let next := genNext s ck x.out
  let rec' := fun g => x.gens.find? (fun (y : HGen) => decide (y.gen = g))
  if tb (le v 4 1) 0 then
    match x.gens.reverse.find? (fun (y : HGen) => decide (y.st = 1)) with
    | some y => some (y.gen, some y)
    | none =>
      let open' := (List.range (min 64 (releasesSoFar next))).reverse.map (fun i => (next + 65535 - i) % 65536)
      match open'.find? (fun g => match rec' g with | some y => decide (y.st = 0) | none => true) with
      | some g => some (g, rec' g)
      | none => some (next, none)
  else
    let g := le v 2 2
    let age := (next + 65535 - g) % 65536
    match rec' g with
    | some y => some (g, some y)
    | none => if g = next ∨ age < 64 ∧ age < releasesSoFar next then some (g, none) else none
where
  /-- Releases since START, as far as the present 16-bit count shows them. -/
  releasesSoFar (next : Nat) : Nat := if x.gens.isEmpty then next else max next 64

def findStream (s : State) (r : HReq) : Option HStream :=
  (s.hcell r.cell).streams.find? (fun (x : HStream) => decide (x.out = le (r.val 0x50) 0 2))

/-- A reply that names generation `g` of slot address `slot`. -/
def genReply (r : HReq) (s : State) (st g slot : Nat) (rep : Bool) (tlvs : List (List Byte)) : State :=
  hltReply s r.k r.src r.h st rep (some g) slot tlvs

/-- The generation that is current: the latest granted. -/
def currentGen (x : HStream) : Nat := match x.gens.reverse.find? (fun (y : HGen) => decide (y.st ≠ 3)) with | some y => y.gen | none => 0

/-- RESULT_READ. -/
def resultRead (r : HReq) (s : State) : State :=
  match findStream s r with
  | none => r.reply s stBadParam []
  | some x =>
    match namedGen s r.cell x (r.val 0x50) with
    | none => r.reply s stBadParam []
    | some (g, none) => genReply r s stPending g (hSlot r.h) false []
    | some (g, some y) =>
      match y.st with
      | 0 => genReply r s stPending g y.slot false []
      | 4 => genReply r (hltCnt s 13) stAborted (currentGen x) y.slot false []
      | 5 => genReply r s stBadParam g y.slot false []
      | _ =>
        let d := deliver s r.cell x y
        genReply r (setGen d.2.2 r.cell x.out g y.slot (fun y => { y with read := true })) d.1 g y.slot (y.read && decide (d.1 = stOk)) d.2.1

/-- RESULT_ACK. -/
def resultAck (r : HReq) (s : State) : State :=
  match findStream s r with
  | none => r.reply s stBadParam []
  | some x =>
    match namedGen s r.cell x (r.val 0x50) with
    | none => r.reply s stBadParam []
    | some (g, none) => genReply r s stPending g (hSlot r.h) false []
    | some (g, some y) =>
      match y.st with
      | 0 => genReply r s stPending g y.slot false []
      | 4 => genReply r s stBadParam g y.slot false []
      | 5 => genReply r s stOk g y.slot true []
      | _ => genReply r (setGen s r.cell x.out g y.slot (fun y => { y with st := 5 })) stOk g y.slot false []

/-! ## Words from the plan (R481, R482) -/

/-- The word of kind `kind` at the head of the cell's firmware hatch, taken (R367). -/
def takeWord (s : State) (ck kind : Nat) : Option (Nat × State) :=
  let h := le (s.hcell ck).hatches 0 2
  if (s.hcell ck).st = 0 ∨ !s.rb (hlA 4) 0 ∨ !hatFull s h ∨ s.rd (hatA h 8) / 2 ^ 60 ≠ kind then none
  else
    let n := s.ni (hltCoreEpOf ck) hatEp
    if n.1 ≠ rspOk then none
    else
      let t := hatchTake n.2 (hltCoreEpOf ck) h
      if t.1 = rspOk then some (t.2.1, t.2.2) else none

/-- BEGIN: the next generation is granted; what the buffer held is overwritten. -/
def hltBegin (s : State) (ck : Nat) : State :=
  match takeWord s ck 1 with
  | none => s
  | some (w, s1) =>
    let out := fld w 47 32
    let slot := fld w 31 0
    match streamPlan s1 ck out with
    | some (p, _) =>
      let g := genOf s1 ck p slot
      let s2 := s1.modHcell ck (fun c => { c with streams := c.streams.map (fun (x : HStream) =>
        if x.out = out then { x with gens := x.gens.map (fun (y : HGen) => if y.gen ≠ g ∧ (y.st = 1 ∨ y.st = 0) then { y with st := 4 } else y) }
        else x) })
      planWord (setGen s2 ck out g slot id) ck (2 ^ 60 + fld w 51 48 * 2 ^ 48 + out * 2 ^ 32 + g)
    | none => s1

/-- TB_DONE: the block's space is freed. -/
def tbDone (s : State) (ck : Nat) : State :=
  match takeWord s ck 2 with
  | none => s
  | some (w, s1) => s1.modHcell ck (fun c => { c with blocks := c.blocks.filter (fun (b : HBlock) => decide (b.id ≠ fld w 15 0)) })

/-- RESULT_DONE: the status word of the instance decides how the generation ends. -/
def resultDone (s : State) (ck : Nat) : State :=
  match takeWord s ck 3 with
  | none => s
  | some (w, s1) =>
    let out := fld w 47 32
    let g := fld w 15 0
    match streamPlan s1 ck out, (s1.hcell ck).streams.find? (fun (x : HStream) => decide (x.out = out)) with
    | some (p, o), some x =>
      match x.gens.find? (fun (y : HGen) => decide (y.gen = g)) with
      | none => s1
      | some y =>
        let b := s1.rd (planA p 4)
        let r := s1.fetch (hltCoreEpOf ck) (peek s1 (outA s1 b o + 8) 4 + 8 * fld w 51 48) 8
        let v := leNat r.2.1
        if y.st ≠ 0 then r.2.2
        else if r.1 = rspOk ∧ fld v 31 0 ≠ y.slot then r.2.2
        else
          let st := if r.1 ≠ rspOk then 2 else if tb v 33 then 3 else if !tb v 32 then 0 else if tb v 35 then 2 else 1
          let s2 := setGen r.2.2 ck out g y.slot (fun y => { y with st := st, fb := tb v 34 })
          if st = 0 then s2 else pushGen s2 ck out g
    | _, _ => s1

end Sys2Proof.Machine
end

