-- ==== Sys2Proof/Machine/Halter.lean ====
section
/-! DEFINITION. The Halter block and its commands: unit-wide opcodes (R485), intake from the three transports (R469-R471,
R486), the register block (R488), and every Halter row; with the ticks after which the firmware reports (R483). -/

namespace Sys2Proof.Machine

/-! ## Unit-wide opcodes (R485) -/

/-- UNIT_INFO. -/
def unitInfo (r : HReq) (s : State) : State :=
  let cfgd := (s.hlt.cells.filter (fun c => decide (c.2.st ≠ 0))).length
  r.reply s stOk [tlv 1 (natLe 4 (plUnit s) ++ natLe 4 Config.hltVersion.toNat ++ natLe 2 cfgd
    ++ natLe 4 (poolSize s - poolSum (poolUsed s 2048)) ++ serial s)]

/-- Local Barn address of a global address range, if it lies in this unit's Barn (R28). -/
def barnLocal (s : State) (g n : Nat) : Option Nat :=
  if g / 2 ^ 44 = plUnit s ∧ g % 2 ^ 44 + n ≤ barnSize then some (g % 2 ^ 44) else none

/-- The range overlaps the active image of a plan slot. -/
def hitsImage (s : State) (a n : Nat) : Bool :=
  (List.range 256).any (fun p =>
    let b := s.rd (planA p 4)
    decide (peek s b 4 = 0x4E4C5053 ∧ a < b + peek s (b + 52) 4 ∧ b < a + n))

/-- PLAN_LOAD. -/
def planLoad (r : HReq) (s : State) : State :=
  let v := r.val 0x70
  let p := le v 0 1
  let g := le v 8 8
  let segs := r.vals 0x71
  let at' := fun (x : List Byte) => barnLocal s (g + le x 0 4) (x.length - 4)
  let commit := tb (le v 1 1) 0
  if segs.any (fun x => (at' x).isNone) ∨ (barnLocal s g 0).isNone then r.reply s stBadParam []
  else if segs.any (fun x => match at' x with | some a => hitsImage s a (x.length - 4) | none => true) ∨ (commit ∧ inflight s p ≠ 0) then
    r.reply s stBusy []
  else
    let q := segs.foldl (fun (q : Nat × State) x =>
      if q.1 = rspOk then q.2.putAll (hltCoreEp 0) (((at' x).getD 0)) (x.drop 4) else q) (rspOk, s)
    if q.1 ≠ rspOk then r.reply q.2 stAborted []
    else if !commit then r.reply q.2 stOk []
    else
      let s1 := (q.2.regWriteBy ymWrite (planA p 8) (g % 2 ^ 44)).regWriteBy ymWrite (planA p 0) (setBit (q.2.rd (planA p 0)) 1)
      let s2 := planDone { s1 with bus := s.bus } p
      r.reply s2 (if s2.rb (planA p 0) 2 then stOk else stBadParam) [tlv 0x72 (natLe 1 (s2.rf (planA p 0) 7 4))]

/-- FENCE and UNFENCE: the reply to an UNFENCE waits for its barrier. -/
def hltFence (un : Bool) (r : HReq) (s : State) : State :=
  let v := r.val 0x80
  let id := le v 4 4
  let unit := decide (le v 0 1 = 1)
  if !unit && isHltEp id then r.reply s stBadParam []
  else
    let q := if unit then (if id < 2 ^ 20 then plFenceCmd s (id + (if un then 2 else 1) * 2 ^ 20) else (rspTgt, s))
      else if un then cmdUnfence s id else cmdFence s id
    if q.1 ≠ rspOk then r.reply s stBadParam []
    else if un then { q.2 with hlt := { q.2.hlt with fences := q.2.hlt.fences ++ [⟨b2n unit, id, r.src, r.h⟩] } }
    else r.reply q.2 stOk []

/-- TIME_SEL. -/
def timeSel (r : HReq) (s : State) : State :=
  let v := r.val 0x90
  let d := le v 0 1
  if 2 ≤ d ∨ 2 ≤ le v 1 1 ∨ domState s d ≠ 2 ∨ !domValid s d then r.reply s stBadParam []
  else
    let s1 := s.regWriteBy ctWrite ctRegs (setFld (s.rd ctRegs) 1 0 (d + 2 * le v 1 1))
    r.reply { s1 with bus := s.bus } stOk [tlv 0x91 (natLe 4 (ctView "CT_S_REM" [] (ctRegs + 0x18) s1))]

/-- Shed `k` holds resources of a running cell: its plan core, the stables its tasks may use, its MAC, its LBT chain,
and the Clocktower and Yard sheds, on which every cell rests. -/
def shedOfCell (s : State) (k : Nat) (c : HCell) : Bool :=
  let stables := fun (p : Nat) =>
    let b := s.rd (planA p 4)
    s.rb (planA p 0) 0 && (List.range (nTask s b)).any (fun i => tb (peek s (taskA s b i + 16) 4) k)
  decide (c.st = 2) && (decide (k = le c.hatches 4 1 / 8) || decide (k = shedFh) || decide (k = shedCt) || decide (k = shedYard)
    || (decide (cfgByte c 10 ≠ 255) && decide (k = accelShed 9 (cfgByte c 10)))
    || (decide (k < 32) && (stables (cfgByte c 6) || stables (cfgByte c 7))))

/-- POWER_REQ. -/
def powerReq (r : HReq) (s : State) : State :=
  let k := le (r.val 0xA0) 0 1
  let st := le (r.val 0xA0) 1 1
  if 50 ≤ k ∨ 4 ≤ st then r.reply s stBadParam []
  else if st < s.shedCur k ∧ s.hlt.cells.any (fun c => shedOfCell s k c.2) then r.reply s stBusy []
  else
    let n := s.ni (hltCoreEp 0) shedsEp
    if n.1 ≠ rspOk then r.reply n.2 stAborted []
    else
      let q := shedReq n.2 k st
      r.reply q.2 (if q.1 = rspOk then stOk else stBadParam) []

/-- LBT_PARAM: the three registers of the cell's chain, all or none (R254). -/
def lbtParam (r : HReq) (s : State) : State :=
  let v := r.val 0x60
  let i := cfgByte (s.hcell r.cell) 10
  if (s.hcell r.cell).st = 0 ∨ i = 255 then r.reply s stBadParam []
  else
    let wr := fun (q : Bool × State) (o v : Nat) =>
      let n := q.2.ni (hltCoreEpOf r.cell) (eEp (engNum 9 i))
      if !q.1 ∨ n.1 ≠ rspOk ∨ !q.2.shedReady (accelShed 9 i) then (false, q.2)
      else
        let t := q.2.regWriteBy (engWrite (svA i o)) (svA i o) v
        (decide (t.bus.code = rspOk), { t with bus := s.bus })
    let q := wr (wr (wr (true, s) 0x38 (le v 0 1 % 8 + le v 2 2 % 1024 * 2 ^ 4 + le v 4 2 % 1024 * 2 ^ 16)) 0x3C (le v 6 2)) 0x40 (le v 8 2)
    if q.1 ∧ 1 ≤ le v 0 1 ∧ le v 0 1 ≤ 7 then r.reply q.2 stOk [] else r.reply s stBusy []

/-! ## Intake (R469, R486) -/

def noPkts : Nat → List HPkt := fun _ => []

/-- A packet reaches the firmware: steps 1-4 of R469, and the queue of its core. -/
def hltAccept (s : State) (x : HSrc) (stamp : Option Int) (b : List Byte) : State :=
  let s1 := hltCnt s 0
  let drop := let t := hltCnt s1 1; if x.kind = 0 then hltFlag t 1 else t
  if b.length < 32 ∨ le b 0 2 ≠ 0x4854 ∨ le b 28 4 ≠ crc32c (b.take 28) ∨ 8160 < hLen b ∨ hLen b % 4 ≠ 0 ∨ b.length < 32 + hLen b then drop
  else if tb (le b 4 2) 15 then drop
  else
    let k := if opUnitWide (hOp b) ∨ hCellW b = 0xFFFF then 0 else hltCoreOf (hCell b)
    let q := tget noPkts s1.hlt.queues k
    let say := fun st => hltReply s1 k x (b.take 32) st false none (hSlot b) []
    if 1024 ≤ q.length then hltCnt s1 1
    else if 768 ≤ q.length ∧ hOp b ≠ 0x050 ∧ hOp b ≠ 0x051 then say stBusy
    else if le b 2 1 ≠ 1 ∨ !opKnown (hOp b) then say stBadOpcode
    else
      let p : HPkt := ⟨x, some (stamp.getD (sTime s1)), b.take (32 + hLen b)⟩
      { s1 with hlt := { s1.hlt with queues := tset noPkts s1.hlt.queues k (q ++ [p]) } }

/-- Take the request ring's packets from TAIL to HEAD (R470). -/
def ringIntake : Nat → State → State
  | 0, s => s
  | n + 1, s =>
    let e := max 1 (s.rf (hlA 0x28) 10 0)
    let t := s.rd (hlA 0x30)
    if s.rd (hlA 0x2C) = t then s
    else
      let a := s.rd (hlA 0x20) + s.rf (hlA 0x24) 11 0 * 2 ^ 32 + t * 8192
      let h := s.fetchAll (hltCoreEp 0) a 32
      let p := h.2.2.fetchAll (hltCoreEp 0) (a + 32) (min 8160 (hLen h.2.1))
      let s1 := hltAccept p.2.2 ⟨0, 0, 0, 0, 0, 0, []⟩ none (if h.1 = rspOk ∧ p.1 = rspOk then h.2.1 ++ p.2.1 else [])
      ringIntake n (s1.wr (hlA 0x30) ((t + 1) % e))

/-- What a frame of binding `j` brings: its source and packet, or none for a foreign frame (R470). -/
def framePacket (s : State) (m j : Nat) (b : List Byte) : Option (HSrc × List Byte) :=
  let o := frameOfs b
  let udp := fun (u ip : Nat) =>
    if s.rf (hlA 0x10) 15 0 = 0 ∨ be b (u + 2) 2 ≠ s.rf (hlA 0x10) 15 0 then none
    else some ((⟨2, m, 0, ip, be b u 2, j, b.take (u + 8)⟩ : HSrc), (b.drop (u + 8)).take (be b (u + 4) 2 - 8))
  match frameEtype b with
  | 0x88B5 => some (⟨1, m, be b 6 6, 0, 0, j, b.take o⟩, b.drop o)
  | 0x0800 =>
    let ihl := be b o 1 % 16 * 4
    if be b o 1 / 16 ≠ 4 ∨ be b (o + 9) 1 ≠ 17 ∨ be b (o + 6) 2 % 2 ^ 14 ≠ 0 then none else udp (o + ihl) (be b (o + 12) 4)
  | 0x86DD => if be b o 1 / 16 ≠ 6 ∨ be b (o + 6) 1 ≠ 17 then none else udp (o + 40) (be b (o + 8) 16)
  | _ => none

/-- Take the frames waiting in the queue of binding `j`. -/
def bindIntake (j : Nat) : Nat → State → State
  | 0, s => s
  | n + 1, s =>
    let w := s.rd (hlA (0x50 + 4 * j))
    let m := fld w 4 0
    let q := fld w 10 5
    let t := s.rd (qA m q 0x24)
    if !tb w 31 ∨ s.rf (qA m q 0) 9 8 ≠ 3 ∨ s.rf (qA m q 0) 1 0 ≠ 1 ∨ t = qHead s m q then s
    else
      let a := qBase s m q + t * qSlot s m q
      let e := hltCoreEp (s.rf (qA m q 0x1C) 1 0)
      let h := s.fetchAll e a 16
      let f := h.2.2.fetchAll e (a + 16) (min (qSlot s m q) (le h.2.1 0 2))
      let stamp := if macDom s m = selDom s then
          some ((le h.2.1 4 2 : Nat) * fracU + (le h.2.1 6 4 : Nat) * nsU + (le h.2.1 10 6 : Nat) * secU) else none
      let s1 := match framePacket f.2.2 m j f.2.1 with
        | some (x, b) => hltAccept f.2.2 x stamp b
        | none => hltCnt f.2.2 2
      let s2 := s1.regWriteBy (ethWrite m) (qA m q 0x24) ((t + 1) % qEntries s m q)
      bindIntake j n { s2 with bus := s.bus }

/-- Everything that waits, in the order of R486. -/
def hltIntake (s : State) : State :=
  if !hltReady s then s
  else (List.range 8).foldl (fun s j => bindIntake j 65536 s) (ringIntake 1024 s)

/-- A HALTER packet of the fabric arrives (R471). -/
def fabricArrive (s : State) (u : Nat) (p : List Byte) : State :=
  if !hltReady s then s
  else
    let id := le p 0 2
    let i := le p 2 1
    let n := le p 3 1
    let bad := hltCnt s 10
    let old := s.hlt.frags.find? (fun (f : HFrag) => decide (f.unit = u ∧ f.id = id))
    let fr := old.getD ⟨u, id, n, [], s.now⟩
    if p.length < 8 ∨ n = 0 ∨ 32 < n ∨ fr.count ≤ i ∨ fr.count ≠ n ∨ (old.isNone ∧ 64 ≤ s.hlt.frags.length) then bad
    else
      let f1 := { fr with segs := fr.segs.filter (fun g => decide (g.1 ≠ i)) ++ [(i, p.drop 8)] }
      let rest := s.hlt.frags.filter (fun (f : HFrag) => decide (¬(f.unit = u ∧ f.id = id)))
      if f1.segs.length < n then { s with hlt := { s.hlt with frags := rest ++ [f1] } }
      else
        let b := ((List.range n).map (fun j => match f1.segs.find? (fun g => decide (g.1 = j)) with | some g => g.2 | none => [])).flatten
        hltAccept { s with hlt := { s.hlt with frags := rest } } ⟨3, 0, u, 0, 0, 0, []⟩ none b

/-- FRAGMENT_TIMEOUT: 1 ms after the first fragment. -/
def fragTimeout (s : State) (u id : Nat) : State :=
  match s.hlt.frags.find? (fun (f : HFrag) => decide (f.unit = u ∧ f.id = id)) with
  | some f =>
    let s1 := s.until (f.since + 1000 * us)
    hltCnt { s1 with hlt := { s1.hlt with frags := s1.hlt.frags.erase f } } 10
  | none => s

/-! ## One packet of a queue (R469 steps 5-7) -/

/-- May the source send the opcode (R475, R476)? -/
def sourceOk (s : State) (r : HReq) : Bool :=
  let op := hOp r.h
  if op = 0x001 ∨ op = 0x010 then true
  else if opUnitWide op then (decide (r.src.kind = 0) || inUcl s r.src) && decide (hTok r.h = 0)
  else isHolder s r

/-- The packet at the head of control core `k`'s queue, if its opcode is `op`: checked, then handled by `f`. -/
def hltRow (op k : Nat) (f : HReq → State → State) (s0 : State) : State :=
  if !hltReady s0 then s0
  else
    let s := hltSettle s0
    match tget noPkts s.hlt.queues k with
    | [] => s
    | p :: t =>
      let h := p.bytes.take 32
      if hOp h ≠ op then s
      else
        let s1 := { s with hlt := { s.hlt with queues := tset noPkts s.hlt.queues k t } }
        match hCheck h (p.bytes.drop 32) with
        | .error c =>
          let d := s1.draw
          let x := c.getD (d.1 % 65536, d.1 / 65536 % 65536)
          hltReply (if c.isNone then d.2 else s1) k p.src h stBadParam false none (hSlot h) [tlv 0xF4 (natLe 2 x.1 ++ natLe 2 x.2)]
        | .ok (tlvs, ign) =>
          let s2 := s1.cnt (hlA (0x200 + 4 * 9)) ign
          let r : HReq := ⟨k, p.src, p.stamp.getD (sTime s2), h, tlvs⟩
          hltSettle (if sourceOk s2 r then f r s2 else r.reply s2 stNotHolder [])

/-! ## Registers (R488) -/

/-- The block's own part of a register write. -/
def hltWrite : WriteHook := fun nm _ v s s1 =>
  let raised := fun (t : State) => t.rise 4 (decide (s.rd (hlA 8) &&& s.rd (hlA 0xC) ≠ 0)) (decide (t.rd (hlA 8) &&& t.rd (hlA 0xC) ≠ 0))
  match nm with
  | "HLT_CTRL" => (rspOk, hltIntake s1)
  | "HLT_REQ_HEAD" => if s.rf (hlA 0x28) 10 0 ≤ v then (rspTgt, s) else (rspOk, hltIntake s1)
  | "HLT_RSP_TAIL" => if s.rf (hlA 0x3C) 10 0 ≤ v then (rspTgt, s) else (rspOk, s1)
  | "HLT_INT_STATUS" => (rspOk, s1)
  | "HLT_INT_EN" => if s.rb (hlA 0) 0 then (rspTgt, s) else (rspOk, raised s1)
  | _ => if s.rb (hlA 0) 0 then (rspTgt, s) else (rspOk, s1)

/-- The firmware has started (R491): it tells the former holders it can address. -/
def firmwareReady (s : State) : State :=
  if s.shedStep 62 ≠ 5 ∨ s.rb (hlA 4) 0 then s
  else
    let s1 := s.wb (hlA 4) 0 true
    hltIntake (s1.hlt.lost.foldl (fun s x => if addressable s x.2 then hltReport s x.1 x.2 stNotHolder 0 [tlv 0xF3 (natLe 1 1)] else s)
      { s1 with hlt := { s1.hlt with lost := [] } })

/-- What one base-clock cycle without a command brings: it passes, and the firmware goes on (DESIGN CHOICE, log 3). -/
def idle (s : State) : State := hltSettle { s with now := s.now + 3125 }

/-! ## Meanings -/

/-- A row of control core `k`. -/
def hltCoreRow (op k : Nat) (f : HReq → State → State) (s : State) : Out :=
  if k < 4 then .next (hltRow op k f s) else .fault .noSuchUnit

/-- A row of a cell or TRX, its own work between what the firmware does of itself. -/
def hltCellRow (ck : Nat) (f : State → Nat → State) (s : State) : Out :=
  if ck < 2048 ∧ ck % 1024 < 768 then .next (hltSettle (f (hltSettle s) ck)) else .fault .noSuchUnit

/-- R472. -/
def execUnitInfo (s : State) : Out := .next (hltRow 0x001 0 unitInfo s)
/-- R474. -/
def execHoldTake (k : Nat) (s : State) : Out := hltCoreRow 0x010 k holdTake s
/-- R475. -/
def execHoldRelease (k : Nat) (s : State) : Out := hltCoreRow 0x011 k holdRelease s
/-- R472, R481, R484. -/
def execCellConfig (k : Nat) (s : State) : Out := hltCoreRow 0x020 k cellConfig s
/-- R472, R482. -/
def execCellStart (k : Nat) (s : State) : Out := hltCoreRow 0x021 k cellStart s
/-- R472, R479. -/
def execCellStop (k : Nat) (s : State) : Out := hltCoreRow 0x022 k cellStop s
/-- R477, R478. -/
def execDlSlot (k : Nat) (s : State) : Out := hltCoreRow 0x030 k (slotOrder false) s
/-- R477, R478. -/
def execUlSlot (k : Nat) (s : State) : Out := hltCoreRow 0x031 k (slotOrder true) s
/-- R480. -/
def execDlData (k : Nat) (s : State) : Out := hltCoreRow 0x032 k dlData s
/-- R472, R473. -/
def execPrachConfig (k : Nat) (s : State) : Out := hltCoreRow 0x040 k prachConfig s
/-- R482. -/
def execResultRead (k : Nat) (s : State) : Out := hltCoreRow 0x050 k resultRead s
/-- R482. -/
def execResultAck (k : Nat) (s : State) : Out := hltCoreRow 0x051 k resultAck s
/-- R485. -/
def execLbtParam (k : Nat) (s : State) : Out := hltCoreRow 0x060 k lbtParam s
/-- R485. -/
def execPlanLoad (s : State) : Out := .next (hltRow 0x070 0 planLoad s)
/-- R485. -/
def execHltFence (s : State) : Out := .next (hltRow 0x080 0 (hltFence false) s)
/-- R485. -/
def execHltUnfence (s : State) : Out := .next (hltRow 0x081 0 (hltFence true) s)
/-- R485. -/
def execTimeSel (s : State) : Out := .next (hltRow 0x090 0 timeSel s)
/-- R485. -/
def execPowerReq (s : State) : Out := .next (hltRow 0x0A0 0 powerReq s)
/-- R479. -/
def execSlotCommit (cell slot : Nat) (up : Bool) (s : State) : Out := hltCellRow cell (fun s c => slotCommit s c slot up) s
/-- R480. -/
def execDataDeadline (cell tb : Nat) (s : State) : Out := hltCellRow cell (fun s c => dataDeadlineOf s c tb) s
/-- R482. -/
def execHltBegin (cell : Nat) (s : State) : Out := hltCellRow cell hltBegin s
/-- R480. -/
def execTbDone (cell : Nat) (s : State) : Out := hltCellRow cell tbDone s
/-- R482. -/
def execResultDone (cell : Nat) (s : State) : Out := hltCellRow cell resultDone s
/-- R471. -/
def execFragmentTimeout (unit frag : Nat) (s : State) : Out := .next (hltSettle (fragTimeout s unit frag))
/-- R470, R488. -/
def execReqRingHead (val : Nat) (s : State) : Out := .next (s.regWriteBy hltWrite (hlA 0x2C) val)
/-- R491. -/
def execHalterFirmwareReady (s : State) : Out := .next (firmwareReady s)

/-- R381, R470: the frame becomes visible; one of a bound queue is taken by the firmware. -/
def execFrameDeliver (m q : Nat) (s : State) : Out :=
  if m < 33 then .next (hltIntake (frameDeliver s m q).2) else .fault .noSuchUnit
/-- R57, R65, R483. -/
def execYmTick (t : Nat) (s : State) : Out :=
  if t < 16 then .next (hltSettle (ymStops (takeYmTick s t))) else .fault .noSuchUnit
/-- R46: ENABLE of the train is cleared. -/
def execTrainDisable (t : Nat) (s : State) : Out :=
  if t < 16 then .next (hltSettle (ymStops (s.regWriteBy ctWrite (ttA t 0) (clrBit (s.rd (ttA t 0)) 0)))) else .fault .noSuchUnit

end Sys2Proof.Machine
end

