-- ==== Sys2Proof/Machine/Bus.lean ====
section
/-! DEFINITION. Accesses over the Yard: every register's live value and effect of a write (R5-R8, R11), memory behind
its target's rules (R19, R22, R25, R489, R515, R516), the remote windows (R28-R30, R438), and the rows of the bus
and of the responses that accesses bring. -/

namespace Sys2Proof.Machine

/-! ## Which registers exist -/

/-- Offsets of the MAC layout that the management port has not: it has 8 receive queues, 2 transmit queues and 64 rules,
and no gates, preemption or MACsec (R499). -/
def mgmtAbsent (o : Nat) : Bool :=
  decide (o = 0x1014 ∨ (0x1028 ≤ o ∧ o < 0x1040) ∨ (0x1048 ≤ o ∧ o < 0x1060) ∨ (0x1068 ≤ o ∧ o < 0x1080)
    ∨ (0x1200 ≤ o ∧ o < 0x1218) ∨ (0x2400 ≤ o ∧ o < 0x4000) ∨ (0x4200 ≤ o ∧ o < 0x5000) ∨ (0x8000 ≤ o ∧ o < 0x8800) ∨ 0xA000 ≤ o)

/-- The register at `a` with the base of its area. -/
def busRow (a : Nat) : Option (Nat × RegRow) :=
  if macBase 32 ≤ a ∧ a < macBase 32 + 0x40000 ∧ mgmtAbsent (a - macBase 32) then none else regRow a

/-- Indices of the register at `a`. -/
def rowIdx (base : Nat) (row : RegRow) (a : Nat) : List Nat := dimIdx row.dims (a - base - row.off)

/-- Some byte of `[a, a+n)` belongs to a register. -/
def touchesReg (a n : Nat) : Bool :=
  (List.range (n / 4 + 2)).any (fun i =>
    let w := (a / 4 + i) * 4
    decide (w < a + n) && ((busRow w).isSome || (decide (4 ≤ w) && (match busRow (w - 4) with | some (_, r) => decide (r.w = 8) | none => false))))

/-! ## Live values and writes of every block -/

/-- Live value of the register at `a`. -/
def regView (base : Nat) (row : RegRow) (a : Nat) (s : State) : Nat :=
  let nm := row.name
  let ix := rowIdx base row a
  if base < 0x02000000000 then
    let n := (base - 0x01000000000) / 0x1000000
    let q := a % 0x1000000 - 0x800000
    if q < 0x8000 then kbView (8 * n + q / 0x1000) nm ix a s
    else if q < 0x10000 then s.rd a
    else if q < 0x400000 then brwView nm a s
    else sliceView n nm ix a s
  else if base < 0x03000000000 then engView nm a s
  else
    match (base - 0x03000000000) / 0x1000000 with
    | 0 => ymView nm ix a s
    | 1 => hatView nm ix a s
    | 2 => brwView nm a s
    | 3 => ctView nm ix a s
    | 4 => ethView (2 * (base % 0x1000000 / 0x100000) + base % 0x100000 / 0x80000) nm ix a s
    | 5 => plView nm ix a s
    | 6 => tkView nm ix a s
    | 8 => calView nm a s
    | 10 => yrdView nm ix a s
    | 11 => eccView nm ix a s
    | 12 => if base = macBase 32 then ethView 32 nm ix a s else lftView nm ix a s
    | _ => s.rd a

/-- The block's own part of a write to the register at `a` by endpoint `src`, in kernel mode or not. -/
def regHook (src : Nat) (km : Bool) (base a : Nat) : WriteHook :=
  if base < 0x02000000000 then
    let n := (base - 0x01000000000) / 0x1000000
    let q := a % 0x1000000 - 0x800000
    if q < 0x8000 then kbWrite (8 * n + q / 0x1000)
    else if q < 0x10000 then stbWrite n src km
    else if q < 0x400000 then brwWrite n
    else sliceWrite n src km
  else if base < 0x03000000000 then engWrite a
  else
    match (base - 0x03000000000) / 0x1000000 with
    | 0 => ymWrite
    | 1 => hatWrite src
    | 2 => brwWrite 32
    | 3 => ctWrite
    | 4 => ethWrite (2 * (base % 0x1000000 / 0x100000) + base % 0x100000 / 0x80000)
    | 5 => plWrite src
    | 6 => tkWrite src
    | 7 => shdWrite src
    | 8 => calHook
    | 9 => hltWrite
    | 10 => yrdWrite
    | 11 => eccWrite
    | _ => if base = macBase 32 then ethWrite 32 else lftWrite

/-! ## Register reads (R5, R6, R8, R11) -/

/-- Capture the live values of a group's registers. -/
def captureViews (s : State) (as : List Nat) : State :=
  { s with caps := as.foldl (fun c a => match busRow a with
      | some (b, r) => tset noCap c a (some (BitVec.ofNat 64 (regView b r a s)))
      | none => c) s.caps }

/-- An RC register is cleared by its read. -/
def clearRead (base : Nat) (row : RegRow) (a : Nat) (s : State) : State :=
  if row.rc = 0 then s
  else
    let s1 := s.wr a (s.rd a &&& (2 ^ 64 - 1 - row.rc))
    if base = yrdRegs then yrdClear row.name s1 else s1

/-- A read of `n` bytes at `a` inside a register area: answer, value and state. -/
def regRead (s : State) (src a n : Nat) : Nat × Nat × State :=
  match busRow a with
  | some (base, row) =>
    if row.w ≠ n then (rspTgt, 0, s)
    else
      let h := (rowIdx base row a).getD 0 0
      if row.name = "HAT_TAKE" then hatchTake s src h
      else if row.name = "HAT_WITHDRAW" then hatchWithdraw s src h
      else if row.name = "CT_TXQ_ENTRY" then let r := tsRead s h; (rspOk, r.1, r.2)
      else
        let d := a - base - row.off
        if row.ghi ≠ 0 then
          if a = base + row.glo + d then
            (rspOk, regView base row a s, captureViews s (groupAddrs (base + row.glo + d) (base + row.ghi + d)))
          else (rspOk, s.captured a, s)
        else (rspOk, regView base row a s, clearRead base row a s)
  | none => if touchesReg a n then (rspTgt, 0, s) else (rspOk, 0, s)

/-! ## Register writes (R5-R8, R11) -/

/-- One register's write by its access codes and its block. -/
def oneWrite (s : State) (src : Nat) (km : Bool) (a v : Nat) : Nat × State :=
  match busRow a with
  | some (base, row) => regHook src km base a row.name (rowIdx base row a) v s (s.wr a (regNext row (s.rd a) v))
  | none => (rspOk, s)

/-- Apply the writes staged for the lower registers of a group. -/
def applyStage (src : Nat) (km : Bool) : List Nat → State → State
  | [], s => s
  | a :: t, s =>
    match tget noCap s.stage a with
    | some v => applyStage src km t (oneWrite s src km a v.toNat).2
    | none => applyStage src km t s

/-- A write of `v` in `n` bytes at `a` inside a register area. Writes to an R11 group wait for its highest-offset
register; the calendar's write takes CAL_TIME from there itself. -/
def regWrite (s : State) (src : Nat) (km : Bool) (a n v : Nat) : Nat × State :=
  match busRow a with
  | some (base, row) =>
    if row.w ≠ n then (rspTgt, if row.name = "HAT_POST" then s.cnt (hatK 8) 1 else s)
    else if row.ghi = 0 ∨ row.rw = 0 then oneWrite s src km a v
    else
      let d := a - base - row.off
      if a ≠ base + row.ghi + d then
        let r := oneWrite s src km a v
        if r.1 = rspOk then (rspOk, { s with stage := tset noCap s.stage a (some (BitVec.ofNat 64 v)) }) else (r.1, s)
      else
        let low := (groupAddrs (base + row.glo + d) (base + row.ghi + d)).filter (· ≠ a)
        let s1 := if base = calRegs ∧ row.name = "CAL_DATE" then s else applyStage src km low s
        let r := oneWrite s1 src km a v
        if r.1 = rspOk then (rspOk, { r.2 with stage := tdrop (fun k => low.contains k) r.2.stage }) else (r.1, s)
  | none =>
    if touchesReg a n then
      (rspTgt, if hatRegs ≤ a ∧ a < hatRegs + 0x20000 ∧ a % 0x20 < 8 then s.cnt (hatK 8) 1 else s)
    else (rspOk, s)

/-! ## Targets -/

/-- Free bytes: what comes back from where the spec says nothing of it. -/
def freeBytes (s : State) (n : Nat) : List Byte × State := trng s n

/-- A read at its target, the network behind it: answer, bytes and state. -/
def tgtRead (s : State) (src a n : Nat) : Nat × List Byte × State :=
  let mem := fun (s : State) =>
    let d := ddrAnswer s src a n
    if d ≠ rspOk then (d, [], s)
    else
      let m := s.readMem a n 0 src
      (if m.2.1.isSome then rspUe else rspOk, m.1, m.2.2)
  match regionOf a with
  | .regs _ _ => let r := regRead s src a n; (r.1, if r.1 = rspOk then natLe n r.2.1 else [], r.2.2)
  | .txWindow _ _ => (rspOk, List.replicate n 0, s)
  | .imsic _ _ => (rspOk, List.replicate n 0, s)
  | .periph => let r := freeBytes s n; (rspOk, r.1, r.2)
  | .remote _ => (rspNone, [], s)
  | .hole => (rspNone, [], s)
  | .unassigned => (rspNone, [], s)
  | _ => mem s

/-- May byte `a` of a burst engine's channel records be written (R255)? -/
def nbWritable (s : State) (i a : Nat) : Bool :=
  let o := a - nbRec i 0
  let c := o / 0x800
  let q := o % 0x800
  if q < 0x40 then !s.rb (engBase 10 i + 0x2C + c / 32 * 4) (c % 32) else decide (q < 0x44)

/-- May `src` write the `n` bytes of memory at `a` now (R22, R255, R489, R515, R516)? -/
def memWritable (s : State) (src a n : Nat) : Bool :=
  match regionOf a with
  | .imem g => (s.inReset g || (s.core g).halted) && (!s.rb (tkA 0x18) 0 || decide (src = tackEp))
  | .engBuf c i => decide (c ≠ 10) || (List.range n).all (fun j => nbWritable s i (a + j))
  | .hltMem k =>
    if s.shedHeld 62 then decide (src = tackEp)
    else decide (src = hltCoreEp k) && decide (0x20000 ≤ (a - hltRegs) % 0x40000)
  | _ => true

/-- A write at its target: answer and state. What a board peripheral makes of it the spec does not say: it goes out as
an event. -/
def tgtWrite (s : State) (src : Nat) (km : Bool) (a : Nat) (l : List Byte) : Nat × State :=
  let held := decide (shedOf a < 40) && s.shedHeld (shedOf a)
  let mem := fun (s : State) =>
    let d := ddrAnswer s src a l.length
    if d ≠ rspOk then (d, s)
    else if !memWritable s src a l.length ∨ (held ∧ src ≠ tackEp) then (rspTgt, s)
    else
      let m := s.writeMem a l src
      (if m.1 then rspUe else rspOk, m.2)
  match regionOf a with
  | .regs base _ =>
    if held then (rspTgt, s)
    else
      let r := regWrite s src km a l.length (leNat l)
      (r.1, if base = ctRegs then hltSettle (ymStops r.2) else r.2)
  | .txWindow m t => let r := txqWrite s m t src l; (r.1.getD rspOk, r.2)
  | .imsic f c => (rspOk, if l.length = 4 ∧ a % 0x1000 = 0 then s.emit (.aia c f (leNat l)) else s)
  | .periph => (rspOk, s.emit (.periph a l))
  | .remote _ => (rspNone, s)
  | .hole => (rspNone, s)
  | .unassigned => (rspNone, s)
  | _ => mem s

/-- The indivisible operations of R297. -/
def rmwValue (op old : Nat) (data : List Byte) : Option Nat :=
  let x := le data 0 8
  match op with
  | 1 => some (old ||| x)
  | 2 => some (old &&& x)
  | 3 => some (if old = x then le data 8 8 else old)
  | 4 => some ((old + x) % 2 ^ 64)
  | _ => none

/-- An RMW at its target (R297, R323): answer, old value and state. -/
def tgtRmw (s : State) (src a n op : Nat) (data : List Byte) : Nat × List Byte × State :=
  let ok := match regionOf a with
    | .barn _ => true
    | .xmem _ => true
    | .ymem _ => true
    | .ddr => true
    | _ => false
  if !ok ∨ n ≠ 8 ∨ a % 8 ≠ 0 then (rspTgt, [], s)
  else
    let r := tgtRead s src a 8
    if r.1 ≠ rspOk then r
    else
      match rmwValue op (leNat r.2.1) data with
      | none => (rspTgt, [], s)
      | some v =>
        let w := tgtWrite r.2.2 src false a (natLe 8 v)
        if w.1 = rspOk then (rspOk, r.2.1, w.2) else (w.1, [], w.2)

/-! ## Remote windows (R28-R30, R438) -/

/-- A window onto this unit itself leads to the local address (R28). -/
def localize (s : State) (a : Nat) : Nat :=
  match regionOf a with
  | .remote _ => match windowGlobal s a with
    | some (u, g) => if plValid s ∧ u = plUnit s then g else a
    | none => a
  | _ => a

def isRemote (a : Nat) : Bool := match regionOf a with | .remote _ => true | _ => false

/-- Endpoint that serves an access of `src` to `a`: for a remote window, the nearest Phinerlink port. -/
def busDst (src a : Nat) : Nat := if isRemote a then plPortEp (nearestPl src) else epOf a

/-- A request of `src` for another unit, answered now: the source side's checks are made and the request sent, and the
answer and its data are free (log 84). -/
def remoteNow (s : State) (opc a n op : Nat) (data : List Byte) : Nat × List Byte × State :=
  match windowGlobal s a with
  | none => (rspNone, [], s)
  | some (u, g) =>
    let r := plRequest s u opc (n - 1) op ((freeXid s u).getD 0) g data
    if r.1 ≠ rspOk then (r.1, [], r.2)
    else
      let d := r.2.draw
      let b := freeBytes d.2 n
      (d.1 % 8, b.1, b.2)

/-- A read of `src` that is answered now. -/
def busRead (s : State) (src a0 n : Nat) : Nat × List Byte × State :=
  let a := localize s a0
  let dst := busDst src a
  let r := s.ni src dst
  if r.1 ≠ rspOk then (r.1, [], r.2)
  else
    let t := if isRemote a then remoteNow r.2 0 a n 0 [] else tgtRead r.2 src a n
    let b := t.2.2.back src dst t.1
    (b.1, t.2.1, b.2)

/-- A write of `src` that is answered now. -/
def busWrite (s : State) (src : Nat) (km : Bool) (a0 : Nat) (l : List Byte) : Nat × State :=
  let a := localize s a0
  let dst := busDst src a
  let r := s.ni src dst
  if r.1 ≠ rspOk then r
  else
    let t := if isRemote a then let t := remoteNow r.2 1 a l.length 0 l; (t.1, t.2.2) else tgtWrite r.2 src km a l
    t.2.back src dst t.1

/-- A posted write of `src` (R299). -/
def busPosted (s : State) (src : Nat) (a0 : Nat) (l : List Byte) : State :=
  let a := localize s a0
  let dst := busDst src a
  if dst = 0xFFF then s
  else
    let r := s.niPosted src dst
    if !r.1 then r.2
    else if !r.2.shedReady (epShed dst) then (wakeShed r.2 (epShed dst)).cnt (yrdA 0x50) 1
    else if isRemote a then
      match windowGlobal r.2 a with
      | some (u, g) => (plRequest r.2 u 2 (l.length - 1) 0 0 g l).2
      | none => r.2
    else (tgtWrite r.2 src false a l).2

/-! ## Far accesses of the Kubry cores (R92) -/

/-- A bundle that waits for a reservation issues again (R302). -/
def retryResv (s : State) (g : Nat) : State :=
  if coreLive s g ∧ (s.core g).hold = .resv then
    let s1 := (endWait s g true).modCore g (fun c => { c with hold := .none })
    daStage s1 g (heldBundle s1 g)
  else s

/-- FAR_LOAD_RESPONSE. -/
def farLoad (s : State) (g : Nat) : State :=
  match (s.core g).hold with
  | .far _ a n =>
    if coreLive s g then
      let r := busRead (endWait s g true) (coreEp g) a n
      exFinish (r.2.2.modCore g (fun c => { c with hold := .none })) g (heldBundle r.2.2 g) (some (r.1, r.2.1))
    else s
  | _ => s

/-- FAR_STORE_RESPONSE: the oldest store reaches its target and is answered. -/
def farStore (s : State) (g : Nat) : State :=
  match (s.core g).stores with
  | [] => s
  | x :: t =>
    let r := busWrite (s.modCore g (fun c => { c with stores := t })) (coreEp g) x.km x.addr x.data
    let s1 := if r.1 = rspOk ∨ r.2.inReset g then r.2
      else r.2.modCore g (fun c => { c with busAsync := c.busAsync ++ [(r.1, x.addr)] })
    retryResv s1 g

/-- POST_RESPONSE (R158): the oldest answer on its way to the hitch; the reservation it frees may let a bundle
that waits for one issue (R302). -/
def execPostResponse (h : Nat) (s : State) : Out :=
  if h < 272 then
    .next (match tget noAns s.postAns h with
      | [] => s
      | m :: t =>
        let s1 := postAnswer { s with postAns := tset noAns s.postAns h t } h m
        if h < 256 then retryResv s1 h else s1)
  else .fault .noSuchUnit

/-! ## The rows of the Yard (R297, R302, R304, R305) -/

/-- Reservations of an initiator (R302); 0 for one that issues no request with a response. -/
def resvLimit (e : Nat) : Nat :=
  match epKindOf e with
  | 0 => 32
  | 1 => 256
  | 4 => 512
  | 7 => 128
  | 8 => 256
  | 10 =>
    let r := e / 32
    if r = sysRouter 0 then 192
    else if r = sysRouter 1 then (if e % 32 < 4 then 64 else 0)
    else if r = sysRouter 3 then 512
    else if r = sysRouter 7 then (if e = loftDmaEp then 256 else if e % 32 = 0 then 64 else 0)
    else 64
  | _ => 0

/-- A request is well formed (R296): within one 256-byte block, within one flit if express. -/
def reqOk (r : YReq) : Bool :=
  decide (1 ≤ r.len ∧ r.len ≤ 256 ∧ r.addr % 256 + r.len ≤ 256) && (!r.exp || decide (r.len ≤ 64))

/-- The request reaches its target `dst`, with `op` its opcode (R297): its response, if it has one, goes on its way. -/
def deliverReq (s : State) (op : Nat) (r : YReq) (dst : Nat) : State :=
  let a := localize s r.addr
  let l := sub r.data 0 r.len
  let say := fun (s1 : State) (code : Nat) (data : List Byte) =>
    let x : YResp := ⟨r.src, r.seq, r.gen, code, if code = rspOk then data else [], dst, (s.epSt dst).gen, yrdEpoch s⟩
    { s1 with resps := s1.resps ++ [x] }
  if op = 4 then s
  else if isRemote a then
    match windowGlobal s a with
    | none => if op = 2 then s else say s rspNone []
    | some (u, g) =>
      match freeXid s u with
      | none => s
      | some xid =>
        let q := plRequest s u op (r.len - 1) (if op = 3 then r.op else 0) xid g (if op = 0 then [] else if op = 3 then r.data else l)
        if op = 2 then q.2
        else if q.1 ≠ rspOk then say q.2 q.1 []
        else
          let x : PlXid := ⟨nearestPl r.src, xid, u, r.src, r.seq, r.gen, op, plFgen s, plPgen s u, s.now⟩
          { q.2 with pl := { q.2.pl with xids := q.2.pl.xids ++ [x] } }
  else
    match op with
    | 0 => let t := tgtRead s r.src a r.len; say t.2.2 t.1 t.2.1
    | 1 => let t := tgtWrite s r.src r.km a l; say t.2 t.1 []
    | 2 => (tgtWrite s r.src r.km a l).2
    | _ => let t := tgtRmw s r.src a r.len r.op r.data; say t.2.2 t.1 t.2.1

/-- WAKE_HOLD: the worm is held at the NI of `dst` and its shed asked to wake (R305). -/
def holdWorm (s : State) (op : Nat) (r : YReq) (dst : Nat) : State :=
  let k := epShed dst
  let mine := s.held.filter (fun h => decide (h.shed = k ∧ h.router = dst / 32))
  let start := match mine with | h :: _ => h.start | [] => s.now
  let s1 := if mine.isEmpty then wakeShed s k else s
  { s1 with held := s1.held ++ [⟨k, dst / 32, dst, op, r, start⟩] }

/-- A request of the Yard is injected (R302, R304, R309). -/
def yardReq (s : State) (op : Nat) (r : YReq) : State :=
  let posted := decide (op = 2 ∨ op = 4)
  let dst := if op = 4 then r.addr else busDst r.src (localize s r.addr)
  if !posted ∧ (resvLimit r.src ≤ (s.resvs.filter (fun v => decide (v.src = r.src))).length
      ∨ s.resvs.any (fun v => decide (v.src = r.src ∧ v.seq = r.seq ∧ v.gen = r.gen))) then s
  else if s.fenced r.src then (if posted then s.discardAt r.src else (s.absorb r.src).answer rspFenced 0)
  else if op = 4 ∧ dst = 0xFFF then
    if !r.exp then s.answer rspNone 0
    else ((List.range 3072).filter (fun e => epExists e && s.fenced e)).foldl State.discardAt s
  else if dst = 0xFFF ∨ !epExists dst then (if posted then s else s.answer rspNone 0)
  else if s.cut r.src dst then
    let s1 := s.cnt (yrdA 0x58) 1
    if posted then s1 else s1.answer rspNone 0
  else if s.fenced dst then (if posted then s.discardAt dst else (s.absorb dst).answer rspFenced 0)
  else
    let s1 := if posted then s else { s with resvs := s.resvs ++ [⟨r.src, r.seq, r.gen, dst, s.now⟩] }
    if s1.shedReady (epShed dst) then deliverReq s1 op r dst else holdWorm s1 op r dst

/-- SHED_STEP_READY: once the shed is ready, what was held for it is delivered in arrival order (R305). -/
def shedStepReady (s : State) (k : Nat) : State :=
  let s1 := stepReady s k
  if !s.shedReady k ∧ s1.shedReady k then
    (s1.held.filter (fun h => decide (h.shed = k))).foldl (fun s h => deliverReq s h.kind h.req h.dst)
      { s1 with held := s1.held.filter (fun h => decide (h.shed ≠ k)) }
  else s1

/-! ## Packets of the fabric (R437-R440, R442, R445, R453, R457) -/

/-- A YARD request from another unit, served on the ports' own Yard as endpoint of port `p` (R438). -/
def plServe (s : State) (p : Nat) (k : PlPkt) : State :=
  let e := plPortEp p
  let a := yAddr k
  let d := k.payload.drop 16
  let say := fun (s : State) (code : Nat) (data : List Byte) => plSendResp s (plReply s k code data)
  match yOpc k with
  | 0 => let r := busRead s e a (yLen k); say r.2.2 r.1 (if r.1 = rspOk then r.2.1 else [])
  | 1 => let r := busWrite s e false a (sub d 0 (yLen k)); say r.2 r.1 []
  | 2 => busPosted s e a (sub d 0 (yLen k))
  | 3 =>
    let r := s.ni e (epOf a)
    if r.1 ≠ rspOk then say r.2 r.1 []
    else
      let t := tgtRmw r.2 e a (yLen k) (ySub k) d
      say t.2.2 t.1 (if t.1 = rspOk then t.2.1 else [])
  | _ => s

/-- A packet addressed to this unit. -/
def plLocal (s : State) (p : Nat) (k : PlPkt) : State :=
  if plAnswers k then plResponse s k
  else if plFenced s k.src then
    if plAsks k then plSendResp (s.cnt (plA 0x34) 1) (plReply s k rspFenced []) else s.cnt (plA 0x38) 1
  else if k.kind = 0 then plServe s p k
  else if k.kind = 3 then fabricArrive s k.src k.payload
  else s

/-- A packet that port `p` has received in order: routed or delivered. -/
def plDeliver (s : State) (p : Nat) (k : PlPkt) : State :=
  if k.kind = 1 then
    let t := le k.payload 0 1
    if (t = 0x10 ∨ t = 0x11) ∧ plValid s ∧ k.dst ≠ plUnit s then
      (if k.hops = 15 then (plAbsorb s k rspNone 0x48).cnt (plA 0x4C) 1 else plForward s k)
    else mgmtSegment s p k
  else if plState s p ≠ 3 then s.cnt (plP p 0x60) 1
  else if plValid s ∧ k.dst = plUnit s then plLocal s p k
  else if k.hops = 15 then (plAbsorb s k rspNone 0x48).cnt (plA 0x4C) 1
  else plForward s k

/-- PL_PACKET_RECEIVE: the link's own checks, then delivery in LSEQ order (R439). -/
def plReceive (s : State) (p : Nat) (x : PlPacket) : State :=
  if !plUp s p then s
  else if x.edb then s.cnt (plP p 0x50) 1
  else
    let c := s.plp p
    let nak := fun (s : State) =>
      if c.nakd then s
      else (s.modPlp p (fun c => { c with nakd := true })).emit (.plLctl p 4096 ((c.rx + 4095) % 4096) [])
    match plParse x.bytes with
    | none => nak (s.cnt (plP p 0x48) 1)
    | some (k, q) =>
      if q ≠ c.rx then (if (c.rx + 4096 - q) % 4096 ≤ 2048 then s else nak s)
      else
        let s1 := ((s.modPlp p (fun c => { c with rx := (c.rx + 1) % 4096, nakd := false, idle := s.now })).cnt (plP p 0x44) 1).emit
          (.plLctl p q 4096 ((List.range 4).map (fun i => b2n (decide (i = k.ch)))))
        plDeliver s1 p k

/-! ## Meanings -/

/-- R5-R8, R11. -/
def execRegisterWrite (src addr size val : Nat) (s : State) : Out :=
  let r := busWrite s src (epKindOf src == 0) addr (natLe size val)
  .next (r.2.answer r.1 0)
/-- R8. -/
def execRcRead (src addr size : Nat) (s : State) : Out :=
  let r := busRead s src addr size
  .next (r.2.2.answer r.1 (leNat r.2.1))
/-- R11. -/
def execGroupCaptureRead (src addr : Nat) (s : State) : Out :=
  let r := busRead s src addr 4
  .next (r.2.2.answer r.1 (leNat r.2.1))
/-- R92. -/
def execFarLoadResponse (g : Nat) (s : State) : Out := inCore g (farLoad s g)
/-- R92. -/
def execFarStoreResponse (g : Nat) (s : State) : Out := inCore g (farStore s g)

/-- A row of the Yard's opcodes. -/
def yardRow (op : Nat) (r : YReq) (s : State) : Out :=
  if epExists r.src then .next (if op = 4 ∨ reqOk r then yardReq s op r else s) else .fault .noSuchUnit

/-- R297. -/
def execYardRd (r : YReq) (s : State) : Out := yardRow 0 r s
/-- R297. -/
def execYardWr (r : YReq) (s : State) : Out := yardRow 1 r s
/-- R297. -/
def execYardWrp (r : YReq) (s : State) : Out := yardRow 2 r s
/-- R297, R323. -/
def execYardRmw (r : YReq) (s : State) : Out := yardRow 3 r s
/-- R297, R301, R309. -/
def execYardMsg (r : YReq) (s : State) : Out := yardRow 4 r s

/-- R439. -/
def execPlPacketReceive (p : Nat) (pkt : PlPacket) (s : State) : Out :=
  if p < 8 then .next (plReceive s p pkt) else .fault .noSuchUnit
/-- R305, R515, R527. -/
def execShedStepReady (k : Nat) (s : State) : Out := shedCmd shedStepReady k s

end Sys2Proof.Machine
end

