-- ==== Sys2Proof/Machine/BarrowBus.lean ====
section
/-! DEFINITION. What Barrow channels ask of the Yard and the fabric: program fetches, beats, their responses and the
group's arbitration (R345-R348, R352-R357). -/

namespace Sys2Proof.Machine

/-! ## Global addresses (R28) -/

/-- Serve a request at global address `g`: local if it names this unit, else by the nearest Phinerlink port. -/
def globalServe (s : State) (src g : Nat) (here : Nat → Nat × List Byte × State) (opc sb n : Nat) (l : List Byte) :
    Nat × List Byte × State :=
  if g / 2 ^ 44 % 2 ^ 20 = plUnit s then here (g % 2 ^ 44)
  else
    let dst := plPortEp (nearestPl src)
    let r := s.ni src dst
    if r.1 ≠ rspOk then (r.1, [], r.2)
    else
      let u := g / 2 ^ 44 % 2 ^ 20
      let q := plRequest r.2 u opc (n - 1) sb ((freeXid r.2 u).getD 0) (g % 2 ^ 44) l
      if q.1 ≠ rspOk then
        let b := q.2.back src dst q.1
        (b.1, [], b.2)
      else
        let d := q.2.draw
        let f := freeBytes d.2 n
        let b := f.2.back src dst (d.1 % 8)
        (b.1, f.1, b.2)

/-- Read `n` bytes at global address `g`. -/
def gRead (s : State) (src g n : Nat) : Nat × List Byte × State :=
  globalServe s src g (fun a => busRead s src a n) 0 0 n []

/-- Write bytes at global address `g`. -/
def gWrite (s : State) (src g : Nat) (l : List Byte) : Nat × State :=
  let r := globalServe s src g (fun a => let w := busWrite s src false a l; (w.1, [], w.2)) 1 0 l.length l
  (r.1, r.2.2)

/-- An indivisible OR into the 8 bytes at global address `g` (R297): answer, old value and state. -/
def gOr (s : State) (src g v : Nat) : Nat × Nat × State :=
  let r := globalServe s src g (fun a =>
    let q := s.ni src (epOf a)
    if q.1 ≠ rspOk then (q.1, [], q.2)
    else
      let t := tgtRmw q.2 src a 8 1 (natLe 8 v)
      let b := t.2.2.back src (epOf a) t.1
      (b.1, t.2.1, b.2)) 3 1 8 (natLe 8 v)
  (r.1, leNat r.2.1, r.2.2)

/-- The global address of a local one of this unit. -/
def ownGlobal (s : State) (a : Nat) : Nat := plUnit s * 2 ^ 44 + a % 2 ^ 44

/-! ## Beats (R345, R347, R348) -/

/-- Bytes from `a` to the end of its 256-byte block. -/
def blockLeft (a : Nat) : Nat := 256 - a % 256

/-- Source and destination of byte `o` of a transfer, and how many bytes follow it in one beat. -/
def beatAt (x : Xfer) (o : Nat) : Nat × Nat × Nat :=
  if x.gather then
    let e := elemAt x.elems o
    let el := x.elems.getD e (0, 0)
    let i := o - elemBase x.elems e
    let a := (el.1 + x.src + i) % 2 ^ 64
    let d := (x.dst + o) % 2 ^ 64
    (a, d, min (el.2 - i) (min (blockLeft a) (blockLeft d)))
  else
    let i0 := o % x.len0
    let i1 : Int := (o / x.len0 % x.n1 : Nat)
    let i2 : Int := (o / (x.len0 * x.n1) : Nat)
    let a := uns 64 (x.src + i2 * x.sstr2 + i1 * x.sstr1 + i0)
    let d := uns 64 (x.dst + i2 * x.dstr2 + i1 * x.dstr1 + i0)
    (a, d, min (x.len0 - i0) (min (blockLeft a) (blockLeft d)))

/-- Bytes of the staging buffer in use or promised to reads. -/
def stagingUse (c : Chan) : Nat :=
  ((c.staged ++ c.out.filter (fun (b : Beat) => !b.wr)).map (fun (b : Beat) => b.len)).sum

/-- Every read of element `e` of `x` has been answered. -/
def elemRead (c : Chan) (x : Xfer) (e : Nat) : Bool :=
  decide (elemBase x.elems (e + 1) ≤ x.rd) && !c.out.any (fun (b : Beat) => !b.wr && decide (b.seq = x.seq ∧ b.elem = e))

/-- The beat a channel would issue next: the write of what is staged, or the next read. -/
def nextBeat (c : Chan) : Option Beat :=
  match curXfer c with
  | none => none
  | some x =>
    if x.list.isSome ∨ c.fail.isSome ∨ 256 ≤ c.out.length then none
    else
      match c.staged.find? (fun (b : Beat) => decide (b.seq = x.seq ∧ b.ofs = x.wr) && (!x.gather || elemRead c x b.elem)) with
      | some b => some { b with wr := true }
      | none =>
        let r := beatAt x x.rd
        let e := if x.gather then elemAt x.elems x.rd else 0
        if x.rd < x.total ∧ stagingUse c + r.2.2 ≤ 4096 ∧ (!x.gather ∨ e = elemAt x.elems x.wr) then
          some ⟨false, x.seq, x.rd, r.1, r.2.1, r.2.2, e, []⟩
        else none

/-- A channel that may be granted (R353). -/
def beatReady (s : State) (ch : Nat) : Bool := decide (chSt s ch = 1) && (nextBeat (s.chan ch)).isSome

/-- Channels of a group. -/
def groupChans (gr : Nat) : List Nat :=
  if gr < 32 then (List.range 16).map (fun c => 16 * gr + c) else (List.range 64).map (fun c => 512 + c)

/-- The ready channel of highest PRIO, round-robin among equals from behind the last one granted (R353). -/
def grantee (s : State) (gr : Nat) : Option Nat :=
  let l := (groupChans gr).filter (fun ch => beatReady s ch)
  let top := (l.map (fun ch => s.rf (chA ch 0) 1 0)).foldl max 0
  let m := l.filter (fun ch => decide (s.rf (chA ch 0) 1 0 = top))
  let last := tget (fun _ => 0) s.brwLast gr
  match m.find? (fun ch => decide (last ≤ ch)) with
  | some ch => some ch
  | none => m.head?

/-- Issue beat `b` of channel `ch`; the write that completes a transfer moves PC past it (R347, R352). -/
def issueBeat (s : State) (ch : Nat) (b : Beat) : State :=
  let s1 := s.modChan ch (fun c =>
    let upd := fun (x : Xfer) => if x.seq ≠ b.seq then x
      else if b.wr then { x with wr := x.wr + b.len } else { x with rd := x.rd + b.len }
    let sent : Beat := if b.wr then b else { b with data := [] }
    { c with act := c.act.map upd, out := c.out ++ [sent],
             staged := if b.wr then c.staged.filter (fun (y : Beat) => decide (y.seq ≠ b.seq ∨ y.ofs ≠ b.ofs)) else c.staged })
  if !b.wr then s1
  else
    match (s1.chan ch).act.find? (fun (x : Xfer) => decide (x.seq = b.seq)) with
    | none => s1
    | some x =>
      let s2 := s1.wr (chA ch 0x14) (x.total - x.wr)
      if x.wr < x.total then s2 else goSlot s2 ch (x.pc + 32 * x.slots)

/-- BEAT_GRANT (R353, R362). -/
def beatGrant (s : State) (gr : Nat) : State :=
  match grantee s gr with
  | none => s
  | some ch =>
    if !s.shedReady (epShed (brwEp ch)) then s
    else
      match nextBeat (s.chan ch) with
      | none => s
      | some b =>
        let last := tget (fun _ => 0) s.brwLast gr
        let lost := decide (0 < last ∧ last - 1 ≠ ch) && beatReady s (last - 1)
          && decide (s.rf (chA (last - 1) 0) 1 0 < s.rf (chA ch 0) 1 0)
        let s1 := if lost then s.cnt (chA (last - 1) 0x54) 1 else s
        let s2 := { s1 with brwLast := tset (fun _ => 0) s1.brwLast gr (ch + 1) }
        issueBeat ((s2.cnt (brwGrp gr + 0x10) 1).cnt (brwGrp gr + 0x14) 1) ch b

/-! ## Responses (R355-R357) -/

/-- Drop the transfers that are complete and have no beat outstanding. -/
def pruneXfers (c : Chan) : Chan :=
  { c with act := c.act.filter (fun (x : Xfer) =>
      decide (x.wr < x.total) || x.list.isSome || c.out.any (fun (b : Beat) => decide (b.seq = x.seq))) }

/-- Beat `b` is answered `rsp`, other than RSP_OK. -/
def beatFailed (s : State) (ch : Nat) (b : Beat) (rsp : Nat) : State :=
  let c := s.chan ch
  let gather := c.act.any (fun (x : Xfer) => decide (x.seq = b.seq) && x.gather)
  let cause := if c.ended then 3 else if gather then 4 else 2
  noteFail s ch ⟨cause, b.seq, b.ofs, rsp, if b.wr then b.dst else b.src, b.elem⟩

/-- The response of the oldest outstanding beat arrives. -/
def beatResponse (s : State) (ch : Nat) : State :=
  match (s.chan ch).out with
  | [] => s
  | b :: t =>
    let s0 := s.modChan ch (fun c => { c with out := t })
    let e := brwEp ch
    let r := if b.wr then let w := gWrite s0 e b.dst b.data; (w.1, [], w.2) else gRead s0 e b.src b.len
    if r.1 = rspOk then
      let s1 := if b.wr then r.2.2.cnt (chA ch 0x50) b.len
        else r.2.2.modChan ch (fun c => { c with staged := c.staged ++ [{ b with data := r.2.1 }] })
      if chSt s1 ch = 3 then drainOrHalt s1 ch else s1.modChan ch pruneXfers
    else drainOrHalt (beatFailed r.2.2 ch b r.1) ch

/-- CHANNEL_HALT: the last response a draining channel waits for. -/
def channelHalt (s : State) (ch : Nat) : State :=
  if chSt s ch = 3 ∧ (s.chan ch).out.length ≤ 1 then
    (if (s.chan ch).out = [] then haltNow s ch else beatResponse s ch)
  else s

/-! ## Program fetches (R346, R348) -/

/-- Read bytes at global `g`, block by block: answer, failing address, bytes and state. -/
def gReadAll (s : State) (src g n : Nat) : Nat × Nat × List Byte × State :=
  let n1 := min n (blockLeft g)
  let r := gRead s src g n1
  if r.1 ≠ rspOk ∨ n ≤ n1 then (r.1, g, r.2.1, r.2.2)
  else
    let q := gRead r.2.2 src (g + n1) (n - n1)
    (q.1, g + n1, r.2.1 ++ q.2.1, q.2.2)

/-- Entry `i` of a GATHER list. -/
def listEntry (l : List Byte) (i : Nat) : Nat × Nat := (le l (16 * i) 8, le l (16 * i + 8) 4)

/-- The list of `n` entries is answered for transfer `x`. -/
def gotList (s : State) (ch : Nat) (x : Xfer) (n lst : Nat) : State :=
  let r := gReadAll s (brwEp ch) lst (16 * n)
  let fail := fun (s : State) (cause rsp addr : Nat) => drainOrHalt (noteFail s ch ⟨cause, x.seq, 0, rsp, addr, 0⟩) ch
  if r.1 ≠ rspOk then fail r.2.2.2 5 r.1 r.2.1
  else
    let es := (List.range n).map (listEntry r.2.2.1)
    if es.all (fun e => decide (1 ≤ e.2 ∧ e.2 ≤ 4096)) && (List.range n).all (fun i => rsv r.2.2.1 (16 * i + 12) 4) then
      let tot := (es.map (fun p => p.2)).sum
      (r.2.2.2.modChan ch (fun c => { c with act := c.act.map (fun (y : Xfer) =>
        if y.seq = x.seq then { y with elems := es, list := none, total := tot } else y) })).wr (chA ch 0x14) tot
    else fail r.2.2.2 6 0 0

/-- Fetch the program block at local address `a`. -/
def fetchBlock (s : State) (ch a : Nat) : State :=
  let r := busRead s (brwEp ch) a 256
  if r.1 = rspOk then
    r.2.2.modChan ch (fun c =>
      let here := chPc s ch / 256 * 256
      { c with blks := (a, r.2.1) :: (c.blks.filter (fun b => decide (b.1 ≠ a ∧ (b.1 = here ∨ a = here)))).take 1 })
  else slotFail r.2.2 ch 5 r.1 (ownGlobal s a)

/-- PROGRAM_FETCH: the list of the GATHER under way, or the block whose slot the channel stands before. -/
def programFetch (s : State) (ch : Nat) : State :=
  let c := s.chan ch
  if chSt s ch ≠ 1 then s
  else
    match curXfer c with
    | some x =>
      match x.list, slotAt c.blks x.pc with
      | some lst, .gather _ n _ _ => gotList s ch x n lst
      | _, _ => s
    | none =>
      match curSlot s ch with
      | .absent =>
        if !atSlot s ch then s
        else
          let pc := chPc s ch
          let b0 := pc / 256 * 256
          if (slotBytes c.blks pc).isNone then fetchBlock s ch b0 else fetchBlock s ch ((pc + 32) % 2 ^ 44 / 256 * 256)
      | _ => s

/-! ## Meanings -/

/-- R353, R345, R362. -/
def execBeatGrant (gr : Nat) (s : State) : Out := if gr < 33 then .next (beatGrant s gr) else .fault .noSuchUnit
/-- R355, R357, R336. -/
def execBeatResponse (ch : Nat) (s : State) : Out := brwEvent beatResponse ch s
/-- R355, R356, R357, R359. -/
def execChannelHalt (ch : Nat) (s : State) : Out := brwEvent channelHalt ch s
/-- R346, R348. -/
def execProgramFetch (ch : Nat) (s : State) : Out := brwEvent programFetch ch s

end Sys2Proof.Machine
end

