-- ==== Sys2Proof/Machine/Numeric.lean ====
section
/-! DEFINITION. Exact arithmetic behind the engines' sample formats: rounding half to even, block normalisation
(R165, R166), the NCO phasor (R233), decibel levels (R242) and half-octave helpers. -/

namespace Sys2Proof.Machine

/-- `n / d` rounded half to even. -/
def rneDiv (n : Int) (d : Nat) : Int :=
  let q := n / (d : Int)
  let r := 2 * (n - q * (d : Int))
  if (d : Int) < r ∨ (r = (d : Int) ∧ q % 2 ≠ 0) then q + 1 else q

/-- A complex value: (re + j im) * 2^e / den. -/
structure CVal where
  re : Int
  im : Int
  e : Int
  den : Nat
deriving DecidableEq, Repr

def CVal.zero : CVal := ⟨0, 0, 0, 1⟩

/-- `v * 2^e / den` as a count of 2^E, rounded half to even. -/
def scaleRne (v e : Int) (den : Nat) (E : Int) : Int :=
  if E ≤ e then rneDiv (v * 2 ^ (e - E).toNat) den else rneDiv v (den * 2 ^ (E - e).toNat)

/-- Both components as counts of 2^E. -/
def CVal.at (x : CVal) (E : Int) : Int × Int := (scaleRne x.re x.e x.den E, scaleRne x.im x.e x.den E)

def fits16 (v : Int) : Bool := decide (-32768 ≤ v ∧ v ≤ 32767)

/-- Exponent of a block (R166): the smallest of -128 to 127 at which every component fits; 127 if none does. -/
def blockExp (l : List CVal) : Int :=
  if l.all (fun x => decide (x.re = 0 ∧ x.im = 0)) then 0
  else
    match lowest 256 (fun i => l.all (fun x => let p := x.at ((i : Int) - 128); fits16 p.1 && fits16 p.2)) with
    | some i => (i : Int) - 128
    | none => 127

/-- Components saturated to 16 bits at exponent `E`, with how many saturated. -/
def plainOut (E : Int) (l : List CVal) : List (Int × Int) × Nat :=
  let m := l.map (fun x => x.at E)
  (m.map (fun p => (satS 16 p.1, satS 16 p.2)),
   (m.map (fun p => b2n (!fits16 p.1) + b2n (!fits16 p.2))).sum)

/-- A block's mantissas, exponent and saturated components (R166). -/
def blockOut (l : List CVal) : List (Int × Int) × Int × Nat :=
  let E := blockExp l
  let p := plainOut E l
  (p.1, E, p.2)

/-- The four bytes of a ci16 element (R4). -/
def ci16 (p : Int × Int) : List Byte := natLe 2 (uns 16 p.1) ++ natLe 2 (uns 16 p.2)

/-- ci16 elements of a list of bytes. -/
def unCi16 (l : List Byte) : List (Int × Int) :=
  (List.range (l.length / 4)).map (fun i => (sgn 16 (le l (4 * i) 2), sgn 16 (le l (4 * i + 2) 2)))

/-- Sum of two values, exact. -/
def CVal.add (x y : CVal) : CVal :=
  let e := min x.e y.e
  let up := fun (v : Int) (e' : Int) (d : Nat) => v * 2 ^ (e' - e).toNat * (d : Int)
  ⟨up x.re x.e y.den + up y.re y.e x.den, up x.im x.e y.den + up y.im y.e x.den, e, x.den * y.den⟩

/-- A value times `n / d`. -/
def CVal.scale (x : CVal) (n : Int) (d : Nat) : CVal := ⟨x.re * n, x.im * n, x.e, x.den * d⟩

/-- A component rounded to binary32. -/
def f32Bits (v e : Int) (den : Nat) : Nat :=
  let k := 64 + 64 * den
  let q := v.natAbs * 2 ^ k / den
  let sticky := b2n (decide (v.natAbs * 2 ^ k % den ≠ 0))
  (fp32.pack 2 (decide (v < 0)) (2 * q + sticky) (e - k - 1)).1

/-! ## The NCO phasor (R233) -/

/-- Pi in units of 2^-160. -/
def piFix : Nat := 0x3243F6A8885A308D313198A2E03707344A4093822

/-- Taylor terms of cos and sin of `x` (in 2^-160): pairs of partial sums. -/
def trigSeries (x : Int) : Nat → Int × Int
  | 0 => (0, 0)
  | n + 1 =>
    let s := trigSeries x n
    let t := (List.range n).foldl (fun (t : Int) i => t * x / (2 ^ 160 * ((i : Int) + 1))) (2 ^ 160)
    match n % 4 with
    | 0 => (s.1 + t, s.2)
    | 1 => (s.1, s.2 + t)
    | 2 => (s.1 - t, s.2)
    | _ => (s.1, s.2 - t)

/-- Cosine and sine of `r / 2^20` of a turn in the first quadrant, in 2^-160. -/
def trigFix (r : Nat) : Int × Int := trigSeries ((2 * piFix * r / 2 ^ 20 : Nat) : Int) 44

/-- Cosine and sine of `k / 2^20` of a turn in units of 2^-17, rounded half to even. -/
def cosSin (k : Nat) : Int × Int :=
  let q := k % 2 ^ 20 / 2 ^ 18
  let r := k % 2 ^ 18
  let t := if r = 0 then (2 ^ 17, 0) else let t := trigFix r; (rneDiv t.1 (2 ^ 143), rneDiv t.2 (2 ^ 143))
  match q with
  | 0 => (t.1, t.2)
  | 1 => (-t.2, t.1)
  | 2 => (-t.1, -t.2)
  | _ => (t.2, -t.1)

/-- A component in Q1.17. What +1, which the format cannot hold, becomes is free (log 91). -/
def q17 (v : Int) : Int := if v = 2 ^ 17 then Config.phasorOne else v

/-! ## Decibels (R242) -/

/-- 10 log10(n / d) in 0.125 dB, rounded to nearest: the number of half steps reached, 0x8000 for 0. -/
def dbLevel (n d : Nat) : Int :=
  if n = 0 ∨ d = 0 then -32768
  else
    let p := n ^ 160
    let q := d ^ 160
    let ge := fun (h : Int) => -- is the ratio at least 10^(h / 160)?
      if 0 ≤ h then decide (q * 10 ^ h.toNat ≤ p) else decide (q ≤ p * 10 ^ (-h).toNat)
    let est : Int := (240 * ((Nat.log2 n : Int) - (Nat.log2 d : Int))) / 10
    let low := est - 60
    match lowest 128 (fun i => !ge (2 * (low + i) + 1)) with
    | some i => low + i
    | none => low + 128

end Sys2Proof.Machine
end

