-- ==== Sys2Proof/Machine/Coding.lean ====
section
/-! DEFINITION. The 3GPP procedures the coding engines follow: CRCs, segmentation, circular buffers and their rate
matching, scrambling (TS 38.212, TS 36.212, TS 38.211 as R196, R208, R213 and R216 name them; their tables and
polynomials are PRESUMED from those standards, log 92), and soft-buffer codes (R197, R198). -/

namespace Sys2Proof.Machine

/-! ## Bits (R193) -/

/-- Bit `i` of a stream. -/
def bitAt (l : List Byte) (i : Nat) : Bool := tb (le l (i / 8) 1) (7 - i % 8)

/-- The first `n` bits of a stream. -/
def bitUnpack (l : List Byte) (n : Nat) : List Bool := (List.range n).map (bitAt l)

/-- A stream's bytes; bits behind its last are `fill`. -/
def bitPack (b : List Bool) (fill : Nat → Bool) : List Byte :=
  let n := b.length
  (List.range (cdiv n 8)).map (fun i => BitVec.ofNat 8
    ((List.range 8).foldl (fun v j => 2 * v + b2n (if 8 * i + j < n then b.getD (8 * i + j) false else fill j)) 0))

/-- Bits as a number, first bit most significant. -/
def bitsNat (b : List Bool) : Nat := b.foldl (fun v x => 2 * v + b2n x) 0

/-- The low `n` bits of a number, most significant first. -/
def natBits (n v : Nat) : List Bool := (List.range n).map (fun i => tb v (n - 1 - i))

/-! ## CRC (TS 38.212 clause 5.1) -/

/-- Remainder register after bits `b`, generator without its leading term. -/
def crcBits (w poly : Nat) (b : List Bool) : Nat :=
  b.foldl (fun c x =>
    let fb := xor (tb c (w - 1)) x
    let c1 := c * 2 % 2 ^ w
    if fb then c1 ^^^ poly else c1) 0

def crc24a (b : List Bool) : Nat := crcBits 24 0x864CFB b
def crc24b (b : List Bool) : Nat := crcBits 24 0x800063 b
def crc16c (b : List Bool) : Nat := crcBits 16 0x1021 b

/-- The transport block's CRC bits: CRC24A, or CRC16. -/
def tbCrc (short : Bool) (b : List Bool) : List Bool := if short then natBits 16 (crc16c b) else natBits 24 (crc24a b)

/-- The bits, CRC included, divide by the generator. -/
def tbCrcOk (short : Bool) (b : List Bool) : Bool := if short then decide (crc16c b = 0) else decide (crc24a b = 0)

/-! ## Segmentation (TS 38.212 clause 5.2.2, TS 36.212 clause 5.1.2) -/

/-- Lifting sizes of TS 38.212 Table 5.3.2-1. -/
def liftOk (z : Nat) : Bool :=
  decide (2 ≤ z ∧ z ≤ 384) && [2, 3, 5, 7, 9, 11, 13, 15].any (fun b => (List.range 8).any (fun j => decide (z = b * 2 ^ j)))

/-- Systematic columns of base graph `bg`, and all columns but the two punctured ones. -/
def bgK (bg zc : Nat) : Nat := if bg = 1 then 22 * zc else 10 * zc
def bgN (bg zc : Nat) : Nat := if bg = 1 then 66 * zc else 50 * zc

/-- Code blocks and K' of an LDPC transport block of `b` bits, CRC included; none if they do not divide. -/
def nrSegment (bg b : Nat) : Option (Nat × Nat) :=
  let kcb := if bg = 1 then 8448 else 3840
  if b ≤ kcb then some (1, b)
  else
    let c := cdiv b (kcb - 24)
    if (b + 24 * c) % c = 0 then some (c, (b + 24 * c) / c) else none

/-- Turbo code-block sizes (TS 36.212 Table 5.1.3-3). -/
def turboK : List Nat :=
  (List.range 60).map (fun i => 40 + 8 * i) ++ (List.range 32).map (fun i => 528 + 16 * i)
    ++ (List.range 32).map (fun i => 1056 + 32 * i) ++ (List.range 64).map (fun i => 2112 + 64 * i)

/-- Code blocks, K and F of a turbo transport block of `b` bits, CRC included, where all its blocks have one size. -/
def lteSegment (b : Nat) : Option (Nat × Nat × Nat) :=
  let c := if b ≤ 6144 then 1 else cdiv b (6144 - 24)
  let b' := if c = 1 then b else b + 24 * c
  match turboK.find? (fun k => decide (b' ≤ c * k)) with
  | none => none
  | some kp =>
    let km := (turboK.reverse.find? (fun k => decide (k < kp))).getD 0
    let cm := if c = 1 ∨ km = 0 then 0 else (c * kp - b') / (kp - km)
    if cm = 0 then some (c, kp, c * kp - b') else none

/-! ## Circular buffers (TS 38.212 clause 5.4.2.1, TS 36.212 clause 5.1.4.1) -/

/-- Column permutation of the turbo sub-block interleaver. -/
def subPerm (c : Nat) : Nat := (List.range 5).foldl (fun v j => v + (c / 2 ^ j % 2) * 2 ^ (4 - j)) 0

/-- Rows of the sub-block interleaver for code-block size `k`. -/
def subRows (k : Nat) : Nat := cdiv (k + 4) 32

/-- Length of the full circular buffer. -/
def cbFull (rm zk : Nat) : Nat := if rm < 2 then bgN (rm + 1) zk else 3 * (32 * subRows zk)

/-- What position `p` of a turbo circular buffer holds: stream and index, none for a dummy. -/
def turboPos (k p : Nat) : Option (Nat × Nat) :=
  let r := subRows k
  let kp := 32 * r
  let nd := kp - (k + 4)
  let plain := fun (i : Nat) => i % r * 32 + subPerm (i / r)
  let x := if p < kp then (0, plain p)
    else if (p - kp) % 2 = 0 then (1, plain ((p - kp) / 2))
    else (2, (subPerm ((p - kp) / 2 / r) + 32 * ((p - kp) / 2 % r) + 1) % kp)
  if x.2 < nd then none else some (x.1, x.2 - nd)

/-- Position `p` is a filler or dummy position, never transmitted. -/
def cbSkip (rm zk f p : Nat) : Bool :=
  if rm < 2 then
    let k := bgK (rm + 1) zk
    decide (k - f - 2 * zk ≤ p ∧ p < k - 2 * zk)
  else match turboPos zk p with
    | none => true
    | some (st, i) => decide (st < 2 ∧ i < f)

/-- Starting position k0 of redundancy version `rv`. -/
def cbStart (rm zk ncb rv : Nat) : Nat :=
  match rm with
  | 0 => [0, 17, 33, 56].getD rv 0 * ncb / (66 * zk) * zk
  | 1 => [0, 13, 25, 43].getD rv 0 * ncb / (50 * zk) * zk
  | _ => let r := subRows zk; r * (2 * cdiv ncb (8 * r) * rv + 2) % ncb

/-- The positions of a circular buffer that carry bits, in the order of selection from k0. -/
def cbOrder (rm zk f ncb rv : Nat) : List Nat :=
  let k0 := cbStart rm zk ncb rv
  ((List.range ncb).map (fun i => (k0 + i) % ncb)).filter (fun p => !cbSkip rm zk f p)

/-- Place in the interleaved sequence of the bit selected `k`-th: NR interleaves by rows of E / QM; the turbo
procedure of TS 36.212 clause 5.1.4.1 has no such step (DEDUCED, log 93). -/
def interleave (rm qm e k : Nat) : Nat := if rm < 2 then k % (e / qm) * qm + k / (e / qm) else k

/-- The selected index whose bit stands at place `j`. -/
def deInterleave (rm qm e j : Nat) : Nat := if rm < 2 then j % qm * (e / qm) + j / qm else j

/-! ## Scrambling (TS 38.211 clause 5.2.1) -/

/-- One step of the two registers. -/
def goldStep (x : Nat × Nat) : Nat × Nat :=
  let n1 := xor (tb x.1 3) (tb x.1 0)
  let n2 := xor (xor (tb x.2 3) (tb x.2 2)) (xor (tb x.2 1) (tb x.2 0))
  (x.1 / 2 + b2n n1 * 2 ^ 30, x.2 / 2 + b2n n2 * 2 ^ 30)

def goldRun : Nat → Nat × Nat → Nat × Nat
  | 0, x => x
  | n + 1, x => goldRun n (goldStep x)

def goldBits : Nat → Nat × Nat → List Bool
  | 0, _ => []
  | n + 1, x => xor (tb x.1 0) (tb x.2 0) :: goldBits n (goldStep x)

/-- Bits c(ofs), c(ofs + 1), ... of the scrambling sequence. -/
def scramble (cinit ofs n : Nat) : List Bool := goldBits n (goldRun (1600 + ofs) (1, cinit))

/-! ## Soft-buffer codes (R197, R198) -/

/-- Bits per code: format 1 is 4-bit, 2 is 3-bit. -/
def sbBits (fmt : Nat) : Nat := if fmt = 1 then 4 else 3

/-- Bytes of an LLR area. -/
def sbBytes (ncb fmt : Nat) : Nat := 16 * cdiv (ncb * sbBits fmt) 128

/-- Magnitude index of a value. -/
def sbIndex (fmt v : Nat) : Nat :=
  if fmt = 1 then
    (if v < 1 then 0 else if v < 4 then 1 else if v < 8 then 2 else if v < 13 then 3 else if v < 20 then 4
     else if v < 33 then 5 else if v < 57 then 6 else 7)
  else (if v < 2 then 0 else if v < 10 then 1 else if v < 32 then 2 else 3)

/-- Code of a combined value. -/
def sbCompress (fmt : Nat) (v : Int) : Nat :=
  let m := sbIndex fmt v.natAbs
  if v < 0 ∧ m ≠ 0 then m + 2 ^ (sbBits fmt - 1) else m

/-- Value of a code. -/
def sbExpand (fmt c : Nat) : Int :=
  let m := c % 2 ^ (sbBits fmt - 1)
  let v : Nat := if fmt = 1 then [0, 2, 5, 9, 15, 24, 40, 72].getD m 0 else [0, 4, 16, 48].getD m 0
  if tb c (sbBits fmt - 1) then -(v : Int) else v

/-- Codes of an area. -/
def sbCodes (fmt ncb : Nat) (l : List Byte) : List Nat :=
  let b := sbBits fmt
  (List.range ncb).map (fun p => le l (b * p / 8) 2 / 2 ^ (b * p % 8) % 2 ^ b)

/-- An area holding codes: a little-endian bit string, zero behind the last. -/
def sbArea (fmt : Nat) (cs : List Nat) : List Byte :=
  let b := sbBits fmt
  let per := if fmt = 1 then 2 else 8 -- codes in a whole number of bytes
  let chunk := per * b / 8
  let body := (List.range (cdiv cs.length per)).flatMap (fun i =>
    natLe chunk ((List.range per).foldl (fun v j => v + cs.getD (per * i + j) 0 * 2 ^ (b * j)) 0))
  sub body 0 (sbBytes cs.length fmt)

/-- An LLR (R192). -/
def llr (v : Nat) : Int := max (-127) (sgn 8 v)

def sat127 (v : Int) : Int := max (-127) (min 127 v)

end Sys2Proof.Machine
end

