-- ==== Sys2Proof/Machine/EngIo.lean ====
section
/-! DEFINITION. What every engine's job shares: commands' areas (R146), reads and writes of operands and their errors
(R157, R189), the outcome of a job, resident contexts (R155) and the slots of chained jobs (R187, R195). -/

namespace Sys2Proof.Machine

/-! ## Areas of a command (R146, R155, R162) -/

/-- Local address of the area that word `w` of hitch `h` names. -/
def areaAddr (h w : Nat) : Nat :=
  let a := w % 2 ^ 30 / 64 * 64
  match w / 2 ^ 30 with
  | 0 => xmemBase h + a
  | 1 => ymemBase h + a
  | _ => a

/-- An area of `n` bytes fits its space. -/
def areaFits (w n : Nat) : Bool :=
  decide (w % 2 ^ 30 / 64 * 64 + n ≤ if w / 2 ^ 30 = 2 then barnSize else 0x40000)

/-- Bytes of the context class `c` keeps, 0 for none (R176, R186, R194, R240, R255). -/
def ctxBytes (c : Nat) : Nat := if c = 0 ∨ c = 1 then 16384 else if c = 9 then 32768 else 0

/-! ## Outcome of a job -/

/-- What a job came to: the state, STATUS, RSP and SUMMARY (R157), and its occupancy in engine cycles. -/
structure JobRes where
  s : State
  status : Nat
  rsp : Nat
  summary : Nat
  occ : Nat

def jobOk (s : State) (summary occ : Nat) : JobRes := ⟨s, 0, 0, summary, occ⟩
/-- HS_BAD_DESC: nothing written. -/
def badDesc (s : State) : JobRes := ⟨s, 2, 0, 0, 0⟩
def jobEnd (s : State) (status summary occ : Nat) : JobRes := ⟨s, status, 0, summary, occ⟩
/-- An access answered other than RSP_OK ends the job HS_UE or HS_RSP. -/
def jobFail (s : State) (code : Nat) : JobRes := if code = rspUe then ⟨s, 1, 0, 0, 0⟩ else ⟨s, 4, code, 0, 0⟩

/-! ## Operands -/

/-- Read `n` bytes at global address `g`, block by block up to the first that fails; an uncorrectable one is
recorded (R189). -/
def eRead (s : State) (e g n : Nat) : Nat × List Byte × State :=
  (blocks256 g (List.replicate n 0)).foldl (fun q p =>
    if q.1 ≠ rspOk then q
    else
      let r := gRead q.2.2 (eEp e) p.1 p.2.length
      let s1 := if r.1 = rspUe then (r.2.2.wr (eA e 0x1C) (p.1 % 2 ^ 32)).wr (eA e 0x20) (p.1 / 2 ^ 32 % 2 ^ 32) else r.2.2
      (r.1, q.2.1 ++ sub r.2.1 0 p.2.length, s1)) (rspOk, [], s)

/-- Write bytes at global address `g`, block by block up to the first that fails. -/
def eWrite (s : State) (e g : Nat) (l : List Byte) : Nat × State :=
  (blocks256 g l).foldl (fun q p => if q.1 = rspOk then gWrite q.2 (eEp e) p.1 p.2 else q) (rspOk, s)

/-- Read, and go on with the bytes. -/
def eGet (e g n : Nat) (s : State) (k : List Byte → State → JobRes) : JobRes :=
  let r := eRead s e g n
  if r.1 = rspOk then k r.2.1 r.2.2 else jobFail r.2.2 r.1

/-- Write, and go on. -/
def ePut (e g : Nat) (l : List Byte) (s : State) (k : State → JobRes) : JobRes :=
  let r := eWrite s e g l
  if r.1 = rspOk then k r.2 else jobFail r.2 r.1

/-- Read a list of areas, and go on with what they hold. -/
def eGetAll (e : Nat) : List (Nat × Nat) → State → (List (List Byte) → State → JobRes) → JobRes
  | [], s, k => k [] s
  | (g, n) :: t, s, k => eGet e g n s (fun l s => eGetAll e t s (fun r s => k (l :: r) s))

/-- Write a list of areas, and go on. -/
def ePutAll (e : Nat) : List (Nat × List Byte) → State → (State → JobRes) → JobRes
  | [], s, k => k s
  | (g, l) :: t, s, k => ePut e g l s (fun s => ePutAll e t s k)

/-- Bits as bytes; those behind the last are free. -/
def packFree (s : State) (b : List Bool) : List Byte × State :=
  if b.length % 8 = 0 then (bitPack b (fun _ => false), s)
  else let d := s.draw; (bitPack b (tb d.1), d.2)

/-- Change the running job. -/
def modRun (s : State) (e : Nat) (f : ERun → ERun) : State := s.modEng e (fun x => { x with run := x.run.map f })

/-! ## Contexts (R155) -/

/-- The stage state that an area holds which this chip has not written; its form is open (R240; log 94). -/
def stageOf (l : List Byte) : Stage :=
  ⟨(List.range 511).map (Config.stageLine l), (List.range 16).map (Config.stageReg l), Config.stageNum l 0,
   Config.stageNum l 1, Config.stageNum l 2, Config.stageNum l 3⟩

/-- Write a resident context back to its area. -/
def ctxStore (s : State) (e : Nat) (c : ResCtx) : Nat × State :=
  if engClass e = 9 then
    let f := freeBytes s (32768 - 64)
    let r := eWrite f.2 e (ownGlobal s c.addr) (c.image ++ f.1)
    (r.1, if r.1 = rspOk then { r.2 with sctx := tput r.2.sctx c.addr ⟨c.stages⟩ } else r.2)
  else eWrite s e (ownGlobal s c.addr) c.image

/-- A context as its area holds it. -/
def ctxOf (s : State) (e a : Nat) (l : List Byte) : ResCtx :=
  if engClass e = 9 then
    ⟨a, l.take 64, match s.sctx.find? (fun p => decide (p.1 = a)) with
      | some p => p.2.stages
      | none => (List.range 8).map (fun i => stageOf (sub l (0x40 + i * 0xFF8) 0xFF8))⟩
  else ⟨a, l, []⟩

/-- Make context `a` resident and go on with it (R155): the least recently used one is written back if four are. -/
def withCtx (e a : Nat) (s : State) (k : ResCtx → State → JobRes) : JobRes :=
  let cs := (s.eng e).ctxs
  match cs.find? (fun c => decide (c.addr = a)) with
  | some c => k c (s.modEng e (fun x => { x with ctxs := c :: cs.filter (fun y => decide (y.addr ≠ a)) }))
  | none =>
    let n := ctxBytes (engClass e)
    let old := if cs.length < 4 then none else cs.getLast?
    let w := match old with | some c => ctxStore s e c | none => (rspOk, s)
    if w.1 ≠ rspOk then jobEnd w.2 6 0 0
    else
      eGet e (ownGlobal s a) n w.2 (fun l s =>
        let c := ctxOf s e a l
        let keep := match old with | some o => cs.filter (fun y => decide (y.addr ≠ o.addr)) | none => cs
        let s1 := (s.modEng e (fun x => { x with ctxs := c :: keep })).cnt (eA e 0x24) 1
        k c (modRun s1 e (fun r => { r with ctxSw := true, ctxCyc := n / 64 * (1 + b2n old.isSome) })))

/-- Replace the contents of resident context `a`. -/
def setCtx (s : State) (e a : Nat) (image : List Byte) (stages : List Stage) : State :=
  s.modEng e (fun x => { x with ctxs := x.ctxs.map (fun c => if c.addr = a then ⟨a, image, stages⟩ else c) })

/-! ## Chain slots (R187, R195) -/

/-- Slots between producer `p` and consumer `c`, and where slot `i` starts. -/
def slotCount (p c : Nat) : Nat := if engClass p = 3 then 32 else if engClass c = 0 then 2 else 16
def slotAddr' (p c i : Nat) : Nat :=
  if engClass p = 3 then eBuf p + i * 0x1000 else if engClass c = 0 then eBuf c + i * 0x20000 else eBuf c + i * 0x8000

/-- The lowest-numbered free slot. -/
def freeSlot (s : State) (p c : Nat) : Option Nat :=
  let g := (s.eng (slotOwner p c)).grants
  lowest (slotCount p c) (fun i => !g.any (fun x => decide (x.1 = i)))

/-- Grant or release slot `i`. -/
def grantSlot (s : State) (p c i : Nat) : State :=
  s.modEng (slotOwner p c) (fun x => { x with grants := x.grants ++ [(i, p)] })
def releaseSlot (s : State) (p c i : Nat) : State :=
  s.modEng (slotOwner p c) (fun x => { x with grants := x.grants.filter (fun g => decide (g ≠ (i, p))) })

/-- The producer's job leaves its chain with an answer other than RSP_OK: it is ready to complete HS_RSP. -/
def chainFail (s : State) (e code : Nat) : State :=
  match (s.eng e).run with
  | some r => modRun (dropChain s e r.cons) e (fun r => { r with phase := 0, status := (jobFail s code).status, rsp := (jobFail s code).rsp })
  | none => s

end Sys2Proof.Machine
end

