-- ==== Sys2Proof/Machine/Harq.lean ====
section
/-! DEFINITION. Jobs of the HARQ and rate-match engines (R196-R207): combining into soft buffers, rate matching,
clearing. Chained blocks are kept in the job for the chain's rows. -/

namespace Sys2Proof.Machine

/-! ## The descriptor and the list (R203-R205) -/

def hqOp (d : List Byte) : Nat := le d 0 1
def hqFlag (d : List Byte) (i : Nat) : Bool := tb (le d 1 1) i
def hqRm (d : List Byte) : Nat := le d 2 1
def hqQm (d : List Byte) : Nat := le d 3 1
def hqZk (d : List Byte) : Nat := le d 4 2
def hqF (d : List Byte) : Nat := le d 6 2
def hqNcb (d : List Byte) : Nat := le d 8 2
def hqFmt (d : List Byte) : Nat := le d 10 1
def hqDec (d : List Byte) : Nat := le d 11 1
def hqCount (d : List Byte) : Nat := le d 12 2
def hqTag (d : List Byte) : Nat := le d 14 2

/-- Entry `i` of the list: SB_ADDR, E, REC, RV, NEW. -/
def hqSb (l : List Byte) (i : Nat) : Nat := le l (8 + 16 * i) 8
def hqE (l : List Byte) (i : Nat) : Nat := le l (16 + 16 * i) 4
def hqRec (l : List Byte) (i : Nat) : Nat := le l (20 + 16 * i) 2
def hqRv (l : List Byte) (i : Nat) : Nat := le l (22 + 16 * i) 1 % 4
def hqNew (l : List Byte) (i : Nat) : Bool := tb (le l (22 + 16 * i) 1) 2

/-- Bytes of the list. -/
def hqListBytes (d : List Byte) : Nat := 8 + 16 * hqCount d

/-- The descriptor keeps its ranges (R203, R205). -/
def hqGood (d : List Byte) (chained : Bool) : Bool :=
  let op := hqOp d
  let rm := hqRm d
  let zk := hqZk d
  decide (1 ≤ op ∧ op ≤ 3 ∧ le d 1 1 < 32) && (hqFlag d 1 == chained) && (!hqFlag d 4 || decide (op = 3))
    && decide (1 ≤ hqCount d ∧ hqCount d ≤ 1024) && decide (le d 36 4 = 0 ∧ le d 16 4 < 2 ^ 31)
    && (decide (op = 3)
      || (decide (rm ≤ 2) && [1, 2, 4, 6, 8, 10].contains (hqQm d)
        && (if rm < 2 then liftOk zk && decide (hqF d ≤ bgK (rm + 1) zk - 2 * zk) else turboK.contains zk && decide (hqF d < 64 ∧ hqF d < zk))
        && decide (1 ≤ hqNcb d ∧ hqNcb d ≤ cbFull rm zk ∧ hqNcb d < 32768)))
    && (decide (op ≠ 1) || (decide (hqFmt d = 1 ∨ hqFmt d = 2)
        && decide (hqDec d = 0xFF ∨ hqDec d < if rm < 2 then 16 else 4)))
    && decide (op ≠ 2 → le d 40 8 = 0)

/-- The list keeps its ranges. -/
def hqListGood (d l : List Byte) : Bool :=
  let n := hqCount d
  let op := hqOp d
  (List.range n).all (fun i =>
    decide (le l (22 + 16 * i) 1 < 8 ∧ le l (23 + 16 * i) 1 = 0)
      && (decide (op = 3) || (decide (1 ≤ hqE l i ∧ hqE l i ≤ 524288) && decide (hqRm d < 2 → hqE l i % hqQm d = 0)))
      && (decide (op ≠ 1) || decide (hqSb l i % 16 = 0)))
    && (decide (op = 2) || decide (((List.range n).map (hqRec l)).Nodup))

/-! ## Records (R197) -/

def recAddr (d l : List Byte) (i : Nat) : Nat := le d 56 8 + 8 * hqRec l i
def recNcb (v : Nat) : Nat := fld v 14 0
def recBusy (v : Nat) : Bool := tb v 15
def recFmt (v : Nat) : Nat := fld v 17 16
def recTag (v : Nat) : Nat := fld v 63 48

/-- The record after a combination. -/
def recAfter (d : List Byte) (new : Bool) (old rv high : Nat) : Nat :=
  let seen := (if new then 0 else fld old 21 18) ||| 1 <<< rv
  let count := if new then 1 else min 255 (fld old 29 22 + 1)
  hqNcb d + hqFmt d * 2 ^ 16 + seen * 2 ^ 18 + count * 2 ^ 22 + high * 2 ^ 32 + hqTag d * 2 ^ 48

/-- The write that clears the BUSY bit of the block before, when one waits (R199 step 6). -/
def flushRec (e : Nat) (s : State) (k : State → JobRes) : JobRes :=
  match (s.eng e).run with
  | some r =>
    match r.recW with
    | some (a, v) =>
      ePut e a (natLe 8 v) (modRun (s.modEng e (fun x => { x with recs := [] })) e (fun r => { r with recW := none })) k
    | none => k s
  | none => k s

/-! ## UL_COMBINE (R199, R200) -/

/-- Input LLRs of a block, descrambled. -/
def hqLlrs (d : List Byte) (ofs : Nat) (l : List Byte) : List Int :=
  let x := l.map (fun b => llr b.toNat)
  if hqFlag d 0 then
    List.zipWith (fun (v : Int) c => if c then -v else v) x (scramble (le d 16 4) (le d 20 4 + ofs) x.length)
  else x

/-- The received values: position and R[p], for the positions that input reaches (step 3). -/
def hqRecv (d : List Byte) (rv : Nat) (x : List Int) : List (Nat × Int) :=
  let order := cbOrder (hqRm d) (hqZk d) (hqF d) (hqNcb d) rv
  let n := x.length
  let v := order.length
  (List.range (min n v)).map (fun i =>
    (order.getD i 0, (List.range (cdiv (n - i) v)).foldl (fun (acc : Int) t =>
      sat127 (acc + x.getD (interleave (hqRm d) (hqQm d) n (i + t * v)) 0)) 0))

/-- 16-byte words of the area that hold received positions. -/
def hqWords (fmt : Nat) (rs : List (Nat × Int)) : List Nat :=
  let b := sbBits fmt
  (rs.flatMap (fun p => [b * p.1 / 128, (b * p.1 + b - 1) / 128])).dedup

/-- What combining one block comes to: the codes, the saturations, the values for the decoder. -/
structure Combined where
  codes : List Nat
  sat : Nat
  soft : List Int

/-- Steps 4 and 5 on a block with old codes `old` (none when NEW). -/
def combine (d : List Byte) (rs : List (Nat × Int)) (old : Option (List Nat)) : Combined :=
  let fmt := hqFmt d
  let tab : Tab Int := rs.foldl (fun t p => tput t p.1 p.2) []
  let at' := fun (p : Nat) => tab.find? (fun q => decide (q.1 = p))
  let cell := fun (p : Nat) =>
    let c := match old with | some l => l.getD p 0 | none => 0
    match at' p with
    | some (_, r) =>
      let raw := if old.isSome then sbExpand fmt c + r else r
      let v := sat127 raw
      (sbCompress fmt v, b2n (decide (raw ≠ v)), v)
    | none => (c, 0, if cbSkip (hqRm d) (hqZk d) (hqF d) p && decide (hqRm d < 2) then 127 else sbExpand fmt c)
  let l := (List.range (hqNcb d)).map cell
  ⟨l.map (fun x => x.1), (l.map (fun x => x.2.1)).sum, l.map (fun x => x.2.2)⟩

/-- Highest position holding a nonzero code. -/
def highPos (cs : List Nat) : Nat := ((List.range cs.length).filter (fun p => decide (cs.getD p 0 ≠ 0))).getLastD 0

/-- Does the job feed a decoder? -/
def hqChains (d : List Byte) : Bool := !hqFlag d 3 && decide (hqDec d ≠ 0xFF)

/-- Read the words of an area that the job needs, the rest as they stand; and go on with the whole area. -/
def readArea (e : Nat) (d : List Byte) (a : Nat) (words : List Nat) (s : State) (k : List Byte → State → JobRes) : JobRes :=
  let n := sbBytes (hqNcb d) (hqFmt d)
  if hqChains d ∨ a / 2 ^ 44 ≠ plUnit s then eGet e a n s k
  else
    let ws := words.mergeSort (fun x y => decide (x ≤ y))
    eGetAll e (ws.map (fun w => (a + 16 * w, 16))) s (fun ls s =>
      let seen := s.bytes (a % 2 ^ 44) n
      k ((List.range (n / 16)).flatMap (fun w => match (ws.zip ls).find? (fun p => decide (p.1 = w)) with
        | some (_, l) => l
        | none => sub seen (16 * w) 16)) s)

/-- Entries `i`, `i + 1`, ... of UL_COMBINE, `ofs` LLRs into the input; `skip` blocks have been skipped and `todo`
gathers what the decoder is to receive. -/
def ulEntries (e : Nat) (d l : List Byte) : Nat → Nat → Nat → Nat → List ChainOut → State → (Nat → List ChainOut → State → JobRes) → JobRes
  | 0, _, _, skip, todo, s, k => k skip todo s
  | n + 1, i, ofs, skip, todo, s, k =>
    flushRec e s (fun s =>
      let a := recAddr d l i
      let len := hqE l i
      let r := gOr s (eEp e) a 0x8000
      if r.1 ≠ rspOk then jobFail r.2.2 r.1
      else
        let old := r.2.1
        if recBusy old then ulEntries e d l n (i + 1) (ofs + len) (skip + 1) (todo ++ [⟨[], 0, true⟩]) (r.2.2.cnt (eA e 0x38) 1) k
        else
          let again := !hqNew l i && (decide (recFmt old = 0 ∨ recFmt old = 3 ∨ recFmt old ≠ hqFmt d ∨ recNcb old ≠ hqNcb d)
            || (hqFlag d 2 && decide (recTag old ≠ hqTag d)))
          let new := hqNew l i || again
          let s1 := if again then r.2.2.cnt (eA e 0x34) 1 else r.2.2
          eGet e (le d 24 8 + ofs) len s1 (fun inp s =>
            let rs := hqRecv d (hqRv l i) (hqLlrs d ofs inp)
            let words := hqWords (hqFmt d) rs
            let sb := hqSb l i
            let finish := fun (old' : Option (List Nat)) (s : State) =>
              let c := combine d rs old'
              let area := sbArea (hqFmt d) c.codes
              let ws := if new then [(sb, area)] else words.map (fun w => (sb + 16 * w, sub area (16 * w) 16))
              ePutAll e ws (s.cnt (eA e 0x10) c.sat) (fun s =>
                let v := recAfter d new old (hqRv l i) (highPos c.codes)
                let s2 := modRun (s.modEng e (fun x => { x with recs := [a % 2 ^ 44] })) e (fun r => { r with recW := some (a, v) })
                let out : ChainOut := ⟨c.soft.map (fun x => BitVec.ofNat 8 (uns 8 x)), highPos c.codes, false⟩
                ulEntries e d l n (i + 1) (ofs + len) skip (todo ++ [out]) s2 k)
            if new then finish none s
            else readArea e d sb words s (fun ar s => finish (some (sbCodes (hqFmt d) (hqNcb d) ar)) s)))

/-! ## DL_RATEMATCH (R201) -/

/-- Bits of a coded block as the encoder delivers it, and the bit at position `p` of its circular buffer. -/
def codedBits (d : List Byte) : Nat := if hqRm d < 2 then bgN (hqRm d + 1) (hqZk d) else 3 * (hqZk d + 4)
def codedAt (d : List Byte) (x : List Byte) (p : Nat) : Bool :=
  if hqRm d < 2 then bitAt x p
  else match turboPos (hqZk d) p with
    | some (st, i) => bitAt x (st * (hqZk d + 4) + i)
    | none => false

/-- The bits that entry `i` contributes, `ofs` bits into the job. -/
def dlBits (d l : List Byte) (i ofs : Nat) (x : List Byte) : List Bool :=
  let order := cbOrder (hqRm d) (hqZk d) (hqF d) (hqNcb d) (hqRv l i)
  let n := hqE l i
  let c := if hqFlag d 0 then scramble (le d 16 4) (le d 20 4 + ofs) n else []
  (List.range n).map (fun j =>
    let k := deInterleave (hqRm d) (hqQm d) n j
    xor (codedAt d x (order.getD (k % order.length) 0)) (c.getD j false))

/-- Bits ahead of entry `i`. -/
def dlOffset (l : List Byte) (i : Nat) : Nat := ((List.range i).map (hqE l)).sum

/-! ## SB_CLEAR (R202) -/

/-- Another job holds this record BUSY. -/
def combining (s : State) (a : Nat) : Bool := s.engines.any (fun p => p.2.recs.contains (a % 2 ^ 44))

/-- Entries `i`, `i + 1`, ... of SB_CLEAR. -/
def clearEntries (e : Nat) (d l : List Byte) : Nat → Nat → Nat → State → (Nat → State → JobRes) → JobRes
  | 0, _, skip, s, k => k skip s
  | n + 1, i, skip, s, k =>
    let a := recAddr d l i
    eGet e a 8 s (fun x s =>
      let v := leNat x
      if recBusy v ∧ !hqFlag d 4 then clearEntries e d l n (i + 1) (skip + 1) (s.cnt (eA e 0x38) 1) k
      else if recBusy v ∧ combining s a then -- the contents become undefined
        let f := freeBytes s (8 + sbBytes (recNcb v) (recFmt v))
        ePutAll e [(a, f.1.take 8), (hqSb l i, f.1.drop 8)] f.2 (clearEntries e d l n (i + 1) skip · k)
      else ePut e a (natLe 8 (recNcb v + recTag v * 2 ^ 48)) s (clearEntries e d l n (i + 1) skip · k))

/-! ## The job (R205-R207) -/

def hqOcc (d l : List Byte) : Nat :=
  match hqOp d with
  | 1 => 32 + ((List.range (hqCount d)).map (fun i => 8 + max (cdiv (hqE l i) 32) (cdiv (hqNcb d) 64))).sum
  | 2 => 32 + ((List.range (hqCount d)).map (fun i => 8 + cdiv (hqE l i) 64)).sum
  | _ => 32 + 2 * hqCount d

/-- The decoder a UL_COMBINE chains to. -/
def hqConsumer (d : List Byte) : Nat := engNum (if hqRm d < 2 then 2 else 5) (hqDec d)

/-- The chained decoder descriptor agrees with the job (R205). -/
def hqChainGood (d c : List Byte) : Bool :=
  tb (le c 1 1) 0 && decide (le c 10 2 = hqCount d ∧ le c 8 2 = hqNcb d ∧ le c 4 2 = hqZk d)
    && decide (hqRm d < 2 → le c 2 1 = hqRm d + 1)

/-- A job posted by a hitch, from its descriptor. -/
def hqJob (e : Nat) (d : List Byte) (s : State) : JobRes :=
  if !hqGood d false then badDesc s
  else
    eGet e (le d 48 8) (hqListBytes d) s (fun l s =>
      if !hqListGood d l then badDesc s
      else
        let n := hqCount d
        let fin := fun (skip : Nat) (s : State) => jobEnd s (if skip = 0 then 0 else 0x80) (min skip 0xFFFF) (hqOcc d l)
        match hqOp d with
        | 1 =>
          let go := ulEntries e d l n 0 0 0 []
          if hqChains d then
            eGet e (le l 0 8) 64 s (fun c s =>
              if hqChainGood d c then
                go s (fun skip todo s => flushRec e s (fun s => fin skip (modRun s e (fun r =>
                  { r with phase := 1, cons := hqConsumer d, cdesc := le l 0 8, todo := todo }))))
              else jobEnd s 0x81 0 0)
          else go s (fun skip _ s => fin skip s)
        | 2 =>
          eGetAll e ((List.range n).map (fun i => (le d 24 8 + i * le d 32 4, cdiv (codedBits d) 8))) s (fun xs s =>
            let b := (List.range n).flatMap (fun i => dlBits d l i (dlOffset l i) (xs.getD i []))
            let p := packFree s b
            ePut e (le d 40 8) p.1 p.2 (fin 0))
        | _ => clearEntries e d l n 0 0 s fin)

end Sys2Proof.Machine
end

