-- ==== Sys2Proof/Machine/Codes.lean ====
section
/-! DEFINITION. Jobs of the LDPC and turbo decoders, the encoders, the polar decoder, the trellis engines and the PRACH
engines (R208-R228). What a decoder or detector concludes from its LLRs or samples, and the parity of codes whose tables
lie in 3GPP, are opaque functions of the operands (log 97); everything written from it follows the spec. -/

namespace Sys2Proof.Machine

/-! ## LDPC and turbo decoders (R208-R212, R219, R220) -/

def dcTurbo (e : Nat) : Bool := engClass e == 5
def dcFlag (d : List Byte) (i : Nat) : Bool := tb (le d 1 1) i
def dcZk (d : List Byte) : Nat := le d 4 2
def dcKp (d : List Byte) : Nat := le d 6 2
def dcNcb (d : List Byte) : Nat := le d 8 2
def dcBlocks (d : List Byte) : Nat := le d 10 2
def dcMax (d : List Byte) : Nat := le d 12 1
def dcMin (d : List Byte) : Nat := le d 13 1
def dcTbs (d : List Byte) : Nat := le d 28 4
def dcCrcLen (d : List Byte) : Nat := if dcFlag d 4 then 16 else 24

/-- The descriptor is accepted (R209, R219). -/
def dcGood (turbo : Bool) (d : List Byte) (chained : Bool) : Bool :=
  let bg := le d 2 1
  let zk := dcZk d
  let nms := le d 3 1
  let rows := le d 14 1
  decide (le d 0 1 = 1 ∧ le d 1 1 < 64) && (dcFlag d 0 == chained) && decide (nms = 0 ∨ (8 ≤ nms ∧ nms ≤ 16))
    && decide (1 ≤ dcBlocks d ∧ dcBlocks d ≤ 1024 ∧ 1 ≤ dcMin d ∧ dcMin d ≤ dcMax d) && decide (leNat (sub d 48 16) = 0)
    && (chained || decide (dcNcb d ≤ le d 24 4)) && decide (1 ≤ dcNcb d)
    && (if turbo then
          decide (bg = 0 ∧ rows = 0 ∧ le d 15 1 = 0 ∧ dcMax d ≤ 16 ∧ dcFlag d 1 = false) && turboK.contains zk
            && decide (dcNcb d ≤ cbFull 2 zk) && decide (lteSegment (dcTbs d + dcCrcLen d) = some (dcBlocks d, zk, dcKp d))
        else
          decide ((bg = 1 ∨ bg = 2) ∧ dcMax d ≤ 32 ∧ 4 ≤ rows ∧ rows ≤ (if bg = 1 then 46 else 42)) && liftOk zk
            && decide (dcKp d ≤ bgK bg zk ∧ dcNcb d ≤ bgN bg zk)
            && (if chained then decide (le d 15 1 = 0) else decide (4 ≤ le d 15 1 ∧ le d 15 1 ≤ rows))
            && decide (nrSegment bg (dcTbs d + dcCrcLen d) = some (dcBlocks d, dcKp d)))

/-- Rows decoded for a block (R208). -/
def dcRows (d : List Byte) (chained : Bool) (high : Nat) : Nat :=
  if chained then min (le d 14 1) (max 4 (high / dcZk d - if le d 2 1 = 1 then 19 else 7)) else le d 15 1

/-- Bits that block `c` contributes (K'; a turbo block's fillers lie in the first). -/
def dcBits (turbo : Bool) (d : List Byte) (c : Nat) : Nat :=
  if turbo then dcZk d - (if c = 0 then dcKp d else 0) else dcKp d

/-- What one block comes to: its bits, iterations, PASS, SKIPPED (R210, R211). -/
def dcBlock (turbo : Bool) (d : List Byte) (c rows : Nat) (l : List Byte) (skip : Bool) : List Bool × Nat × Bool × Bool :=
  let k := dcBits turbo d c
  if skip then (List.replicate k false, 0, false, true)
  else
    let x := l.map (fun b => llr b.toNat)
    let args := [b2n turbo, le d 2 1, le d 3 1, dcZk d, dcKp d, dcNcb d, dcMax d, dcMin d, rows, c, le d 1 1]
    let bits := (List.range k).map (Config.decBit args x)
    let it := if dcFlag d 1 || dcFlag d 2 then dcMin d + Config.decIters args x % (dcMax d - dcMin d + 1) else dcMax d
    let pass := if 1 < dcBlocks d then decide (crc24b bits = 0) else Config.decSyndrome args x
    (bits, it, pass, false)

/-- Nonzero circulants in the decoded rows (R212); 76 in rows 0-3 of BG1, the other counts lie in TS 38.212 (log 97). -/
def dcCirculants (bg rows : Nat) : Nat := if bg = 1 ∧ rows = 4 then 76 else Config.bgWeight bg rows

def dcBlockOcc (turbo : Bool) (d : List Byte) (rows it : Nat) : Nat :=
  if turbo then 32 + it * cdiv (dcZk d) 12 else 40 + it * dcCirculants (le d 2 1) rows * cdiv (dcZk d) 192

/-- Results of the blocks in order: bits, (iterations, PASS, SKIPPED). -/
abbrev DecOut := List (List Bool × Nat × Bool × Bool)

/-- Bits and result record written, counters and SUMMARY (R211). -/
def dcFinish (e : Nat) (d : List Byte) (rs : DecOut) (occ : Nat) (s : State) : JobRes :=
  let many := decide (1 < rs.length)
  let strip := fun (b : List Bool) => if many then b.take (b.length - 24) else b
  let tbBits := rs.flatMap (fun r => strip r.1)
  let out := if dcFlag d 5 then rs.flatMap (fun r => r.1) else tbBits
  let pass := (rs.filter (fun r => r.2.2.1)).length
  let fail := rs.length - pass
  let its := rs.map (fun r => r.2.1)
  let okTb := dcFlag d 3 && tbCrcOk (dcFlag d 4) tbBits
  let record := natLe 2 pass ++ natLe 2 fail ++ natLe 1 (b2n okTb + 2 * b2n (dcFlag d 3)) ++ natLe 1 (its.foldl max 0)
    ++ natLe 2 (min its.sum 65535) ++ natLe 8 0
    ++ rs.map (fun r => BitVec.ofNat 8 (r.2.1 % 64 + 64 * b2n r.2.2.1 + 128 * b2n r.2.2.2))
  let p := packFree s out
  ePutAll e [(le d 32 8, p.1), (le d 40 8, record)] ((p.2.cnt (eA e 0x34) its.sum).cnt (eA e 0x38) fail) (fun s =>
    jobOk s (min fail 2047 + b2n okTb * 2 ^ 15) occ)

/-- An unchained decoder job. -/
def dcJob (e : Nat) (d : List Byte) (s : State) : JobRes :=
  let turbo := dcTurbo e
  if !dcGood turbo d false then badDesc s
  else
    eGetAll e ((List.range (dcBlocks d)).map (fun c => (le d 16 8 + c * le d 24 4, dcNcb d))) s (fun ls s =>
      let rows := dcRows d false 0
      let rs := (List.range ls.length).map (fun c => dcBlock turbo d c rows (ls.getD c []) false)
      dcFinish e d rs (64 + (rs.map (fun r => dcBlockOcc turbo d rows r.2.1)).sum) s)

/-! ## Encoders (R213-R215) -/

def enOp (d : List Byte) : Nat := le d 0 1
def enFlag (d : List Byte) (i : Nat) : Bool := tb (le d 1 1) i
def enZk (d : List Byte) : Nat := le d 4 2
def enBlocks (d : List Byte) : Nat := le d 12 2
/-- Transport-block bits with the CRC that the engine appends. -/
def enTotal (d : List Byte) : Nat := le d 8 4 + (if enFlag d 0 then (if enFlag d 1 then 16 else 24) else 0)

/-- Lifting size that the standard's segmentation selects for K' = `kp` of a block of `b` bits (TS 38.212 clause 5.2.2). -/
def nrLift (bg b kp : Nat) : Option Nat :=
  let kb := if bg = 1 then 22 else if 640 < b then 10 else if 560 < b then 9 else if 192 < b then 8 else 6
  (List.range 385).find? (fun z => liftOk z && decide (kp ≤ kb * z))

/-- The descriptor is accepted (R214). -/
def enGood (d : List Byte) : Bool :=
  let op := enOp d
  let bg := le d 2 1
  let b := enTotal d
  decide (1 ≤ op ∧ op ≤ 3 ∧ le d 1 1 < 16 ∧ le d 3 1 = 0 ∧ le d 15 1 = 0 ∧ le d 36 4 = 0 ∧ leNat (sub d 52 12) = 0)
    && (if enFlag d 2 then decide (op ≠ 3 ∧ le d 14 1 < 16) else decide (le d 14 1 = 0xFF))
    && (match op with
      | 1 => decide (bg = 1 ∨ bg = 2) && decide (nrSegment bg b = some (enBlocks d, le d 6 2)) && decide (nrLift bg b (le d 6 2) = some (enZk d))
      | 2 => decide (bg = 0) && decide (lteSegment b = some (enBlocks d, enZk d, le d 6 2))
      | _ => decide (bg = 0 ∧ enZk d = 0 ∧ le d 8 4 = 0 ∧ enBlocks d = 1 ∧ 1 ≤ le d 6 2 ∧ le d 6 2 ≤ 140 ∧ 1 ≤ le d 48 2 ∧ le d 48 2 ≤ 8192))

/-- Bits of code block `c`, its CRC24B included where the transport block has several, fillers left out. -/
def enBlock (d : List Byte) (tb : List Bool) (c : Nat) : List Bool :=
  let n := enBlocks d
  let size := fun (i : Nat) => (if enOp d = 1 then le d 6 2 else enZk d - (if i = 0 then le d 6 2 else 0)) - (if 1 < n then 24 else 0)
  let x := (tb.drop ((List.range c).map size).sum).take (size c)
  if 1 < n then x ++ natBits 24 (crc24b x) else x

/-- Coded bits of a block: systematic bits as they are, fillers 0, the others open (log 97). -/
def enCoded (d : List Byte) (c : Nat) (x : List Bool) : List Bool :=
  let bg := le d 2 1
  let zk := enZk d
  if enOp d = 1 then
    let k := bgK bg zk
    (List.range (bgN bg zk)).map (fun p => if p + 2 * zk < k then x.getD (p + 2 * zk) false else Config.encBit [1, bg, zk] x p)
  else
    let f := if c = 0 then le d 6 2 else 0
    let y := List.replicate f false ++ x
    (List.range (3 * (zk + 4))).map (fun p => if p < zk then y.getD p false else Config.encBit [2, zk, f] y p)

/-- Polar block length (TS 38.212 clause 5.3.1) for `k` bits with CRC, `e` coded bits and `nmax`. -/
def polarN (k e nmax : Nat) : Nat :=
  let up := (List.range 20).find? (fun n => decide (e ≤ 2 ^ n))
  let ce := up.getD 0
  let n1 := if 8 * e ≤ 9 * 2 ^ (ce - 1) ∧ 16 * k < 9 * e then ce - 1 else ce
  let n2 := ((List.range 20).find? (fun n => decide (8 * k ≤ 2 ^ n))).getD 0
  max (min n1 (min n2 nmax)) 5

/-- An encoder job. -/
def enJob (e : Nat) (d : List Byte) (s : State) : JobRes :=
  if !enGood d then badDesc s
  else if enOp d = 3 then
    let a := le d 6 2
    eGet e (le d 16 8) (cdiv a 8) s (fun l s =>
      let bits := (List.range (le d 48 2)).map (Config.encBit [3, le d 1 1, le d 48 2, le d 50 2] (bitUnpack l a))
      let p := packFree s bits
      ePut e (le d 24 8) p.1 p.2 (fun s => jobOk s 0 (32 + (32 + 2 ^ polarN (a + 24) (le d 48 2) 9 / 4))))
  else
    let n := enBlocks d
    let k := if enOp d = 1 then bgK (le d 2 1) (enZk d) else enZk d
    let occ := 32 + n * (16 + cdiv k (if enOp d = 1 then 21 else 8))
    let go := fun (s : State) => eGet e (le d 16 8) (cdiv (le d 8 4) 8) s (fun l s =>
      let pay := bitUnpack l (le d 8 4)
      let tb := if enFlag d 0 then pay ++ tbCrc (enFlag d 1) pay else pay
      let cs := (List.range n).map (fun c => enCoded d c (enBlock d tb c))
      let q := cs.foldl (fun (q : List (List Byte) × State) b => let p := packFree q.2 b; (q.1 ++ [p.1], p.2)) ([], s)
      if enFlag d 2 then
        jobOk (modRun q.2 e (fun r => { r with phase := 1, cons := engNum 7 (le d 14 1), cdesc := le d 40 8,
                                               todo := q.1.map (fun x => ⟨x, 0, false⟩) })) 0 occ
      else ePutAll e ((List.range n).map (fun i => (le d 24 8 + i * le d 32 4, q.1.getD i []))) q.2 (fun s => jobOk s 0 occ))
    if enFlag d 2 then
      eGet e (le d 40 8) 64 s (fun c s =>
        if hqOp c = 2 ∧ hqFlag c 1 = true ∧ hqCount c = n then go s else jobEnd s 0x81 0 0)
    else go s

/-! ## Polar decoder (R216-R218) -/

def plrGood (d : List Byte) : Bool :=
  let op := le d 0 1
  let a := le d 4 2
  decide (1 ≤ op ∧ op ≤ 3 ∧ le d 1 1 = 0 ∧ le d 3 1 = 0) && [1, 2, 4, 8].contains (le d 2 1)
    && decide (1 ≤ le d 6 2 ∧ le d 6 2 ≤ 16384) && decide (leNat (sub d 10 6) = 0 ∧ leNat (sub d 40 24) = 0)
    && (match op with
      | 1 => decide (12 ≤ a ∧ a ≤ 1706)
      | 2 => decide (12 ≤ a ∧ a ≤ 140)
      | _ => decide (a = 32))

/-- Two segments, where TS 38.212 clause 6.3.1 calls for them. -/
def plrTwo (d : List Byte) : Bool :=
  decide (le d 0 1 = 1) && (decide (1013 ≤ le d 4 2) || decide (360 ≤ le d 4 2 ∧ 1088 ≤ le d 6 2))

/-- A polar decoder job: payload, CRCs, rank and metric are open. -/
def plrJob (e : Nat) (d : List Byte) (s : State) : JobRes :=
  if !plrGood d then badDesc s
  else
    let a := le d 4 2
    let ee := le d 6 2
    eGet e (le d 16 8) ee s (fun l s =>
      let x := l.map (fun b => llr b.toNat)
      let args := (sub d 0 10).map BitVec.toNat
      let two := plrTwo d
      let c0 := Config.polarCrc args x 0
      let c1 := if two then Config.polarCrc args x 1 else true
      let res := b2n c0 + 2 * b2n c1 + Config.polarRank args x % 8 * 4 + Config.polarMetric args x % 2 ^ 16 * 2 ^ 16
      let p := packFree s ((List.range a).map (Config.decBit args x))
      let crc := if le d 0 1 ≠ 1 then 24 else if a < 20 then 6 else 11
      let n := polarN ((if two then cdiv a 2 else a) + crc) (if two then ee / 2 else ee) (if le d 0 1 = 1 then 10 else 9)
      let occ := 32 + (if two then 2 else 1) * (48 + cdiv (2 ^ n * n * le d 2 1) 64)
      ePutAll e [(le d 24 8, p.1), (le d 32 8, natLe 8 res)] (p.2.cnt (eA e 0x34) (b2n (!c0) + b2n (!c1))) (fun s =>
        jobOk s (res % 4) occ))

/-! ## Trellis engines (R221, R222) -/

def trTail (d : List Byte) : Nat := le d 1 1 % 4
def trRec (d : List Byte) : Bool := tb (le d 1 1) 2
def trCl (d : List Byte) : Nat := le d 2 1
def trN (d : List Byte) : Nat := le d 3 1
def trK (d : List Byte) : Nat := le d 20 4
def trSteps (d : List Byte) : Nat := trK d + (if trTail d = 0 then trCl d - 1 else 0)

def trGood (d : List Byte) : Bool :=
  decide ((le d 0 1 = 1 ∨ le d 0 1 = 2) ∧ le d 1 1 < 8 ∧ trTail d < 3 ∧ 3 ≤ trCl d ∧ trCl d ≤ 9 ∧ 2 ≤ trN d ∧ trN d ≤ 6)
    && (List.range (trN d)).all (fun i => decide (le d (4 + 2 * i) 2 < 2 ^ trCl d)) && (!trRec d || decide (le d 16 2 < 2 ^ trCl d))
    && decide (1 ≤ le d 18 1 ∧ le d 18 1 ≤ 4 ∨ trTail d ≠ 1) && decide (le d 19 1 = 0 ∧ 1 ≤ trK d ∧ trK d ≤ 65535)
    && decide (leNat (sub d 40 24) = 0)

/-- Parity of the masked bits. -/
def parity (v : Nat) : Bool := popcount 16 v % 2 == 1

/-- One step of the encoder: the register, current input in bit 0, and the coded bits. A recursive code's input is
the data bit with the feedback of the earlier ones. -/
def trStep (d : List Byte) (st : Nat) (u : Bool) : Nat × List Bool :=
  let past := st * 2 % 2 ^ trCl d
  let inp := if trRec d then xor u (parity (past &&& le d 16 2)) else u
  let v := past + b2n inp
  (v % 2 ^ (trCl d - 1), (List.range (trN d)).map (fun i => parity (v &&& le d (4 + 2 * i) 2)))

def trRun (d : List Byte) : List Bool → Nat → List Bool
  | [], _ => []
  | u :: t, st => let r := trStep d st u; r.2 ++ trRun d t r.1

/-- Tail steps that return a register to zero: a recursive code's cancels its feedback. -/
def trTailRun (d : List Byte) : Nat → Nat → List Bool
  | 0, _ => []
  | n + 1, st =>
    let u := trRec d && parity (st * 2 % 2 ^ trCl d &&& le d 16 2)
    let r := trStep d st u
    r.2 ++ trTailRun d n r.1

/-- The register after bits `b`. -/
def trAfter (d : List Byte) (b : List Bool) (st : Nat) : Nat := b.foldl (fun st u => (trStep d st u).1) st

/-- Coded bits of a convolutional encoding; a recursive tail-biting code starts in a state that it returns to, which is
open where several or none do (log 97). -/
def trEncode (d : List Byte) (b : List Bool) : List Bool :=
  match trTail d with
  | 0 => trRun d b 0 ++ trTailRun d (trCl d - 1) (trAfter d b 0)
  | 1 =>
    let start := if trRec d then Config.trellisStart (d.map BitVec.toNat) b % 2 ^ (trCl d - 1)
      else trAfter d ((List.range (trCl d - 1)).map (fun i =>
        let k := b.length
        b.getD ((k * trCl d + i - (trCl d - 1)) % k) false)) 0
    trRun d b start
  | _ => trRun d b 0

/-- A trellis job: a decoder's path is open, an encoding is exact. -/
def trJob (e : Nat) (d : List Byte) (s : State) : JobRes :=
  if !trGood d then badDesc s
  else
    let n := trSteps d
    if le d 0 1 = 2 then
      eGet e (le d 24 8) (cdiv (trK d) 8) s (fun l s =>
        let p := packFree s (trEncode d (bitUnpack l (trK d)))
        let f := p.2.draw -- R221 gives SUMMARY for a decoding only
        ePut e (le d 32 8) p.1 f.2 (fun s => jobOk s (f.1 % 16) (32 + cdiv (n * trN d) 64)))
    else
      eGet e (le d 24 8) (n * trN d) s (fun l s =>
        let x := l.map (fun b => llr b.toNat)
        let args := d.map BitVec.toNat
        let p := packFree s ((List.range (trK d)).map (Config.decBit args x))
        let bite := decide (trTail d = 1)
        let passes := if bite then 1 + Config.decIters args x % le d 18 1 else 1
        let conv := if bite then decide (passes < le d 18 1) || Config.decSyndrome args x else true
        ePut e (le d 32 8) p.1 p.2 (fun s =>
          jobOk s (b2n conv + 2 * passes) (32 + passes * n * cdiv (2 ^ (trCl d - 1)) 64)))

/-! ## PRACH engines (R223-R228) -/

def prGood (d : List Byte) : Bool :=
  let op := le d 0 1
  let fm := le d 1 1
  let pre := le d 9 1
  decide (1 ≤ op ∧ op ≤ 4)
    && (match op with
      | 1 => decide (fm ≤ 3)
      | 2 => [0x11, 0x12, 0x13, 0x21, 0x22, 0x23, 0x24, 0x30, 0x32].contains fm
      | 3 => decide (fm ≤ 4)
      | _ => decide (fm ≤ 2))
    && decide (le d 2 1 ≤ if op = 2 then 3 else 0) && decide (1 ≤ le d 3 1 ∧ le d 3 1 ≤ 64) && decide (le d 8 1 ≤ 2)
    && decide (1 ≤ pre ∧ pre ≤ if op = 4 then 48 else 64) && decide (1 ≤ le d 10 1 ∧ le d 10 1 ≤ 128 ∧ le d 11 1 ≤ 6)
    && decide (1 ≤ le d 14 2 ∧ le d 14 2 ≤ 1024) && decide (le d 18 2 / 2 ^ 12 % 8 = 0) && decide (le d 32 4 % 4 = 0)
    && decide (le d 43 5 = 0 ∧ le d 56 8 = 0)

/-- One detection: preamble, SECOND, metric, delay, power, frequency offset. -/
abbrev PrDet := Nat × Bool × Nat × Nat × Nat × Nat

/-- Detections by ascending preamble, first peak before second. -/
def prSort (l : List PrDet) : List PrDet := l.mergeSort (fun a b => decide (2 * a.1 + b2n a.2.1 ≤ 2 * b.1 + b2n b.2.1))

/-- The bytes of a detection. -/
def prDetBytes (d : List Byte) (x : PrDet) : List Byte :=
  natLe 1 x.1 ++ natLe 1 (b2n x.2.1) ++ natLe 2 x.2.2.1 ++ natLe 4 (x.2.2.2.1 % 2 ^ 24) ++ natLe 2 x.2.2.2.2.1
    ++ natLe 2 (if le d 8 1 = 0 then 0 else x.2.2.2.2.2) ++ natLe 4 0

/-- Components at full scale. -/
def fullScale (l : List Byte) : Nat :=
  ((unCi16 l).map (fun p => b2n (decide (p.1 = -32768 ∨ p.1 = 32767)) + b2n (decide (p.2 = -32768 ∨ p.2 = 32767)))).sum

/-- A PRACH job: what passes the threshold is open, the report is the spec's. -/
def prJob (e : Nat) (d : List Byte) (s : State) : JobRes :=
  if !prGood d then badDesc s
  else
    let na := le d 3 1
    let rep := le d 10 1
    eGetAll e ((List.range (na * rep)).map (fun i => (le d 24 8 + i * le d 32 4, 4 * le d 20 4))) s (fun ls s =>
      let args := d.map BitVec.toNat
      let sm := ls.map (fun l => l.map BitVec.toNat)
      let all := (Config.prachDetect args sm).filter (fun x => decide (x.1 < le d 9 1 ∧ le d 12 2 ≤ x.2.2.1 ∧ x.2.2.1 < 2 ^ 16))
      let best := (all.mergeSort (fun a b => decide (b.2.2.1 ≤ a.2.2.1))).take 64
      let n := best.length
      let ovf := decide (64 < all.length)
      let noise := if le d 16 2 = 0x8000 then (Config.prachNoise args sm).toNat else le d 16 2
      let head := sub d 36 4 ++ sub d 40 2 ++ sub d 42 1 ++ natLe 1 n ++ natLe 1 (b2n ovf) ++ natLe 1 0 ++ natLe 2 noise
        ++ List.replicate 20 0
      let s1 := (s.cnt (eA e 0x10) (ls.map fullScale).sum).cnt (eA e 0x34) n
      let s2 := if ovf then s1.cnt (eA e 0x38) 1 else s1
      let roots := Config.prachRoots args
      let idft := match le d 0 1 with
        | 2 => 256
        | 4 => 64
        | _ => 1024
      let occ := 64 + na * rep * (cdiv (le d 20 4) 16 + roots * cdiv (if le d 0 1 = 3 ∧ le d 1 1 = 4 then 256 else idft) 16) + 32 * le d 9 1
      ePut e (le d 48 8) (head ++ (prSort best).flatMap (prDetBytes d)) s2 (fun s =>
        let word := le d 48 8 % 2 ^ 44 + n * 2 ^ 44 + le d 42 1 * 2 ^ 52 + b2n ovf * 2 ^ 60
        jobOk (if tb (le d 18 2) 15 then modRun s e (fun r => { r with post := some (le d 18 2 % 2 ^ 12, word) }) else s)
          (n + 128 * b2n ovf) occ))

end Sys2Proof.Machine
end

