-- ==== Sys2Proof/Machine/Burst.lean ====
section
/-! DEFINITION. Jobs of the narrowband burst engines (R255-R265). What the search lanes and the equaliser make of a
channel's samples is open (log 90); positions, gaps, the ring, the reports' form and the counters are the spec's. -/

namespace Sys2Proof.Machine

def nbDflt : Nat → NbChan := fun _ => NbChan.reset
def State.nb (s : State) (i c : Nat) : NbChan := tget nbDflt s.nbch (96 * i + c)
def State.setNb (s : State) (i c : Nat) (x : NbChan) : State := { s with nbch := tset nbDflt s.nbch (96 * i + c) x }

/-- Register `o` of burst engine `i`, and a channel's enable and fault bits. -/
def nbA (i o : Nat) : Nat := engBase 10 i + o
def nbEnabled (s : State) (i c : Nat) : Bool := s.rb (nbA i (0x2C + c / 32 * 4)) (c % 32)

/-- The descriptor is accepted (R258). -/
def nbGood (d : List Byte) : Bool :=
  decide (le d 0 1 = 1 ∧ le d 1 1 = 0 ∧ 1 ≤ le d 3 1 ∧ le d 2 1 + le d 3 1 ≤ 96 ∧ 1 ≤ le d 4 4 ∧ le d 4 4 ≤ 16384
    ∧ le d 12 2 ≤ 2499 ∧ le d 14 2 = 0 ∧ le d 24 4 % 4 = 0 ∧ leNat (sub d 28 36) = 0)

/-! ## Positions (R258) -/

/-- Units of 1/96 symbol in a GSM hyperframe; a sample at 400 kS/s is 65 of them. -/
def gsmHyper : Nat := 2715648 * 8 * 2500 * 6

/-- Position of the job's sample 0. -/
def nbPos (mode : Nat) (d : List Byte) : Nat :=
  let a := le d 8 4
  if mode = 3 then a * 4096 + le d 12 2
  else ((a / 2 ^ 10 * 8 + a / 2 ^ 7 % 8) * 2500 + le d 12 2) * 6 % gsmHyper

/-- The position that a channel predicts behind `n` samples from `p`. -/
def nbNext (mode n p : Nat) : Nat := if mode = 3 then p * 2 ^ 15 + n else (p + 65 * n) % gsmHyper

/-- The job's position differs from the predicted one by more than half a sample; how NB-IoT slots and samples relate
is open (log 90). -/
def nbGap (mode p q : Nat) : Bool :=
  if mode = 3 then Config.nbGap3 p q
  else let x := (q + gsmHyper - p) % gsmHyper; decide (65 < 2 * min x (gsmHyper - x))

/-! ## Reports (R262, R263) -/

/-- LLRs of an OK report. -/
def nbLlrs (mode : Nat) (psk : Bool) (slot : Nat) : Nat :=
  match mode with
  | 1 => if psk then 348 else 116
  | 2 => 36
  | _ => slot % 353

/-- Bytes of a report: `f k` are the fields that reception decides, `v k` its LLRs. -/
def nbEntry (cfg : List Byte) (ch status : Nat) (f : Nat → Nat) (v : Nat → Int) : List Byte :=
  let mode := le cfg 0 1
  let psk := decide (mode = 1) && tb (le cfg 30 1) 0 && tb (f 1) 1
  let n := if status = 0 then nbLlrs mode psk (f 10) else 0
  let x := natLe 4 (f 0) ++ sub cfg 28 2 ++ natLe 1 ch ++ natLe 1 status ++ natLe 1 (f 1 % 2 + 2 * b2n psk) ++ natLe 1 (f 2)
    ++ natLe 2 (f 3) ++ natLe 2 (f 4) ++ natLe 2 (f 5) ++ natLe 2 (f 6) ++ natLe 2 (f 7) ++ natLe 2 (f 8) ++ natLe 2 n
    ++ natLe 4 (f 9) ++ natLe 4 0 ++ (List.range n).map (fun k => BitVec.ofNat 8 (uns 8 (sat127 (v k))))
  sub x 0 384

/-- What a job has come to: reports written and dropped, and the cycles of its reports. -/
structure NbRun where
  written : Nat
  dropped : Nat
  cost : Nat

/-- Cycles of a report (R264). -/
def nbCost (mode status : Nat) (psk : Bool) : Nat :=
  match status with
  | 0 => (match mode with
    | 1 => if psk then 3000 else 1200
    | 2 => 600
    | _ => 400)
  | 1 => 300
  | 2 => 300
  | _ => 0

/-- Place one report in channel `c`'s ring, or drop it (R263); and go on. -/
def nbReport (e c : Nat) (cfg : List Byte) (status : Nat) (entry : List Byte) (x : NbRun) (s : State) (k : NbRun → State → JobRes) : JobRes :=
  let i := engInst e
  let ch := s.nb i c
  let len := le cfg 24 2
  let s1 := match status with
    | 0 => s.cnt (nbA i 0x44) 1
    | 1 => s.cnt (nbA i 0x48) 1
    | 2 => s.cnt (nbA i 0x4C) 1
    | 3 => s.cnt (nbA i 0x50) 1
    | _ => s
  let x1 := { x with cost := x.cost + nbCost (le cfg 0 1) status (tb (le entry 8 1) 1) }
  if (ch.wr + 1) % len = s.ld (nbRec i c + 0x40) 4 then k { x1 with dropped := x.dropped + 1 } (s1.cnt (nbA i 0x54) 1)
  else
    let a := le cfg 16 8 + 384 * ch.wr
    ePut e a entry s1 (fun s =>
      let s2 := s.setNb i c { s.nb i c with wr := (ch.wr + 1) % len }
      let h := le cfg 26 2
      let s3 := if tb h 15 then
          let r := s2.ni (eEp e) hatEp
          if r.1 = rspOk then (hatchPost r.2 (eEp e) (h % 2 ^ 12) (a % 2 ^ 44 + c * 2 ^ 44)).2 else r.2
        else s2
      k { x1 with written := x.written + 1 } s3)

/-- Several reports in order. -/
def nbReports (e c : Nat) (cfg : List Byte) : List (Nat × List Byte) → NbRun → State → (NbRun → State → JobRes) → JobRes
  | [], x, s, k => k x s
  | (st, l) :: t, x, s, k => nbReport e c cfg st l x s (fun x s => nbReports e c cfg t x s k)

/-- A reception in progress is reported TRUNCATED, and the lanes are cleared; and go on. -/
def nbTruncate (e c : Nat) (cfg : List Byte) (x : NbRun) (s : State) (k : NbRun → State → JobRes) : JobRes :=
  let i := engInst e
  let ch := s.nb i c
  let s1 := s.setNb i c { ch with lanes := 0 }
  if Config.nbBusy ch.lanes then
    nbReport e c cfg 4 (nbEntry cfg c 4 (Config.nbField (cfg.map BitVec.toNat) ch.lanes [] 0) (fun _ => 0)) x s1 k
  else k x s1

/-- What the spec keeps in a channel's record behind its configuration is rewritten; its form is open (R255). -/
def nbStoreState (s : State) (i c : Nat) : State := let f := freeBytes s (0x800 - 0x44); f.2.store (nbRec i c + 0x44) f.1

/-! ## The job boundary (R255, R265) -/

/-- Enables cleared and set since the last job take effect. -/
def nbBoundary (e : Nat) : List Nat → NbRun → State → (NbRun → State → JobRes) → JobRes
  | [], x, s, k => k x s
  | c :: t, x, s, k =>
    let i := engInst e
    if (s.eng e).chClr.contains c then
      nbBoundary e t x ((s.setNb i c NbChan.reset).zero (nbRec i c + 0x44) (0x800 - 0x44)) k
    else if !nbEnabled s i c ∧ s.nb i c ≠ NbChan.reset then
      nbTruncate e c (s.bytes (nbRec i c) 64) x s (fun x s => nbBoundary e t x (s.setNb i c NbChan.reset) k)
    else nbBoundary e t x s k

/-! ## Channels -/

/-- Channels `c`, `c + 1`, ... of a job. -/
def nbChannels (e : Nat) (d : List Byte) : Nat → Nat → NbRun → State → (NbRun → State → JobRes) → JobRes
  | 0, _, x, s, k => k x s
  | n + 1, c, x, s, k =>
    let i := engInst e
    let go := nbChannels e d n (c + 1)
    if !nbEnabled s i c then go x s k
    else
      let r := gRead s (eEp e) (ownGlobal s (nbRec i c)) 64
      if r.1 = rspUe then
        go x ((r.2.2.wb (nbA i (0x2C + c / 32 * 4)) (c % 32) false).wb (nbA i (0x38 + c / 32 * 4)) (c % 32) true) k
      else if r.1 ≠ rspOk then jobFail r.2.2 r.1
      else
        let cfg := r.2.1
        let mode := le cfg 0 1
        if mode = 0 then go x r.2.2 k
        else
          let inp := eRead r.2.2 e (le d 16 8 + (c - le d 2 1) * le d 24 4) (4 * le d 4 4)
          if inp.1 ≠ rspOk then jobFail (inp.2.2.setNb i c { inp.2.2.nb i c with gap := true }) inp.1
          else
            let s1 := inp.2.2.cnt (eA e 0x10) (fullScale inp.2.1)
            let ch := s1.nb i c
            let pos := nbPos mode d
            let gap := ch.gap || (match ch.next with | some p => nbGap mode p pos | none => false)
            let rx := fun (x : NbRun) (s : State) =>
              let ch := s.nb i c
              let args := (cfg ++ d).map BitVec.toNat
              let sm := inp.2.1.map BitVec.toNat
              let m := Config.nbCount args ch.lanes sm
              let reps := (List.range m).map (fun j =>
                let f := Config.nbField args ch.lanes sm j
                let st := f 11 % 4
                (st, nbEntry cfg c st f (Config.nbLlr args ch.lanes sm j)))
              nbReports e c cfg reps x s (fun x s =>
                let y := s.nb i c
                let s2 := s.setNb i c { y with next := some (nbNext mode (le d 4 4) pos), gap := false,
                                               count := (y.count + le d 4 4) % 2 ^ 64, lanes := Config.nbLanes args ch.lanes sm }
                go { x with cost := x.cost + 16 + 2 * le d 4 4 } (nbStoreState s2 i c) k)
            if gap then nbTruncate e c cfg x (s1.cnt (nbA i 0x58) 1) rx else rx x s1

/-- A burst job from its descriptor (R265). -/
def nbJob (e : Nat) (d : List Byte) (s : State) : JobRes :=
  nbBoundary e (List.range 96) ⟨0, 0, 0⟩ s (fun x s0 =>
    let s1 := s0.modEng e (fun y => { y with chClr := [] })
    if !nbGood d then badDesc s1
    else
      nbChannels e d (le d 3 1) (le d 2 1) x s1 (fun x s =>
        jobEnd s (if x.dropped = 0 then 0 else 0x80) (min x.written 0xFFFF) (64 + x.cost)))

end Sys2Proof.Machine
end

