-- ==== Sys2Proof/Machine/Fft.lean ====
section
/-! DEFINITION. Jobs of the FFT engines (R168-R177, R188): descriptor, mapping, window, formats and context. The
transform's own arithmetic, whose rounding inside the butterflies the spec does not fix (R167), is an opaque function
of its input (log 95). -/

namespace Sys2Proof.Machine

/-- A component pair with its exponent: (re + j im) * 2^e. -/
abbrev Samp := Int × Int × Int

def sampZero : Samp := (0, 0, 0)
def Samp.isZero (x : Samp) : Bool := decide (x.1 = 0 ∧ x.2.1 = 0)
def Samp.val (x : Samp) : CVal := ⟨x.1, x.2.1, x.2.2, 1⟩

/-! ## The descriptor (R174, R175) -/

def fOp (d : List Byte) : Nat := le d 0 1
def fN (d : List Byte) : Nat := le d 4 2
def fCp (d : List Byte) : Nat := le d 6 2
def fStreams (d : List Byte) : Nat := le d 3 1
def fK0 (d : List Byte) : Int := sgn 16 (le d 12 2)
def fSc (d : List Byte) : Nat := le d 14 2
def fWin (d : List Byte) : Bool := tb (le d 1 1) 2
def fBlockIn (d : List Byte) : Bool := tb (le d 2 1) 0
def fBlockOut (d : List Byte) : Bool := tb (le d 2 1) 4

/-- Time samples per stream T, and elements per stream in and out (R168). -/
def fT (d : List Byte) : Nat := if fOp d ≤ 2 then fN d + fCp d else fN d
def fIn (d : List Byte) : Nat := match fOp d with | 1 => fT d | 2 => fSc d | _ => fN d
def fOut (d : List Byte) : Nat := match fOp d with | 1 => fSc d | 2 => fT d | _ => fN d

/-- N = 2^a * 3^b * 5^c within R169's limits. -/
def fftSize (n : Nat) : Bool :=
  decide (128 ≤ n ∧ n ≤ 49152) && (List.range 7).any (fun b => (List.range 4).any (fun c => (List.range 16).any (fun a =>
    decide (2 ≤ a ∧ n = 2 ^ a * 3 ^ b * 5 ^ c))))

/-- A BLOCK operand of `n` streams keeps R174's stride and alignment. -/
def blockLay (n len a stride : Nat) : Bool :=
  decide (a % 512 = 0) && (decide (n = 1) || decide (stride % 512 = 0 ∧ 512 * cdiv len 128 ≤ stride))

/-- The descriptor is accepted (R175); a chained one's input lies in a half. -/
def fftGood (d : List Byte) (ctx chained : Bool) : Bool :=
  let op := fOp d
  let fl := le d 1 1
  let fm := le d 2 1
  let n := fN d
  let half : Int := (n / 2 : Nat)
  let dft := decide (3 ≤ op)
  let lenO := fOut d
  decide (1 ≤ op ∧ op ≤ 4 ∧ fl < 16) && decide (fm / 2 % 8 = 0 ∧ fm / 32 = 0)
    && decide (1 ≤ fStreams d ∧ fStreams d ≤ 16) && fftSize n
    && decide (fCp d ≤ n / 4 ∧ (dft = true → fCp d = 0)) && decide (le d 8 2 ≤ if op = 1 then fCp d else 0)
    && (if fWin d then decide (op = 2 ∧ ctx = true ∧ 1 ≤ le d 10 2 ∧ le d 10 2 ≤ min 255 (fCp d)) else decide (le d 10 2 = 0 ∧ ctx = false))
    && decide (-half ≤ fK0 d ∧ fK0 d ≤ half - 1) && decide (1 ≤ fSc d ∧ fSc d ≤ if tb fl 3 then n - 1 else n)
    && (!dft || decide (fK0 d = 0 ∧ fSc d = n ∧ tb fl 3 = false)) && (tb fl 0 == fBlockOut d)
    && decide (tb fl 0 = true → le d 21 1 = 0) && decide (le d 22 2 = 0 ∧ le d 44 4 % 4 = 0)
    && (chained || (decide (le d 40 4 % 4 = 0) && (if fBlockIn d then blockLay (fStreams d) (fIn d) (le d 24 8) (le d 40 4)
        else decide (le d 48 8 = 0))))
    && (if fBlockOut d then blockLay (fStreams d) lenO (le d 32 8) (le d 44 4) else decide (le d 56 8 = 0))
    && (decide (fStreams d = 1) || decide ((if fBlockOut d then 512 * cdiv lenO 128 else 4 * lenO) ≤ le d 44 4))

/-! ## Input -/

/-- Areas of the input: each stream's elements, then its exponents. A chained job's lie in `half` (R187). -/
def fftAreas (s : State) (d : List Byte) (half : Option Nat) : List (Nat × Nat) :=
  let n := fIn d
  let nb := cdiv n 128
  (List.range (fStreams d)).flatMap (fun i =>
    match half with
    | some h => [(ownGlobal s (h + i * (512 * nb)), 4 * n), (ownGlobal s (h + 0x1F000 + i * nb), nb)]
    | none => (le d 24 8 + i * le d 40 4, 4 * n) :: (if fBlockIn d then [(le d 48 8 + i * nb, nb)] else [(0, 0)]))

/-- The samples of one stream from its elements and exponents. -/
def fftStream (d : List Byte) (el ex : List Byte) : List Samp :=
  let l := unCi16 el
  (List.range l.length).map (fun i =>
    let p := l.getD i (0, 0)
    (p.1, p.2, if fBlockIn d then sgn 8 (le ex (i / 128) 1) else sgn 8 (le d 20 1)))

/-- The streams of the areas read. -/
def fftStreams (d : List Byte) : List (List Byte) → List (List Samp)
  | a :: b :: t => fftStream d a b :: fftStreams d t
  | _ => []

/-! ## The transform (R168, R170-R173) -/

/-- Bin of element `i` (R170). -/
def fftBin (d : List Byte) (i : Nat) : Nat :=
  let x : Int := fK0 d + i
  ((if tb (le d 1 1) 3 ∧ 0 ≤ x then x + 1 else x) % (fN d : Int)).toNat

/-- Element of bin `b`, if one maps to it. -/
def fftElem (d : List Byte) (b : Nat) : Option Nat :=
  let try' := fun (k : Nat) => let i := ((b : Int) - k - fK0 d) % (fN d : Int); i.toNat
  let i0 := try' 0
  let i1 := try' 1
  if i0 < fSc d ∧ fftBin d i0 = b then some i0 else if i1 < fSc d ∧ fftBin d i1 = b then some i1 else none

/-- Element `k` of the transform of `x`, rotated as PHASE says (R168, R172): zero for an all-zero stream, else open
(log 95). -/
def fftCore (d : List Byte) (x : List Samp) (k : Nat) : Samp :=
  if x.all Samp.isZero then sampZero
  else Config.fftValue (fOp d) (if tb (le d 1 1) 1 then 1 + le d 16 4 else 0) x k

/-- The output of a stream before conversion, without windowing (R170, R171). -/
def fftPlain (d : List Byte) (x : List Samp) : List Samp :=
  let n := fN d
  match fOp d with
  | 1 =>
    let w := (x.drop (fCp d - le d 8 2)).take n
    (List.range (fSc d)).map (fun i => fftCore d w (fftBin d i))
  | 2 =>
    let spec := (List.range n).map (fun b => match fftElem d b with | some i => x.getD i sampZero | none => sampZero)
    (List.range (fT d)).map (fun i => fftCore d spec ((i + n - fCp d) % n))
  | _ => (List.range n).map (fun k => fftCore d x k)

/-- The tail a context holds for stream `i`: its length and sample `j` (R173, R176). -/
def tailLen (im : List Byte) (i : Nat) : Nat := le im (4 * i) 1
def tailAt (im : List Byte) (i j : Nat) : Int × Int := (sgn 16 (le im (0x40 + 1020 * i + 4 * j) 2), sgn 16 (le im (0x42 + 1020 * i + 4 * j) 2))

/-- Windowing with overlap-add on stream `i` (R173): the ramp's products are open in their last places (log 95). -/
def fftWindow (d : List Byte) (im : List Byte) (i : Nat) (y : List Samp) : List Samp :=
  let w := le d 10 2
  (List.range y.length).map (fun j =>
    let v := y.getD j sampZero
    if j < w then
      let t := if j < tailLen im i then tailAt im i j else (0, 0)
      Config.winHead w j v (t.1, t.2, sgn 8 (le d 21 1))
    else v)

/-- The new tail of a stream: `w` samples, each the continuation behind the symbol times 1 - w (R173). -/
def fftTail (d : List Byte) (y : List Samp) : List Byte :=
  let w := le d 10 2
  let z := fun (j : Nat) => y.getD (fCp d + j) sampZero
  (List.range w).flatMap (fun j => let t := Config.winTail w j (z j) (sgn 8 (le d 21 1)); natLe 2 t.1.toNat ++ natLe 2 t.2.toNat)

/-- A context image with stream `i`'s tail replaced. -/
def putTail (im : List Byte) (i w : Nat) (t : List Byte) : List Byte :=
  let put := fun (l : List Byte) (o : Nat) (x : List Byte) => sub l 0 o ++ x ++ l.drop (o + x.length)
  put (put im (4 * i) (natLe 4 w)) (0x40 + 1020 * i) t

/-! ## Output (R166, R174) -/

/-- Blocks of 128 elements, the last one padded with zeros. -/
def inBlocks (l : List Samp) : List (List CVal) :=
  (List.range (cdiv l.length 128)).map (fun b =>
    let x := ((l.drop (128 * b)).take 128).map Samp.val
    x ++ List.replicate (128 - x.length) CVal.zero)

/-- Writes of stream `i` and the components it saturates. -/
def fftWrites (d : List Byte) (i : Nat) (l : List Samp) : List (Nat × List Byte) × Nat :=
  let a := le d 32 8 + i * le d 44 4
  if fBlockOut d then
    let bs := (inBlocks l).map blockOut
    ([(a, bs.flatMap (fun b => b.1.flatMap ci16)), (le d 56 8 + i * cdiv l.length 128, bs.map (fun b => BitVec.ofNat 8 (uns 8 b.2.1)))],
     (bs.map (fun b => b.2.2)).sum)
  else
    let p := plainOut (sgn 8 (le d 21 1)) (l.map Samp.val)
    ([(a, p.1.flatMap ci16)], p.2)

/-- Occupancy (R169, R177). -/
def fftOcc (d : List Byte) : Nat := 32 + fStreams d * cdiv (fT d) (if fN d % 16 = 0 then 16 else 8)

/-- The transform of an accepted job: inputs read, the half released, outputs written, the context's tails renewed. -/
def fftRun (e : Nat) (d : List Byte) (ctx : Option ResCtx) (half : Option (Nat × Nat)) (s : State) : JobRes :=
  eGetAll e (fftAreas s d (half.map (fun h => slotAddr' h.1 e h.2))) s (fun ls s0 =>
    let s1 := match half with | some h => releaseSlot s0 h.1 e h.2 | none => s0
    let xs := fftStreams d ls
    let ys := xs.map (fftPlain d)
    let im := match ctx with | some c => c.image | none => []
    let zs := if fWin d then (List.range ys.length).map (fun i => fftWindow d im i (ys.getD i [])) else ys
    let ws := (List.range zs.length).map (fun i => fftWrites d i (zs.getD i []))
    let sat := (ws.map (fun w => w.2)).sum
    ePutAll e (ws.flatMap (fun w => w.1)) (s1.cnt (eA e 0x10) sat) (fun s2 =>
      let s3 := match ctx with
        | some c => setCtx s2 e c.addr ((List.range ys.length).foldl (fun im i => putTail im i (le d 10 2) (fftTail d (ys.getD i []))) c.image) []
        | none => s2
      jobOk s3 sat (fftOcc d)))

/-- An FFT job from its descriptor. -/
def fftJob (e : Nat) (d : List Byte) (ctx : Nat) (half : Option (Nat × Nat)) (s : State) : JobRes :=
  if !fftGood d (decide (ctx ≠ 0)) half.isSome then badDesc (match half with | some h => releaseSlot s h.1 e h.2 | none => s)
  else if ctx = 0 then fftRun e d none half s
  else withCtx e ctx s (fun c s => fftRun e d (some c) half s)

end Sys2Proof.Machine
end

