-- ==== Sys2Proof/Machine/Matrix.lean ====
section
/-! DEFINITION. Jobs of the matrix engines (R178-R188): operand records, the exact sums of MUL, COV and APPLY, the
covariance context and the chained APPLY's data. The solving operations, whose order of binary32 operations the spec
does not give, are opaque functions of their operands (log 96). -/

namespace Sys2Proof.Machine

/-- An element as its operand holds it: the two words and the exponent that applies (R165, R181). -/
abbrev MEl := Nat × Nat × Int
abbrev MMat := List (List MEl)

/-! ## Operand records (R181) -/

def oRows (d : List Byte) (o : Nat) : Nat := le d (o + 24) 1
def oCols (d : List Byte) (o : Nat) : Nat := le d (o + 25) 1
def oFmt (d : List Byte) (o : Nat) : Nat := le d (o + 26) 1
def oSize (d : List Byte) (o : Nat) : Nat := if oFmt d o = 3 then 8 else 4
def oStride (d : List Byte) (o : Nat) : Nat := le d (o + 20) 4

def recA : Nat := 32
def recB : Nat := 64
def recC : Nat := 96
def recD : Nat := 128

/-- Address of row `r` of item `b`. -/
def oRow (d : List Byte) (o b r : Nat) : Nat := le d o 8 + b * oStride d o + r * le d (o + 16) 4

/-- Block of element (`r`, `c`) of item `b`, and where the exponents of row `r` begin. -/
def oBlk (d : List Byte) (o b c : Nat) : Nat := (b * oStride d o / 4 + c) / 128
def oExpRow (d : List Byte) (o r : Nat) : Nat := le d (o + 8) 8 + r * le d (o + 28) 2

/-- Areas of item `b`: each row, then its exponents. -/
def oAreas (d : List Byte) (o b : Nat) : List (Nat × Nat) :=
  (List.range (oRows d o)).flatMap (fun r =>
    let b0 := oBlk d o b 0
    [(oRow d o b r, oCols d o * oSize d o),
     match oFmt d o with
     | 1 => (oExpRow d o r + b0, oBlk d o b (oCols d o - 1) + 1 - b0)
     | 2 => (le d (o + 8) 8 + b * le d (o + 30) 2, 1)
     | _ => (0, 0)])

/-- A row of item `b` from its bytes and exponents. -/
def oRowOf (d : List Byte) (o b : Nat) (el ex : List Byte) : List MEl :=
  let w := oSize d o / 2
  (List.range (oCols d o)).map (fun c =>
    (le el (2 * w * c) w, le el (2 * w * c + w) w, match oFmt d o with
      | 0 => sgn 8 (le d (o + 27) 1)
      | 1 => sgn 8 (le ex (oBlk d o b c - oBlk d o b 0) 1)
      | 2 => sgn 8 (le ex 0 1)
      | _ => 0))

def oItem (d : List Byte) (o b : Nat) : List (List Byte) → MMat
  | x :: y :: t => oRowOf d o b x y :: oItem d o b t
  | _ => []

/-- Items of an operand, one if the batch shares it. -/
def oCount (d : List Byte) (o : Nat) : Nat := if oStride d o = 0 then 1 else le d 2 2

/-- Read items `b`, `b + 1`, ... of an operand, and go on. -/
def oRead (e : Nat) (d : List Byte) (o : Nat) : Nat → Nat → State → (List MMat → State → JobRes) → JobRes
  | 0, _, s, k => k [] s
  | n + 1, b, s, k => eGetAll e (oAreas d o b) s (fun ls s => oRead e d o n (b + 1) s (fun r s => k (oItem d o b ls :: r) s))

/-- Read an operand if it is used. -/
def oGet (e : Nat) (d : List Byte) (o : Nat) (used : Bool) (s : State) (k : List MMat → State → JobRes) : JobRes :=
  if used then oRead e d o (oCount d o) 0 s k else k [] s

/-- Item `b` of what was read. -/
def item (l : List MMat) (b : Nat) : MMat := if l.length = 1 then l.getD 0 [] else l.getD b []
def mAt (m : MMat) (r c : Nat) : MEl := (m.getD r []).getD c (0, 0, 0)

/-- A ci16 element as mantissas and exponent, conjugated or not. -/
def mSamp (x : MEl) (cj : Bool) : Samp := (sgn 16 x.1, if cj then -sgn 16 x.2.1 else sgn 16 x.2.1, x.2.2)

/-! ## The descriptor (R182, R183) -/

def mtxOp (d : List Byte) : Nat := le d 0 1
def mFlag (d : List Byte) (i : Nat) : Bool := tb (le d 1 1) i
def mBatch (d : List Byte) : Nat := le d 2 2
def mChain (d : List Byte) : Nat := le d 7 1

/-- Rows and columns agree with the operation (R178): A, B, C as far as it needs them, and D. -/
def mShapes (d : List Byte) : Bool :=
  let is := fun (o r c : Nat) => decide (oRows d o = r ∧ oCols d o = c)
  let ar := oRows d recA
  let ac := oCols d recA
  let br := oRows d recB
  let bc := oCols d recB
  match mtxOp d with
  | 1 =>
    let m := if mFlag d 0 then ac else ar
    let k := if mFlag d 0 then ar else ac
    let k' := if mFlag d 1 then bc else br
    let p := if mFlag d 1 then br else bc
    decide (k = k') && is recD m p && (!(mFlag d 2 || mFlag d 3) || is recC m p)
  | 2 => is recD ar ar
  | 3 => decide (ar = ac) && is recD ar ar
  | 4 => decide (ac ≤ ar) && is recD ac ac && (decide (oRows d recC = 0) || is recC ar ac)
  | 5 => is recD ac ar
  | 6 => is recB ar ar && is recD ac ar
  | 7 => decide (ac = br) && is recD ar bc
  | _ => is recD ac ar

/-- Operands an operation reads, and those it writes. -/
def mReads (d : List Byte) : List Nat :=
  match mtxOp d with
  | 1 => [recA, recB] ++ (if mFlag d 2 || mFlag d 3 then [recC] else [])
  | 6 => [recA, recB]
  | 7 => [recA, recB]
  | _ => [recA]
def mWrites (d : List Byte) : List Nat := recD :: (if mtxOp d = 4 ∧ oRows d recC ≠ 0 then [recC] else [])

/-- A used record keeps its ranges and, in BLOCK format, R181's layout. -/
def oGood (d : List Byte) (o : Nat) (out free : Bool) : Bool :=
  decide (1 ≤ oRows d o ∧ oRows d o ≤ 64 ∧ 1 ≤ oCols d o ∧ oCols d o ≤ 64 ∧ oFmt d o < 4)
    && (free || decide (oFmt d o ≠ 1)
        || (decide (le d o 8 % 512 = 0) && (decide (oRows d o = 1) || decide (le d (o + 16) 4 % 512 = 0))
            && (!out || decide (oStride d o = 4 * oCols d o))))

/-- The descriptor is accepted (R183). -/
def mtxGood (d : List Byte) (ctx : Bool) : Bool :=
  let op := mtxOp d
  let reg := le d 4 2
  decide (1 ≤ op ∧ op ≤ 8 ∧ le d 1 1 < 64) && decide (1 ≤ mBatch d ∧ mBatch d ≤ 4096)
    && (mReads d).all (fun o => oGood d o false false) && (mWrites d).all (fun o => oGood d o true (decide (mChain d ≠ 0xFF)))
    && mShapes d && decide (op ≠ 1 → le d 1 1 % 16 = 0) && !(mFlag d 2 && mFlag d 3)
    && decide (mFlag d 4 = true → op = 2 ∨ op = 6) && decide (mFlag d 5 = true → op = 8) && (mFlag d 4 == ctx)
    && decide (reg < 0x7F80 ∨ reg = 0x8000) && decide (mChain d = 0xFF ∨ (op = 7 ∧ mChain d < 32))
    && (mWrites d).all (fun o => !(decide (oStride d o = 0 ∧ 1 < mBatch d)))
    && decide (leNat (sub d 16 16) = 0 ∧ leNat (sub d 160 32) = 0)

/-! ## Exact sums (R178) -/

/-- Terms aligned to their largest exponent, right shifts rounded half to even, a term shifted by more than 32 bits
contributing 0. -/
def alignSum (l : List Samp) : CVal :=
  let E := l.foldl (fun (m : Int) x => max m x.2.2) ((l.map (fun x => x.2.2)).headD 0)
  let sh := fun (v e : Int) => if 32 < E - e then 0 else rneDiv v (2 ^ (E - e).toNat)
  ⟨(l.map (fun x => sh x.1 x.2.2)).sum, (l.map (fun x => sh x.2.1 x.2.2)).sum, E, 1⟩

def sampMul (x y : Samp) : Samp := (x.1 * y.1 - x.2.1 * y.2.1, x.1 * y.2.1 + x.2.1 * y.1, x.2.2 + y.2.2)
def sampNeg (x : Samp) : Samp := (-x.1, -x.2.1, x.2.2)

/-- Element (`i`, `j`) of D for MUL, COV and APPLY on samples. -/
def sumElem (d : List Byte) (a b c : MMat) (i j : Nat) : CVal :=
  match mtxOp d with
  | 2 =>
    let k := oCols d recA
    let x := alignSum ((List.range k).map (fun t => sampMul (mSamp (mAt a i t) false) (mSamp (mAt a j t) true)))
    { x with den := k }
  | _ =>
    let ca := mFlag d 0
    let cb := mFlag d 1
    let k := if ca then oRows d recA else oCols d recA
    let p := (List.range k).map (fun t =>
      sampMul (mSamp (if ca then mAt a t i else mAt a i t) ca) (mSamp (if cb then mAt b j t else mAt b t j) cb))
    if mFlag d 2 then alignSum (mSamp (mAt c i j) false :: p)
    else if mFlag d 3 then alignSum (mSamp (mAt c i j) false :: p.map sampNeg)
    else alignSum p

/-! ## Items -/

/-- What a solving operation is given besides its matrices: operation, dimensions, flags, REG and ALPHA. -/
def solveArgs (d : List Byte) (img : List Byte) : List Nat :=
  [mtxOp d, oRows d recA, oCols d recA, le d 1 1, le d 4 2, le d 6 1] ++ img.map BitVec.toNat

/-- A's rows as the operation reads them: CHOL reads the lower triangle. -/
def solveA (d : List Byte) (a : MMat) : MMat :=
  if mtxOp d = 3 then
    (List.range a.length).map (fun i => (List.range (a.getD i []).length).map (fun j => if j ≤ i then mAt a i j else (0, 0, 0)))
  else a

/-- A column of A is all zero. -/
def zeroCol (a : MMat) (j : Nat) : Bool :=
  a.all (fun r => let x := r.getD j (0, 0, 0); decide (x.1 % 2 ^ 31 = 0 ∧ x.2.1 % 2 ^ 31 = 0))

/-- Element (`i`, `j`) of output `out` (0 D, 1 C) of an item of a solving operation, with what R178 and R179 say of it. -/
def solveElem (d : List Byte) (args : List Nat) (ms : List MMat) (out i j : Nat) : CVal :=
  let v := Samp.val (Config.mtxValue args ms out i j)
  let a := ms.getD 0 []
  match mtxOp d with
  | 3 => if i < j then CVal.zero else v
  | 4 => if zeroCol a j ∨ (out = 0 ∧ j < i) then CVal.zero else if out = 0 ∧ i = j then ⟨v.re.natAbs, 0, v.e, v.den⟩ else v
  | _ => v

/-- The outputs of one item, and whether it is degenerate. -/
structure MItem where
  out : List (List CVal)
  out2 : List (List CVal)
  bad : Bool

/-- An output matrix from its elements. -/
def matOf (d : List Byte) (o : Nat) (f : Nat → Nat → CVal) : List (List CVal) :=
  (List.range (oRows d o)).map (fun i => (List.range (oCols d o)).map (f i))

/-- One item's results. -/
def mtxItem (d : List Byte) (img : List Byte) (as bs cs : List MMat) (b : Nat) : MItem :=
  let a := item as b
  let bb := item bs b
  let c := item cs b
  if mtxOp d = 1 ∨ mtxOp d = 2 ∨ mtxOp d = 7 then
    let flt := (mReads d).any (fun o => decide (oFmt d o = 3))
    let f := fun i j => if flt then Samp.val (Config.mtxValue (solveArgs d []) [a, bb, c] 0 i j) else sumElem d a bb c i j
    ⟨matOf d recD f, [], false⟩
  else
    let args := solveArgs d img
    let fresh := decide (mFlag d 4 = true ∧ le img 1 1 = 0)
    let ms := [solveA d a, bb] ++ (if fresh then bs else [])
    if mtxOp d ≠ 4 ∧ Config.mtxDegenerate args ms then ⟨matOf d recD (fun _ _ => CVal.zero), [], true⟩
    else ⟨matOf d recD (solveElem d args ms 0), if mtxOp d = 4 then matOf d recC (solveElem d args ms 1) else [], false⟩

/-! ## Output (R166, R181) -/

/-- Writes of an output record from the items' matrices. -/
def mtxOut (d : List Byte) (o : Nat) (ms : List (List (List CVal))) : List (Nat × List Byte) :=
  let nb := ms.length
  let rows := oRows d o
  let each := fun (f : Nat → List (List CVal) → List (Nat × List Byte)) => (List.range nb).flatMap (fun b => f b (ms.getD b []))
  match oFmt d o with
  | 0 => each (fun b m => (List.range rows).map (fun r =>
      (oRow d o b r, (plainOut (sgn 8 (le d (o + 27) 1)) (m.getD r [])).1.flatMap ci16)))
  | 1 => (List.range rows).flatMap (fun r =>
      let l := ms.flatMap (fun m => m.getD r [])
      let bl := (List.range (cdiv l.length 128)).map (fun i => blockOut ((l.drop (128 * i)).take 128))
      [(oRow d o 0 r, bl.flatMap (fun x => x.1.flatMap ci16)), (oExpRow d o r, bl.map (fun x => BitVec.ofNat 8 (uns 8 x.2.1)))])
  | 2 => each (fun b m =>
      let p := blockOut m.flatten
      let c := oCols d o
      (List.range rows).map (fun r => (oRow d o b r, ((p.1.drop (r * c)).take c).flatMap ci16))
        ++ [(le d (o + 8) 8 + b * le d (o + 30) 2, natLe 1 (uns 8 p.2.1))])
  | _ => each (fun b m => (List.range rows).map (fun r =>
      (oRow d o b r, (m.getD r []).flatMap (fun x => natLe 4 (f32Bits x.re x.e x.den) ++ natLe 4 (f32Bits x.im x.e x.den)))))

/-- What a chained APPLY writes to its half: the streams, and the exponents (R187). -/
def chainOut (ms : List (List (List CVal))) (rows : Nat) : List ChainOut :=
  let bl := (List.range rows).map (fun r =>
    let l := ms.flatMap (fun m => m.getD r [])
    (List.range (cdiv l.length 128)).map (fun i =>
      let x := (l.drop (128 * i)).take 128
      blockOut (x ++ List.replicate (128 - x.length) CVal.zero)))
  [⟨bl.flatMap (fun b => b.flatMap (fun x => x.1.flatMap ci16)), 0, false⟩,
   ⟨bl.flatMap (fun b => b.map (fun x => BitVec.ofNat 8 (uns 8 x.2.1))), 0, false⟩]

/-! ## The covariance context (R180, R186) -/

/-- Element (`i`, `j`), j ≤ i, of the stored triangle. -/
def ctxElem (img : List Byte) (i j : Nat) : CVal :=
  let o := 0x40 + 4 * (i * (i + 1) / 2 + j)
  ⟨sgn 16 (le img o 2), sgn 16 (le img (o + 2) 2), sgn 8 (le img 0 1), 1⟩

/-- The image of a context with DIM `n` and triangle `t`, normalised as one ITEM. -/
def ctxImage (n : Nat) (t : List CVal) : List Byte :=
  let p := blockOut t
  sub (natLe 1 (uns 8 p.2.1) ++ natLe 1 n ++ List.replicate 0x3E 0 ++ p.1.flatMap ci16) 0 16384

/-- COV with CTX_MIX: R_ctx from the mean of the D_b and its old value. -/
def covMix (d img : List Byte) (ms : List (List (List CVal))) : List Byte :=
  let n := oRows d recA
  let w : Int := le d 6 1 + 1
  let el := fun (m : List (List CVal)) (i j : Nat) => (m.getD i []).getD j CVal.zero
  ctxImage n ((List.range n).flatMap (fun i => (List.range (i + 1)).map (fun j =>
    let mean := (ms.foldl (fun x m => x.add (el m i j)) CVal.zero).scale 1 ms.length
    if le img 1 1 = 0 then mean else (mean.scale w 256).add ((ctxElem img i j).scale (256 - w) 256))))

/-! ## Cost (R184, R185) -/

def cmacs (d : List Byte) : Nat :=
  let r := oRows d recA
  let c := oCols d recA
  let dr := oRows d recD
  let dc := oCols d recD
  let mm := fun (n l : Nat) => n * (l * (l + 1) / 2) + l * (l + 1) * (l + 2) / 6 + l * (l + 1) * n
  match mtxOp d with
  | 1 => dr * (if mFlag d 0 then r else c) * dc
  | 2 => r * (r + 1) / 2 * c
  | 3 => r * (r + 1) * (r + 2) / 6
  | 4 => r * c * (c + 1)
  | 5 => mm r c
  | 6 => r * (r + 1) * (r + 2) / 6 + r * (r + 1) * c + r * (c * (c + 1) / 2) + c ^ 3 + c ^ 2 * r
  | 7 => r * c * dc
  | _ => mm c r + (if mFlag d 5 then r * c else 0)

def mtxOcc (d : List Byte) : Nat :=
  let slow := mBatch d < 16 ∧ mtxOp d ≠ 1 ∧ mtxOp d ≠ 2 ∧ mtxOp d ≠ 7
  64 + cdiv (mBatch d * cmacs d) (if slow then 64 * mBatch d else 1024)

/-! ## The job -/

/-- The chained FFT descriptor is accepted (R187 step 1). -/
def mtxChainGood (d f : List Byte) : Bool :=
  decide (fOp f = 2 ∧ le f 2 1 % 4 = 1 ∧ fStreams f = oRows d recD ∧ mBatch d * oCols d recD = fSc f
    ∧ 512 * cdiv (fSc f) 128 * fStreams f ≤ 0x1F000)

/-- Operands read, results formed and written, or kept for the chain. -/
def mtxRun (e : Nat) (d : List Byte) (ctx : Option ResCtx) (s : State) : JobRes :=
  let n := oRows d recA
  let img := match ctx with | some c => c.image | none => []
  if ctx.isSome ∧ le img 1 1 ≠ 0 ∧ le img 1 1 ≠ n then jobEnd s 0x82 0 0
  else
    let used := fun (o : Nat) => (mReads d).contains o
    oGet e d recA true s (fun as s => oGet e d recB (used recB) s (fun bs s => oGet e d recC (used recC) s (fun cs s =>
      let its := (List.range (mBatch d)).map (mtxItem d img as bs cs)
      let outs := its.map (fun x => x.out)
      let bad := (its.filter (fun x => x.bad)).length
      let fin := fun (s : State) => jobEnd (s.cnt (eA e 0x10) bad) (if bad = 0 then 0 else 0x80) (min bad 0xFFFF) (mtxOcc d)
      if mChain d ≠ 0xFF then
        fin (modRun s e (fun r => { r with phase := 1, cons := engNum 0 (mChain d), cdesc := le d 8 8, todo := chainOut outs (oRows d recD) }))
      else
        ePutAll e (mtxOut d recD outs ++ (if mtxOp d = 4 ∧ oRows d recC ≠ 0 then mtxOut d recC (its.map (fun x => x.out2)) else [])) s (fun s =>
          fin (match ctx with
            | some c => if mtxOp d = 2 then setCtx s e c.addr (covMix d c.image outs) [] else s
            | none => s)))))

/-- A matrix job from its descriptor. -/
def mtxJob (e : Nat) (d : List Byte) (ctx : Nat) (s : State) : JobRes :=
  if !mtxGood d (decide (ctx ≠ 0)) then badDesc s
  else
    let go := fun (s : State) => if ctx = 0 then mtxRun e d none s else withCtx e ctx s (fun c s => mtxRun e d (some c) s)
    if mChain d = 0xFF then go s
    else eGet e (le d 8 8) 64 s (fun f s => if mtxChainGood d f then go s else jobEnd s 0x81 0 0)

end Sys2Proof.Machine
end

