-- ==== Sys2Proof/Machine/Sieve.lean ====
section
/-! DEFINITION. Jobs of the sieve chains (R232-R249) and the listen-before-talk periods they measure (R250, R251). A
CIC stage is computed as the filter it realises. Half-band taps, the filter bank's phasors and the phase at which a
fresh stage gives its first output are open (log 98). -/

namespace Sys2Proof.Machine

/-! ## Times -/

/-- 2^-16 ns in a second. -/
def fracSec : Nat := 65536 * 1000000000

/-- A time in 2^-16 ns from its 12 bytes: FRAC, NS, SEC (R236). -/
def tsOf (l : List Byte) (o : Nat) : Int := (le l (o + 6) 6 * fracSec + le l (o + 2) 4 * 65536 + le l o 2 : Nat)

def tsBytes (x : Int) : List Byte :=
  let t := (x % ((2 ^ 48 * fracSec : Nat) : Int)).toNat
  natLe 2 (t % 65536) ++ natLe 4 (t % fracSec / 65536) ++ natLe 6 (t / fracSec)

/-- A rational rounded half to even. -/
def rneRat (x : Rat) : Int := rneDiv x.num x.den

/-! ## Descriptor (R236-R238) -/

def svTx (d : List Byte) : Bool := le d 0 1 == 2
def svLbt (d : List Byte) : Bool := tb (le d 1 1) 0
def svStages (d : List Byte) : Nat := le d 2 1
def svN (d : List Byte) : Nat := le d 12 4
def svFs (d : List Byte) : Nat := le d 16 4
def svTs (d : List Byte) : Int := tsOf d 20
def svInExp (d : List Byte) : Int := sgn 8 (le d 3 1)

/-- A stage record (R237). -/
structure SvRec where
  typ : Nat
  mode : Nat
  factor : Nat
  shift : Int
  np : Nat
  cofs : Nat
  p0 : Nat
  p1 : Nat
  p2 : Nat

def svRec (d : List Byte) (i : Nat) : SvRec :=
  let o := 64 + 32 * i
  ⟨le d o 1, le d (o + 1) 1, le d (o + 2) 1, sgn 8 (le d (o + 3) 1), le d (o + 4) 2, le d (o + 6) 2, le d (o + 8) 8, le d (o + 16) 8, le d (o + 24) 8⟩

def svRecs (d : List Byte) : List SvRec := (List.range (svStages d)).map (svRec d)

/-- Coefficient bytes of a stage. -/
def svCoefs (r : SvRec) : Nat := if r.typ = 3 then 2 * r.np else if r.typ = 6 then 2 * r.factor * r.np else 0

def thrA (r : SvRec) : Int := sgn 16 (r.p1 % 2 ^ 16)
def thrB (r : SvRec) : Int := sgn 16 (r.p1 / 2 ^ 16 % 2 ^ 16)

/-- A stage record keeps its ranges, and what its type does not use is 0. -/
def svRecGood (lbt : Bool) (r : SvRec) : Bool :=
  decide (-8 ≤ r.shift ∧ r.shift ≤ 15 ∧ r.cofs % 64 = 0 ∧ r.cofs + svCoefs r ≤ 0x10000)
    && (match r.typ with
      | 1 => decide (r.mode < 2 ∧ r.factor = 1 ∧ r.np + r.cofs + r.p1 + r.p2 = 0)
      | 2 => decide (r.mode < 4 ∧ r.factor = 2 ∧ r.np + r.cofs + r.p0 + r.p1 + r.p2 = 0)
      | 3 => decide (1 ≤ r.factor ∧ r.factor ≤ 16 ∧ 1 ≤ r.np ∧ r.np ≤ 128 ∧ r.mode + r.p0 + r.p1 + r.p2 = 0)
      | 4 => decide (2 ≤ r.factor ∧ r.factor ≤ 64 ∧ 1 ≤ r.np ∧ r.np ≤ 6 ∧ r.mode + r.cofs + r.p0 + r.p1 + r.p2 = 0)
      | 5 =>
        let n := r.p0 % 2 ^ 16
        let m := r.p0 / 2 ^ 16
        decide (r.factor = 1 ∧ 1 ≤ n ∧ 1 ≤ m ∧ m < 2 ^ 16 ∧ m ≤ 2 * n ∧ n ≤ 2 * m ∧ r.mode + r.np + r.cofs + r.p1 + r.p2 = 0)
      | 6 =>
        let n := r.p0 / 2 ^ 16
        [16, 32, 64, 128].contains r.factor && decide (2 ≤ r.np ∧ r.np ≤ 8 ∧ r.factor * r.np ≤ 512 ∧ 1 ≤ n ∧ n ≤ 96
          ∧ r.p0 % 2 ^ 16 + n ≤ 0x10000 ∧ r.mode + r.p1 + r.p2 = 0)
      | 7 =>
        decide (r.mode < 3 ∧ r.factor = 1 ∧ r.shift = 0 ∧ r.np + r.cofs + r.p2 = 0 ∧ r.p1 < 2 ^ 32)
          && (match r.mode with
            | 0 => decide (r.p0 = 0 ∧ r.p1 < 2 ^ 16)
            | 1 => decide (r.p0 < 2 ^ 20 ∧ (lbt = true ∨ 0 < r.p0) ∧ r.p1 < 2 ^ 16)
            | _ => decide (1 ≤ r.p0 ∧ r.p0 ≤ 15 ∧ thrB r < thrA r))
      | 8 => decide (r.factor = 1 ∧ r.np ≤ 64 ∧ r.mode + r.cofs = 0 ∧ r.p2 < 2 ^ 32)
      | _ => false)

/-- The descriptor is accepted (R235, R238), but for what the burst and bin lists hold. -/
def svGood (d : List Byte) : Bool :=
  let rs := svRecs d
  let n := rs.length
  let count := fun (t : Nat) => (rs.filter (fun (r : SvRec) => decide (r.typ = t))).length
  let chanAt := fun (i : Nat) => (List.range n).all (fun j => decide ((svRec d j).typ = 6 → j = i))
  decide (le d 0 1 = 1 ∨ le d 0 1 = 2) && decide (le d 1 1 < 2 ∧ 1 ≤ n ∧ n ≤ 8 ∧ le d 5 3 = 0)
    && decide (-8 ≤ sgn 8 (le d 4 1) ∧ sgn 8 (le d 4 1) ≤ 8) && decide (1 ≤ svN d ∧ svN d ≤ 65536)
    && decide (1000 ≤ svFs d ∧ svFs d ≤ 1000000000 ∧ le d 22 4 < 1000000000)
    && rs.all (svRecGood (svLbt d)) && decide (count 6 ≤ 1 ∧ count 7 ≤ 1 ∧ count 8 ≤ 1)
    && (if svTx d then chanAt 0 else chanAt (n - 1) && decide (count 8 = 0))
    && decide (le d 48 4 % 4 = 0 ∧ (count 6 = 0 → le d 48 4 = 0))
    && (!svLbt d || rs.any (fun (r : SvRec) => decide (r.typ = 7 ∧ r.mode = 1)))

/-! ## Stages (R232, R233) -/

/-- A stream between two stages: mantissas, the time of sample 0 and the spacing in input periods. -/
structure SvFlow where
  xs : List (Int × Int)
  t0 : Rat
  per : Rat
  sat : Nat

/-- An exact component `v / den` under SHIFT: rounded, saturated to 24 bits, and whether it saturated. -/
def svRound (shift v : Int) (den : Nat) : Int × Nat :=
  let x := rneDiv (v * 2 ^ (-shift).toNat) (den * 2 ^ shift.toNat)
  (satS 24 x, b2n (decide (satS 24 x ≠ x)))

/-- Both components of exact results. -/
def svRounds (shift : Int) (den : Nat) (l : List (Int × Int)) : List (Int × Int) × Nat :=
  let y := l.map (fun p => (svRound shift p.1 den, svRound shift p.2 den))
  (y.map (fun p => (p.1.1, p.2.1)), (y.map (fun p => p.1.2 + p.2.2)).sum)

/-- A stage in its zero state; where its first output falls is open (log 98). -/
def stageZero (r : SvRec) : Stage :=
  let ph := match r.typ with
    | 2 => Config.stagePhase 2 2 % 2
    | 5 => Config.stagePhase 5 (r.p0 % 2 ^ 16) % (3 * (r.p0 % 2 ^ 16))
    | 6 => Config.stagePhase 6 r.factor % (r.factor / 2)
    | 3 => Config.stagePhase 3 r.factor % r.factor
    | 4 => Config.stagePhase 4 r.factor % r.factor
    | _ => 0
  ⟨[], [], ph, 0, 0, 0⟩

/-- The stream with its history in front, oldest first, and the length of that history. -/
def withPast (st : Stage) (n : Nat) (u : List (Int × Int)) : List (Int × Int) :=
  (List.range n).map (fun i => st.line.getD (n - 1 - i) (0, 0)) ++ u

/-- The history a filter of `n` taps keeps. -/
def newPast (n : Nat) (st : Stage) (u : List (Int × Int)) : List (Int × Int) := (u.reverse ++ st.line).take n

/-- Sum of h[k] * u[i - k], `i` counted in the stream behind a history of h.length - 1 samples. -/
def firAt (h : List Int) (ext : List (Int × Int)) (i : Nat) : Int × Int :=
  let n := h.length
  (List.range n).foldl (fun (acc : Int × Int) k =>
    let x := ext.getD (i + (n - 1) - k) (0, 0)
    let c := h.getD k 0
    (acc.1 + c * x.1, acc.2 + c * x.2)) (0, 0)

/-- Positions below `n` from `ph` in steps of `step`. -/
def outsAt (ph step n : Nat) : List Nat := (List.range (if ph < n then cdiv (n - ph) step else 0)).map (fun m => ph + m * step)

/-- A decimating (RX) or interpolating (TX) filter by `f` with taps `h` over `den`. -/
def svFilter (tx : Bool) (f : Nat) (h : List Int) (den : Nat) (shift : Int) (st : Stage) (x : SvFlow) : SvFlow × Stage :=
  let n := h.length
  let u := if tx then x.xs.flatMap (fun p => p :: List.replicate (f - 1) (0, 0)) else x.xs
  let ext := withPast st (n - 1) u
  let at' := if tx then List.range u.length else outsAt st.phase f u.length
  let y := svRounds shift den (at'.map (firAt h ext))
  let hi := if tx then x.per / (f : Rat) else x.per
  let first : Rat := if tx then 0 else (st.phase : Rat)
  (⟨y.1, x.t0 + first * hi - ((n - 1 : Nat) : Rat) / 2 * hi, if tx then hi else hi * (f : Rat), x.sat + y.2⟩,
   { st with line := newPast (n - 1) st u, phase := if tx then st.phase else st.phase + at'.length * f - u.length })

/-- Coefficients of a CIC of order `n` and factor `f`. -/
def cicTaps (f : Nat) : Nat → List Int
  | 0 => [1]
  | n + 1 =>
    let h := cicTaps f n
    (List.range (h.length + f - 1)).map (fun i =>
      ((List.range f).map (fun j => if j ≤ i then h.getD (i - j) 0 else 0)).sum)

/-- Taps of a half-band set (R234; log 98). -/
def hbTaps (tx : Bool) (set : Nat) : List Int :=
  (List.range ([11, 19, 27, 43].getD set 11)).map (Config.hbTap (b2n tx) set)

/-- Signed 16-bit taps of a buffer. -/
def taps16 (l : List Byte) : List Int := (List.range (l.length / 2)).map (fun i => sgn 16 (le l (2 * i) 2))

/-- NCO (R233). -/
def svNco (r : SvRec) (st : Stage) (x : SvFlow) : SvFlow × Stage :=
  let f := r.p0 % 2 ^ 32
  let y := svRounds r.shift (2 ^ 17) ((List.range x.xs.length).map (fun i =>
    let p := x.xs.getD i (0, 0)
    let t := cosSin ((st.phase + i * f) % 2 ^ 32 / 2 ^ 12)
    let c := q17 t.1
    let s := q17 t.2
    (p.1 * c - p.2 * s, p.1 * s + p.2 * c)))
  ({ x with xs := y.1, sat := x.sat + y.2 }, { st with phase := (st.phase + x.xs.length * f) % 2 ^ 32 })

/-- RESAMP: cubic Lagrange interpolation at instants DEN / NUM inputs apart. `phase` is the next instant in 1/NUM of
an input, 2 inputs ahead of the job's first. -/
def svResamp (r : SvRec) (st : Stage) (x : SvFlow) : SvFlow × Stage :=
  let q := r.p0 % 2 ^ 16
  let den := r.p0 / 2 ^ 16
  let n := x.xs.length
  let ext := withPast st 3 x.xs -- sample i stands at i + 3
  let ks := (outsAt st.phase den (n * q)).filter (fun p => decide (p / q < n))
  let val := fun (p : Nat) =>
    let m := p / q -- the inputs at m - 3, ..., m relative to the job's first
    let a : Int := (p % q : Nat)
    let b : Int := q
    let c := [-(a * (a - b) * (a - 2 * b)), 3 * (a + b) * (a - b) * (a - 2 * b), -(3 * (a + b) * a * (a - 2 * b)), (a + b) * a * (a - b)]
    (List.range 4).foldl (fun (acc : Int × Int) j =>
      let s := ext.getD (m + j) (0, 0)
      (acc.1 + c.getD j 0 * s.1, acc.2 + c.getD j 0 * s.2)) (0, 0)
  let y := svRounds r.shift (6 * q ^ 3) (ks.map val)
  (⟨y.1, x.t0 + ((st.phase : Rat) / (q : Rat) - 2) * x.per, x.per * (den : Rat) / (q : Rat), x.sat + y.2⟩,
   { st with line := newPast 3 st x.xs, phase := st.phase + ks.length * den - n * q })

/-- CHAN in RX: bins' streams from the wideband one; each value before saturation is open (log 98). -/
def svChanRx (r : SvRec) (h : List Int) (bins : List Nat) (st : Stage) (x : SvFlow) : List (List (Int × Int)) × SvFlow × Stage :=
  let p := h.length
  let hop := r.factor / 2
  let ext := withPast st (p - 1) x.xs
  let at' := outsAt st.phase hop x.xs.length
  let vals := bins.map (fun b => (List.range at'.length).map (fun i =>
    Config.chanValue [1, r.factor, b, st.cnt + i] h ((ext.drop (at'.getD i 0)).take p) r.shift))
  let clip := fun (v : Int × Int) => (satS 24 v.1, satS 24 v.2)
  let sat := (vals.flatten.map (fun v => b2n (decide (satS 24 v.1 ≠ v.1)) + b2n (decide (satS 24 v.2 ≠ v.2)))).sum
  (vals.map (fun l => l.map clip),
   ⟨[], x.t0 + (st.phase : Rat) * x.per - ((p - 1 : Nat) : Rat) / 2 * x.per, x.per * (hop : Rat), x.sat + sat⟩,
   { st with line := newPast (p - 1) st x.xs, phase := st.phase + at'.length * hop - x.xs.length, cnt := (st.cnt + at'.length) % 2 ^ 32 })

/-- CHAN in TX: the wideband stream from the bins' (log 98). -/
def svChanTx (r : SvRec) (h : List Int) (bins : List Nat) (st : Stage) (ins : List (List (Int × Int))) (x : SvFlow) : SvFlow × Stage :=
  let hop := r.factor / 2
  let nb := bins.length
  let n := (ins.map List.length).foldl max 0
  let flat := (List.range n).flatMap (fun i => ins.map (fun l => l.getD i (0, 0))) -- all bins of one instant together
  let deep := 2 * r.np
  let ext := withPast st (deep * nb) flat
  let vals := (List.range (n * hop)).map (fun j =>
    Config.chanValue ([2, r.factor, j % hop, st.cnt + j / hop] ++ bins) h ((ext.drop ((j / hop + 1) * nb)).take (deep * nb)) r.shift)
  let sat := (vals.map (fun v => b2n (decide (satS 24 v.1 ≠ v.1)) + b2n (decide (satS 24 v.2 ≠ v.2)))).sum
  let hi := x.per / (hop : Rat)
  (⟨vals.map (fun v => (satS 24 v.1, satS 24 v.2)), x.t0 - ((h.length - 1 : Nat) : Rat) / 2 * hi, hi, x.sat + sat⟩,
   { st with line := newPast (deep * nb) st flat, cnt := (st.cnt + n) % 2 ^ 32 })

/-! ## Ramps (R245-R249) -/

/-- A burst: START, LEN, L_UP, L_DN, up table, down table, JOIN_NEXT (R246). -/
structure SvBurst where
  start : Int
  len : Nat
  up : Nat
  dn : Nat
  tu : Nat
  td : Nat
  join : Bool

def svBursts (n : Nat) (l : List Byte) : List SvBurst :=
  (List.range n).map (fun i =>
    let o := 16 * i
    let t := le l (o + 12) 1
    ⟨sgn 32 (le l o 4), le l (o + 4) 4, le l (o + 8) 2, le l (o + 10) 2, t % 4, t / 4 % 4, tb t 4⟩)

/-- The list is accepted (R246, R247). -/
def svBurstsGood (n : Nat) (l : List Byte) : Bool :=
  let bs := svBursts n l
  (List.range n).all (fun i =>
    let o := 16 * i
    decide (1 ≤ le l (o + 4) 4 ∧ le l (o + 4) 4 ≤ 2 ^ 24 ∧ 2 ≤ le l (o + 8) 2 ∧ le l (o + 8) 2 ≤ 1024 ∧ 2 ≤ le l (o + 10) 2
      ∧ le l (o + 10) 2 ≤ 1024 ∧ le l (o + 12) 1 < 32 ∧ le l (o + 13) 3 = 0))
    && (List.range n).all (fun i => match bs[i]?, bs[i + 1]? with
      | some a, some b => decide (a.start + a.len ≤ b.start)
      | some a, none => !a.join
      | _, _ => true)

/-- A table's value at x = `a / b`, rounded half to even. -/
def rampAt (t : List Nat) (a b : Nat) : Int :=
  let i := a / b
  let v0 : Int := (t.getD i 0 : Nat)
  if 63 ≤ i then (t.getD 63 0 : Nat)
  else rneDiv (v0 * b + ((t.getD (i + 1) 0 : Nat) - v0) * (a % b : Nat)) b

/-- Gain of sample `n` (R248). -/
def rampGain (ts : List (List Nat)) (bs : List SvBurst) (n : Int) : Int :=
  (List.range bs.length).foldl (fun (g : Int) i =>
    match bs[i]? with
    | none => g
    | some b =>
      let joined := match i with
        | 0 => false
        | j + 1 => match bs[j]? with | some p => p.join | none => false
      let stop := b.start + b.len
      let c :=
        if b.start ≤ n ∧ n < stop then 0x8000
        else if n < b.start then
          (if b.start - b.up ≤ n ∧ joined = false then rampAt (ts.getD b.tu []) ((n - (b.start - b.up)).toNat * 63) (b.up - 1) else 0)
        else if b.join then
          (match bs[i + 1]? with | some q => if n < q.start then 0x8000 else 0 | none => 0)
        else if n < stop + b.dn then
          rampAt (ts.getD b.td []) (63 * (b.dn - 1) - (n - stop).toNat * 63) (b.dn - 1)
        else 0
      max g c) 0

/-- RAMP (R248). -/
def svRamp (r : SvRec) (ts : List (List Nat)) (bs : List SvBurst) (x : SvFlow) : SvFlow :=
  let y := svRounds r.shift (2 ^ 15) ((List.range x.xs.length).map (fun (i : Nat) =>
    let p := x.xs.getD i (0, 0)
    let g := rampGain ts bs i
    (p.1 * g, p.2 * g)))
  { x with xs := y.1, sat := x.sat + y.2 }

/-- The last burst joined to burst `i`. -/
def joinEnd (bs : List SvBurst) : Nat → Nat → Nat
  | 0, i => i
  | n + 1, i => match bs[i]? with | some b => if b.join then joinEnd bs n (i + 1) else i | none => i

/-- Envelope records of bursts whose ramp-up begins in the job (R249): entry, PA_ON, PA_OFF. -/
def envRecords (d : List Byte) (r : SvRec) (bs : List SvBurst) (x : SvFlow) : List Byte :=
  let time := fun (n : Int) => (x.t0 + (n : Rat) * x.per) * (fracSec : Rat) / (svFs d : Rat)
  (List.range bs.length).flatMap (fun i =>
    match bs[i]? with
    | none => []
    | some b =>
      let joined := match i with
        | 0 => false
        | j + 1 => match bs[j]? with | some p => p.join | none => false
      let n0 : Int := b.start - (b.up : Int)
      if joined = true ∨ n0 < 0 ∨ (x.xs.length : Int) ≤ n0 then []
      else
        let last := (bs[joinEnd bs 64 i]?).getD b
        let on := svTs d + rneRat (time n0) - ((r.p2 % 2 ^ 16 * 65536 : Nat) : Int)
        let off := svTs d + rneRat (time (last.start + (last.len : Int) + (last.dn : Int) - 1)) + ((r.p2 / 2 ^ 16 * 65536 : Nat) : Int)
        natLe 2 i ++ natLe 2 0 ++ tsBytes on ++ tsBytes off ++ natLe 4 0)

/-! ## Detectors (R242, R243) -/

/-- What a detector reports: bytes 24-25, 26-27, 28-31, 32-35 and 36-39 of the result record. -/
structure SvDet where
  a : Int
  b : Int
  i0 : Nat
  i1 : Nat
  n : Nat

/-- Power of a sample in 2^-158 of full scale's square, `q` being the exponent that refers it to the input. -/
def svPower (q : Int) (p : Int × Int) : Nat := (p.1 * p.1 + p.2 * p.2).toNat * 2 ^ (128 + 2 * q).toNat

/-- Level of a mean power: sum over `n` samples. -/
def svLevel (sum n : Nat) : Int := dbLevel sum (n * 2 ^ 158)

/-- |v| in 1/256, rounded half to even. -/
def svMag (q : Int) (p : Int × Int) : Nat :=
  let x := (p.1 * p.1 + p.2 * p.2).toNat * 4 * 2 ^ (2 * q + 144).toNat -- 4 v^2 in units of 2^-128 of (1/256)^2
  let s := Nat.sqrt (x / 2 ^ 128)
  if s % 2 = 1 ∧ s * s * 2 ^ 128 = x then (if s / 2 % 2 = 0 then s / 2 else s / 2 + 1) else (s + 1) / 2

def noIndex : Nat := 0xFFFFFFFF

/-- PEAK: level and index of the maximum, samples at or above THR_A. -/
def detPeak (r : SvRec) (q : Int) (xs : List (Int × Int)) : SvDet :=
  let ps := xs.map (svPower q)
  let top := ps.foldl max 0
  ⟨svLevel top 1, 0, (lowest ps.length (fun i => decide (ps.getD i 0 = top))).getD noIndex, 0,
   (ps.filter (fun p => decide (thrA r ≤ svLevel p 1))).length⟩

/-- Complete windows of `w` samples: the levels, and the sum and count left over. -/
def rmsWins (w : Nat) : List Nat → Nat → Nat → List Int → List Int × Nat × Nat
  | [], sum, n, acc => (acc, sum, n)
  | p :: t, sum, n, acc =>
    if n + 1 = w then rmsWins w t 0 0 (acc ++ [svLevel (sum + p) w]) else rmsWins w t (sum + p) (n + 1) acc

/-- What RMS reports from the levels of its windows; with none complete the levels are free. -/
def detRms (r : SvRec) (ls : List Int) (free : Nat) : SvDet :=
  match ls.getLast? with
  | some l => ⟨l, ls.foldl max l, ls.length, 0, (ls.filter (fun x => decide (thrA r ≤ x))).length⟩
  | none => ⟨sgn 16 free, sgn 16 (free / 2 ^ 16), 0, 0, 0⟩

/-- ENV over the samples: envelope, HIGH or LOW, its maximum, the first transitions and their number. How a step's
fraction behind the eighth bit is rounded is open (log 98). -/
def detEnv (r : SvRec) (q : Int) : List (Int × Int) → Nat → Nat → Nat × SvDet → Nat × Nat × Nat × SvDet
  | [], _, env, acc => (env, acc.1, 0, acc.2)
  | p :: t, i, env, (high, o) =>
    let delta : Int := (svMag q p : Int) - (env : Int)
    let k := r.p0
    let step := delta / (2 ^ k : Nat)
    let env' := ((env : Int) + step + (if delta % (2 ^ k : Nat) = 0 then 0 else b2n (Config.envUp env delta k))).toNat
    let lv := dbLevel (env' ^ 2) (2 ^ 46)
    let o1 := { o with a := max o.a lv }
    let up := decide (high = 0 ∧ thrA r ≤ lv)
    let dn := decide (high = 1 ∧ lv ≤ thrB r)
    let o2 := if up then { o1 with i0 := if o1.i0 = noIndex then i else o1.i0, n := o1.n + 1 }
      else if dn then { o1 with i1 := if o1.i1 = noIndex then i else o1.i1, n := o1.n + 1 } else o1
    detEnv r q t (i + 1) env' (if up then 1 else if dn then 0 else high, o2)

/-! ## Listen-before-talk (R250, R251) -/

def usU : Int := 1000 * nsU

/-- The period that ends at `t` closes: idle or busy, and what follows. -/
def lbtClose (s : State) (c : Nat) (t : Int) : State :=
  let x := s.lbt c
  let idle := decide (0 < x.count ∧ x.gap = false ∧ svLevel x.power x.count ≤ sgn 16 (s.rf (svA c 0x34) 15 0))
  let next := fun (s : State) (len : Int) => s.setLbt c { x with start := some t, len := len, power := 0, count := 0, gap := false }
  let st := svA c 0x4C
  if !idle then next (((s.cnt (svA c 0x50) 1).wf st 2 0 1).wf st 18 16 0) (16 * usU)
  else if lbtState s c = 1 then
    let done := if x.len = 16 * usU then 0 else s.rf st 18 16 + 1
    let s1 := s.wf st 18 16 done
    if done < s.rf (svA c 0x38) 2 0 then next s1 (9 * usU)
    else if s.rf st 13 4 = 0 then lbtAcquire s1 c t
    else next (s1.wf st 2 0 2) (9 * usU)
  else
    let n := s.rf st 13 4 - 1
    let s1 := s.wf st 13 4 n
    if n = 0 then lbtAcquire s1 c t else next s1 (9 * usU)

/-- Close every period that ends by `t`, gathering the levels of those that held samples and no gap. -/
def lbtUntil (c : Nat) (t : Int) : Nat → State × List Int → State × List Int
  | 0, q => q
  | n + 1, q =>
    let s := q.1
    let x := s.lbt c
    match x.start with
    | some t0 =>
      if (lbtState s c = 1 ∨ lbtState s c = 2) ∧ t0 + x.len ≤ t then
        lbtUntil c t n (lbtClose s c (t0 + x.len), if 0 < x.count ∧ x.gap = false then q.2 ++ [svLevel x.power x.count] else q.2)
      else q
    | none => q

/-- One sample at time `t` with power `p`. -/
def lbtSample (c : Nat) (q : State × List Int) (t : Int) (p : Nat) : State × List Int :=
  let fuel := match (q.1.lbt c).start with | some t0 => ((t - t0) / (9 * usU)).toNat + 2 | none => 0
  let q1 := lbtUntil c t fuel q
  let s := q1.1
  if lbtState s c = 3 then (if (s.lbt c).cotEnd ≤ t then (lbtRelease s c, q1.2) else q1)
  else if lbtState s c = 0 then q1
  else
    let x := s.lbt c
    let y := if x.start.isSome then x else { x with start := some t, len := 16 * usU, power := 0, count := 0, gap := false }
    (s.setLbt c { y with power := y.power + p, count := y.count + 1 }, q1.2)

/-- The samples of a job's DET stage (R250): corrected times from `t0` in steps of `per` input periods. -/
def lbtFeed (s : State) (c : Nat) (d : List Byte) (q : Int) (x : SvFlow) (gap : Bool) : State × List Int :=
  let s1 := if gap ∧ (s.lbt c).start.isSome then s.setLbt c { s.lbt c with gap := true } else s
  (List.range x.xs.length).foldl (fun r (i : Nat) =>
    let t := svTs d * fracU + rneRat ((x.t0 + (i : Rat) * x.per) * (secU : Rat) / (svFs d : Rat))
    lbtSample c r t (svPower q (x.xs.getD i (0, 0)))) (s1, [])

/-! ## The chain -/

/-- What has come of a job so far. -/
structure SvRun where
  s : State
  flow : SvFlow
  bins : List (List (Int × Int))
  states : List Stage
  q : Int                       -- exponent at this place less IN_EXP
  det : SvDet
  mode : Option Nat
  env : List Byte
  cost : Nat

/-- What a stage brings with it: its coefficients, bins and bursts. -/
structure SvAux where
  coef : List Int
  bins : List Nat
  bursts : List SvBurst

/-- Ramp table `t` of chain `c` (R245). -/
def rampTable (s : State) (c t : Nat) : List Nat :=
  (List.range 64).map (fun i => let w := s.rd (svA c (0x100 + t * 0x80 + i / 2 * 4)); if i % 2 = 0 then fld w 15 0 else fld w 31 16)

/-- One stage. -/
def svStage (e : Nat) (d : List Byte) (fresh gap : Bool) (r : SvRec) (aux : SvAux) (old : Stage) (ins : List (List (Int × Int))) (x : SvRun) : SvRun :=
  let c := engInst e
  let tx := svTx d
  let put := fun (p : SvFlow × Stage) => { x with flow := p.1, states := x.states ++ [p.2], q := x.q + r.shift }
  let y : SvRun := match r.typ with
    | 1 => put (svNco r (if fresh ∨ r.mode = 1 then { old with phase := r.p0 / 2 ^ 32 } else old) x.flow)
    | 2 => put (svFilter tx 2 (hbTaps tx r.mode) (Config.hbDen r.mode + 1) r.shift old x.flow)
    | 3 => put (svFilter tx r.factor aux.coef (2 ^ 15) r.shift old x.flow)
    | 4 => put (svFilter tx r.factor (cicTaps r.factor r.np) 1 r.shift old x.flow)
    | 5 => put (svResamp r old x.flow)
    | 6 =>
      if tx then put (svChanTx r aux.coef aux.bins old ins x.flow)
      else let z := svChanRx r aux.coef aux.bins old x.flow; { put z.2 with bins := z.1 }
    | 7 =>
      let xs := x.flow.xs
      (match r.mode with
      | 0 => { x with det := detPeak r x.q xs, mode := some 0, states := x.states ++ [old] }
      | 1 =>
        let f := x.s.draw
        if svLbt d then
          let z := lbtFeed f.2 c d x.q x.flow gap
          { x with s := z.1, det := detRms r z.2 f.1, mode := some 1, states := x.states ++ [old] }
        else
          let z := rmsWins r.p0 (xs.map (svPower x.q)) (if gap then 0 else old.sum) (if gap then 0 else old.cnt) []
          { x with s := f.2, det := detRms r z.1 f.1, mode := some 1, states := x.states ++ [{ old with sum := z.2.1, cnt := z.2.2 }] }
      | _ =>
        let z := detEnv r x.q xs 0 old.env (old.phase, ⟨-32768, 0, noIndex, noIndex, 0⟩)
        { x with det := z.2.2.2, mode := some 2, states := x.states ++ [{ old with env := z.1, phase := z.2.1 }] })
    | _ =>
      let ts := (List.range 4).map (rampTable x.s c)
      { put (svRamp r ts aux.bursts x.flow, old) with env := envRecords d r aux.bursts x.flow }
  let nin := if r.typ = 6 ∧ tx then (ins.map List.length).sum else x.flow.xs.length
  let nout := if r.typ = 6 ∧ !tx then (y.bins.map List.length).sum else y.flow.xs.length
  let fir := if r.typ = 3 then cdiv (nout * cdiv r.np (if tx then r.factor else 1)) 64 else 0
  { y with cost := max x.cost (max (cdiv (max nin nout) 4) fir) }

/-- All stages in order. -/
def svAll (e : Nat) (d : List Byte) (fresh gap : Bool) (auxs : List SvAux) (olds : List Stage) (ins : List (List (Int × Int))) (x : SvRun) : SvRun :=
  (List.range (svStages d)).foldl (fun x i =>
    let r := svRec d i
    let old := if fresh then stageZero r else olds.getD i (stageZero r)
    svStage e d fresh gap r (auxs.getD i ⟨[], [], []⟩) old ins x) x

/-! ## The job (R238-R241, R244) -/

/-- Read what stages `i`, `i + 1`, ... bring, and go on; none where a list breaks its rules. -/
def svAuxs (e : Nat) (d : List Byte) : Nat → Nat → State → (Option (List SvAux) → State → JobRes) → JobRes
  | 0, _, s, k => k (some []) s
  | n + 1, i, s, k =>
    let r := svRec d i
    let buf := ownGlobal s (eBuf e)
    let chan := decide (r.typ = 6)
    eGetAll e [(buf + r.cofs, svCoefs r), (buf + r.p0 % 2 ^ 16, if chan then r.p0 / 2 ^ 16 else 0),
               (r.p0, if r.typ = 8 then 16 * r.np else 0)] s (fun ls s =>
      let bl := (ls.getD 1 []).map BitVec.toNat
      let raw := ls.getD 2 []
      if (chan && !(decide bl.Nodup && bl.all (fun b => decide (b < r.factor)))) || (decide (r.typ = 8) && !svBurstsGood r.np raw) then k none s
      else svAuxs e d n (i + 1) s (fun o s => k (o.map (fun l =>
        ⟨taps16 (ls.getD 0 []), bl, if r.typ = 8 then svBursts r.np raw else []⟩ :: l)) s))

/-- The envelope-record area of a chain with a RAMP. -/
def svEnvAddr (d : List Byte) : Nat := ((svRecs d).find? (fun (r : SvRec) => decide (r.typ = 8))).elim 0 SvRec.p1

/-- Output, result record and context of a job. -/
def svFinish (e : Nat) (d : List Byte) (ctx : Option ResCtx) (fresh gap : Bool) (s0 : State) (x : SvRun) : JobRes :=
  let multi := decide (svTx d = false) && (svRecs d).any (fun (r : SvRec) => decide (r.typ = 6))
  let outs := if multi then x.bins else [x.flow.xs]
  let osh := sgn 8 (le d 4 1)
  let conv := fun (v : Int) => let z := rneDiv v (2 ^ (8 + osh).toNat); (satS 16 z, b2n (decide (satS 16 z ≠ z)))
  let ys := outs.map (fun l => l.map (fun p => (conv p.1, conv p.2)))
  let sat := x.flow.sat + (ys.map (fun l => (l.map (fun p => p.1.2 + p.2.2)).sum)).sum
  let n := (ys.map List.length).foldl max 0
  if le d 52 4 < n then jobEnd s0 0x80 0 0
  else
    let c := engInst e
    let ev := decide (x.mode.isSome = true ∧ x.det.n ≠ 0)
    let fl := b2n fresh + 2 * b2n gap + 4 * b2n ev
    let period : Rat := (fracSec : Rat) / (svFs d : Rat)
    let outTs := svTs d + rneRat (x.flow.t0 * period)
    let det := fun (w v : Nat) => natLe w (if x.mode.isSome then v else 0)
    let record := natLe 4 n ++ natLe 1 ys.length ++ natLe 1 (uns 8 (svInExp d + x.q + 8 + osh)) ++ natLe 1 fl ++ natLe 1 0 ++ tsBytes outTs
      ++ natLe 4 sat ++ det 2 (uns 16 x.det.a) ++ det 2 (if x.mode = some 1 then uns 16 x.det.b else 0) ++ det 4 x.det.i0
      ++ det 4 (if x.mode = some 2 then x.det.i1 else 0) ++ det 4 x.det.n ++ List.replicate 24 0
    let ws := (List.range ys.length).map (fun i =>
      (le d 40 8 + (if multi then i * le d 48 4 else 0), (ys.getD i []).flatMap (fun p => ci16 (p.1.1, p.2.1))))
    let s1 := x.s.cnt (eA e 0x10) sat
    let s2 := if gap then s1.cnt (svA c 0x2C) 1 else s1
    ePutAll e (ws ++ [(svEnvAddr d, x.env), (le d 56 8, record)]) s2 (fun s =>
      let next := svTs d + rneRat ((svN d : Rat) * period)
      let image := sub d 8 4 ++ natLe 4 1 ++ tsBytes next ++ List.replicate 44 0
      jobOk (match ctx with | some k => setCtx s e k.addr image x.states | none => s) fl (48 + x.cost))

/-- A sieve chain job behind its context. -/
def svRun (e : Nat) (d : List Byte) (ctx : Option ResCtx) (auxs : List SvAux) (s : State) : JobRes :=
  let img := match ctx with | some c => c.image | none => []
  let fresh := !(tb (le img 4 1) 0 && decide (le img 0 4 = le d 8 4))
  let dt : Int := svTs d - tsOf img 8
  let gap := !fresh && decide ((fracSec : Int) < 2 * dt.natAbs * (svFs d : Int))
  let first := svRec d 0
  let streams := if svTx d ∧ first.typ = 6 then first.p0 / 2 ^ 16 else 1
  eGetAll e ((List.range streams).map (fun i => (le d 32 8 + i * le d 48 4, 4 * svN d))) s (fun ls s =>
    let ins := ls.map (fun l => (unCi16 l).map (fun p => (p.1 * 256, p.2 * 256)))
    let x0 : SvRun := ⟨s, ⟨ins.getD 0 [], 0, 1, 0⟩, [], [], -8, ⟨0, 0, 0, 0, 0⟩, none, [], 0⟩
    let olds := match ctx with | some c => c.stages | none => []
    svFinish e d ctx fresh gap s (svAll e d fresh gap auxs olds ins x0))

/-- A sieve chain job from its descriptor. -/
def svJob (e : Nat) (d : List Byte) (ctx : Nat) (s : State) : JobRes :=
  if !svGood d then badDesc s
  else
    svAuxs e d (svStages d) 0 s (fun o s =>
      match o with
      | none => badDesc s
      | some auxs => if ctx = 0 then svRun e d none auxs s else withCtx e ctx s (fun c s => svRun e d (some c) auxs s))

end Sys2Proof.Machine
end

