-- ==== Sys2Proof/Machine/Jobs.lean ====
section
/-! DEFINITION. Running the engines: the start and completion of jobs (R151, R155, R189), chained jobs and the rows
of their slots (R187, R195). -/

namespace Sys2Proof.Machine

/-! ## A hitch's job -/

/-- The job of a descriptor, with its context's local address (0 for none). -/
def jobOf (e : Nat) (d : List Byte) (ctx : Nat) (s : State) : JobRes :=
  match engClass e with
  | 0 => fftJob e d ctx none s
  | 1 => mtxJob e d ctx s
  | 2 => dcJob e d s
  | 3 => enJob e d s
  | 4 => plrJob e d s
  | 5 => dcJob e d s
  | 6 => trJob e d s
  | 7 => hqJob e d s
  | 8 => prJob e d s
  | 9 => svJob e d ctx s
  | _ => nbJob e d s

/-- Read the descriptor: 192 bytes for a matrix job, as many stages as it names for a sieve chain, else 64. -/
def withDesc (e g : Nat) (s : State) (k : List Byte → State → JobRes) : JobRes :=
  match engClass e with
  | 1 => eGet e g 192 s k
  | 9 => eGet e g 64 s (fun h s => eGet e (g + 64) (32 * min (le h 2 1) 8) s (fun t s => k (h ++ t) s))
  | _ => eGet e g 64 s k

/-- A command's job (R155): CTX is checked before the descriptor is read. -/
def runCommand (e : Nat) (j : EJob) (s : State) : JobRes :=
  let n := ctxBytes (engClass e)
  if j.ctx ≠ 0 ∧ (n = 0 ∨ areaFits j.ctx n = false) then jobEnd s 3 0 0
  else withDesc e (ownGlobal s (areaAddr j.h j.desc)) s (fun d s => jobOf e d (if j.ctx = 0 then 0 else areaAddr j.h j.ctx) s)

/-- A run at its start. -/
def newRun (s : State) (j : Option EJob) (c : Option ChainIn) : ERun :=
  ⟨j, c, 0, 0, 0, 0, 0, false, 0, s.now, s.now, 0, 0, 0, 0, [], [], [], [], [], none, none⟩

/-- A job's outcome goes into its run. -/
def endRun (e : Nat) (r : JobRes) : State :=
  modRun r.s e (fun x => { x with status := r.status, rsp := r.rsp, summary := r.summary, occ := r.occ })

/-! ## Chained jobs (R187, R195) -/

/-- Results of the blocks decoded so far. -/
def decOuts (turbo : Bool) (d : List Byte) (r : ERun) : DecOut :=
  (List.range r.flags.length).map (fun c =>
    let ofs := ((List.range c).map (dcBits turbo d)).sum
    let f := r.flags.getD c (0, false, false)
    ((r.bits.drop ofs).take (dcBits turbo d c), f.1, f.2.1, f.2.2))

/-- The last block is in: the chained job's output is written. -/
def chainEnd (e : Nat) (s : State) : JobRes :=
  match (s.eng e).run with
  | none => jobOk s 0 0
  | some r =>
    if engClass e = 7 then
      let p := packFree s r.bits
      ePut e (le r.desc 40 8) p.1 p.2 (fun s => jobOk s 0 (hqOcc r.desc r.list))
    else
      let turbo := dcTurbo e
      dcFinish e r.desc (decOuts turbo r.desc r) (64 + r.occ) s

/-- One block of a chained job: read from its slot, which is released, and worked on. -/
def chainBlock (e : Nat) (i : ChainIn) (s0 : State) : State :=
  let s := s0.modEng e (fun x => { x with chainQ := x.chainQ.erase i })
  match (s.eng e).run with
  | none => s
  | some r =>
    let next := fun (s : State) => if i.last then endRun e (chainEnd e s) else modRun s e (fun r => { r with phase := 5 })
    let fin := fun (s : State) => modRun s e (fun r => { r with phase := if i.last then 0 else 5 })
    if r.status ≠ 0 then fin (releaseSlot s i.prod e i.slot)
    else
      let g := ownGlobal s (slotAddr' i.prod e i.slot)
      let n := if i.skip then 0 else if engClass e = 7 then cdiv (codedBits r.desc) 8 else dcNcb r.desc
      let x := eRead s e g n
      let s1 := releaseSlot x.2.2 i.prod e i.slot
      if x.1 ≠ rspOk then fin (endRun e (jobFail s1 x.1))
      else if engClass e = 7 then
        let b := dlBits r.desc r.list i.idx (dlOffset r.list i.idx) x.2.1
        fin (next (modRun s1 e (fun r => { r with bits := r.bits ++ b })))
      else
        let turbo := dcTurbo e
        let rows := dcRows r.desc true i.high
        let o := dcBlock turbo r.desc i.idx rows x.2.1 i.skip
        fin (next (modRun s1 e (fun r => { r with bits := r.bits ++ o.1, flags := r.flags ++ [o.2],
                                                  occ := r.occ + dcBlockOcc turbo r.desc rows o.2.1 })))

/-- A chained job starts: its descriptor and list are read and checked, and its first block is worked on. -/
def chainStart (e : Nat) (i : ChainIn) (s0 : State) : State :=
  let s := s0.modEng e (fun x => { x with run := some (newRun s0 none (some i)) })
  if engClass e = 0 then
    let s1 := s.modEng e (fun x => { x with chainQ := x.chainQ.erase i })
    let r := eRead s1 e i.desc 64
    if r.1 ≠ rspOk then endRun e (jobFail (releaseSlot r.2.2 i.prod e i.slot) r.1)
    else endRun e (fftJob e r.2.1 0 (some (i.prod, i.slot)) r.2.2)
  else
    let j := eGet e i.desc 64 s (fun d s =>
      let keep := fun (l : List Byte) (s : State) => jobOk (modRun s e (fun r => { r with desc := d, list := l })) 0 0
      if engClass e = 7 then
        if !hqGood d true then badDesc s
        else eGet e (le d 48 8) (hqListBytes d) s (fun l s => if hqListGood d l then keep l s else badDesc s)
      else if dcGood (dcTurbo e) d true then keep [] s else badDesc s)
    chainBlock e i (endRun e j)

/-! ## Start (R155, R187, R189, R190) -/

/-- ENGINE_JOB_START: the block that a chained job waits for, else the next chained job, else the next confirmed
command unless the engine is paused. -/
def engineJobStart (s : State) (e : Nat) : State :=
  let x := s.eng e
  if eHeld s e ∨ s.shedReady (eShed e) = false then s
  else
    match x.run with
    | some r =>
      if r.phase = 5 then
        (match r.chain with
        | some c => (match x.chainQ.find? (fun (i : ChainIn) => decide (i.prod = c.prod)) with
          | some i => chainBlock e i s
          | none => s)
        | none => s)
      else s
    | none =>
      match x.chainQ with
      | i :: _ => chainStart e i s
      | [] =>
        if s.rb (eA e 0) 1 then s
        else
          match x.queue.find? (fun (j : EJob) => j.conf) with
          | some j =>
            let q : List EJob := x.queue.erase j
            endRun e (runCommand e j (s.setEng e { x with queue := q, run := some (newRun s (some j) none) }))
          | none => s

/-! ## Completion (R151, R187, R195) -/

/-- A PRACH job's report is posted to its hatch (R227). -/
def postReport (s : State) (e : Nat) : State :=
  match (s.eng e).run with
  | some r =>
    match r.post with
    | some (h, w) =>
      let q := s.ni (eEp e) hatEp
      let p := if q.1 = rspOk then hatchPost q.2 (eEp e) h w else q
      let b := p.2.back (eEp e) hatEp p.1
      if b.1 = rspOk then b.2
      else modRun (b.2.cnt (eA e 0x3C) 1) e (fun r => { r with status := 0x80, rsp := b.1 })
    | none => s
  | none => s

/-- The record write that waits is made (R199 step 6); one that fails decides the status. -/
def settleRecord (s : State) (e : Nat) : State :=
  let r := flushRec e s (fun s => jobOk s 0 0)
  if r.status = 0 then r.s else modRun r.s e (fun x => { x with status := r.status, rsp := r.rsp })

/-- Cycles a run has occupied its engine: its occupancy, and the cycles it has waited beyond it (R177, R185). -/
def runCycles (s : State) (r : ERun) : Nat := max r.occ ((s.now - r.since) / enginePeriod s)

/-- Source of a chained job: the hitch that posted its producer's. -/
def chainSource (s : State) (i : ChainIn) : Nat :=
  match (s.eng i.prod).run with
  | some p => (match p.job with | some j => hEp j.h | none => 0)
  | none => 0

/-- The finished run of `e` leaves it: the completion goes to its hitch, or the report to its producer. -/
def finishRun (s0 : State) (e : Nat) : State :=
  match (s0.eng e).run with
  | none => s0
  | some r0 =>
    let s1 := postReport (settleRecord (s0.until (r0.since + r0.occ * enginePeriod s0)) e) e
    match (s1.eng e).run with
    | none => s1
    | some r =>
      let s2 := (s1.cnt (eA e 0xC) (runCycles s1 r)).modEng e (fun x => { x with run := none })
      match r.job, r.chain with
      | some j, _ => sendComp s2 e j r.status r.rsp r.ctxSw r.summary r.ctxCyc
      | none, some i =>
        let s3 := countJob s2 e r.status r.rsp (chainSource s2 i)
        let q := s3.niPosted (eEp e) (eEp i.prod)
        if q.1 then q.2.modEng i.prod (fun x => { x with reports := x.reports ++ [(r.status + r.rsp * 256, r.summary)] }) else q.2
      | none, none => s2

/-- ENGINE_JOB_COMPLETE. -/
def engineJobComplete (s : State) (e : Nat) : State :=
  match (s.eng e).run with
  | some r => if r.phase = 0 then finishRun s e else s
  | none => s

/-- CHAIN_STATUS_REPORT: the chained job's report reaches its producer, which completes. -/
def chainReport (s : State) (e : Nat) : State :=
  let x := s.eng e
  match x.run, x.reports with
  | some r, (st, sm) :: t =>
    if r.phase = 4 then
      let bad := decide (st % 256 ≠ 0)
      let own := decide (engClass e = 1 ∧ sm = 0)
      finishRun (modRun (s.modEng e (fun x => { x with reports := t })) e (fun r =>
        { r with phase := 0, status := if bad then st % 256 else r.status, rsp := if bad then st / 256 else r.rsp,
                 summary := if own then r.summary else sm })) e
    else s
  | _, _ => s

/-! ## Slots (R187 steps 2-4, R195) -/

/-- Areas that fill a granted slot. -/
def slotWrites (s : State) (e : Nat) (r : ERun) (slot : Nat) : List (Nat × List Byte) :=
  let g := ownGlobal s (slotAddr' e r.cons slot)
  if engClass e = 1 then
    [(g, ((r.todo[0]?).map ChainOut.data).getD []), (g + 0x1F000, ((r.todo[1]?).map ChainOut.data).getD [])]
  else [(g, ((r.todo[r.sent]?).map ChainOut.data).getD [])]

/-- Ask the consumer for a slot: granted, it is filled; refused, the producer waits. -/
def slotRequest (s : State) (e : Nat) : State :=
  match (s.eng e).run with
  | none => s
  | some r =>
    let q := s.ni (eEp e) (eEp r.cons)
    let code := if q.1 ≠ rspOk then q.1 else if eHeld q.2 r.cons then rspTgt else rspOk
    let b := if q.1 = rspOk then q.2.back (eEp e) (eEp r.cons) code else q
    if b.1 ≠ rspOk then chainFail b.2 e b.1
    else
      match freeSlot b.2 e r.cons with
      | none => modRun b.2 e (fun r => { r with phase := 2, asked := b.2.now })
      | some i =>
        let w := ePutAll e (slotWrites b.2 e r i) (grantSlot b.2 e r.cons i) (fun s => jobOk s 0 0)
        if w.status = 0 then modRun w.s e (fun r => { r with phase := 3, slot := i })
        else chainFail w.s e (if w.status = 1 then rspUe else w.rsp)

/-- The request is repeated 64 engine cycles after its refusal, and the wait counted. -/
def slotRetry (s : State) (e : Nat) : State :=
  match (s.eng e).run with
  | some r =>
    if r.phase = 2 then
      slotRequest ((s.until (r.asked + 64 * enginePeriod s)).cnt (eA e (if engClass e = 1 then 0x2C else 0x30)) 64) e
    else s
  | none => s

/-- The filled slot is announced, and the consumer accepts it. -/
def slotReady (s : State) (e : Nat) : State :=
  match (s.eng e).run with
  | some r =>
    if r.phase ≠ 3 then s
    else
      let q := s.ni (eEp e) (eEp r.cons)
      let code := if q.1 ≠ rspOk then q.1 else if eHeld q.2 r.cons then rspTgt else rspOk
      let b := if q.1 = rspOk then q.2.back (eEp e) (eEp r.cons) code else q
      if b.1 ≠ rspOk then chainFail b.2 e b.1
      else
        let o := (r.todo[r.sent]?).getD ⟨[], 0, false⟩
        let last := decide (engClass e = 1 ∨ r.todo.length ≤ r.sent + 1)
        let i : ChainIn := ⟨e, r.cdesc, r.slot, o.high, o.skip, r.sent, last⟩
        let s1 := b.2.modEng r.cons (fun x => { x with chainQ := x.chainQ ++ [i] })
        modRun s1 e (fun r => { r with phase := if last then 4 else 1, sent := r.sent + 1 })
  | none => s

/-- A row for producers of one kind: a matrix engine, or an encoder or HARQ engine. -/
def chainRow (matrix : Bool) (f : State → Nat → State) (s : State) (e : Nat) : State :=
  if matrix = decide (engClass e = 1) then f s e else s

/-- Ask, where the run stands before its request. -/
def slotAsk (s : State) (e : Nat) : State :=
  match (s.eng e).run with
  | some r => if r.phase = 1 then slotRequest s e else s
  | none => s

/-! ## Meanings -/

/-- R155, R187, R189. -/
def execEngineJobStart (e : Nat) (s : State) : Out := engEvent engineJobStart e s
/-- R151. -/
def execEngineJobComplete (e : Nat) (s : State) : Out := engEvent engineJobComplete e s
/-- R187. -/
def execChainHalfRequest (e : Nat) (s : State) : Out := engEvent (chainRow true slotAsk) e s
/-- R187. -/
def execChainHalfRetry (e : Nat) (s : State) : Out := engEvent (chainRow true slotRetry) e s
/-- R187. -/
def execChainedJobSend (e : Nat) (s : State) : Out := engEvent (chainRow true slotReady) e s
/-- R187, R195. -/
def execChainStatusReport (e : Nat) (s : State) : Out := engEvent chainReport e s
/-- R195. -/
def execChainSlotRequest (e : Nat) (s : State) : Out := engEvent (chainRow false slotAsk) e s
/-- R195. -/
def execChainSlotReady (e : Nat) (s : State) : Out := engEvent (chainRow false slotReady) e s
/-- R195. -/
def execChainSlotRetry (e : Nat) (s : State) : Out := engEvent (chainRow false slotRetry) e s

end Sys2Proof.Machine
end

