-- ==== Sys2Proof/Machine/Dispatch.lean ====
section
/-! DEFINITION. The dispatch of a command to its meaning: one arm per constructor of Instr. -/

namespace Sys2Proof.Machine

def exec (i : Instr) (s : State) : Host.Outcome State Fault Refusal :=
  match i with
  | .registerWrite src addr size val => Sys2Proof.Machine.execRegisterWrite src addr size val s
  | .rcRead src addr size => Sys2Proof.Machine.execRcRead src addr size s
  | .groupCaptureRead src addr => Sys2Proof.Machine.execGroupCaptureRead src addr s
  | .tickEdge t => Sys2Proof.Machine.execTickEdge t s
  | .trainEnable t => Sys2Proof.Machine.execTrainEnable t s
  | .trainDisable t => Sys2Proof.Machine.execTrainDisable t s
  | .trainSlewEnd t => Sys2Proof.Machine.execTrainSlewEnd t s
  | .ymTick t => Sys2Proof.Machine.execYmTick t s
  | .planCommit p => Sys2Proof.Machine.execPlanCommit p s
  | .planCheckDone p => Sys2Proof.Machine.execPlanCheckDone p s
  | .taskPlace p inst task => Sys2Proof.Machine.execTaskPlace p inst task s
  | .ymEvent => Sys2Proof.Machine.execYmEvent s
  | .threadStop g t => Sys2Proof.Machine.execThreadStop g t s
  | .preemptSwitch g => Sys2Proof.Machine.execPreemptSwitch g s
  | .dispatchOffer g => Sys2Proof.Machine.execDispatchOffer g s
  | .kEnd g => Sys2Proof.Machine.execKEnd g s
  | .kYield g => Sys2Proof.Machine.execKYield g s
  | .kArm g => Sys2Proof.Machine.execKArm g s
  | .kBlock g => Sys2Proof.Machine.execKBlock g s
  | .kOutDone g => Sys2Proof.Machine.execKOutDone g s
  | .kSignal g => Sys2Proof.Machine.execKSignal g s
  | .kTake g => Sys2Proof.Machine.execKTake g s
  | .kernelBadCommand g code => Sys2Proof.Machine.execKernelBadCommand g code s
  | .ymAct src addr => Sys2Proof.Machine.execYmAct src addr s
  | .bundle g => Sys2Proof.Machine.execBundle g s
  | .interruptEntry g => Sys2Proof.Machine.execInterruptEntry g s
  | .budgetExhaust g => Sys2Proof.Machine.execBudgetExhaust g s
  | .timerMatch g => Sys2Proof.Machine.execTimerMatch g s
  | .wfeWake g => Sys2Proof.Machine.execWfeWake g s
  | .farLoadResponse g => Sys2Proof.Machine.execFarLoadResponse g s
  | .farStoreResponse g => Sys2Proof.Machine.execFarStoreResponse g s
  | .fenceComplete g => Sys2Proof.Machine.execFenceComplete g s
  | .vectorDatapathDone g => Sys2Proof.Machine.execVectorDatapathDone g s
  | .vectorSwitchDone g => Sys2Proof.Machine.execVectorSwitchDone g s
  | .vectorSwitchAbandon g => Sys2Proof.Machine.execVectorSwitchAbandon g s
  | .vecFlush g => Sys2Proof.Machine.execVecFlush g s
  | .vecReload g => Sys2Proof.Machine.execVecReload g s
  | .hitchStallEnd g => Sys2Proof.Machine.execHitchStallEnd g s
  | .postResponse h => Sys2Proof.Machine.execPostResponse h s
  | .enginePost e => Sys2Proof.Machine.execEnginePost e s
  | .engineConfirm e => Sys2Proof.Machine.execEngineConfirm e s
  | .engineWithdraw e => Sys2Proof.Machine.execEngineWithdraw e s
  | .hitchCompletion h => Sys2Proof.Machine.execHitchCompletion h s
  | .hsTimeout h tag => Sys2Proof.Machine.execHsTimeout h tag s
  | .ctxCharge g => Sys2Proof.Machine.execCtxCharge g s
  | .htcPost c tag => Sys2Proof.Machine.execHtcPost c tag s
  | .htcFree c tag => Sys2Proof.Machine.execHtcFree c tag s
  | .coreReset g => Sys2Proof.Machine.execCoreReset g s
  | .coreRelease g => Sys2Proof.Machine.execCoreRelease g s
  | .coreHalt g => Sys2Proof.Machine.execCoreHalt g s
  | .coreHaltClear g => Sys2Proof.Machine.execCoreHaltClear g s
  | .coreStep g => Sys2Proof.Machine.execCoreStep g s
  | .dbgDataRead g => Sys2Proof.Machine.execDbgDataRead g s
  | .dbgDataWrite g val => Sys2Proof.Machine.execDbgDataWrite g val s
  | .kbSwi g => Sys2Proof.Machine.execKbSwi g s
  | .clockPointChange n point => Sys2Proof.Machine.execClockPointChange n point s
  | .stableTickReceive n => Sys2Proof.Machine.execStableTickReceive n s
  | .engineJobStart e => Sys2Proof.Machine.execEngineJobStart e s
  | .engineJobComplete e => Sys2Proof.Machine.execEngineJobComplete e s
  | .chainHalfRequest e => Sys2Proof.Machine.execChainHalfRequest e s
  | .chainHalfRetry e => Sys2Proof.Machine.execChainHalfRetry e s
  | .chainedJobSend e => Sys2Proof.Machine.execChainedJobSend e s
  | .chainStatusReport e => Sys2Proof.Machine.execChainStatusReport e s
  | .chainSlotRequest e => Sys2Proof.Machine.execChainSlotRequest e s
  | .chainSlotReady e => Sys2Proof.Machine.execChainSlotReady e s
  | .engineReset e => Sys2Proof.Machine.execEngineReset e s
  | .engineResetClear e => Sys2Proof.Machine.execEngineResetClear e s
  | .enginePause e => Sys2Proof.Machine.execEnginePause e s
  | .lbtStart c => Sys2Proof.Machine.execLbtStart c s
  | .lbtAbort c => Sys2Proof.Machine.execLbtAbort c s
  | .lbtRelease c => Sys2Proof.Machine.execLbtRelease c s
  | .cotEnd c => Sys2Proof.Machine.execCotEnd c s
  | .nbChannelEnable e j => Sys2Proof.Machine.execNbChannelEnable e j s
  | .flitReceive r port fcrcOk express tail epoch => Sys2Proof.Machine.execFlitReceive r port fcrcOk express tail epoch s
  | .yardRd r => Sys2Proof.Machine.execYardRd r s
  | .yardWr r => Sys2Proof.Machine.execYardWr r s
  | .yardWrp r => Sys2Proof.Machine.execYardWrp r s
  | .yardRmw r => Sys2Proof.Machine.execYardRmw r s
  | .yardMsg r => Sys2Proof.Machine.execYardMsg r s
  | .yardResponse src seq => Sys2Proof.Machine.execYardResponse src seq s
  | .wakeTimeout sh => Sys2Proof.Machine.execWakeTimeout sh s
  | .responseTimeout src seq => Sys2Proof.Machine.execResponseTimeout src seq s
  | .yrdFence ep => Sys2Proof.Machine.execYrdFence ep s
  | .yrdUnfence ep => Sys2Proof.Machine.execYrdUnfence ep s
  | .barrierComplete ep => Sys2Proof.Machine.execBarrierComplete ep s
  | .barrierTimeout ep => Sys2Proof.Machine.execBarrierTimeout ep s
  | .yrdCommit => Sys2Proof.Machine.execYrdCommit s
  | .yrdDrained => Sys2Proof.Machine.execYrdDrained s
  | .yrdDrainTmo => Sys2Proof.Machine.execYrdDrainTmo s
  | .linkRetrain r dir => Sys2Proof.Machine.execLinkRetrain r dir s
  | .scrubRead n => Sys2Proof.Machine.execScrubRead n s
  | .eccInjectArm n => Sys2Proof.Machine.execEccInjectArm n s
  | .brwStart ch => Sys2Proof.Machine.execBrwStart ch s
  | .brwStop ch => Sys2Proof.Machine.execBrwStop ch s
  | .brwResume ch => Sys2Proof.Machine.execBrwResume ch s
  | .brwClear ch => Sys2Proof.Machine.execBrwClear ch s
  | .brwMove ch => Sys2Proof.Machine.execBrwMove ch s
  | .brwGather ch => Sys2Proof.Machine.execBrwGather ch s
  | .brwLoop ch => Sys2Proof.Machine.execBrwLoop ch s
  | .brwWait ch => Sys2Proof.Machine.execBrwWait ch s
  | .waitSatisfied ch => Sys2Proof.Machine.execWaitSatisfied ch s
  | .waitTmo ch => Sys2Proof.Machine.execWaitTmo ch s
  | .brwSignal ch => Sys2Proof.Machine.execBrwSignal ch s
  | .signalRetry ch => Sys2Proof.Machine.execSignalRetry ch s
  | .brwEnd ch => Sys2Proof.Machine.execBrwEnd ch s
  | .brwNop ch => Sys2Proof.Machine.execBrwNop ch s
  | .errProg ch => Sys2Proof.Machine.execErrProg ch s
  | .beatResponse ch => Sys2Proof.Machine.execBeatResponse ch s
  | .programFetch ch => Sys2Proof.Machine.execProgramFetch ch s
  | .channelHalt ch => Sys2Proof.Machine.execChannelHalt ch s
  | .endComplete ch => Sys2Proof.Machine.execEndComplete ch s
  | .beatGrant grp => Sys2Proof.Machine.execBeatGrant grp s
  | .hatchPost src h val => Sys2Proof.Machine.execHatchPost src h val s
  | .hatchTake src h => Sys2Proof.Machine.execHatchTake src h s
  | .hatchWithdraw src h => Sys2Proof.Machine.execHatchWithdraw src h s
  | .hatchTimeout h => Sys2Proof.Machine.execHatchTimeout h s
  | .hatchClear h => Sys2Proof.Machine.execHatchClear h s
  | .clientReset j => Sys2Proof.Machine.execClientReset j s
  | .resetWindowEnd j => Sys2Proof.Machine.execResetWindowEnd j s
  | .frameReceive m f axc => Sys2Proof.Machine.execFrameReceive m f axc s
  | .frameDeliver m q => Sys2Proof.Machine.execFrameDeliver m q s
  | .pauseWd m cls => Sys2Proof.Machine.execPauseWd m cls s
  | .txqWrite m q src bytes => Sys2Proof.Machine.execTxqWrite m q src bytes s
  | .txqHoldReject m q => Sys2Proof.Machine.execTxqHoldReject m q s
  | .txqResync m q => Sys2Proof.Machine.execTxqResync m q s
  | .txqFlush m q => Sys2Proof.Machine.execTxqFlush m q s
  | .frameLaunch m q => Sys2Proof.Machine.execFrameLaunch m q s
  | .fallbackOrder m => Sys2Proof.Machine.execFallbackOrder m s
  | .linkChange m up txvar rxvar => Sys2Proof.Machine.execLinkChange m up txvar rxvar s
  | .qbvChange m => Sys2Proof.Machine.execQbvChange m s
  | .qbvListTake m => Sys2Proof.Machine.execQbvListTake m s
  | .queueDisable m q => Sys2Proof.Machine.execQueueDisable m q s
  | .domainEnable d => Sys2Proof.Machine.execDomainEnable d s
  | .domainDisable d => Sys2Proof.Machine.execDomainDisable d s
  | .domainStep d => Sys2Proof.Machine.execDomainStep d s
  | .domainSlew d => Sys2Proof.Machine.execDomainSlew d s
  | .domainSet d => Sys2Proof.Machine.execDomainSet d s
  | .domainAbort d => Sys2Proof.Machine.execDomainAbort d s
  | .freqWrite d val => Sys2Proof.Machine.execFreqWrite d val s
  | .domainSlewDone d => Sys2Proof.Machine.execDomainSlewDone d s
  | .ppsPulse j => Sys2Proof.Machine.execPpsPulse j s
  | .todSentence j bytes => Sys2Proof.Machine.execTodSentence j bytes s
  | .holdoverEntry d => Sys2Proof.Machine.execHoldoverEntry d s
  | .selWrite d => Sys2Proof.Machine.execSelWrite d s
  | .autoSwitchover => Sys2Proof.Machine.execAutoSwitchover s
  | .sSlewDone => Sys2Proof.Machine.execSSlewDone s
  | .ctSnap => Sys2Proof.Machine.execCtSnap s
  | .ppsOutEdge => Sys2Proof.Machine.execPpsOutEdge s
  | .txqEntryRead n => Sys2Proof.Machine.execTxqEntryRead n s
  | .synceRefSwitch qual => Sys2Proof.Machine.execSynceRefSwitch qual s
  | .laneFault p lane los => Sys2Proof.Machine.execLaneFault p lane los s
  | .trainingTimeout p => Sys2Proof.Machine.execTrainingTimeout p s
  | .trainingDone p => Sys2Proof.Machine.execTrainingDone p s
  | .plRetrain p => Sys2Proof.Machine.execPlRetrain p s
  | .plAdmit p => Sys2Proof.Machine.execPlAdmit p s
  | .plUnadmit p => Sys2Proof.Machine.execPlUnadmit p s
  | .plCal p => Sys2Proof.Machine.execPlCal p s
  | .calComplete p => Sys2Proof.Machine.execCalComplete p s
  | .plQuiet p => Sys2Proof.Machine.execPlQuiet p s
  | .plCold p => Sys2Proof.Machine.execPlCold p s
  | .plWakeCmd p => Sys2Proof.Machine.execPlWakeCmd p s
  | .autoPmIdle p => Sys2Proof.Machine.execAutoPmIdle p s
  | .portWakeExit p => Sys2Proof.Machine.execPortWakeExit p s
  | .plPacketReceive p pkt => Sys2Proof.Machine.execPlPacketReceive p pkt s
  | .plLctl p ack nak credits => Sys2Proof.Machine.execPlLctl p ack nak credits s
  | .mgmtMessage p => Sys2Proof.Machine.execMgmtMessage p s
  | .mgmtReassemblyTimeout p => Sys2Proof.Machine.execMgmtReassemblyTimeout p s
  | .mtxSend p len => Sys2Proof.Machine.execMtxSend p len s
  | .authOk src p => Sys2Proof.Machine.execAuthOk src p s
  | .plPrepare => Sys2Proof.Machine.execPlPrepare s
  | .plSwitch => Sys2Proof.Machine.execPlSwitch s
  | .plRelease => Sys2Proof.Machine.execPlRelease s
  | .plDrained => Sys2Proof.Machine.execPlDrained s
  | .plFence unit => Sys2Proof.Machine.execPlFence unit s
  | .plUnfence unit => Sys2Proof.Machine.execPlUnfence unit s
  | .plRemove unit => Sys2Proof.Machine.execPlRemove unit s
  | .barrierAck unit vc => Sys2Proof.Machine.execBarrierAck unit vc s
  | .plBarrierTimeout unit => Sys2Proof.Machine.execPlBarrierTimeout unit s
  | .plResponseTimeout xid => Sys2Proof.Machine.execPlResponseTimeout xid s
  | .fgenInc => Sys2Proof.Machine.execFgenInc s
  | .tmkSend p d => Sys2Proof.Machine.execTmkSend p d s
  | .tmkReceive p sq word capts => Sys2Proof.Machine.execTmkReceive p sq word capts s
  | .unitInfo => Sys2Proof.Machine.execUnitInfo s
  | .holdTake k => Sys2Proof.Machine.execHoldTake k s
  | .holdRelease k => Sys2Proof.Machine.execHoldRelease k s
  | .cellConfig k => Sys2Proof.Machine.execCellConfig k s
  | .cellStart k => Sys2Proof.Machine.execCellStart k s
  | .cellStop k => Sys2Proof.Machine.execCellStop k s
  | .dlSlot k => Sys2Proof.Machine.execDlSlot k s
  | .ulSlot k => Sys2Proof.Machine.execUlSlot k s
  | .dlData k => Sys2Proof.Machine.execDlData k s
  | .prachConfig k => Sys2Proof.Machine.execPrachConfig k s
  | .resultRead k => Sys2Proof.Machine.execResultRead k s
  | .resultAck k => Sys2Proof.Machine.execResultAck k s
  | .lbtParam k => Sys2Proof.Machine.execLbtParam k s
  | .planLoad => Sys2Proof.Machine.execPlanLoad s
  | .hltFence => Sys2Proof.Machine.execHltFence s
  | .hltUnfence => Sys2Proof.Machine.execHltUnfence s
  | .timeSel => Sys2Proof.Machine.execTimeSel s
  | .powerReq => Sys2Proof.Machine.execPowerReq s
  | .slotCommit cell slot up => Sys2Proof.Machine.execSlotCommit cell slot up s
  | .dataDeadline cell tb => Sys2Proof.Machine.execDataDeadline cell tb s
  | .hltBegin cell => Sys2Proof.Machine.execHltBegin cell s
  | .tbDone cell => Sys2Proof.Machine.execTbDone cell s
  | .resultDone cell => Sys2Proof.Machine.execResultDone cell s
  | .fragmentTimeout unit frag => Sys2Proof.Machine.execFragmentTimeout unit frag s
  | .reqRingHead val => Sys2Proof.Machine.execReqRingHead val s
  | .tkCmdGo src => Sys2Proof.Machine.execTkCmdGo src s
  | .tkRng => Sys2Proof.Machine.execTkRng s
  | .tkHash => Sys2Proof.Machine.execTkHash s
  | .tkExtend => Sys2Proof.Machine.execTkExtend s
  | .tkVerify => Sys2Proof.Machine.execTkVerify s
  | .tkLoad => Sys2Proof.Machine.execTkLoad s
  | .tkSign => Sys2Proof.Machine.execTkSign s
  | .verifyPeer => Sys2Proof.Machine.execVerifyPeer s
  | .tkAttest => Sys2Proof.Machine.execTkAttest s
  | .ctrInc => Sys2Proof.Machine.execCtrInc s
  | .kekSeal => Sys2Proof.Machine.execKekSeal s
  | .kekLoad => Sys2Proof.Machine.execKekLoad s
  | .sakDeliver => Sys2Proof.Machine.execSakDeliver s
  | .idGenerate => Sys2Proof.Machine.execIdGenerate s
  | .otpProgram => Sys2Proof.Machine.execOtpProgram s
  | .tkLockImem src => Sys2Proof.Machine.execTkLockImem src s
  | .tkBoot => Sys2Proof.Machine.execTkBoot s
  | .ddrTrain => Sys2Proof.Machine.execDdrTrain s
  | .trainDone ok => Sys2Proof.Machine.execTrainDone ok s
  | .ddrEnable => Sys2Proof.Machine.execDdrEnable s
  | .coreResetRelease mask => Sys2Proof.Machine.execCoreResetRelease mask s
  | .msiSend k => Sys2Proof.Machine.execMsiSend k s
  | .rasError core level async addr => Sys2Proof.Machine.execRasError core level async addr s
  | .shedRequest k req => Sys2Proof.Machine.execShedRequest k req s
  | .shedStepReady k => Sys2Proof.Machine.execShedStepReady k s
  | .stepFault k => Sys2Proof.Machine.execStepFault k s
  | .shedDescentDone k => Sys2Proof.Machine.execShedDescentDone k s
  | .shedWake k => Sys2Proof.Machine.execShedWake k s
  | .wakeN level => Sys2Proof.Machine.execWakeN level s
  | .plWake p => Sys2Proof.Machine.execPlWake p s
  | .standbyEnter => Sys2Proof.Machine.execStandbyEnter s
  | .derateMeasure vin cur => Sys2Proof.Machine.execDerateMeasure vin cur s
  | .shdBow below => Sys2Proof.Machine.execShdBow below s
  | .brownoutReset => Sys2Proof.Machine.execBrownoutReset s
  | .shdSysrst val => Sys2Proof.Machine.execShdSysrst val s
  | .aonPowerOn fsel strap => Sys2Proof.Machine.execAonPowerOn fsel strap s
  | .thermtrip => Sys2Proof.Machine.execThermtrip s
  | .analogRailLoss fh lost => Sys2Proof.Machine.execAnalogRailLoss fh lost s
  | .calWrite src time date => Sys2Proof.Machine.execCalWrite src time date s
  | .calAlarm => Sys2Proof.Machine.execCalAlarm s
  | .trimApply => Sys2Proof.Machine.execTrimApply s
  | .vbatSample mv => Sys2Proof.Machine.execVbatSample mv s
  | .vbatSwitch onVbat mv => Sys2Proof.Machine.execVbatSwitch onVbat mv s
  | .oscFail => Sys2Proof.Machine.execOscFail s
  | .chainSlotRetry e => Sys2Proof.Machine.execChainSlotRetry e s
  | .scrubPeriodEnd n => Sys2Proof.Machine.execScrubPeriodEnd n s
  | .ppsPulseMissing j => Sys2Proof.Machine.execPpsPulseMissing j s
  | .brownoutResetEnd => Sys2Proof.Machine.execBrownoutResetEnd s
  | .halterFirmwareReady => Sys2Proof.Machine.execHalterFirmwareReady s
  | .loftCoresInWfi => Sys2Proof.Machine.execLoftCoresInWfi s
  | .plPortEnable p en => Sys2Proof.Machine.execPlPortEnable p en s
  | .synceDpllLock => Sys2Proof.Machine.execSynceDpllLock s
  | .gateIntervalEnd m => Sys2Proof.Machine.execGateIntervalEnd m s
  | .pauseTimeEnd m cls => Sys2Proof.Machine.execPauseTimeEnd m cls s
  | .preemptionVerify m => Sys2Proof.Machine.execPreemptionVerify m s
  | .gpioInputChange pin level => Sys2Proof.Machine.execGpioInputChange pin level s
  | .smbalert => Sys2Proof.Machine.execSmbalert s
  | .uartReceive u ch => Sys2Proof.Machine.execUartReceive u ch s

end Sys2Proof.Machine
end

