-- ==== Sys2Proof/WellFormed.lean ====
section
/-! DEFINITION. Well-formed commands: the operands name units, channels, queues and ports the device has (R15). What
content an operand has (a value written, an address, a frame) is never ill-formed. -/

namespace Sys2Proof

/-- The units a command names exist: 256 cores with 256 threads each, 272 hitches (one per Kubry and Loft core), 196
engines, 96 routers of five ports, 576 Barrow channels in 33 groups, 4,096 hatches, 32 MACs and the management MAC, two
domains and 16 trains, eight Phinerlink ports, 50 sheds. -/
def Instr.wf (i : Instr) : Bool :=
  match i with
  | .registerWrite _ _ _ _ => true
  | .rcRead _ _ _ => true
  | .groupCaptureRead _ _ => true
  | .tickEdge t => decide (t < 16)
  | .trainEnable t => decide (t < 16)
  | .trainDisable t => decide (t < 16)
  | .trainSlewEnd t => decide (t < 16)
  | .ymTick t => decide (t < 16)
  | .planCommit p => decide (p < 256)
  | .planCheckDone p => decide (p < 256)
  | .taskPlace _ _ _ => true
  | .ymEvent => true
  | .threadStop g t => decide (g < 256 ∧ t < 256)
  | .preemptSwitch g => decide (g < 256)
  | .dispatchOffer g => decide (g < 256)
  | .kEnd g => decide (g < 256)
  | .kYield g => decide (g < 256)
  | .kArm g => decide (g < 256)
  | .kBlock g => decide (g < 256)
  | .kOutDone g => decide (g < 256)
  | .kSignal g => decide (g < 256)
  | .kTake g => decide (g < 256)
  | .kernelBadCommand g _ => decide (g < 256)
  | .ymAct _ _ => true
  | .bundle g => decide (g < 256)
  | .interruptEntry g => decide (g < 256)
  | .budgetExhaust g => decide (g < 256)
  | .timerMatch g => decide (g < 256)
  | .wfeWake g => decide (g < 256)
  | .farLoadResponse g => decide (g < 256)
  | .farStoreResponse g => decide (g < 256)
  | .fenceComplete g => decide (g < 256)
  | .vectorDatapathDone g => decide (g < 256)
  | .vectorSwitchDone g => decide (g < 256)
  | .vectorSwitchAbandon g => decide (g < 256)
  | .vecFlush g => decide (g < 256)
  | .vecReload g => decide (g < 256)
  | .hitchStallEnd g => decide (g < 256)
  | .postResponse h => decide (h < 272)
  | .enginePost e => decide (e < 196)
  | .engineConfirm e => decide (e < 196)
  | .engineWithdraw e => decide (e < 196)
  | .hitchCompletion h => decide (h < 272)
  | .hsTimeout h tag => decide (h < 272 ∧ tag < 64)
  | .ctxCharge g => decide (g < 256)
  | .htcPost c tag => decide (c < 16 ∧ tag < 64)
  | .htcFree c tag => decide (c < 16 ∧ tag < 64)
  | .coreReset g => decide (g < 256)
  | .coreRelease g => decide (g < 256)
  | .coreHalt g => decide (g < 256)
  | .coreHaltClear g => decide (g < 256)
  | .coreStep g => decide (g < 256)
  | .dbgDataRead g => decide (g < 256)
  | .dbgDataWrite g _ => decide (g < 256)
  | .kbSwi g => decide (g < 256)
  | .clockPointChange n _ => decide (n < 32)
  | .stableTickReceive n => decide (n < 32)
  | .engineJobStart e => decide (e < 196)
  | .engineJobComplete e => decide (e < 196)
  | .chainHalfRequest e => decide (e < 196)
  | .chainHalfRetry e => decide (e < 196)
  | .chainedJobSend e => decide (e < 196)
  | .chainStatusReport e => decide (e < 196)
  | .chainSlotRequest e => decide (e < 196)
  | .chainSlotReady e => decide (e < 196)
  | .engineReset e => decide (e < 196)
  | .engineResetClear e => decide (e < 196)
  | .enginePause e => decide (e < 196)
  | .lbtStart c => decide (c < 64)
  | .lbtAbort c => decide (c < 64)
  | .lbtRelease c => decide (c < 64)
  | .cotEnd c => decide (c < 64)
  | .nbChannelEnable e j => decide (e < 8 ∧ j < 96)
  | .flitReceive r port _ _ _ _ => decide (r < 96 ∧ port < 5)
  | .yardRd r => Machine.epExists r.src
  | .yardWr r => Machine.epExists r.src
  | .yardWrp r => Machine.epExists r.src
  | .yardRmw r => Machine.epExists r.src
  | .yardMsg r => Machine.epExists r.src
  | .yardResponse _ _ => true
  | .wakeTimeout sh => decide (sh < 50)
  | .responseTimeout _ _ => true
  | .yrdFence _ => true
  | .yrdUnfence _ => true
  | .barrierComplete _ => true
  | .barrierTimeout _ => true
  | .yrdCommit => true
  | .yrdDrained => true
  | .yrdDrainTmo => true
  | .linkRetrain r dir => decide (r < 96 ∧ dir < 4)
  | .scrubRead n => decide (n < 327)
  | .eccInjectArm n => decide (n < 327)
  | .brwStart ch => decide (ch < 576)
  | .brwStop ch => decide (ch < 576)
  | .brwResume ch => decide (ch < 576)
  | .brwClear ch => decide (ch < 576)
  | .brwMove ch => decide (ch < 576)
  | .brwGather ch => decide (ch < 576)
  | .brwLoop ch => decide (ch < 576)
  | .brwWait ch => decide (ch < 576)
  | .waitSatisfied ch => decide (ch < 576)
  | .waitTmo ch => decide (ch < 576)
  | .brwSignal ch => decide (ch < 576)
  | .signalRetry ch => decide (ch < 576)
  | .brwEnd ch => decide (ch < 576)
  | .brwNop ch => decide (ch < 576)
  | .errProg ch => decide (ch < 576)
  | .beatResponse ch => decide (ch < 576)
  | .programFetch ch => decide (ch < 576)
  | .channelHalt ch => decide (ch < 576)
  | .endComplete ch => decide (ch < 576)
  | .beatGrant grp => decide (grp < 33)
  | .hatchPost _ h _ => decide (h < 4096)
  | .hatchTake _ h => decide (h < 4096)
  | .hatchWithdraw _ h => decide (h < 4096)
  | .hatchTimeout h => decide (h < 4096)
  | .hatchClear h => decide (h < 4096)
  | .clientReset j => decide (j < 276)
  | .resetWindowEnd j => decide (j < 276)
  | .frameReceive m _ _ => decide (m < 33)
  | .frameDeliver m _ => decide (m < 33)
  | .pauseWd m cls => decide (m < 33 ∧ cls < 8)
  | .txqWrite m q _ _ => decide (m < 33 ∧ q < Machine.nTxqs m)
  | .txqHoldReject m q => decide (m < 33 ∧ q < Machine.nTxqs m)
  | .txqResync m q => decide (m < 33 ∧ q < Machine.nTxqs m)
  | .txqFlush m q => decide (m < 33 ∧ q < Machine.nTxqs m)
  | .frameLaunch m q => decide (m < 33 ∧ q < Machine.nTxqs m)
  | .fallbackOrder m => decide (m < 33)
  | .linkChange m _ _ _ => decide (m < 33)
  | .qbvChange m => decide (m < 32)
  | .qbvListTake m => decide (m < 32)
  | .queueDisable m q => decide (m < 33 ∧ q < Machine.nQueues m)
  | .domainEnable d => decide (d < 2)
  | .domainDisable d => decide (d < 2)
  | .domainStep d => decide (d < 2)
  | .domainSlew d => decide (d < 2)
  | .domainSet d => decide (d < 2)
  | .domainAbort d => decide (d < 2)
  | .freqWrite d _ => decide (d < 2)
  | .domainSlewDone d => decide (d < 2)
  | .ppsPulse j => decide (j < 2)
  | .todSentence j _ => decide (j < 2)
  | .holdoverEntry d => decide (d < 2)
  | .selWrite d => decide (d < 2)
  | .autoSwitchover => true
  | .sSlewDone => true
  | .ctSnap => true
  | .ppsOutEdge => true
  | .txqEntryRead n => decide (n < 33)
  | .synceRefSwitch _ => true
  | .laneFault p lane _ => decide (p < 8 ∧ lane < 8)
  | .trainingTimeout p => decide (p < 8)
  | .trainingDone p => decide (p < 8)
  | .plRetrain p => decide (p < 8)
  | .plAdmit p => decide (p < 8)
  | .plUnadmit p => decide (p < 8)
  | .plCal p => decide (p < 8)
  | .calComplete p => decide (p < 8)
  | .plQuiet p => decide (p < 8)
  | .plCold p => decide (p < 8)
  | .plWakeCmd p => decide (p < 8)
  | .autoPmIdle p => decide (p < 8)
  | .portWakeExit p => decide (p < 8)
  | .plPacketReceive p _ => decide (p < 8)
  | .plLctl p _ _ _ => decide (p < 8)
  | .mgmtMessage p => decide (p < 8)
  | .mgmtReassemblyTimeout p => decide (p < 8)
  | .mtxSend p _ => decide (p < 8)
  | .authOk _ p => decide (p < 8)
  | .plPrepare => true
  | .plSwitch => true
  | .plRelease => true
  | .plDrained => true
  | .plFence _ => true
  | .plUnfence _ => true
  | .plRemove _ => true
  | .barrierAck _ vc => decide (vc < 4)
  | .plBarrierTimeout _ => true
  | .plResponseTimeout _ => true
  | .fgenInc => true
  | .tmkSend p d => decide (p < 8 ∧ d < 2)
  | .tmkReceive p _ _ _ => decide (p < 8)
  | .unitInfo => true
  | .holdTake k => decide (k < 4)
  | .holdRelease k => decide (k < 4)
  | .cellConfig k => decide (k < 4)
  | .cellStart k => decide (k < 4)
  | .cellStop k => decide (k < 4)
  | .dlSlot k => decide (k < 4)
  | .ulSlot k => decide (k < 4)
  | .dlData k => decide (k < 4)
  | .prachConfig k => decide (k < 4)
  | .resultRead k => decide (k < 4)
  | .resultAck k => decide (k < 4)
  | .lbtParam k => decide (k < 4)
  | .planLoad => true
  | .hltFence => true
  | .hltUnfence => true
  | .timeSel => true
  | .powerReq => true
  | .slotCommit cell _ _ => decide (cell < 2048 ∧ cell % 1024 < 768)
  | .dataDeadline cell _ => decide (cell < 2048 ∧ cell % 1024 < 768)
  | .hltBegin cell => decide (cell < 2048 ∧ cell % 1024 < 768)
  | .tbDone cell => decide (cell < 2048 ∧ cell % 1024 < 768)
  | .resultDone cell => decide (cell < 2048 ∧ cell % 1024 < 768)
  | .fragmentTimeout _ _ => true
  | .reqRingHead _ => true
  | .tkCmdGo _ => true
  | .tkRng => true
  | .tkHash => true
  | .tkExtend => true
  | .tkVerify => true
  | .tkLoad => true
  | .tkSign => true
  | .verifyPeer => true
  | .tkAttest => true
  | .ctrInc => true
  | .kekSeal => true
  | .kekLoad => true
  | .sakDeliver => true
  | .idGenerate => true
  | .otpProgram => true
  | .tkLockImem _ => true
  | .tkBoot => true
  | .ddrTrain => true
  | .trainDone _ => true
  | .ddrEnable => true
  | .coreResetRelease _ => true
  | .msiSend k => decide (k < 256)
  | .rasError core _ _ _ => decide (core < 16)
  | .shedRequest k _ => decide (k < 50 ∨ k = 62)
  | .shedStepReady k => decide (k < 50)
  | .stepFault k => decide (k < 50)
  | .shedDescentDone k => decide (k < 50)
  | .shedWake k => decide (k < 50)
  | .wakeN _ => true
  | .plWake p => decide (p < 8)
  | .standbyEnter => true
  | .derateMeasure _ _ => true
  | .shdBow _ => true
  | .brownoutReset => true
  | .shdSysrst _ => true
  | .aonPowerOn _ _ => true
  | .thermtrip => true
  | .analogRailLoss _ _ => true
  | .calWrite src _ _ => decide (src < 4096)
  | .calAlarm => true
  | .trimApply => true
  | .vbatSample _ => true
  | .vbatSwitch _ _ => true
  | .oscFail => true
  | .chainSlotRetry e => decide (e < 196)
  | .scrubPeriodEnd n => decide (n < 327)
  | .ppsPulseMissing j => decide (j < 2)
  | .brownoutResetEnd => true
  | .halterFirmwareReady => true
  | .loftCoresInWfi => true
  | .plPortEnable p _ => decide (p < 8)
  | .synceDpllLock => true
  | .gateIntervalEnd m => decide (m < 32)
  | .pauseTimeEnd m cls => decide (m < 33 ∧ cls < 8)
  | .preemptionVerify m => decide (m < 32)
  | .gpioInputChange pin _ => decide (pin < 48)
  | .smbalert => true
  | .uartReceive u _ => decide (u < 2)

end Sys2Proof
end

