-- ==== Sys2Proof/Certificates/Slice0/Obligations.lean ====
section
/-! DEFINITION. The statements for the provers. Each says, for the commands it names, what state they take the machine to and
what they leave as it was. -/

open Sys2Proof Sys2Proof.Machine

/-! ## Registers and the Yard (R5-R11, R293-R320) -/

/-- R7, R8: what a write leaves in each bit of a register, by the bit's access code. -/
def Obligations.AccessCodesOfAWrite : Prop :=
  ∀ (row : RegRow) (old v i : Nat), i < 64 → v < 2 ^ 64 → old < 2 ^ 64 →
    (row.rw.testBit i = true → row.w1c.testBit i = false → row.w1s.testBit i = false →
      (regNext row old v).testBit i = v.testBit i) ∧
    (row.w1c.testBit i = true → row.rw.testBit i = false → row.w1s.testBit i = false →
      (regNext row old v).testBit i = (old.testBit i && !v.testBit i)) ∧
    (row.w1s.testBit i = true → row.rw.testBit i = false → row.w1c.testBit i = false →
      (regNext row old v).testBit i = (old.testBit i || v.testBit i)) ∧
    (row.rw.testBit i = false → row.w1c.testBit i = false → row.w1s.testBit i = false →
      (regNext row old v).testBit i = old.testBit i)

/-- `src` reaches `dst` at once: both OPEN, no DOWN link on the way there or back, and the shed of `dst` ready. -/
abbrev Reaches (s : State) (src dst : Nat) : Prop :=
  dst ≠ 0xFFF ∧ epExists src = true ∧ epExists dst = true ∧ s.fenced src = false ∧ s.fenced dst = false ∧
  s.cut src dst = false ∧ s.cut dst src = false ∧ s.shedReady (epShed dst) = true

/-- R5, R6, R8, R11, R304: an access to a register area. A register whose block gives a write no further effect takes
its access codes' value; a wrong width is answered RSP_TGT and changes nothing; an offset no register occupies reads 0
and drops writes, both RSP_OK; a read clears RC bits; the lowest register of a group captures the group. -/
def Obligations.RegisterAccesses : Prop :=
  ∀ (s : State) (src a size v base : Nat) (row : RegRow) (rows : List RegRow),
    regionOf a = .regs base rows → Reaches s src (epOf a) → s.shedHeld (shedOf a) = false →
    base ≠ ctRegs →
    (busRow a = some (base, row) → row.w = size → row.ghi = 0 → v < 256 ^ size →
      regHook src (epKindOf src == 0) base a row.name (rowIdx base row a) v s (s.wr a (regNext row (s.rd a) v)) =
        (rspOk, s.wr a (regNext row (s.rd a) v)) →
      Completes (.registerWrite src a size v) s fun t => t.reg a = BitVec.ofNat 64 (regNext row (s.rd a) v) ∧
        RegsBut [a] s t ∧ t = { s with regs := t.regs, bus := ⟨rspOk, 0⟩ }) ∧
    (busRow a = some (base, row) → row.w ≠ size → row.name ≠ "HAT_POST" →
      Completes (.registerWrite src a size v) s fun t => t = { s with bus := ⟨rspTgt, 0⟩ }) ∧
    (busRow a = none → touchesReg a size = false →
      Completes (.registerWrite src a size v) s (fun t => t = { s with bus := ⟨rspOk, 0⟩ }) ∧
      Completes (.rcRead src a size) s (fun t => t = { s with bus := ⟨rspOk, 0⟩ })) ∧
    (busRow a = some (base, row) → row.w = size → row.ghi = 0 → row.rc ≠ 0 → base ≠ yrdRegs →
      row.name ∉ ["HAT_TAKE", "HAT_WITHDRAW", "CT_TXQ_ENTRY"] →
      Completes (.rcRead src a size) s fun t => t.bus = ⟨rspOk, regView base row a s % 256 ^ size⟩ ∧
        t.rd a = (s.rd a &&& (2 ^ 64 - 1 - row.rc)) % 2 ^ 64 ∧ RegsBut [a] s t ∧
        t = { s with regs := t.regs, bus := t.bus }) ∧
    (busRow a = some (base, row) → row.w = 4 → row.ghi ≠ 0 → row.name ∉ ["HAT_TAKE", "HAT_WITHDRAW", "CT_TXQ_ENTRY"] →
      a = base + row.off → row.off = row.glo →
      Completes (.groupCaptureRead src a) s fun t => t.bus = ⟨rspOk, regView base row a s % 2 ^ 32⟩ ∧
        (∀ b r, b ∈ groupAddrs (base + row.glo) (base + row.ghi) → busRow b = some (base, r) →
          t.captured b = regView base r b s % 2 ^ 64) ∧
        t = { s with caps := t.caps, bus := t.bus })

/-- A request finds a free reservation and the sequence number unused (R302). -/
abbrev MayIssue (s : State) (r : YReq) : Prop :=
  reqOk r = true ∧ (s.resvs.filter (fun v => decide (v.src = r.src))).length < resvLimit r.src ∧
  ∀ v ∈ s.resvs, ¬ (v.src = r.src ∧ v.seq = r.seq ∧ v.gen = r.gen)

/-- R297, R302, R309, R310: a request that reaches its target is served there and its one response, carrying the
initiator's tag, the target's generation and the epoch, goes on its way; a fenced target answers RSP_FENCED and a
sleeping one holds the request. In Barn memory without errors or injection the data are what was stored. -/
def Obligations.YardRequests : Prop :=
  ∀ (s : State) (r : YReq), r.src ≠ epOf r.addr → isRemote r.addr = false →
    (Reaches s r.src (epOf r.addr) → MayIssue s r → ∀ c, c ∈ [Instr.yardRd r, Instr.yardWr r, Instr.yardRmw r] →
      Completes c s fun t => ∃ l x, t.resps = l ++ [x] ∧ x.src = r.src ∧ x.seq = r.seq ∧ x.gen = r.gen ∧
        x.dst = epOf r.addr ∧ x.dstGen = (s.epSt (epOf r.addr)).gen ∧ x.epoch = yrdEpoch s ∧
        (x.code ≠ rspOk → x.data = [])) ∧
    (∀ port, Reaches s r.src (epOf r.addr) → regionOf r.addr = .barn port → s.ecc = [] →
      s.rb (eccA port 0x30) 0 = false → reqOk r = true →
      (MayIssue s r →
        Completes (.yardRd r) s (fun t => t.resps = s.resps ++ [⟨r.src, r.seq, r.gen, rspOk, s.bytes r.addr r.len,
            epOf r.addr, (s.epSt (epOf r.addr)).gen, yrdEpoch s⟩] ∧
          t.resvs = s.resvs ++ [⟨r.src, r.seq, r.gen, epOf r.addr, s.now⟩] ∧
          t = { s with resps := t.resps, resvs := t.resvs }) ∧
        (r.data.length = r.len → Completes (.yardWr r) s fun t => t.resps = s.resps ++ [⟨r.src, r.seq, r.gen, rspOk, [],
            epOf r.addr, (s.epSt (epOf r.addr)).gen, yrdEpoch s⟩] ∧
          t.bytes r.addr r.len = r.data ∧ BytesBut r.addr r.len s t ∧
          t = { s with resps := t.resps, resvs := t.resvs, mem := t.mem }) ∧
        (∀ x, rmwValue r.op (s.ld r.addr 8) r.data = some x → r.len = 8 → r.addr % 8 = 0 →
          Completes (.yardRmw r) s fun t => t.ld r.addr 8 = x % 2 ^ 64 ∧ BytesBut r.addr 8 s t ∧
            ∃ y, t.resps = s.resps ++ [y] ∧ y.code = rspOk ∧ leNat y.data = s.ld r.addr 8)) ∧
      (r.data.length = r.len → Completes (.yardWrp r) s fun t => t.bytes r.addr r.len = r.data ∧ BytesBut r.addr r.len s t ∧
        t = { s with mem := t.mem })) ∧
    (s.fenced r.src = false → s.fenced (epOf r.addr) = true → s.cut r.src (epOf r.addr) = false →
      epExists r.src = true → epExists (epOf r.addr) = true → epOf r.addr ≠ 0xFFF → MayIssue s r →
      ∀ c, c ∈ [Instr.yardRd r, Instr.yardWr r, Instr.yardRmw r] → Completes c s fun t => t.bus = ⟨rspFenced, 0⟩ ∧
        (t.epSt (epOf r.addr)).absorbed = sat32 ((s.epSt (epOf r.addr)).absorbed + 1) ∧
        t = { s with eps := t.eps, bus := t.bus }) ∧
    (s.fenced r.src = false → s.fenced (epOf r.addr) = false → s.cut r.src (epOf r.addr) = false →
      epExists r.src = true → epExists (epOf r.addr) = true → epOf r.addr ≠ 0xFFF → MayIssue s r →
      s.shedReady (epShed (epOf r.addr)) = false →
      Completes (.yardRd r) s fun t => (∃ h, t.held = s.held ++ [h] ∧ h.req = r ∧ h.kind = 0 ∧ h.dst = epOf r.addr) ∧
        t.resps = s.resps ∧ SameBytes s t)

/-- R301, R304, R309: messages. One to an OPEN endpoint arrives and changes nothing of the Yard; a broadcast on the
express class is discarded and counted at each fenced endpoint, and on the ordinary class answered RSP_NONE. -/
def YardMessages : Prop :=
  ∀ (s : State) (r : YReq), epExists r.src = true → s.fenced r.src = false →
    (epExists r.addr = true → r.addr ≠ 0xFFF → s.fenced r.addr = false → s.cut r.src r.addr = false →
      s.shedReady (epShed r.addr) = true → Completes (.yardMsg r) s fun t => t = s) ∧
    (r.addr = 0xFFF → r.exp = true → Completes (.yardMsg r) s fun t =>
      (∀ e, e < 3072 → (t.epSt e).discard =
        if epExists e = true ∧ s.fenced e = true then sat32 ((s.epSt e).discard + 1) else (s.epSt e).discard) ∧
      t = { s with eps := t.eps }) ∧
    (r.addr = 0xFFF → r.exp = false → Completes (.yardMsg r) s fun t => t = { s with bus := ⟨rspNone, 0⟩ })

/-- R307-R312: FENCE, UNFENCE, the barrier's two ends and a response timeout. -/
def Obligations.FenceStates : Prop :=
  ∀ (s : State) (e : Nat),
    (epExists e = true → e ≠ yrdEp → Completes (.yrdFence e) s fun t => (t.epSt e).st = 1 ∧ (t.epSt e).auto = false ∧
      (t.epSt e).gen = (s.epSt e).gen ∧ (∀ f, f ≠ e → t.epSt f = s.epSt f) ∧ t.bus = ⟨rspOk, 0⟩ ∧
      (∀ v ∈ t.resvs, v.src ≠ e) ∧ (∀ h ∈ t.held, h.dst ≠ e) ∧
      t = { s with eps := t.eps, resvs := t.resvs, held := t.held, resps := t.resps, regs := t.regs, bus := t.bus } ∧
      RegsBut [yrdA 0x44] s t) ∧
    Completes (.yrdFence yrdEp) s (fun t => t = { s with bus := ⟨rspTgt, 0⟩ }) ∧
    (epExists e = true → (s.epSt e).st = 1 → Completes (.yrdUnfence e) s fun t => (t.epSt e).st = 2 ∧
      (t.epSt e).gen = ((s.epSt e).gen + 1) % 16 ∧ (∀ f, f ≠ e → t.epSt f = s.epSt f) ∧
      t = { s with eps := t.eps, bus := ⟨rspOk, 0⟩ }) ∧
    ((s.epSt e).st ≠ 1 → Completes (.yrdUnfence e) s fun t => t = { s with bus := ⟨rspTgt, 0⟩ }) ∧
    ((s.epSt e).st = 2 →
      Completes (.barrierComplete e) s (fun t => (t.epSt e).st = 0 ∧ (t.epSt e).gen = (s.epSt e).gen ∧
        (∀ f, f ≠ e → t.epSt f = s.epSt f) ∧ t = { s with eps := t.eps }) ∧
      Completes (.barrierTimeout e) s (fun t => (t.epSt e).st = 1 ∧ (t.epSt e).barFail = true ∧
        (t.epSt e).gen = (s.epSt e).gen ∧ t.rb (yrdA 0xC) 1 = true ∧ (s.epSt e).since + barTmo s ≤ t.now ∧
        (∀ f, f ≠ e → t.epSt f = s.epSt f) ∧
        t = { s with eps := t.eps, now := t.now, regs := t.regs, msiRise := t.msiRise } ∧ RegsBut [yrdA 0xC] s t)) ∧
    (∀ seq v, s.resvs.find? (fun v => decide (v.src = e ∧ v.seq = seq)) = some v → v.dst ≠ yrdEp →
      Completes (.responseTimeout e seq) s fun t => t.bus = ⟨rspFenced, 0⟩ ∧ (t.epSt v.dst).st = 1 ∧
        (t.epSt v.dst).auto = true ∧ t.rd (yrdA 0x48) = sat32 (s.rd (yrdA 0x48) + 1) ∧ t.rb (yrdA 0xC) 0 = true ∧
        v.sent + rspTmo s ≤ t.now ∧ SameBytes s t)

/-- R305, R309, R310: a response is delivered to the reservation it answers or discarded as stale; a wake that fails
answers RSP_WAKE to what it held. -/
def ResponsesAndWakes : Prop :=
  ∀ (s : State),
    (∀ src seq r, s.resps.find? (fun r => decide (r.src = src ∧ r.seq = seq)) = some r →
      (∀ v, s.resvs.find? (fun v => decide (v.src = r.src ∧ v.seq = r.seq ∧ v.gen = r.gen)) = some v →
        s.fenced r.src = false → (s.epSt r.src).gen = r.gen → (s.epSt r.dst).gen = r.dstGen →
        s.cut r.dst r.src = false →
        Completes (.yardResponse src seq) s fun t =>
          t.bus = ⟨r.code, if r.code = rspOk then leNat r.data else 0⟩ ∧
          t = { s with resps := s.resps.erase r, resvs := s.resvs.erase v, bus := t.bus }) ∧
      ((s.fenced r.src = true ∨ (s.epSt r.src).gen ≠ r.gen ∨ (s.epSt r.dst).gen ≠ r.dstGen ∨
          ∀ v ∈ s.resvs, ¬ (v.src = r.src ∧ v.seq = r.seq ∧ v.gen = r.gen)) →
        Completes (.yardResponse src seq) s fun t => t.rd (yrdA 0x4C) = sat32 (s.rd (yrdA 0x4C) + 1) ∧
          t = { s with resps := s.resps.erase r, regs := t.regs } ∧ RegsBut [yrdA 0x4C] s t)) ∧
    (∀ k x, k < 50 → x ∈ s.held → x.shed = k →
      Completes (.wakeTimeout k) s fun t =>
        (∃ y ∈ s.held, y.shed = k ∧ y.start + wakeTmo s ≤ t.now ∧ y ∉ t.held) ∧
        (∀ y ∈ t.held, y.shed = k → t.now < y.start + wakeTmo s) ∧
        (∀ y ∈ s.held, y.shed ≠ k → y ∈ t.held) ∧
        (∀ y ∈ s.held, y.shed = k → y ∉ t.held → y.kind ≠ 2 → y.kind ≠ 4 →
          ∃ z ∈ t.resps, z.src = y.req.src ∧ z.seq = y.req.seq ∧ z.code = rspWake) ∧
        t = { s with now := t.now, held := t.held, resps := t.resps, regs := t.regs } ∧ RegsBut [yrdA 0x50] s t)

/-- Messages and broadcasts, a response delivered or stale, and a wake that times out. -/
def Obligations.MessagesResponsesAndWakes : Prop := YardMessages ∧ ResponsesAndWakes

/-- R298, R314, R315, R319: flits and links, and the two-phase commit of the route tables. -/
def Obligations.LinksAndCommits : Prop :=
  ∀ (s : State),
    (∀ r port ex tail ep, r < 96 → port < 5 →
      Completes (.flitReceive r port true ex tail ep) s (fun t => tget noCount t.replays (8 * r + port) = 0 ∧
        t.rd (yrdA (0x10000 + r * 0x20) + (if ex then 0x10 else 0xC)) =
          sat32 (s.rd (yrdA (0x10000 + r * 0x20) + (if ex then 0x10 else 0xC)) + 1) ∧
        tget noCount t.worms (8 * r + port) = (if tail then 0 else 1 + b2n ep) ∧
        t = { s with replays := t.replays, regs := t.regs, worms := t.worms }) ∧
      (tget noCount s.replays (8 * r + port) < 3 →
        Completes (.flitReceive r port false ex tail ep) s fun t =>
          tget noCount t.replays (8 * r + port) = tget noCount s.replays (8 * r + port) + 1 ∧ t.down = s.down ∧
          t.rd (yrdA (0x10000 + r * 0x20) + 0x18) = sat32 (s.rd (yrdA (0x10000 + r * 0x20) + 0x18) + 1)) ∧
      (3 ≤ tget noCount s.replays (8 * r + port) →
        Completes (.flitReceive r port false ex tail ep) s fun t => tget noCount t.replays (8 * r + port) = 0 ∧
          (∀ x ∈ linkEnds r port, x ∈ t.down) ∧ t.rb (yrdA 0xC) 5 = true ∧
          t = { s with replays := t.replays, down := t.down, regs := t.regs, msiRise := t.msiRise })) ∧
    (∀ r dir q, r < 96 → dir < 4 → neighbour r (dir + 1) = some q → s.down.contains (4 * r + dir) = true →
      Completes (.linkRetrain r dir) s fun t => (∀ x ∈ linkEnds r (dir + 1), x ∉ t.down) ∧
        (∀ x ∈ s.down, x ∉ linkEnds r (dir + 1) → x ∈ t.down) ∧ t = { s with down := t.down, bus := ⟨rspOk, 0⟩ }) ∧
    (rtCheck s (1 - yrdEpoch s) = (0, 0) → (s.rb (yrdA 0x24) 1 = false ∨ s.rb (yrdA 0x20) 1 = true) →
      Completes .yrdCommit s fun t => yrdEpoch t = 1 - yrdEpoch s ∧ t.rb (yrdA 0x24) 1 = true ∧
        t.rb (yrdA 0x24) 3 = true ∧ t.rb (yrdA 0xC) 2 = true ∧ t.bus = ⟨rspOk, 0⟩ ∧
        t = { s with regs := t.regs, resps := t.resps, msiRise := t.msiRise, bus := t.bus } ∧
        RegsBut [yrdA 0x24, yrdA 0xC, yrdA 0x54] s t) ∧
    (∀ c k, rtCheck s (1 - yrdEpoch s) = (c, k) → 0 < c → Completes .yrdCommit s fun t => yrdEpoch t = yrdEpoch s ∧
      t.rf (yrdA 0x24) 7 4 = c % 16 ∧ t.rb (yrdA 0x24) 3 = false ∧ t.rb (yrdA 0xC) 2 = true ∧
      RegsBut [yrdA 0x24, yrdA 0xC] s t) ∧
    (s.rb (yrdA 0x24) 1 = true →
      ((∀ r, r < 96 → rtrDrain s r = 0) → Completes .yrdDrained s fun t => t.rb (yrdA 0x24) 1 = false ∧
        t.rb (yrdA 0xC) 3 = true ∧ yrdEpoch t = yrdEpoch s ∧
        t = { s with regs := t.regs, msiRise := t.msiRise } ∧ RegsBut [yrdA 0x24, yrdA 0xC] s t) ∧
      Completes .yrdDrainTmo s fun t => t.rb (yrdA 0xC) 4 = true ∧ t.rb (yrdA 0x24) 1 = true ∧
        t = { s with regs := t.regs, msiRise := t.msiRise } ∧ RegsBut [yrdA 0xC] s t)

/-! ## Hatches and ECC (R324-R343, R364-R372) -/

/-- Registers that a hatch command on `h` may write beside those of the sheds and fences its notices meet. -/
abbrev HatFrame (s t : State) : Prop :=
  t = { s with regs := t.regs, bus := t.bus, hatTmo := t.hatTmo, now := t.now, hatWin := t.hatWin, cores := t.cores,
               eps := t.eps, ym := t.ym, wire := t.wire, power := t.power, msiRise := t.msiRise, tags := t.tags }

/-- R364-R366: a post is stored, timed and counted, or turned away with nothing stored. -/
def Obligations.HatchPosts : Prop :=
  ∀ (s : State) (src h val : Nat), h < 4096 →
    let mine := s.rb (hatC h 0) 1 = true ∨ src = s.rf (hatC h 4) 11 0
    let awake := s.rb (hatC h 0) 2 = false ∨ clientReset s (hatReceiver s h) = false
    (s.rb (hatC h 0) 0 = true → mine → awake → hatFull s h = false →
      Completes (.hatchPost src h val) s fun t => t.bus = ⟨rspOk, 0⟩ ∧ hatFull t h = true ∧
        t.rd (hatA h 8) = val % 2 ^ 64 ∧ t.rf (hatA h 0x18) 27 16 = src % 4096 ∧
        t.rd (hatK 0) = sat32 (s.rd (hatK 0) + 1) ∧
        tget (fun _ => 0) t.hatTmo h = s.now + s.rf (hatC h 8) 19 0 * us ∧ SameBytes s t ∧ HatFrame s t ∧
        (∀ k, k < 4096 → k ≠ h → t.rd (hatA k 8) = s.rd (hatA k 8) ∧ t.rd (hatA k 0x18) = s.rd (hatA k 0x18))) ∧
    (s.rb (hatC h 0) 0 = true → mine → awake → hatFull s h = true → s.rb (hatC h 0) 1 = true →
      Completes (.hatchPost src h val) s fun t => t.bus = ⟨rspFull, 0⟩ ∧
        t.rd (hatK 4) = sat32 (s.rd (hatK 4) + 1) ∧ RegsBut [hatK 4] s t ∧
        t = { s with regs := t.regs, bus := t.bus }) ∧
    ((s.rb (hatC h 0) 0 = false ∨ ¬ mine ∨ ¬ awake ∨ (hatFull s h = true ∧ s.rb (hatC h 0) 1 = false)) →
      Completes (.hatchPost src h val) s fun t => t.bus = ⟨rspTgt, 0⟩ ∧
        t.rd (hatK 8) = sat32 (s.rd (hatK 8) + 1) ∧ RegsBut [hatK 8] s t ∧
        t = { s with regs := t.regs, bus := t.bus })

/-- R367, R368, R371: a take and a withdrawal return the word and empty the hatch; a timeout flags it and keeps the
word; CLEAR discards it. -/
def Obligations.HatchTakesAndEnds : Prop :=
  ∀ (s : State) (src h : Nat), h < 4096 →
    (hatFull s h = true → isReceiver s src h = true → clientReset s (hatReceiver s h) = false →
      Completes (.hatchTake src h) s fun t => t.bus = ⟨rspOk, s.rd (hatA h 8)⟩ ∧ hatFull t h = false ∧
        t.rd (hatA h 8) = 0 ∧ t.rb (hatA h 0x18) 1 = true ∧ tget (fun _ => 0) t.hatTmo h = 0 ∧ SameBytes s t ∧
        HatFrame s t) ∧
    ((hatFull s h = false ∨ isReceiver s src h = false ∨ clientReset s (hatReceiver s h) = true) →
      Completes (.hatchTake src h) s fun t => t = { s with bus := ⟨rspTgt, 0⟩ }) ∧
    (hatFull s h = true → src = hatSender s h → clientReset s (hatReceiver s h) = false →
      Completes (.hatchWithdraw src h) s fun t => t.bus = ⟨rspOk, s.rd (hatA h 8)⟩ ∧ hatFull t h = false ∧
        t.rd (hatA h 8) = 0 ∧ t.rd (hatK 0x14) = sat32 (s.rd (hatK 0x14) + 1) ∧
        tget (fun _ => 0) t.hatTmo h = 0 ∧ SameBytes s t ∧ HatFrame s t) ∧
    ((hatFull s h = false ∨ src ≠ hatSender s h ∨ clientReset s (hatReceiver s h) = true) →
      Completes (.hatchWithdraw src h) s fun t => t = { s with bus := ⟨rspTgt, 0⟩ }) ∧
    (hatFull s h = true → tget (fun _ => 0) s.hatTmo h ≠ 0 →
      Completes (.hatchTimeout h) s fun t => hatFull t h = true ∧ t.rd (hatA h 8) = s.rd (hatA h 8) ∧
        t.rb (hatA h 0x18) 2 = true ∧ t.rd (hatK 0xC) = sat32 (s.rd (hatK 0xC) + 1) ∧
        tget (fun _ => 0) t.hatTmo h = 0 ∧ tget (fun _ => 0) s.hatTmo h ≤ t.now ∧ SameBytes s t ∧ HatFrame s t) ∧
    (hatFull s h = true →
      Completes (.hatchClear h) s fun t => t.bus = ⟨rspOk, 0⟩ ∧ hatFull t h = false ∧ t.rd (hatA h 8) = 0 ∧
        t.rb (hatA h 0x18) 3 = true ∧ t.rd (hatK 0x10) = sat32 (s.rd (hatK 0x10) + 1) ∧ SameBytes s t ∧ HatFrame s t) ∧
    (hatFull s h = false → Completes (.hatchClear h) s fun t => t = { s with bus := ⟨rspOk, 0⟩ })

/-- R369: a client that enters reset takes the words of its RECOVERY hatches with it and leaves its SERVICE hatches as
they are; at the end of its window what is posted to it is presented. -/
def Obligations.HatchClientResets : Prop :=
  ∀ (s : State) (i : Nat), i < 276 →
    Completes (.clientReset i) s (fun t => i ∈ t.hatWin ∧
      (∀ h, h < 4096 → hatFull s h = true → hatReceiver s h = i → s.rb (hatC h 0) 2 = true →
        hatFull t h = false ∧ t.rb (hatA h 0x18) 3 = true ∧ t.rd (hatA h 8) = 0) ∧
      (∀ h, h < 4096 → (hatReceiver s h ≠ i ∨ s.rb (hatC h 0) 2 = false ∨ hatFull s h = false) →
        t.rd (hatA h 8) = s.rd (hatA h 8) ∧ t.rd (hatA h 0x18) = s.rd (hatA h 0x18)) ∧ SameBytes s t ∧ HatFrame s t) ∧
    (clientHeld s i = false → i ∈ s.hatWin →
      Completes (.resetWindowEnd i) s fun t => i ∉ t.hatWin ∧ (∀ j ∈ s.hatWin, j ≠ i → j ∈ t.hatWin) ∧
        (rxNext { s with hatWin := s.hatWin.filter (· ≠ i) } i ≠ 0 → 256 ≤ i → s.fenced hatEp = false →
          s.fenced (clientEp i) = false → s.cut hatEp (clientEp i) = false →
          s.shedReady (epShed (clientEp i)) = true → .hatchNotice i 0 ∈ t.wire) ∧
        (∀ h, h < 4096 → t.rd (hatA h 8) = s.rd (hatA h 8) ∧ t.rd (hatA h 0x18) = s.rd (hatA h 0x18)) ∧
        SameBytes s t ∧ HatFrame s t)

/-- R331, R334, R337-R339: the scrubber corrects or poisons the word it reads and moves on; a period's end; arming an
injection. -/
def Obligations.ScrubberAndInjection : Prop :=
  ∀ (s : State) (n : Nat), n < 327 →
    (s.rb (eccA n 0) 0 = true → s.shedReady (ctlShed n) = true → tget (fun _ => 0) s.scrubDone n = 0 →
      Completes (.scrubRead n) s fun t =>
        (s.rd (eccA n 0x28) + 1 < ctlWords s n + Config.ramWords n →
          t.reg (eccA n 0x28) = BitVec.ofNat 64 (s.rd (eccA n 0x28) + 1) ∧ t.scrubDone = s.scrubDone) ∧
        (ctlWords s n + Config.ramWords n ≤ s.rd (eccA n 0x28) + 1 → t.rd (eccA n 0x28) = 0 ∧
          t.rd (eccA n 0x2C) = sat32 (s.rd (eccA n 0x2C) + 1) ∧ tget (fun _ => 0) t.scrubDone n = 1) ∧
        (∀ w, ctlWord s n (s.rd (eccA n 0x28)) = some w →
          (s.wordSt w = .good ∨ s.wordSt w = .poisoned → SameBytes s t ∧ t.ecc = s.ecc) ∧
          (∀ pos err syn, s.wordSt w = .fixed pos err syn → t.wordSt w = .good ∧
            t.ld w 16 = fixData w pos err (s.ld w 16) % 256 ^ 16 ∧
            t.rd (eccA n 8) = sat32 (s.rd (eccA n 8) + 1) ∧ BytesBut w 16 s t) ∧
          (s.wordSt w = .bad → t.wordSt w = .poisoned ∧ t.rd (eccA n 0xC) = sat32 (s.rd (eccA n 0xC) + 1) ∧
            t.rb (eccA n 4) 0 = true ∧ SameBytes s t)) ∧
        t = { s with regs := t.regs, mem := t.mem, ecc := t.ecc, msiRise := t.msiRise, scrubDone := t.scrubDone }) ∧
    (s.rb (eccA n 0) 0 = true →
      (tget (fun _ => 0) s.scrubDone n = 1 → Completes (.scrubPeriodEnd n) s fun t =>
        tget (fun _ => 0) t.scrubDone n = 0 ∧ t = { s with scrubDone := t.scrubDone }) ∧
      (tget (fun _ => 0) s.scrubDone n ≠ 1 → Completes (.scrubPeriodEnd n) s fun t =>
        t.rb (eccA n 4) 4 = true ∧ t = { s with regs := t.regs, msiRise := t.msiRise } ∧ RegsBut [eccA n 4] s t)) ∧
    (armRefused n (setBit (s.rd (eccA n 0x30)) 0) = false →
      Completes (.eccInjectArm n) s fun t => t.rb (eccA n 0x30) 0 = true ∧
        t.rf (eccA n 0x30) 31 8 = s.rf (eccA n 0x30) 31 8 ∧ RegsBut [eccA n 0x30] s t ∧
        t = { s with regs := t.regs, bus := ⟨rspOk, 0⟩ }) ∧
    (armRefused n (setBit (s.rd (eccA n 0x30)) 0) = true →
      Completes (.eccInjectArm n) s fun t => t = { s with bus := ⟨rspTgt, 0⟩ })

/-! ## Barrow channels (R344-R363) -/

/-- What a Barrow channel's own steps may change. -/
abbrev BrwFrame (s t : State) : Prop :=
  t = { s with regs := t.regs, chans := t.chans, tickWaits := t.tickWaits, cores := t.cores, msiRise := t.msiRise,
               bus := t.bus, now := t.now }

/-- R354, R356, R358, R360: START, STOP, RESUME and CLEAR, and the states each is turned away in. -/
def Obligations.ChannelCommands : Prop :=
  ∀ (s : State) (ch : Nat), ch < 576 →
    ((chSt s ch = 0 ∨ chSt s ch = 4) →
      Completes (.brwStart ch) s (fun t => chSt t ch = 1 ∧ chPc t ch = s.rd (chA ch 8) % 2 ^ 44 ∧
        t.rd (chA ch 0x30) = 0 ∧ t.rd (chA ch 0x38) = 0 ∧ chIter t ch = [0, 0, 0, 0] ∧ chCause t ch = 0 ∧
        t.bus = ⟨rspOk, 0⟩ ∧ BrwFrame s t) ∧
      Completes (.brwClear ch) s (fun t => chSt t ch = 0 ∧ chPc t ch = chPc s ch % 2 ^ 44 ∧ t.rd (chA ch 0x30) = 0 ∧
        t.rd (chA ch 0x38) = 0 ∧ chIter t ch = [0, 0, 0, 0] ∧ chCause t ch = 0 ∧ t.bus = ⟨rspOk, 0⟩ ∧ BrwFrame s t) ∧
      Completes (.brwStop ch) s (fun t => t = { s with bus := ⟨rspTgt, 0⟩ })) ∧
    ((chSt s ch = 1 ∨ chSt s ch = 2) → endReady s ch = false →
      ((s.chan ch).out = [] → Completes (.brwStop ch) s fun t => chSt t ch = 4 ∧ t.bus = ⟨rspOk, 0⟩ ∧
        t.rb (chA ch 0x10) (if ((s.chan ch).fail.map BFail.cause) = some 3 then 8 else 9) = true ∧
        chCause t ch = (((s.chan ch).fail.map BFail.cause).getD 1) % 256 ∧ BrwFrame s t) ∧
      ((s.chan ch).out ≠ [] → Completes (.brwStop ch) s fun t => chSt t ch = 3 ∧ t.bus = ⟨rspOk, 0⟩ ∧
        t.chans = s.chans ∧ BrwFrame s t ∧ RegsBut [chA ch 0x10] s t)) ∧
    (endReady s ch = true → Completes (.brwStop ch) s fun t => chSt t ch = 0 ∧ t.rb (chA ch 0x10) 8 = true ∧
      t.bus = ⟨rspTgt, 0⟩ ∧ BrwFrame s t ∧ RegsBut [chA ch 0x10] s t) ∧
    (chSt s ch = 4 → chCause s ch ≠ 6 → Completes (.brwResume ch) s fun t => chSt t ch = 1 ∧ chPc t ch = chPc s ch ∧
      t.bus = ⟨rspOk, 0⟩ ∧ BrwFrame s t ∧ RegsBut [chA ch 0x10] s t) ∧
    ((chSt s ch ≠ 4 ∨ chCause s ch = 6) → Completes (.brwResume ch) s fun t => t = { s with bus := ⟨rspTgt, 0⟩ }) ∧
    ((chSt s ch = 1 ∨ chSt s ch = 2 ∨ chSt s ch = 3) →
      Completes (.brwStart ch) s (fun t => t = { s with bus := ⟨rspTgt, 0⟩ }) ∧
      Completes (.brwClear ch) s (fun t => t = { s with bus := ⟨rspTgt, 0⟩ }))

/-- R346-R349, R352, R356: the slots a channel runs by itself. -/
def Obligations.ChannelSlots : Prop :=
  ∀ (s : State) (ch : Nat), ch < 576 →
    (curSlot s ch = .nop → Completes (.brwNop ch) s fun t => chPc t ch = (chPc s ch + 32) % 2 ^ 44 ∧
      BrwFrame s t ∧ RegsBut [chA ch 0x18] s t) ∧
    (curSlot s ch = .stop → Completes (.brwEnd ch) s fun t => (t.chan ch).ended = true ∧ chPc t ch = chPc s ch ∧
      (t.chan ch).out = (s.chan ch).out ∧ t = { s with chans := t.chans }) ∧
    (endReady s ch = true → Completes (.endComplete ch) s fun t => chSt t ch = 0 ∧ t.rb (chA ch 0x10) 8 = true ∧
      BrwFrame s t ∧ RegsBut [chA ch 0x10] s t) ∧
    (curSlot s ch = .bad → (s.chan ch).fail = none → Completes (.errProg ch) s fun t =>
      ((s.chan ch).out = [] → chSt t ch = 4 ∧ chCause t ch = 6 ∧ t.rb (chA ch 0x10) 9 = true) ∧
      ((s.chan ch).out ≠ [] → chSt t ch = 3 ∧ ((t.chan ch).fail.map BFail.cause) = some 6) ∧ BrwFrame s t) ∧
    (∀ k count target sinc dinc, curSlot s ch = .loop k count target sinc dinc →
      Completes (.brwLoop ch) s fun t =>
        let left := (if s.rd (chA ch (0x40 + 4 * k)) = 0 then count else s.rd (chA ch (0x40 + 4 * k))) - 1
        t.rd (chA ch (0x40 + 4 * k)) = left ∧
        (left ≠ 0 → chPc t ch = uns 44 ((chPc s ch : Nat) + 32 * target) ∧
          t.rd (chA ch 0x30) = uns 64 ((s.rd (chA ch 0x30) : Int) + sinc) ∧
          t.rd (chA ch 0x38) = uns 64 ((s.rd (chA ch 0x38) : Int) + dinc)) ∧
        (left = 0 → chPc t ch = (chPc s ch + 32) % 2 ^ 44 ∧
          t.rd (chA ch 0x30) = uns 64 ((s.rd (chA ch 0x30) : Int) - (count - 1 : Nat) * sinc) ∧
          t.rd (chA ch 0x38) = uns 64 ((s.rd (chA ch 0x38) : Int) - (count - 1 : Nat) * dinc)) ∧
        BrwFrame s t ∧ RegsBut [chA ch (0x40 + 4 * k), chA ch 0x18, chA ch 0x30, chA ch 0x38] s t) ∧
    (∀ n ofs src dst len0 n1 n2 a b c d, curSlot s ch = .move n ofs src dst len0 n1 n2 a b c d →
      (s.chan ch).resume = none →
      Completes (.brwMove ch) s fun t => (∃ x : Xfer, (t.chan ch).act = (s.chan ch).act ++ [x] ∧ x.gather = false ∧
          x.total = len0 * n1 * n2 ∧ x.rd = 0 ∧ x.wr = 0 ∧
          x.src = (if ofs then (src + s.rd (chA ch 0x30)) % 2 ^ 64 else src) ∧
          x.dst = (if ofs then (dst + s.rd (chA ch 0x38)) % 2 ^ 64 else dst) ∧
          x.sstr1 = a ∧ x.dstr1 = b ∧ x.sstr2 = c ∧ x.dstr2 = d) ∧
        t.reg (chA ch 0x14) = BitVec.ofNat 64 (len0 * n1 * n2) ∧ BrwFrame s t ∧
        RegsBut [chA ch 0x14, chA ch 0x18] s t) ∧
    (∀ ofs n list dst, curSlot s ch = .gather ofs n list dst → (s.chan ch).resume = none →
      Completes (.brwGather ch) s fun t => (∃ x : Xfer, (t.chan ch).act = (s.chan ch).act ++ [x] ∧ x.gather = true ∧
          x.list = some list ∧ x.dst = (if ofs then (dst + s.rd (chA ch 0x38)) % 2 ^ 64 else dst)) ∧
        BrwFrame s t ∧ RegsBut [chA ch 0x14, chA ch 0x18] s t)

/-- R350, R351: waits and notices. -/
def Obligations.ChannelWaitsAndSignals : Prop :=
  ∀ (s : State) (ch : Nat), ch < 576 →
    (∀ kind sel count rel clr mat sec ns value tmo, curSlot s ch = .wait kind sel count rel clr mat sec ns value tmo →
      Completes (.brwWait ch) s fun t => chSt t ch = 2 ∧ chPc t ch = chPc s ch ∧
        ((s.chan ch).out ≠ [] → t.chans = s.chans) ∧
        ((s.chan ch).out = [] → ∃ w, (t.chan ch).wait = some w ∧ w.kind = kind ∧ w.sel = sel ∧ w.clr = clr ∧
          w.since = s.now ∧ w.tmo = tmo ∧ (rel = false → w.target = sec * secU + ns * nsU) ∧
          (kind = 2 → ∃ y, t.tickWaits = s.tickWaits ++ [y] ∧ y.ch = ch ∧ y.key = 4 * (sel % 16) + sel / 16 ∧
            y.left = count ∧ y.hit = none)) ∧ BrwFrame s t ∧ RegsBut [chA ch 0x10] s t) ∧
    (∀ w, (s.chan ch).wait = some w →
      (∀ u, u = (if w.kind = 1 then untilS w.target 64 s else s) → (satisfied u ch w).isSome = true →
        (∀ l, waitLimit w = some l → u.now ≤ max s.now l) →
        Completes (.waitSatisfied ch) s fun t => chSt t ch = 1 ∧ chPc t ch = (chPc s ch + 32) % 2 ^ 44 ∧
          (t.chan ch).wait = none ∧ (w.kind = 0 → w.clr = true → w.sel < 64 → brwFlag t (brwGroup ch) w.sel = false) ∧
          s.now ≤ t.now ∧ BrwFrame s t) ∧
      (∀ l, waitLimit w = some l → (satisfied (s.until l) ch w).isSome = false → (s.chan ch).fail = none →
        (s.chan ch).out = [] →
        Completes (.waitTmo ch) s fun t => l ≤ t.now ∧ chSt t ch = 4 ∧ chCause t ch = 8 ∧
          t.rb (chA ch 0x10) 9 = true ∧ BrwFrame s t)) ∧
    (∀ kind arg grp word retry, slotAt (s.chan ch).blks (chPc s ch) = .signal kind arg grp word retry →
      (curSlot s ch = .signal kind arg grp word retry → (s.chan ch).out = [] →
        ((notice s ch kind arg grp word).1 = rspOk → Completes (.brwSignal ch) s fun t =>
          chPc t ch = (chPc s ch + 32) % 2 ^ 44 ∧ (t.chan ch).retry = none ∧ SameBytes s t ∧
          (kind = 1 → arg < 64 → brwFlag t (if grp = 255 then 32 else grp) arg = true)) ∧
        ((notice s ch kind arg grp word).1 = rspFull → retry = true → Completes (.brwSignal ch) s fun t =>
          (t.chan ch).retry = some (s.now + 256 * 768) ∧ SameBytes s t)) ∧
      (∀ due, (s.chan ch).retry = some due → chSt s ch = 1 →
        (notice (s.until due) ch kind arg grp word).1 = rspOk → Completes (.signalRetry ch) s fun t =>
          due ≤ t.now ∧ chPc t ch = (chPc s ch + 32) % 2 ^ 44 ∧ (t.chan ch).retry = none ∧ SameBytes s t))

/-- R345, R346, R353, R355-R357: a beat granted, its response, a program block fetched, and a halt. -/
def Obligations.BeatsAndFetches : Prop :=
  ∀ (s : State),
    (∀ gr ch b, gr < 33 → grantee s gr = some ch → s.shedReady (epShed (brwEp ch)) = true →
      nextBeat (s.chan ch) = some b →
      Completes (.beatGrant gr) s fun t =>
        (t.chan ch).out = (s.chan ch).out ++ [if b.wr then b else { b with data := [] }] ∧
        tget (fun _ => 0) t.brwLast gr = ch + 1 ∧ (∀ c, c ≠ ch → t.chan c = s.chan c) ∧
        t = { s with regs := t.regs, chans := t.chans, brwLast := t.brwLast }) ∧
    (∀ ch b l, ch < 576 → (s.chan ch).out = b :: l →
      (∀ r, b.wr = false → r = gRead (s.modChan ch fun c => { c with out := l }) (brwEp ch) b.src b.len → r.1 = rspOk →
        chSt r.2.2 ch ≠ 3 →
        Completes (.beatResponse ch) s fun t => (t.chan ch).out = (r.2.2.chan ch).out ∧
          (t.chan ch).staged = (r.2.2.chan ch).staged ++ [{ b with data := r.2.1 }] ∧ t = { r.2.2 with chans := t.chans }) ∧
      (∀ r, b.wr = true → r = gWrite (s.modChan ch fun c => { c with out := l }) (brwEp ch) b.dst b.data → r.1 = rspOk →
        chSt r.2 ch ≠ 3 →
        Completes (.beatResponse ch) s fun t => (t.chan ch).out = (r.2.chan ch).out ∧
          t.rd (chA ch 0x50) = sat32 (r.2.rd (chA ch 0x50) + b.len) ∧
          t = { r.2 with chans := t.chans, regs := t.regs } ∧ RegsBut [chA ch 0x50] r.2 t)) ∧
    (∀ ch, ch < 576 → chSt s ch = 3 → (s.chan ch).out = [] →
      Completes (.channelHalt ch) s fun t => chSt t ch = 4 ∧
        chCause t ch = (((s.chan ch).fail.map BFail.cause).getD 1) % 256 ∧ (t.chan ch).out = [] ∧ BrwFrame s t) ∧
    (∀ ch r, ch < 576 → atSlot s ch = true → curSlot s ch = .absent → slotBytes (s.chan ch).blks (chPc s ch) = none →
      r = busRead s (brwEp ch) (chPc s ch / 256 * 256) 256 → r.1 = rspOk →
      Completes (.programFetch ch) s fun t => (t.chan ch).blks.head? = some (chPc s ch / 256 * 256, r.2.1) ∧
        t = { r.2.2 with chans := t.chans })

/-! ## The Clocktower (R408-R429) -/

/-- Registers a change of a time domain may write beside its own: the Clocktower's interrupt flags and the
trains' SLEW_START flags. -/
def ctSide : List Nat := [ctRegs + 8, ctRegs + 0x40404]

/-- What no command of the Clocktower on a domain touches. -/
abbrev CtFrame (s t : State) : Prop :=
  t = { s with regs := t.regs, ct := t.ct, msiRise := t.msiRise, bus := t.bus }

/-- R412: EN set starts the domain, from calendar time plus its offset with SEED, else from 0 without VALID;
EN cleared stops it, holding its time, with VALID clear, ORIGIN none, FREERUN and no slew. -/
def DomainEnabling : Prop :=
  ∀ (s : State) (d : Nat), d < 2 →
    (domEn s d = false → s.rb (domA d 0) 1 = false →
      Completes (.domainEnable d) s fun t => domEn t d = true ∧ domTime t d = 0 ∧ domState t d = 0 ∧
        domValid t d = false ∧ domOrigin t d = 0 ∧ CtFrame s t ∧ RegsBut (domA d 0 :: domA d 4 :: ctSide) s t) ∧
    (domEn s d = false → s.rb (domA d 0) 1 = true →
      Completes (.domainEnable d) s fun t => domEn t d = true ∧
        domTime t d = calTime s + sgn 32 (s.rd (calRegs + 0xC)) * secU + (s.rd (calRegs + 0x10) : Nat) * nsU ∧
        domState t d = 0 ∧ domValid t d = true ∧ domOrigin t d = 1 ∧ CtFrame s t ∧
        RegsBut (domA d 0 :: domA d 4 :: ctSide) s t) ∧
    (domEn s d = true →
      Completes (.domainDisable d) s fun t => domEn t d = false ∧ domTime t d = domTime s d ∧ domValid t d = false ∧
        domOrigin t d = 0 ∧ domState t d = 0 ∧ domRem t d = 0 ∧ CtFrame s t ∧
        RegsBut (domA d 0 :: domA d 4 :: ctSide) s t)

/-- R412, R413: the commands that move a domain's time. -/
def Obligations.DomainTimeCommands : Prop :=
  ∀ (s : State) (d : Nat), d < 2 →
    Completes (.domainStep d) s (fun t => domTime t d = domTime s d + domAdj s d ∧ domRem t d = 0 ∧
      domValid t d = true ∧ domOrigin t d = 2 ∧ t.rd (domA d 0x48) = sat32 (s.rd (domA d 0x48) + 1) ∧
      domTime t (1 - d) = domTime s (1 - d) ∧ CtFrame s t ∧ RegsBut (domA d 4 :: domA d 0x48 :: ctSide) s t) ∧
    Completes (.domainSet d) s (fun t =>
      domTime t d = timeOf (s.rd (domA d 0x30)) (s.rd (domA d 0x34)) (s.rd (domA d 0x38)) (s.rd (domA d 0x3C)) ∧
      domRem t d = 0 ∧ domValid t d = true ∧ domOrigin t d = 2 ∧
      t.rd (domA d 0x48) = sat32 (s.rd (domA d 0x48) + 1) ∧
      CtFrame s t ∧ RegsBut (domA d 4 :: domA d 0x48 :: ctSide) s t) ∧
    (domEn s d = true →
      Completes (.domainSlew d) s (fun t => domRem t d = domRem s d + domAdj s d ∧ domTime t d = domTime s d ∧
        (t.dom d).rate = s.rf (domA d 0x18) 15 0 ∧ CtFrame s t ∧ RegsBut ctSide s t) ∧
      Completes (.domainAbort d) s (fun t => domRem t d = 0 ∧ domTime t d = domTime s d ∧ CtFrame s t ∧
        RegsBut ctSide s t) ∧
      (∀ v, Completes (.freqWrite d v) s fun t => t.rd (domA d 8) = v % 2 ^ 32 ∧ domTime t d = domTime s d ∧
        domRem t d = domRem s d ∧ CtFrame s t ∧ RegsBut (domA d 8 :: ctSide) s t)) ∧
    (domEn s d = true → (s.dom d).slew ≠ 0 → (s.dom d).rate ≠ 0 →
      Completes (.domainSlewDone d) s fun t => domRem t d = 0 ∧ s.now ≤ t.now ∧
        t = { s with regs := t.regs, ct := t.ct, msiRise := t.msiRise, now := t.now } ∧ RegsBut ctSide s t)

/-- R42, R43, R45, R46: tick trains start, tick, finish a slew and stop. What the Yardmaster does about a stopped
train's plan instances follows in `ymStops`, and what its firmware posts in `hltSettle`. -/
def Obligations.TrainCommands : Prop :=
  ∀ (s : State) (k : Nat), k < 16 →
    (trainOn s k = false → trainFmt s k < 12 →
      Completes (.trainEnable k) s fun t => trainOn t k = true ∧ t.bus = ⟨rspOk, 0⟩ ∧
        (∀ x, trainNext t k = some x → sTime (t.until (t.now + 2 * us)) ≤ edgeTime t k x) ∧
        CtFrame s t ∧ RegsBut (ttA k 0 :: ctSide) s t) ∧
    (∀ x, trainOn s k = true → trainNext s k = some x →
      Completes (.tickEdge k) s fun t => (t.train k).pos = x ∧ s.now ≤ t.now ∧
        tget noTicks t.ticks 0 = tget noTicks s.ticks 0 ++ [tickAt s k x] ∧
        (∀ n, n < 32 → tget noTicks t.ticks (1 + n) =
          if s.shedCur n = 3 then tget noTicks s.ticks (1 + n) ++ [tickAt s k x] else tget noTicks s.ticks (1 + n)) ∧
        t.reg (ttA k 0x14) = BitVec.ofNat 64 (tickAt s k x).cntLo ∧
        t.reg (ttA k 0x18) = BitVec.ofNat 64 (tickAt s k x).cntHi ∧
        t = { s with now := t.now, regs := t.regs, ct := t.ct, ticks := t.ticks, tickWaits := t.tickWaits,
                     tickCount := t.tickCount } ∧
        RegsBut [ttA k 0x14, ttA k 0x18, ttA k 0x1C, ttA k 0x20, ttA k 0x24, ttA k 0x28] s t) ∧
    ((s.train k).slewing = true → maxPpb s ≠ 0 →
      Completes (.trainSlewEnd k) s fun t => (t.train k).slewing = false ∧ sRemNow t = 0 ∧ s.now ≤ t.now ∧
        t = { s with now := t.now, ct := t.ct }) ∧
    (trainOn s k = true → trainFmt s k < 12 →
      Completes (.trainDisable k) s fun t => ∃ u, t = hltSettle (ymStops u) ∧ trainOn u k = false ∧
        u.train k = Train.reset ∧ k ∈ u.ct.stopped ∧ u.bus = ⟨rspOk, 0⟩ ∧ SameBytes s u)

/-- R416, R417, R420, R428: the selection of S, its slew, the snapshot and the transmit timestamp queues. -/
def SelectionAndSnaps : Prop :=
  ∀ (s : State),
    (∀ d, d < 2 → Completes (.selWrite d) s fun t => selDom t = d ∧ t.ct.barred = none ∧
      (∀ e, t.dom e = s.dom e) ∧ (anyTrain s = true → sTime t = sTime s) ∧ CtFrame s t ∧
      RegsBut (ctRegs :: ctSide) s t) ∧
    (autoDue s = true → Completes .autoSwitchover s fun t => selDom t = 1 - selDom s ∧
      t.ct.barred = some (selDom s, s.now) ∧ t.rd (ctRegs + 0x14) = sat32 (s.rd (ctRegs + 0x14) + 1) ∧
      t.rb (ctRegs + 8) 0 = true ∧ (∀ e, t.dom e = s.dom e) ∧ (anyTrain s = true → sTime t = sTime s) ∧
      CtFrame s t ∧ RegsBut (ctRegs :: (ctRegs + 0x14) :: ctSide) s t) ∧
    (s.ct.sRem ≠ 0 → Completes .sSlewDone s fun t => t.ct.sRem = 0 ∧ t.rb (ctRegs + 8) 7 = true ∧ s.now ≤ t.now ∧
      t = { s with now := t.now, regs := t.regs, ct := t.ct, msiRise := t.msiRise } ∧ RegsBut [ctRegs + 8] s t) ∧
    Completes .ctSnap s (fun t => (∀ d, d < 2 → (t.dom d).snap = some (domTime s d)) ∧ t.bus = ⟨rspOk, 0⟩ ∧
      t = { s with ct := t.ct, bus := t.bus }) ∧
    (∀ n, n < 33 →
      Completes (.txqEntryRead n) s fun t => t.bus = ⟨rspOk, tsWord (tget noTs s.ct.txq n) 0⟩ ∧
        tget noTs t.ct.txq n = (tget noTs s.ct.txq n).tail ∧
        (∀ m, m ≠ n → tget noTs t.ct.txq m = tget noTs s.ct.txq m) ∧
        (∀ j, j < 5 → t.captured (ctRegs + 0x20000 + n * 0x40 + 4 * j) =
          tsWord (tget noTs s.ct.txq n) j % 2 ^ 64) ∧
        t = { s with ct := t.ct, caps := t.caps, bus := t.bus })

/-- R414, R421, R422, R424: pulses and sentences in, the pulse out. -/
def PulsesAndSentences : Prop :=
  ∀ (s : State) (i : Nat), i < 2 → s.rb (ppsA i 0) 0 = true →
    (∀ l, (s.ppsIn i).last = some l →
      (s.now + s.rf (ppsA i 0) 31 16 * us < l + 1000000 * us ∨ l + 1000000 * us + s.rf (ppsA i 0) 31 16 * us < s.now) →
      Completes (.ppsPulse i) s fun t => t.rd (ppsA i 0x14) = sat32 (s.rd (ppsA i 0x14) + 1) ∧
        t.rb (ppsA i 8) 0 = false ∧ (t.ppsIn i).misses = (s.ppsIn i).misses + 1 ∧
        (∀ d, d < 2 → domTime t d = domTime s d) ∧ t = { s with regs := t.regs, ct := t.ct, msiRise := t.msiRise }) ∧
    ((s.ppsIn i).last = none →
      Completes (.ppsPulse i) s fun t => (t.ppsIn i).last = some s.now ∧ (t.ppsIn i).misses = 0 ∧
        (t.ppsIn i).pendLabel = none ∧
        (∀ d, d < 2 → domSrc s d ≠ 1 + i → t.dom d = s.dom d ∧ t.rd (domA d 8) = s.rd (domA d 8)) ∧
        t = { s with regs := t.regs, ct := t.ct, msiRise := t.msiRise }) ∧
    (∀ l, (s.ppsIn i).last = some l → (s.ppsIn i).misses < 3 →
      Completes (.ppsPulseMissing i) s fun t => (t.ppsIn i).misses = (s.ppsIn i).misses + 1 ∧
        l + 1000000 * us + s.rf (ppsA i 0) 31 16 * us ≤ t.now ∧ t.rb (ppsA i 8) 0 = false ∧
        ((s.ppsIn i).misses = 2 → (t.ppsIn i).last = none ∧ t.rb (ctRegs + 8) 5 = true ∧
          ∀ d, d < 2 → domSrc s d = 1 + i → (t.dom d).first = true) ∧
        t = { s with now := t.now, regs := t.regs, ct := t.ct, msiRise := t.msiRise }) ∧
    (∀ bytes x, s.rf (ppsA i 0) 3 2 = 2 → todSecond bytes = some x →
      (∀ l, (s.ppsIn i).last = some l → l + 1000 * us ≤ s.now → s.now ≤ l + 900000 * us →
        (s.ppsIn i).pendLabel = none →
        Completes (.todSentence i bytes) s fun t => (t.ppsIn i).label = x ∧ (t.ppsIn i).hasLabel = true ∧
          t.rd (ppsA i 0xC) = x % 2 ^ 32 ∧ t = { s with regs := t.regs, ct := t.ct } ∧
          RegsBut [ppsA i 8, ppsA i 0xC, ppsA i 0x10] s t)) ∧
    (∀ bytes, s.rf (ppsA i 0) 3 2 = 2 → todSecond bytes = none →
      Completes (.todSentence i bytes) s fun t => t.rd (ppsA i 0x18) = sat32 (s.rd (ppsA i 0x18) + 1) ∧
        t.rb (ctRegs + 8) 6 = true ∧ t.ct = s.ct ∧ t = { s with regs := t.regs, msiRise := t.msiRise } ∧
        RegsBut [ppsA i 8, ppsA i 0x18, ctRegs + 8] s t) ∧
    (s.rb (ctRegs + 0x30100) 0 = true →
      Completes .ppsOutEdge s fun t => s.now ≤ t.now ∧ t.ct.ppsHigh = true ∧
        (s.ct.ppsHigh = true → s.ct.ppsOut < t.ct.ppsOut) ∧
        (∃ out, t.wire = s.wire ++ .pps t.ct.ppsOut :: out ∧
          (s.rb (ctRegs + 0x30100) 1 = false → out = []) ∧
          (s.rb (ctRegs + 0x30100) 1 = true → ∃ b, out = [.tod b] ∧ b.length = 16)) ∧
        t = { s with now := t.now, ct := t.ct, wire := t.wire })

/-- R415, R425: entry into holdover, and the SyncE DPLL's reference. -/
def HoldoverAndSyncE : Prop :=
  ∀ (s : State),
    (∀ d, d < 2 → domState s d = 2 → (domSrc s d = 1 ∨ domSrc s d = 2) →
      Completes (.holdoverEntry d) s fun t => domState t d = 3 ∧
        domFreq t d = sgn 32 (uns 32 (freqMean (s.dom d) (domFreq s d))) ∧ domValid t d = domValid s d ∧
        (s.dom d).lastPulse + 2500000 * us ≤ t.now ∧
        t = { s with now := t.now, regs := t.regs, ct := t.ct, msiRise := t.msiRise } ∧
        RegsBut (domA d 4 :: domA d 8 :: ctSide) s t) ∧
    (∀ qual, s.rb (ctRegs + 0x2000) 0 = true → (seState s = 1 ∨ seState s = 3) →
      (∀ j, j < 4 → (tb qual j && s.rb (ctRegs + 0x2004 + 4 * j) 8) = false) →
      Completes (.synceRefSwitch qual) s fun t => seState t = 2 ∧ seActive t = seActive s ∧ t.rb (ctRegs + 8) 3 = true ∧
        CtFrame s t ∧ RegsBut [ctRegs + 0x2014, ctRegs + 8] s t) ∧
    (∀ qual j, s.rb (ctRegs + 0x2000) 0 = true → seState s = 1 → j < 4 →
      (tb qual j && s.rb (ctRegs + 0x2004 + 4 * j) 8) = true →
      (∀ i, i < j → (tb qual i && s.rb (ctRegs + 0x2004 + 4 * i) 8) = false) →
      (tb qual (seActive s) && s.rb (ctRegs + 0x2004 + 4 * seActive s) 8) = false →
      Completes (.synceRefSwitch qual) s fun t => seActive t = j ∧ seState t = 1 ∧ CtFrame s t ∧
        RegsBut [ctRegs + 0x2014, ctRegs + 8] s t) ∧
    (seState s = 3 → Completes .synceDpllLock s fun t => seState t = 1 ∧ seActive t = seActive s ∧
      t.rb (ctRegs + 8) 3 = true ∧ CtFrame s t ∧ RegsBut [ctRegs + 0x2014, ctRegs + 8] s t)

/-- The 1PPS inputs and output, holdover, and the SyncE reference. -/
def Obligations.PulsesHoldoverAndSyncE : Prop := PulsesAndSentences ∧ HoldoverAndSyncE

/-- Domains enabled and disabled; the selection of S and what is captured of it. -/
def Obligations.DomainsAndSelection : Prop := DomainEnabling ∧ SelectionAndSnaps

/-! ## The Yardmaster (R46-R67, R267-R289) -/

/-- Core `g` stands in kernel mode and an activation runs on it. -/
abbrev KernelRuns (s : State) (g : Nat) : Prop :=
  g < 256 ∧ (s.core g).km = true ∧ (s.core g).run ≠ 0 ∧ (s.core g).run < 256 ∧ (s.core g).left = false

/-- The kernel command's result is `code`, and the write that gave it was answered RSP_OK. -/
abbrev KernelAnswers (t : State) (g code : Nat) : Prop := t.rd (ykA g 0x10) = code ∧ t.bus = ⟨rspOk, 0⟩

/-- Memory without an error or an armed injection. -/
abbrev CleanMem (s : State) : Prop := s.ecc = [] ∧ ∀ n, n < 327 → s.rb (eccA n 0x30) 0 = false

/-- R285, R286: a kernel command given in thread mode, one of 0x01-0x05 with no activation running, and one that no
rule defines. -/
def KernelCommandsTurnedAway : Prop :=
  ∀ (s : State) (g code : Nat), g < 256 →
    ((s.core g).km = false → ∀ c, c ∈ [Instr.kEnd g, .kYield g, .kArm g, .kBlock g, .kOutDone g, .kSignal g, .kTake g,
        .kernelBadCommand g code] → Completes c s fun t => t = { s with bus := ⟨rspTgt, 0⟩ }) ∧
    ((s.core g).km = true → ((s.core g).run = 0 ∨ (s.core g).left = true) →
      ∀ c, c ∈ [Instr.kEnd g, .kYield g, .kArm g, .kBlock g, .kOutDone g] →
        Completes c s fun t => KernelAnswers t g yrBad ∧ t = { s with regs := t.regs, bus := t.bus } ∧
          RegsBut [ykA g 0x10] s t) ∧
    ((s.core g).km = true → (code % 256 = 0 ∨ 7 < code % 256) → Completes (.kernelBadCommand g code) s fun t =>
      KernelAnswers t g yrBad ∧ t = { s with regs := t.regs, bus := t.bus } ∧ RegsBut [ykA g 0x10] s t)

/-- R281, R282, R286: END ends the running activation with its tags and completes its task; YIELD makes room for a READY
thread of at least its priority; TAKE makes the candidate RUNNING. -/
def KernelEndYieldTake : Prop :=
  ∀ (s : State) (g : Nat),
    (KernelRuns s g → ∀ a, (s.th (runThread s g)).act = some a → a.flow = none → (∀ v h, a.src ≠ .soft v (some h)) →
      Completes (.kEnd g) s fun t => KernelAnswers t g yrOk ∧
        t.th (runThread s g) = { s.th (runThread s g) with st := 1, act := none, armed := false, woken := false, wait := 0,
                                                            stop := none } ∧
        (∀ k, k ≠ runThread s g → t.th k = s.th k) ∧
        (t.core g).run = (if preemptMode s g then (s.core g).run else 0) ∧ (t.core g).left = preemptMode s g ∧
        (∀ k, k < 64 → tb (tmask s g) k = true → (s.tag g k).st = 2 → (t.tag g k).st = 4) ∧
        (∀ k, k < 64 → tb (tmask s g) k = true → (s.tag g k).st = 3 → (t.tag g k).st = 0) ∧
        (∀ p i k rep, a.src = .plan p i k rep → ∀ x ∈ t.ym.insts, x.dropped = false → x.p = p → x.idx = i → k ∈ x.done) ∧
        SameBytes s t) ∧
    (KernelRuns s g →
      ((∀ x ∈ coreThreads s g, x.2.1.st = 2 → x.2.2.prio < ((s.th (runThread s g)).act.map Act.prio).getD 0) →
        Completes (.kYield g) s fun t => KernelAnswers t g yrOk ∧ t = { s with regs := t.regs, bus := t.bus } ∧
          RegsBut [ykA g 0x10] s t) ∧
      (∀ x, x ∈ coreThreads s g → x.2.1.st = 2 → ((s.th (runThread s g)).act.map Act.prio).getD 0 ≤ x.2.2.prio →
        Completes (.kYield g) s fun t => KernelAnswers t g yrOk ∧ (t.th (runThread s g)).st = 2 ∧
          (t.th (runThread s g)).act = (s.th (runThread s g)).act.map (fun a => { a with budget := (s.core g).budget.toNat }) ∧
          (∀ k, k ≠ runThread s g → t.th k = s.th k) ∧
          (t.core g).run = (if preemptMode s g then (s.core g).run else 0) ∧ (t.core g).left = preemptMode s g ∧
          RegsBut [ykA g 0x10] s t ∧ SameBytes s t)) ∧
    (g < 256 → (s.core g).km = true →
      ((preemptMode s g = true → Completes (.kTake g) s fun t => KernelAnswers t g yrBad ∧
          t = { s with regs := t.regs, bus := t.bus } ∧ RegsBut [ykA g 0x10] s t) ∧
        (preemptMode s g = false → offerNow s g = false → Completes (.kTake g) s fun t => KernelAnswers t g yrNone ∧
          t = { s with regs := t.regs, bus := t.bus } ∧ RegsBut [ykA g 0x10] s t) ∧
        (∀ gt x a, preemptMode s g = false → offerNow s g = true → candidate s g = some (gt, x, a) →
          Completes (.kTake g) s fun t => KernelAnswers t g (gt % 256 * 256 + b2n a.fresh * 2 ^ 16) ∧
            (t.th gt).st = 3 ∧ (t.th gt).act = some { a with fresh := false } ∧
            (t.core g).run = gt % 256 ∧ (t.core g).offer = false ∧ (t.core g).left = false ∧
            (t.core g).ctxptr = BitVec.ofNat 32 (s.rd (tdA gt 4)) ∧
            t.reg (ykA g 0x20) = BitVec.ofNat 64 a.s0 ∧ t.reg (ykA g 0x24) = BitVec.ofNat 64 a.s1 ∧
            t.reg (ykA g 0x28) = BitVec.ofNat 64 a.s2 ∧ t.reg (ykA g 0x2C) = BitVec.ofNat 64 a.s3 ∧
            t.reg (ykA g 0x30) = BitVec.ofNat 64 a.id ∧ t.reg (ykA g 0x34) = BitVec.ofNat 64 a.budget ∧
            t.reg (ykA g 0x38) = BitVec.ofNat 64 a.entry ∧ SameBytes s t ∧
            RegsBut [ykA g 0x10, ykA g 0x20, ykA g 0x24, ykA g 0x28, ykA g 0x2C, ykA g 0x30, ykA g 0x34, ykA g 0x38] s t)))

/-- Kernel commands turned away, and END, YIELD and TAKE. -/
def Obligations.KernelCommandsAnswered : Prop := KernelCommandsTurnedAway ∧ KernelEndYieldTake

/-- R64, R277, R284, R276: ARM, BLOCK, OUT_DONE and SIGNAL of the running activation. -/
def Obligations.KernelArmBlockDoneSignal : Prop :=
  ∀ (s : State) (g : Nat), KernelRuns s g →
    (waitOk s g (s.rd (ykA g 8) % 2 ^ 32) = true → Completes (.kArm g) s fun t => KernelAnswers t g yrOk ∧
      (let w := s.rd (ykA g 8) % 2 ^ 32
       t.th (runThread s g) = { s.th (runThread s g) with
         armed := true, woken := decide (fld w 1 0 = 1) && hatFull s (fld w 27 16), wait := w,
         tickAt := seen s (fld w 19 16) (fld w 21 20) + fld w 27 24 }) ∧
      (∀ k, k ≠ runThread s g → t.th k = s.th k) ∧ t = { s with ym := t.ym, regs := t.regs, bus := t.bus } ∧
      RegsBut [ykA g 0x10] s t) ∧
    (waitOk s g (s.rd (ykA g 8) % 2 ^ 32) = false → Completes (.kArm g) s fun t => KernelAnswers t g yrBad ∧
      t = { s with regs := t.regs, bus := t.bus }) ∧
    ((s.th (runThread s g)).armed = false → Completes (.kBlock g) s fun t => KernelAnswers t g yrNoarm ∧
      t = { s with regs := t.regs, bus := t.bus }) ∧
    ((s.th (runThread s g)).armed = true → (s.th (runThread s g)).woken = true → Completes (.kBlock g) s fun t =>
      KernelAnswers t g yrWoken ∧ t = { s with regs := t.regs, bus := t.bus }) ∧
    ((s.th (runThread s g)).armed = true → (s.th (runThread s g)).woken = false → Completes (.kBlock g) s fun t =>
      KernelAnswers t g yrOk ∧
      t.th (runThread s g) = { s.th (runThread s g) with
        st := 4, act := (s.th (runThread s g)).act.map (fun a => { a with budget := (s.core g).budget.toNat }) } ∧
      (∀ k, k ≠ runThread s g → t.th k = s.th k) ∧
      (t.core g).run = (if preemptMode s g then (s.core g).run else 0) ∧ (t.core g).left = preemptMode s g ∧
      (t.core g).saveOut = (preemptMode s g || (s.core g).saveOut) ∧
      t = { s with ym := t.ym, regs := t.regs, cores := t.cores, bus := t.bus } ∧ RegsBut [ykA g 0x10] s t) ∧
    (∀ a p i k rep x o, (s.th (runThread s g)).act = some a → a.src = .plan p i k rep → findInst s p i = some x →
      (List.range (nOut s x.base)).find? (fun o => decide (peek s (outA s x.base o) 2 = s.rf (ykA g 8) 15 0)
        && (k :: rep.toList).contains (peek s (outA s x.base o + 2) 2)) = some o →
      ((x.outLate.contains o || x.past.contains (peek s (outA s x.base o + 2) 2)) = true →
        Completes (.kOutDone g) s fun t => KernelAnswers t g yrLate ∧ t = { s with regs := t.regs, bus := t.bus }) ∧
      ((x.outLate.contains o || x.past.contains (peek s (outA s x.base o + 2) 2)) = false →
        ∀ b, b = peek s (outA s x.base o + 8) 4 + 8 * x.idx → b % 8 = 0 → b + 8 ≤ barnSize → CleanMem s →
        Reaches s ymEp (epOf b) →
        Completes (.kOutDone g) s fun t => KernelAnswers t g yrOk ∧
          t.ld b 8 = (x.slot + (1 + 4 * b2n rep.isSome + 8 * b2n (s.rb (ykA g 8) 16)) * 2 ^ 32) % 2 ^ 64 ∧
          BytesBut b 8 s t ∧ RegsBut [ykA g 0x10] s t ∧
          ∀ y ∈ t.ym.insts, y.dropped = false → y.p = p → y.idx = i → o ∈ y.outDone)) ∧
    (s.fenced (sliceEp (g / 8)) = false → s.fenced ymEp = false → s.cut (sliceEp (g / 8)) ymEp = false →
      Completes (.kSignal g) s fun t => KernelAnswers t g yrOk ∧
        t.ym.events = s.ym.events ++ [(sliceEp (g / 8), s.rf (ykA g 8) 15 0)] ∧
        t = { s with ym := { s.ym with events := t.ym.events }, regs := t.regs, bus := t.bus } ∧ RegsBut [ykA g 0x10] s t)

/-- R54-R56: a plan commit starts, and its check ends. -/
def Obligations.PlanCommits : Prop :=
  ∀ (s : State) (p : Nat), p < 256 →
    Completes (.planCommit p) s (fun t => t.rb (planA p 0) 1 = true ∧
      (∀ i, i < 64 → i ≠ 1 → (t.rd (planA p 0)).testBit i = (s.rd (planA p 0)).testBit i) ∧
      t = { s with regs := t.regs, bus := ⟨rspOk, 0⟩ } ∧ RegsBut [planA p 0] s t) ∧
    (s.rb (planA p 0) 1 = true → planCheck s (s.rd (planA p 8)) = 0 → Completes (.planCheckDone p) s fun t =>
      t.rd (planA p 4) = s.rd (planA p 8) ∧ t.rb (planA p 0) 1 = false ∧ t.rb (planA p 0) 2 = true ∧
      t.rf (planA p 0) 7 4 = 0 ∧ t = { s with regs := t.regs } ∧ RegsBut [planA p 0, planA p 4] s t) ∧
    (∀ e, s.rb (planA p 0) 1 = true → planCheck s (s.rd (planA p 8)) = e → e ≠ 0 → Completes (.planCheckDone p) s fun t =>
      t.rb (planA p 0) 1 = false ∧ t.rb (planA p 0) 2 = false ∧ t.rf (planA p 0) 7 4 = e % 16 ∧
      t = { s with regs := t.regs } ∧ RegsBut [planA p 0] s t) ∧
    (s.rb (planA p 0) 1 = false → Completes (.planCheckDone p) s fun t => t = s)

/-- The cores a task may be placed on, in the order they are tried (R61). -/
def coreOrder (s : State) (r : Nat) : List Nat :=
  if peek s (r + 22) 1 = 1 then [peek s (r + 21) 1]
  else ((List.range 256).map (fun k => (peek s (r + 21) 1 + k) % 256)).filter (fun g =>
    tb (peek s (r + 16) 4) (g / 8) && tb (peek s (r + 20) 1) (g % 8))

/-- R60-R62, R270: the task at the front of placement is bound to the lowest idle pool thread of the first core of its
order that admits it; one refused everywhere under REFUSE is counted and its outputs are LATE. -/
def Obligations.TasksArePlaced : Prop :=
  ∀ (s : State) (pl : Place) (x : Inst),
    s.ym.place.find? (fun y => decide (y.p = pl.p ∧ y.inst = pl.inst ∧ y.task = pl.task)) = some pl →
    findInst s pl.p pl.inst = some x → s.rb ymRegs 0 = true → (planAct s x pl).flow = none →
    (∀ pre g post gt, coreOrder s (taskA s x.base pl.task) = pre ++ g :: post → (∀ h ∈ pre, eligible s h = false) →
      eligible s g = true → idlePool s g = some gt →
      admits s g (planAct s x pl).grant (planAct s x pl).td = true →
      Completes (.taskPlace pl.p pl.inst pl.task) s fun t =>
        (t.th gt).act = some { planAct s x pl with id := gt + ((s.th gt).cnt + 1) % 65536 * 65536 } ∧
        (t.th gt).st = 2 ∧ (t.th gt).armed = false ∧ t.ym.place = s.ym.place.erase pl ∧
        (∀ k, k ≠ gt → t.th k = s.th k) ∧ (∀ h, (t.core h).run = (s.core h).run) ∧
        t = { s with ym := t.ym, cores := t.cores }) ∧
    (pl.p < 256 → (∀ h ∈ coreOrder s (taskA s x.base pl.task), eligible s h = false) →
      peek s (taskA s x.base pl.task + 22) 1 = 0 →
      Completes (.taskPlace pl.p pl.inst pl.task) s fun t =>
        t.rd (planA pl.p 0x14) = sat32 (s.rd (planA pl.p 0x14) + 1) ∧ t.ym.place = s.ym.place.erase pl ∧
        (∀ k, t.th k = s.th k) ∧
        ∀ y ∈ t.ym.insts, y.dropped = false → y.p = pl.p → y.idx = pl.inst → ∀ o ∈ tOuts s x.base pl.task,
          o ∉ x.outDone → o ∉ x.outLate → o ∈ y.outLate)

/-- R57, R276, R277: the oldest event on its way is recorded against the plan instance that waits for it and wakes the
threads armed for it, or is counted unclaimed; a tick message counts the ticks it brings. -/
def Obligations.EventsAndTicksArrive : Prop :=
  ∀ (s : State),
    (∀ src n rest, s.ym.events = (src, n) :: rest →
      (s.ym.insts = [] → eventWaiters s n = [] → Completes .ymEvent s fun t =>
        t.rd (ymRegs + 0x14) = sat32 (s.rd (ymRegs + 0x14) + 1) ∧
        t = { s with ym := { s.ym with events := rest }, regs := t.regs } ∧ RegsBut [ymRegs + 0x14] s t) ∧
      (s.ym.insts = [] → eventWaiters s n ≠ [] → Completes .ymEvent s fun t => t.ym.events = rest ∧
        (∀ k ∈ eventWaiters s n, (t.th k).woken = true ∧ ((s.th k).st = 4 → (t.th k).st = 2) ∧
          ((s.th k).st ≠ 4 → (t.th k).st = (s.th k).st)) ∧
        (∀ k, k ∉ eventWaiters s n → t.th k = s.th k) ∧ t = { s with ym := t.ym }) ∧
      (∀ x e, s.ym.insts = [x] → x.p < 256 → x.dropped = false → e < nEdge s x.base →
        peek s (edgeA s x.base e + 4) 1 = 1 → peek s (edgeA s x.base e + 6) 2 = n → e ∉ x.evs →
        Completes .ymEvent s fun t => t.ym.events = rest ∧ (∃ y ∈ t.ym.insts, y.p = x.p ∧ y.idx = x.idx ∧ e ∈ y.evs) ∧
          t = { s with ym := t.ym })) ∧
    (∀ k m, k < 16 → (tget noTicks s.ticks 0).find? (fun (m : Tick) => decide (m.train = k)) = some m →
      s.shedReady shedYard = true → s.rb ymRegs 0 = false → s.rb (ymRegs + 8) 8 = false → s.ym.insts = [] →
      s.ym.threads = [] → s.ym.chanStops = [] →
      Completes (.ymTick k) s fun t => ∃ u, t = hltSettle (ymStops u) ∧
        tget noTicks u.ticks 0 = (tget noTicks s.ticks 0).erase m ∧
        (∀ l, l < 4 → seen u k l = seen s k l + b2n (tb m.mask l)) ∧
        (∀ l tr, tr ≠ k → l < 4 → seen u tr l = seen s tr l) ∧
        u = { s with ticks := u.ticks, ym := u.ym } ∧ u.ym.insts = [] ∧ u.ym.threads = [])

/-- R272, R282, R65, R279, R280: a stop ordered for a thread that does not run ends its activation; the hardware switch
brings the candidate's fresh activation onto the core; DISPATCH_OFFER offers it to a kernel. -/
def Obligations.StopsSwitchesAndOffers : Prop :=
  ∀ (s : State) (g : Nat), g < 256 →
    (∀ k, k < 256 → (s.th (256 * g + k)).stop = none → (s.core g).run ≠ k →
      Completes (.threadStop g k) s fun t => t = s) ∧
    (∀ k a c, k < 256 → (s.th (256 * g + k)).stop = some c → (s.th (256 * g + k)).st ≠ 3 →
      (s.th (256 * g + k)).act = some a → a.flow = none → (∀ v h, a.src ≠ .soft v (some h)) →
      Completes (.threadStop g k) s fun t =>
        t.th (256 * g + k) = { s.th (256 * g + k) with st := 1, act := none, armed := false, woken := false, wait := 0,
                                                       stop := none } ∧
        (∀ j, j ≠ 256 * g + k → t.th j = s.th j) ∧ (t.core g).run = (s.core g).run ∧ (t.core g).pc = (s.core g).pc ∧
        t.rd (ymCoreA g 0x28) = sat32 (s.rd (ymCoreA g 0x28) + 1) ∧ SameBytes s t) ∧
    (∀ gt x a, coreLive s g = true → preemptMode s g = true → deferred s g = false → (s.core g).hold = .none →
      (s.core g).wfe = false → (s.core g).left = true → (s.core g).saveOut = false → (s.core g).busAsync = [] →
      budgetDue (s.core g) = false → dueLine s g = none → candidate s g = some (gt, x, a) → a.fresh = true →
      Completes (.preemptSwitch g) s fun t => (t.core g).run = gt % 256 ∧ (t.core g).left = false ∧
        (t.core g).pc = fld a.entry 16 4 ∧ (t.core g).km = false ∧ (t.core g).ie = true ∧
        (t.core g).gs 0 = a.s0 % 2 ^ 32 ∧ (t.core g).gs 1 = a.s1 % 2 ^ 32 ∧ (t.core g).gs 4 = a.id % 2 ^ 32 ∧
        (t.core g).budget = BitVec.ofNat 32 a.budget ∧ (t.th gt).st = 3 ∧
        (t.th gt).act = some { a with fresh := false } ∧ (∀ k, k ≠ gt → t.th k = s.th k) ∧
        RegsBut [kA g 0x68, kA g 0x6C] s t ∧ SameBytes s t) ∧
    (preemptMode s g = false → switchDue s g = true → (candidate s g).isSome = true →
      Completes (.dispatchOffer g) s fun t => offerNow t g = true ∧
        t = { s with cores := t.cores } ∧ (∀ h, h ≠ g → t.core h = s.core h) ∧
        t.core g = { s.core g with offer := true }) ∧
    ((preemptMode s g = true ∨ switchDue s g = false ∨ candidate s g = none) →
      Completes (.dispatchOffer g) s fun t => t = s)

/-- R288: a software activation request in the Barn that is accepted binds its thread and leaves its ID and STATUS 1 in
the record; an address that no record may have is counted. -/
def Obligations.SoftwareActivations : Prop :=
  ∀ (s : State) (src a : Nat), Reaches s src ymEp →
    (recordOk (a % 2 ^ 44) = false → Completes (.ymAct src a) s fun t =>
      t.rd (ymRegs + 0x28) = sat32 (s.rd (ymRegs + 0x28) + 1) ∧ t = { s with regs := t.regs, bus := ⟨rspOk, 0⟩ } ∧
      RegsBut [ymRegs + 0x28] s t) ∧
    (∀ l, a % 32 = 0 → a + 32 ≤ barnSize → CleanMem s → Reaches s ymEp (epOf a) → l = s.bytes a 32 →
      (recordValid s l = false → Completes (.ymAct src a) s fun t =>
        t.rd (ymRegs + 0x28) = sat32 (s.rd (ymRegs + 0x28) + 1) ∧ t.byte (a + 3) = 4 ∧ BytesBut (a + 3) 1 s t ∧
        t = { s with regs := t.regs, mem := t.mem, bus := ⟨rspOk, 0⟩ } ∧ RegsBut [ymRegs + 0x28] s t) ∧
      (recordValid s l = true → (s.th (le l 0 2)).st ≠ 1 → Completes (.ymAct src a) s fun t =>
        t.rd (ymRegs + 0x24) = sat32 (s.rd (ymRegs + 0x24) + 1) ∧ t.byte (a + 3) = 2 ∧ BytesBut (a + 3) 1 s t ∧
        t = { s with regs := t.regs, mem := t.mem, bus := ⟨rspOk, 0⟩ } ∧ RegsBut [ymRegs + 0x24] s t) ∧
      (recordValid s l = true → (s.th (le l 0 2)).st = 1 → le l 20 2 = 0xFFFF → s.rb ymRegs 0 = true →
        eligible s (le l 0 2 / 256) = true →
        admits s (le l 0 2 / 256) (le l 8 4) (tdTime s (sTime s) (le l 12 1) (le l 13 1) (le l 14 1)) = true →
        Completes (.ymAct src a) s fun t => (t.th (le l 0 2)).st = 2 ∧ t.byte (a + 3) = 1 ∧
          (∃ x, (t.th (le l 0 2)).act = some x ∧ x.entry = le l 4 4 ∧ x.budget = le l 8 4 ∧ x.fresh = true ∧
            x.s2 = le l 16 4 ∧ x.id = le l 0 2 + ((s.th (le l 0 2)).cnt + 1) % 65536 * 65536 ∧
            t.ld (a + 24) 4 = x.id % 2 ^ 32) ∧
          (∀ k, k ≠ le l 0 2 → t.th k = s.th k) ∧ t.rd (ymRegs + 0x20) = sat32 (s.rd (ymRegs + 0x20) + 1) ∧
          (∀ b, b ≠ a + 3 → (b < a + 24 ∨ a + 28 ≤ b) → t.byte b = s.byte b)))

/-! ## The Kubry cores and their hitches (R69-R107, R108-R164) -/

/-- Core `g` stands at a bundle boundary where nothing but the bundle at PC is due. -/
abbrev Quiet (s : State) (g : Nat) : Prop :=
  g < 256 ∧ coreLive s g = true ∧ (s.core g).wfe = false ∧ (s.core g).hold = .none ∧ (s.core g).frameUe = none ∧
  (s.core g).busAsync = [] ∧ budgetDue (s.core g) = false ∧ dueLine s g = none ∧
  (s.th (runThread s g)).stop = none ∧ s.rb (kA g 0) 1 = false ∧ atBreak s g = false ∧ preemptDue s g = false ∧
  (s.core g).stepping = false ∧ (∀ k, k < 64 → (s.tag g k).charge = 0)

/-- The bundle at PC is `w0` in slot 0 and nothing in the other slots; no loop is active and no result is late. -/
abbrev AtWord (s : State) (g w0 : Nat) : Prop :=
  CleanMem s ∧ (s.core g).pc < 8192 ∧ s.ld (imemBase g + 16 * (s.core g).pc) 16 = w0 ∧
  (s.core g).srb 13 = false ∧ (s.core g).srb 14 = false ∧ (s.core g).ready = []

/-- Core `g` has entered its handler with the given cause; the bundle at PC has had no effect. -/
abbrev Entered (s t : State) (g cause : Nat) : Prop :=
  (t.core g).epc = BitVec.ofNat 32 (s.core g).pc ∧ (t.core g).ecause = BitVec.ofNat 32 cause ∧
  (t.core g).pc = (s.core g).evec.toNat ∧ (t.core g).km = true ∧ (t.core g).ie = false ∧ (t.core g).exl = true ∧
  (t.core g).srb 11 = (s.core g).km ∧ (t.core g).srb 12 = (s.core g).ie ∧ (t.core g).hold = .none ∧
  (t.core g).wfe = false ∧ (∀ i, (t.core g).gs i = (s.core g).gs i ∧ (t.core g).ga i = (s.core g).ga i)

/-- R76, R84-R86, R94-R97: an ADD or SUB bundle, a taken and an untaken branch, an illegal word with and without EXL. -/
def Obligations.BundlesRun : Prop :=
  ∀ (s : State) (g : Nat), Quiet s g →
    (∀ d a b sum, d < 32 → a < 32 → b < 32 → (s.core g).gs a + (s.core g).gs b = sum →
      AtWord s g (0x01 * 2 ^ 26 + d * 2 ^ 21 + a * 2 ^ 16 + b * 2 ^ 11) →
      Completes (.bundle g) s fun t => (t.core g).gs d = sum % 2 ^ 32 ∧ (t.core g).srb 0 = decide (sum % 2 ^ 32 = 0) ∧
        (t.core g).srb 1 = tb sum 31 ∧ (t.core g).srb 2 = decide (2 ^ 32 ≤ sum) ∧
        (t.core g).srb 3 = decide (sgn 32 ((s.core g).gs a) + sgn 32 ((s.core g).gs b) ≠ sgn 32 sum) ∧
        (t.core g).pc = (s.core g).pc + 1 ∧ (t.core g).cycle = (s.core g).cycle + 1 ∧
        ((s.core g).km = false → (t.core g).budget.toNat = (s.core g).budget.toNat - 1) ∧
        ((s.core g).km = true → (t.core g).budget = (s.core g).budget) ∧
        (∀ i, i ≠ d → (t.core g).gs i = (s.core g).gs i) ∧ (∀ i, (t.core g).ga i = (s.core g).ga i) ∧
        (t.core g).km = (s.core g).km ∧ (t.core g).ie = (s.core g).ie ∧ (∀ h, h ≠ g → t.core h = s.core h) ∧
        t.rd (kA g 0x20) = sat32 (s.rd (kA g 0x20) + 1) ∧ SameBytes s t ∧ RegsBut [kA g 0x20, kA g 0x24] s t) ∧
    (∀ d a b, d < 32 → a < 32 → b < 32 → AtWord s g (0x02 * 2 ^ 26 + d * 2 ^ 21 + a * 2 ^ 16 + b * 2 ^ 11) →
      Completes (.bundle g) s fun t =>
        (t.core g).gs d = ((s.core g).gs a + 2 ^ 32 - (s.core g).gs b) % 2 ^ 32 ∧
        (t.core g).srb 2 = decide ((s.core g).gs b ≤ (s.core g).gs a) ∧ (t.core g).pc = (s.core g).pc + 1 ∧
        (∀ i, i ≠ d → (t.core g).gs i = (s.core g).gs i) ∧ SameBytes s t) ∧
    (∀ d a k, d < 32 → a < 32 → k < 2 ^ 15 → AtWord s g (0x20 * 2 ^ 26 + d * 2 ^ 21 + a * 2 ^ 16 + k) →
      Completes (.bundle g) s fun t =>
        (t.core g).pc = (if (s.core g).gs d = (s.core g).gs a then ((s.core g).pc + k) % 2 ^ 32 else (s.core g).pc + 1) ∧
        (∀ i, (t.core g).gs i = (s.core g).gs i) ∧ SameBytes s t ∧ RegsBut [kA g 0x20, kA g 0x24] s t) ∧
    (AtWord s g (0x31 * 2 ^ 26) → (s.core g).exl = false → Completes (.bundle g) s fun t => Entered s t g ecIllegal ∧
      t.rd (kA g 0x28) = sat32 (s.rd (kA g 0x28) + 1) ∧ SameBytes s t ∧ RegsBut [kA g 0x28] s t) ∧
    (AtWord s g (0x31 * 2 ^ 26) → (s.core g).exl = true → Completes (.bundle g) s fun t => (t.core g).halted = true ∧
      (t.core g).dfault = true ∧ (t.core g).pc = (s.core g).pc ∧ (t.core g).lastCode = ecIllegal ∧
      t.rb (stbRegs (g / 8) + 0x8004) (g % 8) = true ∧ SameBytes s t ∧ RegsBut [stbRegs (g / 8) + 0x8004] s t)

/-- R94, R97, R98, R103, R283: interrupt entry, budget exhaustion, the timer, WFE and the software interrupt. -/
def Obligations.KubryEntries : Prop :=
  ∀ (s : State) (g : Nat), g < 256 →
    (coreLive s g = true → (s.core g).hold = .none → (s.core g).wfe = false →
      (∀ n, (s.core g).busAsync = [] → budgetDue (s.core g) = false → dueLine s g = some n →
        Completes (.interruptEntry g) s fun t => Entered s t g (n * 2 ^ 24 + 2 ^ 31) ∧ t = { s with cores := t.cores } ∧
          (∀ h, h ≠ g → t.core h = s.core h)) ∧
      (∀ code a rest, (s.core g).busAsync = (code, a) :: rest → (s.core g).exl = false → code < 8 →
        Completes (.interruptEntry g) s fun t => Entered s t g (ecBusAsync + code * 1024) ∧
          (t.core g).eval = BitVec.ofNat 32 a ∧ (t.core g).evalHi = BitVec.ofNat 32 (a / 2 ^ 32 % 4096) ∧
          (t.core g).busAsync = rest ∧ t = { s with cores := t.cores, regs := t.regs } ∧ RegsBut [kA g 0x28] s t) ∧
      (∀ a v, (s.core g).km = false → (s.core g).budget = 0 → (s.core g).busAsync = [] → (s.core g).exl = false →
        (s.core g).left = false → preemptMode s g = true → (s.th (runThread s g)).act = some a →
        (s.th (runThread s g)).stop = none → a.src = .soft v none →
        Completes (.budgetExhaust g) s fun t => Entered s t g ecBudget ∧ (t.th (runThread s g)).stop = some 2 ∧
          t.rd (ymCoreA g 0x24) = sat32 (s.rd (ymCoreA g 0x24) + 1) ∧
          t = { s with cores := t.cores, ym := t.ym, regs := t.regs } ∧ RegsBut [kA g 0x28, ymCoreA g 0x24] s t)) ∧
    (s.inReset g = false → s.shedCur (g / 8) = 3 → (s.core g).halted = false → (s.core g).wfe = true →
      (s.core g).timer.toNat ≠ (s.core g).cycle % 2 ^ 32 →
      Completes (.timerMatch g) s fun t => tb (t.core g).lines 21 = true ∧ (t.core g).wfe = true ∧
        (s.core g).cycle + ((s.core g).timer.toNat + 2 ^ 32 - (s.core g).cycle % 2 ^ 32) % 2 ^ 32 ≤ (t.core g).cycle ∧
        s.now ≤ t.now ∧ (∀ h, h ≠ g → t.core h = s.core h) ∧ t = { s with now := t.now, cores := t.cores, regs := t.regs } ∧
        RegsBut [kA g 0x24] s t) ∧
    (coreLive s g = true → (s.core g).wfe = true → ipend s g ≠ 0 → Completes (.wfeWake g) s fun t =>
      (t.core g).wfe = false ∧ (t.core g).pc = (s.core g).pc ∧ (t.core g).sr = (s.core g).sr ∧
      t = { s with cores := t.cores, regs := t.regs } ∧ RegsBut [kA g 0x24] s t) ∧
    ((s.core g).wfe = false → Completes (.wfeWake g) s fun t => t = s) ∧
    Completes (.kbSwi g) s (fun t => tb (t.core g).lines 22 = true ∧
      (∀ i, i ≠ 22 → tb (t.core g).lines i = tb (s.core g).lines i) ∧
      t.core g = { s.core g with lines := (t.core g).lines } ∧ (∀ h, h ≠ g → t.core h = s.core h) ∧
      t = { s with cores := t.cores, bus := ⟨rspOk, 0⟩ })

/-- R84, R92, R148: the answers to a far load and a far store, the end of a FENCE and of a hitch stall. -/
def Obligations.FarAccessesAndHolds : Prop :=
  ∀ (s : State) (g : Nat), g < 256 → coreLive s g = true →
    (∀ q a r, (s.core g).hold = .far q a 4 → a % 4 = 0 → a + 4 ≤ barnSize → CleanMem s → Reaches s (coreEp g) (epOf a) →
      r < 32 → heldBundle s g = ⟨0, 0, 0x10 * 2 ^ 27 + r * 2 ^ 22, 0⟩ → (s.core g).srb 13 = false →
      (s.core g).srb 14 = false → (s.core g).stepping = false →
      Completes (.farLoadResponse g) s fun t => (t.core g).gs r = s.ld a 4 ∧ (t.core g).hold = .none ∧
        (t.core g).pc = (s.core g).pc + 1 ∧ (∀ i, i ≠ r → (t.core g).gs i = (s.core g).gs i) ∧ SameBytes s t ∧
        RegsBut [kA g 0x20, kA g 0x24] s t) ∧
    (∀ x rest, (s.core g).stores = x :: rest → (s.core g).hold ≠ .resv → (x.data.length = 4 ∨ x.data.length = 8) →
      x.addr % x.data.length = 0 → x.addr + x.data.length ≤ barnSize → CleanMem s → Reaches s (coreEp g) (epOf x.addr) →
      Completes (.farStoreResponse g) s fun t => t.bytes x.addr x.data.length = x.data ∧
        BytesBut x.addr x.data.length s t ∧ t.core g = { s.core g with stores := rest } ∧
        t = { s with cores := t.cores, mem := t.mem } ∧ (∀ h, h ≠ g → t.core h = s.core h)) ∧
    ((s.core g).stores = [] → Completes (.farStoreResponse g) s fun t => t = s) ∧
    ((s.core g).hold = .fence → (s.core g).stores = [] → heldBundle s g = ⟨0x30 * 2 ^ 26, 0, 0, 0⟩ →
      (s.core g).srb 13 = false → (s.core g).srb 14 = false → (s.core g).stepping = false →
      Completes (.fenceComplete g) s fun t => (t.core g).hold = .none ∧ (t.core g).pc = (s.core g).pc + 1 ∧
        (∀ i, (t.core g).gs i = (s.core g).gs i) ∧ SameBytes s t ∧ RegsBut [kA g 0x20, kA g 0x24] s t) ∧
    ((s.core g).hold = .scoreboard → scoreboardStall s g (s.core g) (heldBundle s g) = false →
      Completes (.hitchStallEnd g) s fun t => ∃ u, t = daStage u g (heldBundle s g) ∧ (u.core g).hold = .none ∧
        (u.core g).pc = (s.core g).pc ∧ u.rd (kA g 0x90) = sat32 (s.rd (kA g 0x90) + waitedCycles s g) ∧
        u = { s with cores := u.cores, regs := u.regs } ∧ RegsBut [kA g 0x24, kA g 0x90] s u) ∧
    ((s.core g).hold = .none → Completes (.hitchStallEnd g) s (fun t => t = s) ∧
      Completes (.fenceComplete g) s (fun t => t = s) ∧ Completes (.farLoadResponse g) s (fun t => t = s))

/-- R96, R103-R105: reset, release, halt, its end, a step over an empty bundle and debug access. -/
def Obligations.CoreControl : Prop :=
  ∀ (s : State) (g : Nat), g < 256 →
    (s.inReset g = false → coreThreads s g = [] → (∀ h, h < 4096 → hatFull s h = false) →
      Completes (.coreReset g) s fun t => t.inReset g = true ∧
        t.core g = { Core.reset with stores := (s.core g).stores, seq := (s.core g).seq } ∧
        (∀ k, k < 64 → (t.tag g k).st = 0) ∧ (∀ i, i < 8 → (t.guard g i).armed = false) ∧
        (∀ h, h ≠ g → t.core h = s.core h) ∧ g ∈ t.hatWin ∧
        t = { s with cores := t.cores, regs := t.regs, tags := t.tags, guards := t.guards, hmsgs := t.hmsgs,
                     hatWin := t.hatWin, bus := ⟨rspOk, 0⟩ } ∧ RegsBut [kA g 0, kA g 0x84] s t) ∧
    (s.inReset g = true → Completes (.coreReset g) s fun t => t = { s with bus := ⟨rspOk, 0⟩ }) ∧
    (s.inReset g = true → Completes (.coreRelease g) s fun t => t.inReset g = false ∧
      t.core g = { s.core g with pc := s.rf (kA g 8) 12 0, sr := 0x200#32, halted := s.rb (kA g 0) 1, since := s.now } ∧
      (∀ h, h ≠ g → t.core h = s.core h) ∧ g ∈ t.hatWin ∧
      t = { s with cores := t.cores, regs := t.regs, hatWin := t.hatWin, bus := ⟨rspOk, 0⟩ } ∧ RegsBut [kA g 0] s t) ∧
    (coreLive s g = true → (s.core g).hold = .none → (s.core g).wfe = false → (s.core g).frameUe = none →
      (s.core g).busAsync = [] → budgetDue (s.core g) = false → dueLine s g = none →
      Completes (.coreHalt g) s fun t => t.core g = { s.core g with halted := true, stepping := false, since := s.now } ∧
        t.rb (kA g 0) 1 = true ∧ t.inReset g = false ∧ t = { s with cores := t.cores, regs := t.regs, bus := ⟨rspOk, 0⟩ } ∧
        RegsBut [kA g 0] s t) ∧
    ((s.core g).halted = true → (s.core g).dfault = false → s.inReset g = false →
      Completes (.coreHaltClear g) s fun t => (t.core g).halted = false ∧ (t.core g).pc = (s.core g).pc ∧
        (t.core g).bpSkip = some (s.core g).pc ∧ (t.core g).budget = (s.core g).budget ∧ t.rb (kA g 0) 1 = false ∧
        t = { s with cores := t.cores, regs := t.regs, bus := ⟨rspOk, 0⟩ } ∧ RegsBut [kA g 0] s t) ∧
    ((s.core g).halted = true → (s.core g).dfault = true → s.inReset g = false →
      Completes (.coreHaltClear g) s fun t => t.core g = s.core g ∧ t.rb (kA g 0) 1 = false ∧ RegsBut [kA g 0] s t) ∧
    ((s.core g).halted = true → (s.core g).dfault = false → s.inReset g = false → s.shedReady (g / 8) = true →
      AtWord s g 0 → (s.core g).km = true → (s.core g).ie = false → (s.core g).hold = .none →
      (s.core g).frameUe = none → (s.core g).busAsync = [] → (s.th (runThread s g)).stop = none →
      Completes (.coreStep g) s fun t => (t.core g).pc = (s.core g).pc + 1 ∧ (t.core g).halted = true ∧
        t.rb (kA g 0) 2 = false ∧ t.rd (kA g 0x20) = sat32 (s.rd (kA g 0x20) + 1) ∧
        (∀ i, (t.core g).gs i = (s.core g).gs i) ∧ SameBytes s t ∧ RegsBut [kA g 0, kA g 0x20, kA g 0x24] s t) ∧
    ((s.core g).halted = false → Completes (.coreStep g) s fun t => t = { s with bus := ⟨rspOk, 0⟩ })

/-- R104, R106, R107, R99: debug access to registers, a change of clock point, and tick messages at a stable. -/
def Obligations.DebugClocksAndTicks : Prop :=
  ∀ (s : State),
    (∀ g i v, g < 256 → i < 32 → ((s.core g).halted = true ∨ s.inReset g = true) → s.rf (kA g 0x10) 7 6 = 0 →
      s.rf (kA g 0x10) 5 0 = i →
      Completes (.dbgDataRead g) s (fun t => t = { s with bus := ⟨rspOk, (s.core g).gs i⟩ }) ∧
      Completes (.dbgDataWrite g v) s (fun t => (t.core g).gs i = v % 2 ^ 32 ∧
        (∀ j, j ≠ i → (t.core g).gs j = (s.core g).gs j) ∧ t.core g = { s.core g with s := (t.core g).s } ∧
        (∀ h, h ≠ g → t.core h = s.core h) ∧ t = { s with cores := t.cores, bus := ⟨rspOk, 0⟩ })) ∧
    (∀ g v, g < 256 → (s.core g).halted = false → s.inReset g = false →
      Completes (.dbgDataRead g) s (fun t => t = { s with bus := ⟨rspTgt, 0⟩ }) ∧
      Completes (.dbgDataWrite g v) s (fun t => t = { s with bus := ⟨rspTgt, 0⟩ })) ∧
    (∀ n point, n < 32 → point = clockDue s n → s.shedCur n ≠ 0 →
      (∀ k, k < 8 → (s.core (8 * n + k)).halted = false ∧ (s.core (8 * n + k)).wfe = false ∧
        (s.core (8 * n + k)).hold = .none) →
      Completes (.clockPointChange n point) s fun t => t.rf (stbRegs n + 0x8000) 1 0 = point ∧
        t.rb (stbRegs n + 0x8000) 8 = decide (point < s.rf (stbRegs n + 0x8000) 5 4) ∧
        t = { s with regs := t.regs } ∧ RegsBut [stbRegs n + 0x8000] s t) ∧
    (∀ n point, n < 32 → point ≠ clockDue s n → Completes (.clockPointChange n point) s fun t => t = s) ∧
    (∀ n m rest o, n < 32 → tget noTicks s.ticks (1 + n) = m :: rest → s.shedReady n = true →
      o = (if m.train < 8 then 0 else 4) →
      Completes (.stableTickReceive n) s fun t => tget noTicks t.ticks (1 + n) = rest ∧
        (∀ k, k < 8 → t.rd (kA (8 * n + k) (0xE8 + o)) =
          if s.inReset (8 * n + k) then s.rd (kA (8 * n + k) (0xE8 + o))
          else s.rd (kA (8 * n + k) (0xE8 + o)) |||
            (s.rd (kA (8 * n + k) (0xE0 + o)) &&& ((m.mask % 16) <<< (4 * (m.train % 8))))) ∧
        t = { s with regs := t.regs, ticks := t.ticks } ∧
        RegsBut ((List.range 8).map (fun k => kA (8 * n + k) (0xE8 + o))) s t)

/-- R116, R135, R136, R139, R142: results leave the datapath, a switch to a fresh thread completes or is abandoned, and
FLUSH and RELOAD with a save area in X or Y memory. -/
def Obligations.VectorStateMoves : Prop :=
  ∀ (s : State) (g : Nat), g < 256 →
    ((s.core g).dp = none → Completes (.vectorDatapathDone g) s fun t => t.core g = s.core g ∧
      t = { s with cores := t.cores }) ∧
    (∀ d r v e, (s.core g).dp = some d → d.writes = [(r, v, e)] → r < 32 →
      Completes (.vectorDatapathDone g) s fun t => tget zv (t.core g).vreg r = v ∧ tget ze (t.core g).vexp r = e ∧
        (∀ j, j ≠ r → tget zv (t.core g).vreg j = tget zv (s.core g).vreg j) ∧ (t.core g).live.getLsbD r = true ∧
        (t.core g).dirty.getLsbD r = true ∧ (t.core g).vcSr = (s.core g).vcSr ||| BitVec.ofNat 32 d.flags ∧
        (t.core g).dp = none ∧ (∀ i, (t.core g).gs i = (s.core g).gs i) ∧ (t.core g).pc = (s.core g).pc ∧
        (∀ h, h ≠ g → t.core h = s.core h) ∧ t = { s with cores := t.cores }) ∧
    ((s.core g).hold = .vswitch → (s.core g).curFresh = true → (s.core g).owner = none → (s.core g).dp = none →
      Completes (.vectorSwitchDone g) s fun t => ∃ u, t = daStage u g (heldBundle u g) ∧
        (u.core g).owner = some (s.core g).curThread ∧ (u.core g).curFresh = false ∧ (u.core g).live = 0 ∧
        (u.core g).dirty = 0 ∧ (∀ r, tget zv (u.core g).vreg r = 0) ∧ (u.core g).vcNarrow = 0xAF#32 ∧
        (u.core g).saveOwn = (s.core g).saveCur ∧ (u.core g).hold = .none ∧ (u.core g).pc = (s.core g).pc ∧
        u = { s with now := u.now, cores := u.cores, regs := u.regs } ∧ RegsBut [kA g 0x24, kA g 0x3C] s u) ∧
    ((s.core g).hold ≠ .vswitch → Completes (.vectorSwitchAbandon g) s fun t => t = s) ∧
    ((s.core g).hold = .vswitch → waitedCycles s g < (s.core g).dpWait →
      Completes (.vectorSwitchAbandon g) s fun t => (t.core g).hold = .none ∧ (t.core g).dp = (s.core g).dp ∧
        (t.core g).owner = (s.core g).owner ∧ (t.core g).live = (s.core g).live ∧
        t = { s with cores := t.cores, regs := t.regs } ∧ RegsBut [kA g 0x24, kA g 0x3C] s t) ∧
    (vecDbgOk s g = true → (s.core g).dp = none → CleanMem s → areaBarn (s.core g).saveOwn.toNat = false →
      Completes (.vecFlush g) s (fun t =>
        (∀ r, r ∈ dirtyList (s.core g) →
          t.ld (areaAt g (s.core g).saveOwn.toNat + 0x40 + 512 * r) 512 = (s.core g).gv r) ∧
        t.ld (areaAt g (s.core g).saveOwn.toNat) 4 = (s.core g).live.toNat ∧ (t.core g).dirty = 0 ∧
        (t.core g).owner = (s.core g).owner ∧ (t.core g).live = (s.core g).live ∧
        t = { s with mem := t.mem, cores := t.cores, bus := ⟨rspOk, 0⟩ }) ∧
      Completes (.vecReload g) s (fun t =>
        (t.core g).live = BitVec.ofNat 32 (s.ld (areaAt g (s.core g).saveOwn.toNat) 4) ∧
        (∀ r, r ∈ liveList (t.core g) →
          (t.core g).gv r = s.ld (areaAt g (s.core g).saveOwn.toNat + 0x40 + 512 * r) 512) ∧ (t.core g).dirty = 0 ∧
        (t.core g).owner = (s.core g).owner ∧ t = { s with cores := t.cores, bus := ⟨rspOk, 0⟩ })) ∧
    (vecDbgOk s g = false → Completes (.vecFlush g) s (fun t => t = { s with bus := ⟨rspTgt, 0⟩ }) ∧
      Completes (.vecReload g) s (fun t => t = { s with bus := ⟨rspTgt, 0⟩ }))

/-- R145, R151, R156, R158, R159, R162: what becomes of a tag. -/
def Obligations.HitchTags : Prop :=
  ∀ (s : State),
    (∀ h m rest, h < 272 → m.tag < 64 → tget noAns s.postAns h = m :: rest → (h < 256 → (s.core h).hold ≠ .resv) →
      ((s.tag h m.tag).gen = m.gen → ((s.tag h m.tag).st = 1 ∨ m.code = rspOk ∧ (s.tag h m.tag).st = 2) →
        Completes (.postResponse h) s fun t => t.tag h m.tag = { s.tag h m.tag with answer := some m.code } ∧
          tget noAns t.postAns h = rest ∧ t = { s with postAns := t.postAns, tags := t.tags }) ∧
      ((s.tag h m.tag).gen ≠ m.gen → Completes (.postResponse h) s fun t => tget noAns t.postAns h = rest ∧
        t = { s with postAns := t.postAns }) ∧
      ((s.tag h m.tag).gen = m.gen → (s.tag h m.tag).st = 2 → m.code ≠ rspOk →
        (s.tag h m.tag).evDue.find? (fun p => p.1 = m.gen) = none → tb (s.tag h m.tag).ctrl 10 = false →
        Completes (.postResponse h) s fun t => (t.tag h m.tag).st = 3 ∧
          (t.tag h m.tag).status = (if m.code = rspFull then 0x08 else 0x04 + m.code * 256) ∧
          t = { s with postAns := t.postAns, tags := t.tags })) ∧
    (∀ h m rest, h < 256 → m.tag < 64 → tget noComps s.comps h = m :: rest →
      (s.tag h m.tag).evDue.find? (fun p => p.1 = m.gen) = none →
      ((s.tag h m.tag).gen = m.gen → (s.tag h m.tag).st = 2 → Completes (.hitchCompletion h) s fun t =>
        (t.tag h m.tag).st = 3 ∧ (t.tag h m.tag).status = m.status ∧ (t.tag h m.tag).charge = m.ctxCyc ∧
        (tb (s.tag h m.tag).ctrl 10 = true → t.rb (kA h (0x70 + m.tag / 32 * 4)) (m.tag % 32) = true) ∧
        (tb (s.tag h m.tag).ctrl 10 = false → t.regs = s.regs) ∧
        t = { s with comps := t.comps, tags := t.tags, regs := t.regs } ∧
        RegsBut [kA h (0x70 + m.tag / 32 * 4)] s t) ∧
      ((s.tag h m.tag).gen = m.gen → (s.tag h m.tag).st = 4 → Completes (.hitchCompletion h) s fun t =>
        (t.tag h m.tag).st = 0 ∧ t = { s with comps := t.comps, tags := t.tags, guards := t.guards }) ∧
      ((s.tag h m.tag).gen ≠ m.gen → (s.tag h m.tag).timedOut.contains m.gen = false →
        Completes (.hitchCompletion h) s fun t => t.rd (kA h 0x88) = sat32 (s.rd (kA h 0x88) + 1) ∧
          (∀ k, t.tag h k = s.tag h k) ∧ t = { s with comps := t.comps, regs := t.regs } ∧ RegsBut [kA h 0x88] s t)) ∧
    (∀ h k, h < 256 → k < 64 → (s.tag h k).st = 2 → (s.tag h k).evDue.find? (fun p => p.1 = (s.tag h k).gen) = none →
      tb (s.tag h k).ctrl 10 = false →
      Completes (.hsTimeout h k) s fun t => (t.tag h k).st = 3 ∧ (t.tag h k).status = 7 ∧
        (s.tag h k).gen ∈ (t.tag h k).timedOut ∧ (s.tag h k).conf + tmoUs s h * us ≤ t.now ∧
        t.rd (kA h 0x8C) = sat32 (s.rd (kA h 0x8C) + 1) ∧
        t = { s with now := t.now, tags := t.tags, regs := t.regs } ∧ RegsBut [kA h 0x8C] s t) ∧
    (∀ g k, g < 256 → k < 64 → coreLive s g = true → (s.tag g k).charge ≠ 0 → tb (tmask s g) k = true →
      (∀ j, j < 64 → j ≠ k → (s.tag g j).charge = 0) →
      Completes (.ctxCharge g) s fun t => (t.tag g k).charge = 0 ∧
        (t.core g).budget.toNat = (s.core g).budget.toNat - cdiv ((s.tag g k).charge * coreMhz s g) 1200 ∧
        t = { s with tags := t.tags, cores := t.cores } ∧ (∀ h, h ≠ g → t.core h = s.core h)) ∧
    (∀ c k ctrl desc ctx, c < 16 → k < 64 → ctrl = s.rd (htcA c 0) → desc = s.rd (htcA c 4) → ctx = s.rd (htcA c 8) →
      ((s.tag (256 + c) k).st ≠ 0 → Completes (.htcPost c k) s fun t => t = { s with bus := ⟨rspTgt, 0⟩ }) ∧
      ((s.tag (256 + c) k).st = 0 → fld ctrl 3 0 ≤ 10 → fld ctrl 15 12 = 0 → fld ctrl 9 4 < classCount (fld ctrl 3 0) →
        fld desc 31 30 = 2 → fld desc 5 0 = 0 → (ctx = 0 ∨ fld ctx 31 30 = 2 ∧ fld ctx 5 0 = 0) →
        Completes (.htcPost c k) s fun t => (t.tag (256 + c) k).st = 2 ∧
          (t.tag (256 + c) k).gen = ((s.tag (256 + c) k).gen + 1) % 16 ∧ (t.tag (256 + c) k).ctrl = ctrl ∧
          tget noMsgs t.hmsgs (ctrlEng ctrl) = tget noMsgs s.hmsgs (ctrlEng ctrl) ++
            [.post (256 + c) k (((s.tag (256 + c) k).gen + 1) % 16) ctrl desc ctx,
             .confirm (256 + c) k (((s.tag (256 + c) k).gen + 1) % 16)] ∧
          t = { s with tags := t.tags, hmsgs := t.hmsgs, bus := ⟨rspOk, 0⟩ })) ∧
    (∀ c k, c < 16 → k < 64 →
      ((s.tag (256 + c) k).st = 3 → Completes (.htcFree c k) s fun t => (t.tag (256 + c) k).st = 0 ∧
        t = { s with tags := t.tags, bus := ⟨rspOk, 0⟩ }) ∧
      ((s.tag (256 + c) k).st = 1 ∨ (s.tag (256 + c) k).st = 2 ∨ (s.tag (256 + c) k).st = 4 →
        Completes (.htcFree c k) s fun t => t = { s with bus := ⟨rspTgt, 0⟩ }))

/-! ## The accelerator engines (R143-R266) -/

/-- R147, R158, R161, R191: the messages of a hitch at its engine. -/
def Obligations.EngineMessages : Prop :=
  ∀ (s : State) (e h tag gen : Nat) (rest : List HMsg), e < 196 → Reaches s (hEp h) (eEp e) →
    (∀ ctrl desc ctx, tget noMsgs s.hmsgs e = .post h tag gen ctrl desc ctx :: rest →
      (eHeld s e = false → (s.eng e).queue.length < 128 → Completes (.enginePost e) s fun t =>
        (t.eng e).queue = (s.eng e).queue ++ [⟨h, tag, gen, ctrl, desc, ctx, false⟩] ∧
        tget noAns t.postAns h = tget noAns s.postAns h ++ [⟨tag, gen, rspOk⟩] ∧ tget noMsgs t.hmsgs e = rest ∧
        (∀ f, f ≠ e → t.eng f = s.eng f) ∧
        t = { s with hmsgs := t.hmsgs, postAns := t.postAns, engines := t.engines }) ∧
      ((eHeld s e = true ∨ 128 ≤ (s.eng e).queue.length) → Completes (.enginePost e) s fun t =>
        tget noAns t.postAns h = tget noAns s.postAns h ++ [⟨tag, gen, if eHeld s e then rspTgt else rspFull⟩] ∧
        t = { s with hmsgs := t.hmsgs, postAns := t.postAns })) ∧
    (tget noMsgs s.hmsgs e = .confirm h tag gen :: rest →
      ((s.eng e).doomed.contains (h, tag, gen) = true → Completes (.engineConfirm e) s fun t =>
        tget noComps t.comps h = tget noComps s.comps h ++ [⟨eEp e, tag, gen, 5, 0⟩] ∧
        (h, tag, gen) ∉ (t.eng e).doomed ∧ (t.eng e).queue = (s.eng e).queue ∧
        t = { s with hmsgs := t.hmsgs, comps := t.comps, engines := t.engines, regs := t.regs }) ∧
      (∀ j, (s.eng e).doomed.contains (h, tag, gen) = false →
        (s.eng e).queue.find? (fun (j : EJob) => decide (j.h = h ∧ j.tag = tag ∧ j.gen = gen) && !j.conf) = some j →
        Completes (.engineConfirm e) s fun t => (t.eng e).queue = (s.eng e).queue.erase j ++ [{ j with conf := true }] ∧
          t = { s with hmsgs := t.hmsgs, engines := t.engines })) ∧
    (tget noMsgs s.hmsgs e = .withdraw h tag gen :: rest → s.rb (eA e 0) 0 = false →
      Completes (.engineWithdraw e) s fun t => tget noMsgs t.hmsgs e = rest ∧
        (∀ j ∈ (t.eng e).queue, j.conf = true ∨ ¬ (j.h = h ∧ j.tag = tag ∧ j.gen = gen)) ∧
        (∀ j ∈ (s.eng e).queue, (j.conf = true ∨ ¬ (j.h = h ∧ j.tag = tag ∧ j.gen = gen)) → j ∈ (t.eng e).queue) ∧
        t = { s with hmsgs := t.hmsgs, engines := t.engines })

/-- R151, R155, R157, R189, R190, R258: a confirmed command starts (a burst job without an enabled channel, and one with
a bad descriptor), a finished run completes, and a producer completes with its chained job's report. -/
def Obligations.EngineJobs : Prop :=
  ∀ (s : State) (e : Nat), e < 196 →
    (∀ j u d, engClass e = 10 → eHeld s e = false → s.shedReady (eShed e) = true → (s.eng e).run = none →
      (s.eng e).chainQ = [] → (s.eng e).chClr = [] → s.rb (eA e 0) 1 = false →
      (s.eng e).queue.find? (fun (j : EJob) => j.conf) = some j → j.ctx = 0 →
      (∀ c, c < 96 → s.nb (engInst e) c = NbChan.reset ∧ nbEnabled s (engInst e) c = false) →
      u = s.setEng e { s.eng e with queue := (s.eng e).queue.erase j, run := some (newRun s (some j) none) } →
      eRead u e (ownGlobal u (areaAddr j.h j.desc)) 64 = (rspOk, d, u) →
      Completes (.engineJobStart e) s fun t => (∃ r, (t.eng e).run = some r ∧ r.job = some j ∧ r.phase = 0 ∧
          r.summary = 0 ∧ r.status = (if nbGood d then 0 else 2) ∧ r.occ = (if nbGood d then 64 else 0)) ∧
        (t.eng e).queue = (s.eng e).queue.erase j ∧ (∀ f, f ≠ e → t.eng f = s.eng f) ∧
        t = { s with engines := t.engines }) ∧
    ((eHeld s e = true ∨ s.shedReady (eShed e) = false) → Completes (.engineJobStart e) s fun t => t = s) ∧
    (∀ r j, (s.eng e).run = some r → r.job = some j → r.post = none → r.recW = none →
      (r.phase = 0 → Completes (.engineJobComplete e) s fun t => (t.eng e).run = none ∧
        tget noComps t.comps j.h = tget noComps s.comps j.h ++
          [⟨eEp e, j.tag, j.gen, statusWord r.status r.rsp r.ctxSw r.summary, r.ctxCyc⟩] ∧
        r.since + r.occ * enginePeriod s ≤ t.now ∧ t.rd (eA e 8) = sat32 (s.rd (eA e 8) + 1) ∧
        (t.eng e).queue = (s.eng e).queue ∧ (∀ f, f ≠ e → t.eng f = s.eng f) ∧
        (r.status ≠ 0 → t.rd (eA e 0x14) = sat32 (s.rd (eA e 0x14) + 1)) ∧
        (r.status = 0 → t.rd (eA e 0x14) = s.rd (eA e 0x14) ∧ t.rd (eA e 0x18) = s.rd (eA e 0x18)) ∧
        t = { s with now := t.now, regs := t.regs, engines := t.engines, comps := t.comps } ∧
        RegsBut [eA e 8, eA e 0xC, eA e 0x14, eA e 0x18] s t) ∧
      (r.phase ≠ 0 → Completes (.engineJobComplete e) s fun t => t = s) ∧
      (∀ st sm more, r.phase = 4 → (s.eng e).reports = (st, sm) :: more → (sm ≠ 0 ∨ engClass e ≠ 1) → st % 256 ≠ 0 →
        Completes (.chainStatusReport e) s fun t => (t.eng e).run = none ∧ (t.eng e).reports = more ∧
          tget noComps t.comps j.h = tget noComps s.comps j.h ++
            [⟨eEp e, j.tag, j.gen, statusWord (st % 256) (st / 256) r.ctxSw sm, r.ctxCyc⟩] ∧
          t = { s with now := t.now, regs := t.regs, engines := t.engines, comps := t.comps }) ∧
      (∀ st sm more, r.phase = 4 → (s.eng e).reports = (st, sm) :: more → (sm ≠ 0 ∨ engClass e ≠ 1) → st % 256 = 0 →
        Completes (.chainStatusReport e) s fun t => (t.eng e).run = none ∧
          tget noComps t.comps j.h = tget noComps s.comps j.h ++
            [⟨eEp e, j.tag, j.gen, statusWord r.status r.rsp r.ctxSw sm, r.ctxCyc⟩] ∧
          t = { s with now := t.now, regs := t.regs, engines := t.engines, comps := t.comps }))

/-- R187, R195: a producer's slot is asked for, granted and filled, or refused and asked for again, and announced. The
rows of a matrix engine and of an encoder or HARQ engine differ in their name only. -/
def Obligations.ChainSlots : Prop :=
  ∀ (s : State) (e : Nat) (r : ERun), e < 196 → (s.eng e).run = some r → Reaches s (eEp e) (eEp r.cons) →
    eHeld s r.cons = false →
    (∀ c, c = (if engClass e = 1 then Instr.chainHalfRequest e else .chainSlotRequest e) → r.phase = 1 →
      (freeSlot s e r.cons = none → Completes c s fun t =>
        (t.eng e).run = some { r with phase := 2, asked := s.now } ∧ (∀ f, f ≠ e → t.eng f = s.eng f) ∧
        t = { s with engines := t.engines }) ∧
      (∀ i u, engClass e ≠ 1 → freeSlot s e r.cons = some i →
        eWrite (grantSlot s e r.cons i) e (ownGlobal s (slotAddr' e r.cons i)) (((r.todo[r.sent]?).map ChainOut.data).getD [])
          = (rspOk, u) →
        Completes c s fun t => t = modRun u e (fun r => { r with phase := 3, slot := i })) ∧
      (∀ i u u', engClass e = 1 → freeSlot s e r.cons = some i →
        eWrite (grantSlot s e r.cons i) e (ownGlobal s (slotAddr' e r.cons i)) (((r.todo[0]?).map ChainOut.data).getD [])
          = (rspOk, u) →
        eWrite u e (ownGlobal s (slotAddr' e r.cons i) + 0x1F000) (((r.todo[1]?).map ChainOut.data).getD []) = (rspOk, u') →
        Completes c s fun t => t = modRun u' e (fun r => { r with phase := 3, slot := i }))) ∧
    (∀ c, c = (if engClass e = 1 then Instr.chainHalfRetry e else .chainSlotRetry e) → r.phase = 2 →
      Completes c s fun t => ∃ u, t = slotRequest u e ∧ r.asked + 64 * enginePeriod s ≤ u.now ∧
        u.rd (eA e (if engClass e = 1 then 0x2C else 0x30)) =
          sat32 (s.rd (eA e (if engClass e = 1 then 0x2C else 0x30)) + 64) ∧
        u = { s with now := u.now, regs := u.regs } ∧ RegsBut [eA e (if engClass e = 1 then 0x2C else 0x30)] s u) ∧
    (∀ c, c = (if engClass e = 1 then Instr.chainedJobSend e else .chainSlotReady e) → r.phase = 3 → r.cons ≠ e →
      Completes c s fun t =>
        (let last := decide (engClass e = 1 ∨ r.todo.length ≤ r.sent + 1)
         (t.eng e).run = some { r with phase := if last then 4 else 1, sent := r.sent + 1 } ∧
         ∃ i, (t.eng r.cons).chainQ = (s.eng r.cons).chainQ ++ [i] ∧ i.prod = e ∧ i.desc = r.cdesc ∧ i.slot = r.slot ∧
           i.idx = r.sent ∧ i.last = last) ∧
        (∀ f, f ≠ e → f ≠ r.cons → t.eng f = s.eng f) ∧ t = { s with engines := t.engines })

/-- R190, R191, R251, R252, R255, R257: reset, its end and pause of an engine, the commands of a listen-before-talk unit
and the enable of a burst channel. -/
def Obligations.EngineControlAndLbt : Prop :=
  ∀ (s : State),
    (∀ e j, e < 196 → s.rb (eA e 0) 0 = false → (s.eng e).run = none → waitsOn s e = [] → (s.eng e).queue = [j] →
      Completes (.engineReset e) s fun t => t.rb (eA e 0) 0 = true ∧ (t.eng e).queue = [] ∧ (t.eng e).run = none ∧
        (t.eng e).ctxs = [] ∧ (t.eng e).chainQ = [] ∧
        (j.conf = true → tget noComps t.comps j.h = tget noComps s.comps j.h ++ [⟨eEp e, j.tag, j.gen, 5, 0⟩]) ∧
        (j.conf = false → (j.h, j.tag, j.gen) ∈ (t.eng e).doomed ∧ t.comps = s.comps) ∧
        t = { s with regs := t.regs, engines := t.engines, comps := t.comps, bus := ⟨rspOk, 0⟩ } ∧
        RegsBut [eA e 0, eA e 8, eA e 0x14, eA e 0x18] s t) ∧
    (∀ e, e < 196 → s.rb (eA e 0) 0 = true → (s.eng e).recs = [] →
      Completes (.engineResetClear e) s fun t => t.rb (eA e 0) 0 = false ∧ t.eng e = s.eng e ∧
        t = { s with regs := t.regs, engines := t.engines, bus := ⟨rspOk, 0⟩ } ∧ RegsBut [eA e 0] s t) ∧
    (∀ e, e < 196 → Completes (.enginePause e) s fun t => t.rb (eA e 0) 1 = true ∧
      t.rb (eA e 0) 0 = s.rb (eA e 0) 0 ∧ t = { s with regs := t.regs, bus := ⟨rspOk, 0⟩ } ∧ RegsBut [eA e 0] s t) ∧
    (∀ c, c < 64 →
      (s.rb (svA c 0x30) 0 = true → lbtState s c = 0 → Completes (.lbtStart c) s fun t =>
        t.rd (svA c 0x44) = xorshift (s.rd (svA c 0x44)) ∧
        t.rd (svA c 0x4C) = 1 + xorshift (s.rd (svA c 0x44)) * (s.rf (svA c 0x3C) 9 0 + 1) / 2 ^ 32 * 16 ∧
        lbtState t c = 1 ∧ t.lbt c = Lbt.reset ∧ t = { s with regs := t.regs, lbts := t.lbts, bus := ⟨rspOk, 0⟩ } ∧
        RegsBut [svA c 0x44, svA c 0x4C] s t) ∧
      ((s.rb (svA c 0x30) 0 = false ∨ lbtState s c ≠ 0) → Completes (.lbtStart c) s fun t => t = { s with bus := ⟨rspTgt, 0⟩ }) ∧
      (lbtState s c ≠ 0 → Completes (.lbtAbort c) s fun t => lbtState t c = 0 ∧
        t.rd (svA c 0x58) = sat32 (s.rd (svA c 0x58) + 1) ∧
        t = { s with regs := t.regs, lbts := t.lbts, bus := ⟨rspOk, 0⟩ } ∧ RegsBut [svA c 0x4C, svA c 0x58] s t) ∧
      (lbtState s c = 0 → Completes (.lbtAbort c) s fun t => t = { s with bus := ⟨rspOk, 0⟩ }) ∧
      (lbtState s c = 3 →
        Completes (.lbtRelease c) s (fun t => lbtState t c = 0 ∧ t.rf (svA c 0x4C) 13 4 = s.rf (svA c 0x4C) 13 4 ∧
          t = { s with regs := t.regs, lbts := t.lbts, bus := ⟨rspOk, 0⟩ } ∧ RegsBut [svA c 0x4C] s t) ∧
        Completes (.cotEnd c) s (fun t => lbtState t c = 0 ∧ t = { s with regs := t.regs, lbts := t.lbts } ∧
          RegsBut [svA c 0x4C] s t)) ∧
      (lbtState s c ≠ 3 → Completes (.cotEnd c) s fun t => t = s)) ∧
    (∀ i j, i < 8 → j < 96 → nbEnabled s i j = false →
      (nbConfigOk s i j = true → Completes (.nbChannelEnable i j) s fun t => nbEnabled t i j = true ∧
        (∀ k, k < 96 → k ≠ j → nbEnabled t i k = nbEnabled s i k) ∧ j ∈ (t.eng (engNum 10 i)).chClr ∧
        t = { s with regs := t.regs, engines := t.engines, bus := ⟨rspOk, 0⟩ } ∧
        RegsBut [nbA i (0x2C + j / 32 * 4)] s t) ∧
      (nbConfigOk s i j = false → Completes (.nbChannelEnable i j) s fun t => nbEnabled t i j = false ∧
        t.rb (nbA i (0x38 + j / 32 * 4)) (j % 32) = true ∧ t = { s with regs := t.regs, bus := ⟨rspOk, 0⟩ } ∧
        RegsBut [nbA i (0x2C + j / 32 * 4), nbA i (0x38 + j / 32 * 4)] s t))

/-! ## Ethernet (R373-R407) -/

/-- The FEC counters of MAC `m`'s port (R375). -/
def fecRegs (m : Nat) : List Nat := (List.range 8).map (fun l => ethPort (m / 2) + 0x10 + 4 * l)

/-- Counter `i` of MAC `m` has gone up by one and nothing but it and the FEC counters has changed. -/
abbrev EthCounts (s t : State) (m i : Nat) : Prop :=
  t.rd (macA m (0x1100 + 4 * i)) = sat32 (s.rd (macA m (0x1100 + 4 * i)) + 1) ∧ t = { s with regs := t.regs } ∧
  RegsBut (macA m (0x1100 + 4 * i) :: fecRegs m) s t

/-- R376-R381: what becomes of a received frame, the checks in order, and its delivery. -/
def Obligations.FramesReceived : Prop :=
  ∀ (s : State) (m : Nat) (f : RxFrame), m < 33 →
    ((macEn s m = false ∨ macLink s m = false) → ∀ x, Completes (.frameReceive m f x) s fun t => t = s) ∧
    (macEn s m = true → macLink s m = true → f.fecUnc = [] → f.fecCorr = [] →
      (f.lineLen < 64 → Completes (.frameReceive m f none) s fun t => EthCounts s t m 1) ∧
      (64 ≤ f.lineLen → f.fcsOk = false → Completes (.frameReceive m f none) s fun t => EthCounts s t m 2) ∧
      (64 ≤ f.lineLen → f.fcsOk = true → s.rf (macA m 0x1000) 29 16 < f.lineLen →
        Completes (.frameReceive m f none) s fun t => EthCounts s t m 3) ∧
      (64 ≤ f.lineLen → f.fcsOk = true → f.lineLen ≤ s.rf (macA m 0x1000) 29 16 → be f.bytes 12 2 ≠ 0x8808 →
        s.rb (macA m 0xA000) 0 = false →
        (classify s m f.bytes = .none → Completes (.frameReceive m f none) s fun t => EthCounts s t m 4) ∧
        (∀ q r a, classify s m f.bytes = .queue q r → q < nQueues m → f.fifoOvf = false → s.rf (qA m q 0) 1 0 = 1 →
          f.bytes.length + 16 ≤ qSlot s m q → qFree s m q ≠ 0 → s.rf (macA m 0x100C) 1 0 = 0 →
          a = qBase s m q + qNext s m q * qSlot s m q →
          Completes (.frameReceive m f none) s fun t =>
            (∃ h u, h.length = 16 ∧ le h 0 2 = f.bytes.length % 2 ^ 16 ∧ le h 3 1 = r % 256 ∧ u = { s with regs := u.regs } ∧
              RegsBut (fecRegs m) s u ∧ t.mem = (u.putPostedAll (macEnd m) a (h ++ f.bytes)).mem) ∧
            (∃ d, (t.mac m).done = (s.mac m).done ++ [d] ∧ d.q = q ∧ d.bytes = f.bytes ∧ d.due = s.now + 2 * us) ∧
            t.rd (qA m q 0x20) = s.rd (qA m q 0x20)))) ∧
    (∀ q d, (s.mac m).done.find? (fun (d : RxDone) => decide (d.q = q)) = some d → q < nQueues m →
      s.rf (qA m q 0) 9 8 = 0 → d.bytes ≠ [] →
      Completes (.frameDeliver m q) s fun t => ∃ u, t = hltIntake u ∧ d.due ≤ u.now ∧
        (u.mac m).done = (s.mac m).done.erase d ∧ u.rd (qA m q 0x20) = (qHead s m q + 1) % qEntries s m q ∧
        u.rd (qA m q 0x2C) = sat32 (s.rd (qA m q 0x2C) + 1) ∧
        u = { s with now := u.now, macs := u.macs, regs := u.regs } ∧ RegsBut [qA m q 0x20, qA m q 0x2C] s u)

/-- R375, R396, R397, R404: the pause watchdog and the end of a pause, a link that comes or goes, verification of
preemption, a queue disabled. -/
def Obligations.PauseLinksAndQueues : Prop :=
  ∀ (s : State) (m : Nat), m < 33 →
    (∀ c x, c < 8 → tget (fun _ => none) (s.mac m).pauseOn c = some x → s.rf (macA m 0x100C) 31 16 ≠ 0 →
      s.rb (macA m 0x1010) c = true →
      Completes (.pauseWd m c) s fun t => x + s.rf (macA m 0x100C) 31 16 * us ≤ t.now ∧
        t.rb (macA m 0x1010) c = false ∧ t.rb (macA m 0x1010) (8 + c) = true ∧ t.rb (macA m 0x1018) 1 = true ∧
        t.rd (macA m 0x114C) = sat32 (s.rd (macA m 0x114C) + 1) ∧
        tget (fun _ => none) (t.mac m).pauseOn c = none ∧
        t = { s with now := t.now, regs := t.regs, macs := t.macs, msiRise := t.msiRise } ∧
        RegsBut [macA m 0x1010, macA m 0x114C, macA m 0x1018] s t) ∧
    (∀ c, c < 8 → s.rb (macA m 0x1010) c = true → s.rb (macA m 0x1010) (8 + c) = false →
      Completes (.pauseTimeEnd m c) s fun t => tget (fun _ => 0) (s.mac m).pauseEnd c ≤ t.now ∧
        t.rb (macA m 0x1010) c = false ∧ (∀ k, k < 8 → k ≠ c → t.rb (macA m 0x1010) k = s.rb (macA m 0x1010) k) ∧
        tget (fun _ => none) (t.mac m).pauseOn c = none ∧ t = { s with now := t.now, regs := t.regs, macs := t.macs } ∧
        RegsBut [macA m 0x1010] s t) ∧
    (∀ tx rx, macLink s m = false → Completes (.linkChange m true tx rx) s fun t => macLink t m = true ∧
      t.rd (ctRegs + 0x10000 + m * 0x100 + 0xC) = tx % 2 ^ 32 ∧ t.rd (ctRegs + 0x10000 + m * 0x100 + 0x10) = rx % 2 ^ 32 ∧
      t.rb (macA m 0x1018) 0 = true ∧ t = { s with regs := t.regs, msiRise := t.msiRise }) ∧
    (∀ tx rx, macLink s m = true → Completes (.linkChange m false tx rx) s fun t => macLink t m = false ∧
      t.rb (macA m 0x1004) 2 = false ∧ t.rb (macA m 0x1018) 0 = true ∧ (t.mac m).busy = s.now ∧
      t = { s with regs := t.regs, macs := t.macs, msiRise := t.msiRise }) ∧
    (m ≠ 32 → macLink s m = true → s.rb (macA m 0x1014) 16 = true → s.rb (macA m 0x1014) 17 = true →
      Completes (.preemptionVerify m) s fun t => t.rb (macA m 0x1004) 2 = true ∧ macLink t m = true ∧
        t = { s with regs := t.regs } ∧ RegsBut [macA m 0x1004] s t) ∧
    (∀ q, q < nQueues m → Completes (.queueDisable m q) s fun t => t.rf (qA m q 0) 1 0 = 0 ∧
      t.rf (qA m q 0) 9 8 = s.rf (qA m q 0) 9 8 ∧ t = { s with regs := t.regs, bus := ⟨rspOk, 0⟩ } ∧ RegsBut [qA m q 0] s t)

/-- R386, R387, R391, R402: writes to a transmit window, a held write rejected, RESYNC and FLUSH, a fallback order. -/
def Obligations.TransmitQueues : Prop :=
  ∀ (s : State) (m : Nat), m < 33 →
    (∀ q src l, q < nTxqs m →
      ((s.rb (macA m (0x1020 + 4 * q)) 31 = false ∨ s.rf (macA m (0x1020 + 4 * q)) 11 0 ≠ src) →
        Completes (.txqWrite m q src l) s fun t => t = { s with bus := ⟨rspTgt, 0⟩ }) ∧
      (s.rb (macA m (0x1020 + 4 * q)) 31 = true → s.rf (macA m (0x1020 + 4 * q)) 11 0 = src → (s.txq m q).lost = false →
        (s.txq m q).held = [] →
        (0x20000 < txqBytes s m q + l.length → Completes (.txqWrite m q src l) s fun t =>
          t.txq m q = { s.txq m q with held := [⟨s.now, l⟩] } ∧ (∀ k, k ≠ q → t.txq m k = s.txq m k) ∧
          t = { s with macs := t.macs }) ∧
        (txqBytes s m q + l.length ≤ 0x20000 → (s.txq m q).part = [] → 64 ≤ l.length →
          l.length = roundUp (64 + le l 20 2) 32 → le l 0 1 ≠ 4 →
          (recBad s m l = false → Completes (.txqWrite m q src l) s fun t =>
            t.txq m q = { s.txq m q with recs := (s.txq m q).recs ++ [l] } ∧ (∀ k, k ≠ q → t.txq m k = s.txq m k) ∧
            t = { s with macs := t.macs, bus := ⟨rspOk, 0⟩ }) ∧
          (recBad s m l = true → tb (le l 1 1) 2 = false → Completes (.txqWrite m q src l) s fun t =>
            (t.txq m q).lost = true ∧ (t.txq m q).part = [] ∧ (t.txq m q).recs = (s.txq m q).recs ∧
            t.rd (macA m 0x1134) = sat32 (s.rd (macA m 0x1134) + 1) ∧ t.rb (macA m 0x1018) 3 = true ∧
            t = { s with macs := t.macs, regs := t.regs, msiRise := t.msiRise, bus := ⟨rspOk, 0⟩ } ∧
            RegsBut [macA m 0x1134, macA m 0x1018] s t)))) ∧
    (∀ q h rest, q < nTxqs m → (s.txq m q).held = h :: rest → Completes (.txqHoldReject m q) s fun t =>
      h.since + s.rf (macA m 0x1008) 31 16 * us ≤ t.now ∧ (t.txq m q).held = rest ∧ (t.txq m q).part = [] ∧
      (t.txq m q).lost = true ∧ t.bus = ⟨rspTgt, 0⟩ ∧ t.rd (macA m 0x1138) = sat32 (s.rd (macA m 0x1138) + 1) ∧
      t = { s with now := t.now, macs := t.macs, regs := t.regs, msiRise := t.msiRise, bus := t.bus } ∧
      RegsBut [macA m 0x1138, macA m 0x1018] s t) ∧
    (∀ q, q < nTxqs m → (s.txq m q).held = [] →
      Completes (.txqResync m q) s (fun t => t.txq m q = { s.txq m q with part := [], lost := false } ∧
        (∀ k, k ≠ q → t.txq m k = s.txq m k) ∧ t = { s with macs := t.macs, bus := ⟨rspOk, 0⟩ }) ∧
      ((∀ r ∈ (s.txq m q).recs, tb (le r 1 1) 2 = false) → Completes (.txqFlush m q) s fun t =>
        t.txq m q = { s.txq m q with recs := [] } ∧ (∀ k, k ≠ q → t.txq m k = s.txq m k) ∧
        t = { s with macs := t.macs, bus := ⟨rspOk, 0⟩ })) ∧
    (∀ o, s.ym.fbOrders.find? (fun (o : FbOrder) => decide (o.mac = m)) = some o →
      (∀ k, k < 64 → s.rb (cellA m k 0) 0 = true → s.rf (cellA m k 4) 9 0 = o.cell → s.rb (cellA m k 4) 10 = o.gsm →
        (∀ j, j < k → s.rb (cellA m j 0) 0 = false) →
        Completes (.fallbackOrder m) s fun t =>
          slotMask t m k o.slot = ((slotMask s m k o.slot).1 ||| o.mask % 2 ^ 14, (slotMask s m k o.slot).2) ∧
          t.ym.fbOrders = s.ym.fbOrders.erase o ∧ t = { s with ym := t.ym, macs := t.macs }) ∧
      ((∀ k, k < 64 → s.rb (cellA m k 0) 0 = false) → Completes (.fallbackOrder m) s fun t =>
        t.rd (macA m 0x1150) = sat32 (s.rd (macA m 0x1150) + 1) ∧ t.rb (macA m 0x1018) 2 = true ∧
        t.ym.fbOrders = s.ym.fbOrders.erase o ∧ (∀ k, t.mac k = s.mac k) ∧
        t = { s with ym := t.ym, regs := t.regs, msiRise := t.msiRise } ∧
        RegsBut [macA m 0x1150, macA m 0x1018] s t))

/-- R387-R390, R395: the record at the head of a queue leaves as its frame, or too late is dropped; the gate lists. -/
def Obligations.LaunchesAndGates : Prop :=
  ∀ (s : State) (m : Nat), m < 33 →
    (∀ q r rest, q < nTxqs m → (s.txq m q).recs = r :: rest → (s.txq m q).held = [] → macEn s m = true →
      macLink s m = true → s.rb (macA m 0x1010) q = false → s.rb (macA m 0x1200) 0 = false →
      s.rb (macA m 0x1014) 16 = false → s.rb (macA m 0xA000) 0 = false → (s.mac m).busy ≤ s.now → le r 0 1 = 0 →
      (∀ h, q < h → h < nTxqs m → (s.txq m h).recs = []) →
      (le r 1 1 = 0 → Completes (.frameLaunch m q) s fun t =>
        (let b := sub r 64 (le r 20 2) ++ List.replicate (60 - le r 20 2) 0
         t.wire = s.wire ++ [.frame m (domTime s (macDom s m)) none (b ++ natLe 4 (fcs32 b))] ∧
         (t.mac m).busy = s.now + lineQuanta s m (b.length + 4)) ∧
        t.txq m q = { s.txq m q with recs := rest } ∧ (∀ k, k ≠ q → t.txq m k = s.txq m k) ∧
        t.rd (macA m 0x1128) = sat32 (s.rd (macA m 0x1128) + 1) ∧
        t = { s with wire := t.wire, macs := t.macs, regs := t.regs } ∧ RegsBut [macA m 0x1128, macA m 0x1148] s t) ∧
      (le r 1 1 = 1 → recTime r 8 + (s.rf (macA m 0x1008) 15 0 : Nat) * nsU < domTime s (macDom s m) →
        recTime r 8 + nsU * 3 ≤ domTime s (macDom s m) →
        Completes (.frameLaunch m q) s fun t => t.wire = s.wire ∧ t.txq m q = { s.txq m q with recs := rest } ∧
          t.rd (macA m 0x1130) = sat32 (s.rd (macA m 0x1130) + 1) ∧ t = { s with macs := t.macs, regs := t.regs } ∧
          RegsBut [macA m 0x1130] s t)) ∧
    (m < 32 → s.rb (macA m 0x1214) 1 = false → s.rf (macA m 0x1200) 10 2 ≤ 256 →
      (((List.range (s.rf (macA m 0x1200) 10 2)).map (fun i => s.rf (macA m (0x8000 + 4 * i)) 31 8)).sum ≠ 0 →
        Completes (.qbvChange m) s fun t => t.rb (macA m 0x1214) 1 = true ∧ t.rb (macA m 0x1200) 1 = true ∧
          t = { s with regs := t.regs, bus := ⟨rspOk, 0⟩ } ∧ RegsBut [macA m 0x1200, macA m 0x1214] s t) ∧
      (((List.range (s.rf (macA m 0x1200) 10 2)).map (fun i => s.rf (macA m (0x8000 + 4 * i)) 31 8)).sum = 0 →
        Completes (.qbvChange m) s fun t => t.rb (macA m 0x1214) 1 = false ∧ t.rb (macA m 0x1200) 1 = false ∧
          t.rb (macA m 0x1018) 6 = true ∧ RegsBut [macA m 0x1200, macA m 0x1018] s t)) ∧
    (m < 32 → s.rb (macA m 0x1214) 1 = true → Completes (.qbvListTake m) s fun t =>
      t.rd (macA m 0x1214) = 1 + s.rf (macA m 0x1200) 10 2 * 4 ∧ t.rb (macA m 0x1200) 1 = false ∧
      (∀ i, i < 256 → t.rd (macA m (0x8400 + 4 * i)) = s.rd (macA m (0x8000 + 4 * i))) ∧ (t.mac m).qbvIdx = 0 ∧
      s.now ≤ t.now ∧ t = { s with now := t.now, regs := t.regs, macs := t.macs }) ∧
    (m < 32 → s.rb (macA m 0x1200) 0 = true → s.rb (macA m 0x1214) 0 = true →
      ((s.mac m).qbvIdx + 1 < s.rf (macA m 0x1214) 10 2 →
        (s.mac m).qbvEnd < (s.mac m).qbvStart + ((s.mac m).qbvCycle : Int) * nsU →
        Completes (.gateIntervalEnd m) s fun t => (t.mac m).qbvIdx = (s.mac m).qbvIdx + 1 ∧
          (t.mac m).qbvStart = (s.mac m).qbvStart ∧ s.now ≤ t.now ∧ t = { s with now := t.now, macs := t.macs }) ∧
      (s.rf (macA m 0x1214) 10 2 ≤ (s.mac m).qbvIdx + 1 → Completes (.gateIntervalEnd m) s fun t =>
        (t.mac m).qbvIdx = 0 ∧ (t.mac m).qbvStart = (s.mac m).qbvStart + ((s.mac m).qbvCycle : Int) * nsU ∧
        t = { s with now := t.now, macs := t.macs }))

/-! ## Phinerlink (R430-R465) -/

/-- Neither time domain has a fabric source. -/
abbrev NoFabricTime (s : State) : Prop := domSrc s 0 ≠ 3 ∧ domSrc s 1 ≠ 3

/-- R434, R439, R464: a port's lanes, its trainings, its enable, and a packet that arrives. -/
def Obligations.PortTrainingAndPackets : Prop :=
  ∀ (s : State) (p : Nat), p < 8 → NoFabricTime s →
    (∀ lane los, lane < 8 → (plPm s p = 0 ∨ los = false) →
      (plUp s p = true → (plLanes s p).contains lane = true → Completes (.laneFault p lane los) s fun t =>
        plState t p = 1 ∧ t.rb (plP p 4) ((if los then 8 else 16) + lane) = true ∧ t.rb (plA 0xC) 0 = true ∧
        t.plp p = { s.plp p with prior := plState s p, trainAt := s.now, trained := true, errs := [], secHi := [] } ∧
        (∀ q, q < 8 → q ≠ p → plState t q = plState s q) ∧ plFgen t = plFgen s ∧
        t = { s with regs := t.regs, pl := t.pl, msiRise := t.msiRise } ∧
        RegsBut [plP p 4, plP p 0x54, plA 0xC] s t) ∧
      (plUp s p = false → Completes (.laneFault p lane los) s fun t =>
        t.rb (plP p 4) ((if los then 8 else 16) + lane) = true ∧ plState t p = plState s p ∧
        t = { s with regs := t.regs } ∧ RegsBut [plP p 4] s t)) ∧
    (plState s p = 1 →
      (∀ fs, fs = (s.plp p).fails.filter (fun x => decide (max s.now ((s.plp p).trainAt + 100 * us) < x + 1000000 * us)) →
        (fs.length < 2 → Completes (.trainingTimeout p) s fun t => plState t p = 1 ∧
          (t.plp p).prior = (s.plp p).prior ∧ (t.plp p).trainAt = t.now ∧ (s.plp p).trainAt + 100 * us ≤ t.now ∧
          (t.plp p).fails = t.now :: fs ∧ (t.plp p).queue = (s.plp p).queue) ∧
        (2 ≤ fs.length → (s.plp p).queue = [] → Completes (.trainingTimeout p) s fun t => plState t p = 0 ∧
          t.rb (plP p 4) 5 = false ∧ (t.plp p).replay = [] ∧ (t.plp p).fails = [] ∧ t.rb (plA 0xC) 0 = true)) ∧
      ((s.plp p).prior = 2 ∨ (s.plp p).prior = 3 → (s.plp p).queue = [] → (s.plp p).replay = [] →
        Completes (.trainingDone p) s fun t => plState t p = (s.plp p).prior ∧
          (∀ l ∈ plLanes s p, t.rb (plP p 4) (8 + l) = false ∧ t.rb (plP p 4) (16 + l) = false) ∧
          t.plp p = { s.plp p with idle := s.now } ∧
          plFgen t = (if (s.plp p).prior = 3 ∧ anyAdmitted s = false then (plFgen s + 1) % 16 else plFgen s) ∧
          t = { s with regs := t.regs, pl := t.pl, msiRise := t.msiRise } ∧
          RegsBut [plP p 4, plA 0xC, plA 8] s t)) ∧
    (s.rb (plP p 0) 0 = true → s.rf (plP p 0) 2 1 ≠ 0 → Completes (.plRetrain p) s fun t => plState t p = 1 ∧
      (plUp s p = true → (t.plp p).prior = plState s p) ∧ (t.plp p).trainAt = s.now ∧ t.bus = ⟨rspOk, 0⟩ ∧
      t = { s with regs := t.regs, pl := t.pl, msiRise := t.msiRise, bus := t.bus }) ∧
    (s.rb (plP p 0) 0 = false → Completes (.plRetrain p) s fun t => t = { s with bus := ⟨rspTgt, 0⟩ }) ∧
    (s.rb (plP p 0) 0 = false → s.rf (plP p 0) 2 1 ≠ 0 → s.rf (plP p 0) 4 3 ≠ 3 →
      Completes (.plPortEnable p true) s fun t => t.rb (plP p 0) 0 = true ∧ plState t p = 1 ∧
        (t.plp p).prior = 2 ∧ (t.plp p).queue = [] ∧ (t.plp p).msgs = (s.plp p).msgs ∧ t.bus = ⟨rspOk, 0⟩) ∧
    (s.rb (plP p 0) 0 = true → s.rf (plP p 0) 4 3 ≠ 3 → (s.plp p).queue = [] →
      Completes (.plPortEnable p false) s fun t => t.rb (plP p 0) 0 = false ∧ plState t p = 0 ∧
        t.rb (plP p 4) 5 = false ∧ (t.plp p).replay = [] ∧ t.bus = ⟨rspOk, 0⟩) ∧
    (∀ x : PlPacket, plUp s p = true →
      (x.edb = true → Completes (.plPacketReceive p x) s fun t => t.rd (plP p 0x50) = sat32 (s.rd (plP p 0x50) + 1) ∧
        t = { s with regs := t.regs } ∧ RegsBut [plP p 0x50] s t) ∧
      (x.edb = false → plParse x.bytes = none → (s.plp p).nakd = false → Completes (.plPacketReceive p x) s fun t =>
        t.rd (plP p 0x48) = sat32 (s.rd (plP p 0x48) + 1) ∧ (t.plp p).nakd = true ∧
        t.wire = s.wire ++ [.plLctl p 4096 (((s.plp p).rx + 4095) % 4096) []] ∧
        t = { s with regs := t.regs, pl := t.pl, wire := t.wire } ∧ RegsBut [plP p 0x48] s t) ∧
      (∀ k, x.edb = false → plParse x.bytes = some (k, (s.plp p).rx) → Completes (.plPacketReceive p x) s fun t =>
        ∃ u, t = plDeliver u p k ∧ (u.plp p).rx = ((s.plp p).rx + 1) % 4096 ∧ (u.plp p).nakd = false ∧
          u.rd (plP p 0x44) = sat32 (s.rd (plP p 0x44) + 1) ∧
          u.wire = s.wire ++ [.plLctl p (s.plp p).rx 4096 ((List.range 4).map (fun i => b2n (decide (i = k.ch))))] ∧
          u = { s with regs := u.regs, pl := u.pl, wire := u.wire } ∧ RegsBut [plP p 0x44] s u)) ∧
    (∀ x : PlPacket, plUp s p = false → Completes (.plPacketReceive p x) s fun t => t = s)

/-- R435, R436, R439, R442, R460: admission, power states, acknowledgements and calibration of a port. -/
def Obligations.PortAdmissionPowerAndCal : Prop :=
  ∀ (s : State) (p : Nat), p < 8 →
    (plState s p = 2 → s.rb (plP p 4) 5 = true → plValid s = true → Completes (.plAdmit p) s fun t => plState t p = 3 ∧
      t.rb (plA 0xC) 0 = true ∧ plFgen t = (if anyAdmitted s then plFgen s else (plFgen s + 1) % 16) ∧
      t = { s with regs := t.regs, msiRise := t.msiRise, bus := ⟨rspOk, 0⟩ } ∧
      RegsBut [plP p 4, plA 0xC, plA 8] s t) ∧
    ((plState s p ≠ 2 ∨ s.rb (plP p 4) 5 = false ∨ plValid s = false) →
      Completes (.plAdmit p) s fun t => t = { s with bus := ⟨rspTgt, 0⟩ }) ∧
    (plState s p = 3 → Completes (.plUnadmit p) s fun t => plState t p = 2 ∧ plFgen t = plFgen s ∧
      t = { s with regs := t.regs, msiRise := t.msiRise, bus := ⟨rspOk, 0⟩ } ∧ RegsBut [plP p 4, plA 0xC] s t) ∧
    (plState s p ≠ 0 → Completes (.authOk tackEp p) s fun t => t.rb (plP p 4) 5 = true ∧ plState t p = plState s p ∧
      t = { s with regs := t.regs, bus := ⟨rspOk, 0⟩ } ∧ RegsBut [plP p 4, plP p 0x10] s t) ∧
    (∀ src, src ≠ tackEp → Completes (.authOk src p) s fun t => t = { s with bus := ⟨rspTgt, 0⟩ }) ∧
    (plUp s p = true → plTimeRole s p = false → (s.plp p).queue = [] →
      (plPm s p = 0 → Completes (.plQuiet p) s fun t => plPm t p = 1 ∧ plState t p = plState s p ∧
        t.wire = s.wire ++ [.plPwr p 0] ∧
        t = { s with regs := t.regs, pl := t.pl, wire := t.wire, bus := ⟨rspOk, 0⟩ } ∧ RegsBut [plP p 4] s t) ∧
      (plPm s p ≤ 1 → Completes (.plCold p) s fun t => plPm t p = 2 ∧ t.wire = s.wire ++ [.plPwr p 1] ∧
        t = { s with regs := t.regs, pl := t.pl, wire := t.wire, bus := ⟨rspOk, 0⟩ } ∧ RegsBut [plP p 4] s t) ∧
      (s.rb (plP p 0) 5 = true → plPm s p = 0 → s.rf (plP p 8) 15 0 ≠ 0 → Completes (.autoPmIdle p) s fun t =>
        plPm t p = 1 ∧ (s.plp p).idle + s.rf (plP p 8) 15 0 * 1536 ≤ t.now ∧ t.wire = s.wire ++ [.plPwr p 0] ∧
        t = { s with now := t.now, regs := t.regs, pl := t.pl, wire := t.wire })) ∧
    (plTimeRole s p = true → Completes (.plQuiet p) s (fun t => t = { s with bus := ⟨rspTgt, 0⟩ }) ∧
      Completes (.plCold p) s (fun t => t = { s with bus := ⟨rspTgt, 0⟩ }) ∧
      Completes (.autoPmIdle p) s (fun t => t = s)) ∧
    (plUp s p = true → plPm s p ≠ 0 → (s.plp p).queue = [] →
      Completes (.plWakeCmd p) s (fun t => plPm t p = 0 ∧ plState t p = plState s p ∧
        t = { s with regs := t.regs, pl := t.pl, bus := ⟨rspOk, 0⟩ } ∧ RegsBut [plP p 4] s t) ∧
      Completes (.portWakeExit p) s (fun t => plPm t p = 0 ∧ plState t p = plState s p ∧
        t = { s with regs := t.regs, pl := t.pl } ∧ RegsBut [plP p 4] s t)) ∧
    (∀ ack cr pre b post, plUp s p = true → (s.plp p).replay = pre ++ (ack, b) :: post → (∀ e ∈ pre, e.1 ≠ ack) →
      ack < 4096 → (s.plp p).queue = [] → Completes (.plLctl p ack 4096 cr) s fun t => (t.plp p).replay = post ∧
        (∀ i, i < 4 → tget (fun _ => 0) (t.plp p).credits i = tget (fun _ => 0) (s.plp p).credits i + cr.getD i 0) ∧
        t = { s with pl := t.pl }) ∧
    (∀ nak b post, plUp s p = true → plPm s p = 0 → (s.plp p).replay = (nak, b) :: post → nak < 4096 →
      (s.plp p).queue = [] → (s.plp p).naks.2 < 2 → Completes (.plLctl p 4096 nak []) s fun t => (t.plp p).replay = post ∧
        t.wire = s.wire ++ post.map (fun e => .plPacket p e.2) ∧ t.rd (plP p 0x4C) = sat32 (s.rd (plP p 0x4C) + 1) ∧
        t = { s with regs := t.regs, pl := t.pl, wire := t.wire } ∧ RegsBut [plP p 0x4C] s t) ∧
    (plUp s p = true → s.rb (plP p 4) 7 = false → (s.rb (plA 0x1C) (8 + p) = true ∨ s.rb (plA 0x1C) (16 + p) = true) →
      Completes (.plCal p) s fun t => t.rb (plP p 4) 7 = true ∧ t.rb (plP p 4) 6 = false ∧ (t.plp p).calAt = s.now ∧
        (t.plp p).cal = [] ∧ (t.plp p).peer = none ∧ t = { s with regs := t.regs, pl := t.pl, bus := ⟨rspOk, 0⟩ } ∧
        RegsBut [plP p 4] s t) ∧
    (s.rb (plP p 4) 7 = true →
      (∀ g, calFull s p = true → (s.plp p).peer = some g → Completes (.calComplete p) s fun t =>
        t.rb (plP p 4) 7 = false ∧ t.rb (plP p 4) 6 = true ∧ t.rb (plA 0xC) 4 = true ∧
        t = { s with regs := t.regs, msiRise := t.msiRise }) ∧
      (calFull s p = false → Completes (.calComplete p) s fun t => t.rb (plP p 4) 7 = false ∧
        (s.plp p).calAt + 10000 * us ≤ t.now ∧ t = { s with now := t.now, regs := t.regs } ∧ RegsBut [plP p 4] s t))

/-- R443, R458, R459: management messages in and out, and time markers. -/
def Obligations.MessagesAndMarkers : Prop :=
  ∀ (s : State) (p : Nat), p < 8 →
    (∀ m rest, (s.plp p).msgs = m :: rest → ¬ (0x10 ≤ m.mtype ∧ m.mtype ≤ 0x12) →
      ((mgmtKnown m.mtype = false ∨ s.rd (plP p 0x20) < 2 ∨
          (s.rd (plP p 0x24) + 1) % s.rd (plP p 0x20) = s.rd (plP p 0x28)) →
        Completes (.mgmtMessage p) s fun t => t.rd (plP p 0x5C) = sat32 (s.rd (plP p 0x5C) + 1) ∧
          (t.plp p).msgs = rest ∧ t = { s with regs := t.regs, pl := t.pl } ∧ RegsBut [plP p 0x5C] s t) ∧
      (mgmtKnown m.mtype = true → m.mtype ≠ 1 → 2 ≤ s.rd (plP p 0x20) →
        (s.rd (plP p 0x24) + 1) % s.rd (plP p 0x20) ≠ s.rd (plP p 0x28) →
        Completes (.mgmtMessage p) s fun t => (t.plp p).msgs = rest ∧
          t.rd (plP p 0x24) = (s.rd (plP p 0x24) + 1) % s.rd (plP p 0x20) ∧ t.rb (plA 0xC) 3 = true ∧
          ∃ u : State, u = { s with pl := u.pl } ∧ t.mem = (u.putAll (plPortEp p)
            (s.rd (plP p 0x18) + s.rd (plP p 0x1C) * 2 ^ 32 + s.rd (plP p 0x24) * 8192)
            (natLe 2 (mgmtBody m).length ++ natLe 2 m.mtype ++ natLe 4 m.id ++ mgmtBody m)).2.mem)) ∧
    (∀ m rest, (s.plp p).parts = m :: rest → Completes (.mgmtReassemblyTimeout p) s fun t => (t.plp p).parts = rest ∧
      m.since + 1000 * us ≤ t.now ∧ t.rd (plP p 0x5C) = sat32 (s.rd (plP p 0x5C) + 1) ∧
      t = { s with now := t.now, regs := t.regs, pl := t.pl } ∧ RegsBut [plP p 0x5C] s t) ∧
    (∀ len l, 8 ≤ len → len ≤ 7936 → plUp s p = true → s.rd (plP p 0x30) + len ≤ barnSize → plPm s p ≠ 0 →
      mtxBusy s p = false → s.fetchAll (plPortEp p) (s.rd (plP p 0x30)) len = (rspOk, l, s) →
      Completes (.mtxSend p len) s fun t => mtxBusy t p = true ∧
        (t.plp p).queue.length = (s.plp p).queue.length + max 1 (cdiv (l.length - 8) 248) ∧
        t = { s with pl := t.pl, bus := ⟨rspOk, 0⟩ }) ∧
    ((plUp s p = false ∨ mtxBusy s p = true) → ∀ len, Completes (.mtxSend p len) s fun t => t = { s with bus := ⟨rspTgt, 0⟩ }) ∧
    (∀ d n, d < 2 → s.rb (plA 0x1C) (8 + 8 * d + p) = true → domValid s d = true → plUp s p = true → plPm s p = 0 →
      tget (fun _ => 0) (s.plp p).tmk d = n →
      Completes (.tmkSend p d) s fun t => tget (fun _ => 0) (t.plp p).tmk d = (n + 1) % 128 ∧
        (let x := timeParts (domTime s d)
         t.wire = s.wire ++ [.plTmk p (d * 128 + n) (if n = 0 then x.1 / 2 ^ 24 % 2 ^ 24 * 2 ^ 40
           else x.1 % 2 ^ 24 * 2 ^ 40 + x.2.1 % 2 ^ 30 * 2 ^ 10 + x.2.2 / 64 % 1024)]) ∧
        t = { s with pl := t.pl, wire := t.wire }) ∧
    (∀ sq word caps, sq < 256 → word < 2 ^ 64 → plUp s p = true →
      (sq % 128 = 0 → Completes (.tmkReceive p sq word caps) s fun t =>
        tget (fun _ => none) (t.plp p).secHi (sq / 128) = some (word / 2 ^ 40) ∧ t = { s with pl := t.pl }) ∧
      (sq % 128 ≠ 0 → tget (fun _ => none) (s.plp p).secHi (sq / 128) = none →
        Completes (.tmkReceive p sq word caps) s fun t => t.rd (plP p 0x58) = sat32 (s.rd (plP p 0x58) + 1) ∧
          t = { s with regs := t.regs } ∧ RegsBut [plP p 0x58] s t) ∧
      (∀ hi c, sq % 128 ≠ 0 → tget (fun _ => none) (s.plp p).secHi (sq / 128) = some hi → fld word 39 10 ≤ 999999999 →
        (plLanes s p).length ≤ (caps.filter (fun c => (plLanes s p).contains c.1)).length * 2 → c ∈ caps →
        (plLanes s p).contains c.1 = true → s.rb (plP p 4) (8 + c.1) = false → s.rb (plP p 4) (16 + c.1) = false →
        s.rb (plP p 4) 7 = false → domEn s (sq / 128) = true → domSrc s (sq / 128) = 3 → plParent s (sq / 128) = p →
        (tget (fun _ => ((0 : Int), 0)) (s.plp p).errs (sq / 128)).2 + 1 < 2 ^ s.rf (plA 0x1C) 27 24 →
        Completes (.tmkReceive p sq word caps) s fun t => (t.dom (sq / 128)).lastPulse = s.now ∧
          (tget (fun _ => ((0 : Int), 0)) (t.plp p).errs (sq / 128)).2 =
            (tget (fun _ => ((0 : Int), 0)) (s.plp p).errs (sq / 128)).2 + 1 ∧
          (∀ d, d < 2 → domTime t d = domTime s d) ∧ t = { s with ct := t.ct, pl := t.pl }))

/-- R447-R456: the route commit, the fence list and its barriers, response timeouts and FGEN. -/
def Obligations.FabricCommitsAndFences : Prop :=
  ∀ (s : State),
    (plDraining s = false →
      (plCheck s (s.rb (plA 0x20) 3) = 0 → Completes .plPrepare s fun t => t.rb (plA 0x24) 1 = true ∧
        t.rb (plA 0x24) 4 = true ∧ t.rf (plA 0x24) 11 8 = 0 ∧ plEpoch t = plEpoch s ∧ t.rb (plA 0xC) 5 = true ∧
        t = { s with regs := t.regs, msiRise := t.msiRise, bus := ⟨rspOk, 0⟩ } ∧
        RegsBut [plA 0x20, plA 0x24, plA 0xC] s t) ∧
      (plCheck s (s.rb (plA 0x20) 3) ≠ 0 → Completes .plPrepare s fun t => t.rb (plA 0x24) 4 = false ∧
        t.rb (plA 0x24) 1 = s.rb (plA 0x24) 1 ∧ t.rf (plA 0x24) 11 8 = plCheck s (s.rb (plA 0x20) 3) % 16 ∧
        plEpoch t = plEpoch s ∧ t = { s with regs := t.regs, bus := ⟨rspOk, 0⟩ } ∧ RegsBut [plA 0x20, plA 0x24] s t)) ∧
    (s.rb (plA 0x24) 1 = true → Completes .plSwitch s fun t => plEpoch t = 1 - plEpoch s ∧ plDraining t = true ∧
      t.rb (plA 0x24) 1 = false ∧ t.rb (plA 0x24) 3 = false ∧ t.pl.hold = s.pl.sent ∧ t.pl.sent = [] ∧
      (∀ p, t.plp p = s.plp p) ∧ t = { s with regs := t.regs, pl := t.pl, bus := ⟨rspOk, 0⟩ } ∧
      RegsBut [plA 0x20, plA 0x24] s t) ∧
    (s.rb (plA 0x24) 1 = false → Completes .plSwitch s fun t => t = { s with bus := ⟨rspTgt, 0⟩ }) ∧
    (s.rb (plA 0x24) 2 = true → s.rb (plA 0x24) 3 = true → (∀ p, p < 8 → (s.plp p).queue = []) →
      Completes .plRelease s fun t => plDraining t = false ∧ t.pl.hold = [] ∧ plEpoch t = plEpoch s ∧
        (∀ p, t.plp p = s.plp p) ∧ t = { s with regs := t.regs, pl := t.pl, bus := ⟨rspOk, 0⟩ } ∧
        RegsBut [plA 0x20, plA 0x24] s t) ∧
    ((s.rb (plA 0x24) 2 = false ∨ s.rb (plA 0x24) 3 = false) →
      Completes .plRelease s fun t => t = { s with bus := ⟨rspTgt, 0⟩ }) ∧
    (s.rb (plA 0x24) 2 = true → s.rb (plA 0x24) 3 = false → plDrain s = 0 → Completes .plDrained s fun t =>
      t.rb (plA 0x24) 3 = true ∧ plDraining t = true ∧ t.rb (plA 0xC) 6 = true ∧
      t = { s with regs := t.regs, msiRise := t.msiRise } ∧ RegsBut [plA 0x24, plA 0xC] s t) ∧
    (∀ u, u < 2 ^ 20 →
      (∀ i, fenceOf s u = none → lowest 256 (fun i => decide ((tget fenceDflt s.pl.fences i).st = 0)) = some i →
        Completes (.plFence u) s fun t => plFenced t u = true ∧ plPgen t u = 1 ∧ (∀ x ∈ t.pl.xids, x.unit ≠ u) ∧
          (∀ x ∈ s.pl.xids, x.unit ≠ u → x ∈ t.pl.xids) ∧
          (∀ x ∈ s.pl.xids, x.unit = u → ∃ r ∈ t.resps, r.src = x.src ∧ r.seq = x.seq ∧ r.code = rspFenced) ∧
          t = { s with pl := t.pl, resps := t.resps, bus := ⟨rspOk, 0⟩ }) ∧
      (∀ i f, fenceOf s u = some (i, f) →
        Completes (.plFence u) s (fun t => plFenced t u = true ∧ plPgen t u = plPgen s u ∧ t.bus = ⟨rspOk, 0⟩) ∧
        (f.st = 1 → Completes (.plUnfence u) s fun t =>
          fenceOf t u = some (i, { f with st := 2, gen := if f.gen = 15 then 1 else f.gen + 1, acks := [], since := s.now }) ∧
          t.bus = ⟨rspOk, 0⟩) ∧
        (f.st ≠ 1 → Completes (.plUnfence u) s fun t => t = { s with bus := ⟨rspTgt, 0⟩ }) ∧
        (f.st = 3 → Completes (.plRemove u) s fun t => tget fenceDflt t.pl.fences i = PlFence.reset ∧
          (∀ j, j ≠ i → tget fenceDflt t.pl.fences j = tget fenceDflt s.pl.fences j) ∧
          t = { s with pl := t.pl, bus := ⟨rspOk, 0⟩ }) ∧
        (f.st ≠ 3 → Completes (.plRemove u) s fun t => t = { s with bus := ⟨rspTgt, 0⟩ }) ∧
        (∀ ch, ch < 4 → f.st = 2 → f.acks.contains ch = false →
          (f.acks.length < 3 → Completes (.barrierAck u ch) s fun t =>
            fenceOf t u = some (i, { f with acks := f.acks ++ [ch] }) ∧ t = { s with pl := t.pl }) ∧
          (3 ≤ f.acks.length → Completes (.barrierAck u ch) s fun t =>
            fenceOf t u = some (i, { f with st := 3, acks := [], auto := false, barFail := false }) ∧
            plFenced t u = false ∧ t = { s with pl := t.pl })) ∧
        (f.st = 2 → Completes (.plBarrierTimeout u) s fun t =>
          fenceOf t u = some (i, { f with st := 1, barFail := true, acks := [] }) ∧ t.rb (plA 0xC) 2 = true ∧
          f.since + s.rf (plA 0x18) 19 0 * us ≤ t.now ∧
          t = { s with now := t.now, pl := t.pl, regs := t.regs, msiRise := t.msiRise } ∧ RegsBut [plA 0xC] s t))) ∧
    (∀ xid x i, s.pl.xids.find? (fun (x : PlXid) => decide (x.xid = xid)) = some x → fenceOf s x.unit = none →
      lowest 256 (fun i => decide ((tget fenceDflt s.pl.fences i).st = 0)) = some i →
      Completes (.plResponseTimeout xid) s fun t => plFenced t x.unit = true ∧ x.since + s.rf (plA 0x14) 19 0 * us ≤ t.now ∧
        (∃ r ∈ t.resps, r.src = x.src ∧ r.seq = x.seq ∧ r.code = rspFenced) ∧
        t.rd (plA 0x40) = sat32 (s.rd (plA 0x40) + 1) ∧ t.rb (plA 0xC) 1 = true ∧
        t = { s with now := t.now, pl := t.pl, resps := t.resps, regs := t.regs, msiRise := t.msiRise } ∧
        RegsBut [plA 0x40, plA 0xC] s t) ∧
    Completes .fgenInc s (fun t => plFgen t = (plFgen s + 1) % 16 ∧ t.rb (plA 0) 1 = false ∧
      t = { s with regs := t.regs, bus := ⟨rspOk, 0⟩ } ∧ RegsBut [plA 0, plA 8] s t)

/-- R448: the check of the shadow table records the first failure in CHECK_ERR, and tests nothing else. -/
def Obligations.ShadowTableCheck : Prop :=
  ∀ (s : State) (e : Nat → Nat) (own : Nat) (f1 f2 f3 f4 f5 : Prop), e = plEntry s (1 - plEpoch s) →
    own = 0x140 + fld (plUnit s) 5 0 →
    (f1 ↔ ∃ o, o < 384 ∧ 9 ≤ e o ∧ e o ≤ 14) →
    (f2 ↔ e own ≠ 8 ∨ ∃ o, o < 384 ∧ o ≠ own ∧ e o = 8) →
    (f3 ↔ ∃ o, o < 384 ∧ e o < 8 ∧ s.rb (plP (e o) 0) 0 = false) →
    (f4 ↔ plDraining s = true ∧ s.rb (plA 0x20) 3 = false) →
    (f5 ↔ plValid s = false) →
    Completes .plPrepare s fun t =>
      (f1 → t.rf (plA 0x24) 11 8 = 1) ∧
      (¬ f1 → f2 → t.rf (plA 0x24) 11 8 = 2) ∧
      (¬ f1 → ¬ f2 → f3 → t.rf (plA 0x24) 11 8 = 3) ∧
      (¬ f1 → ¬ f2 → ¬ f3 → f4 → t.rf (plA 0x24) 11 8 = 4) ∧
      (¬ f1 → ¬ f2 → ¬ f3 → ¬ f4 → f5 → t.rf (plA 0x24) 11 8 = 5) ∧
      (¬ f1 → ¬ f2 → ¬ f3 → ¬ f4 → ¬ f5 → t.rf (plA 0x24) 11 8 = 0)

/-! ## Halter (R466-R491) -/

/-- The packet at the head of control core `k`'s queue passes the checks of R469 as request `r`, and its source may send
it; `u` is the machine once the packet is taken. Nothing else waits for the firmware. -/
abbrev Request (s : State) (op k : Nat) (r : HReq) (u : State) : Prop :=
  hltReady s = true ∧ hltSettle s = s ∧ sourceOk u r = true ∧ ∃ p rest tl ign, tget noPkts s.hlt.queues k = p :: rest ∧
    hOp (p.bytes.take 32) = op ∧ hCheck (p.bytes.take 32) (p.bytes.drop 32) = .ok (tl, ign) ∧
    u = ({ s with hlt := { s.hlt with queues := tset noPkts s.hlt.queues k rest } }).cnt (hlA (0x200 + 4 * 9)) ign ∧
    r = ⟨k, p.src, p.stamp.getD (sTime u), p.bytes.take 32, tl⟩

/-- The command of each request opcode on control core `k`, with the opcode; the unit-wide ones are control core 0's. -/
def requestRows (k : Nat) : List (Nat × Instr) :=
  [(0x010, .holdTake k), (0x011, .holdRelease k), (0x020, .cellConfig k), (0x021, .cellStart k), (0x022, .cellStop k),
   (0x030, .dlSlot k), (0x031, .ulSlot k), (0x032, .dlData k), (0x040, .prachConfig k), (0x050, .resultRead k),
   (0x051, .resultAck k), (0x060, .lbtParam k)] ++
  (if k = 0 then [(0x001, .unitInfo), (0x070, .planLoad), (0x080, .hltFence), (0x081, .hltUnfence), (0x090, .timeSel),
    (0x0A0, .powerReq)] else [])

/-- The opcodes marked U in R472 and what their own rules do. -/
def unitRules : List (Nat × (HReq → State → State)) :=
  [(0x070, planLoad), (0x080, hltFence false), (0x081, hltFence true), (0x090, timeSel), (0x0A0, powerReq)]

/-- R476, and the checks of R469 before it: what a control core does with a packet that does not pass, and who may send an
opcode marked U: the Loft and the sources of the unit control list, with TOKEN 0. -/
def Obligations.RequestsTurnedAway : Prop :=
  ∀ (s : State) (k op : Nat) (c : Instr), k < 4 → (op, c) ∈ requestRows k →
    (hltReady s = false → Completes c s fun t => t = s) ∧
    (hltReady s = true → hltSettle s = s →
      (tget noPkts s.hlt.queues k = [] → Completes c s fun t => t = s) ∧
      (∀ p rest u, tget noPkts s.hlt.queues k = p :: rest →
        u = { s with hlt := { s.hlt with queues := tset noPkts s.hlt.queues k rest } } →
        (hOp (p.bytes.take 32) ≠ op → Completes c s fun t => t = s) ∧
        (hOp (p.bytes.take 32) = op →
          (∀ ty o, hCheck (p.bytes.take 32) (p.bytes.drop 32) = .error (some (ty, o)) → Completes c s fun t =>
            t = hltReply u k p.src (p.bytes.take 32) stBadParam false none (hSlot (p.bytes.take 32))
              [tlv 0xF4 (natLe 2 ty ++ natLe 2 o)]) ∧
          (hCheck (p.bytes.take 32) (p.bytes.drop 32) = .error none → Completes c s fun t => ∃ x y,
            t = hltReply { u with fresh := u.fresh + 1 } k p.src (p.bytes.take 32) stBadParam false none
              (hSlot (p.bytes.take 32)) [tlv 0xF4 (natLe 2 x ++ natLe 2 y)]) ∧
          (∀ tl ign r v, hCheck (p.bytes.take 32) (p.bytes.drop 32) = .ok (tl, ign) →
            v = u.cnt (hlA (0x200 + 4 * 9)) ign → r = ⟨k, p.src, p.stamp.getD (sTime v), p.bytes.take 32, tl⟩ →
            sourceOk v r = false → Completes c s fun t => t = hltSettle (r.reply v stNotHolder []))))) ∧
    (∀ f p rest tl ign r v, (op, f) ∈ unitRules → hltReady s = true → hltSettle s = s →
      tget noPkts s.hlt.queues 0 = p :: rest → hOp (p.bytes.take 32) = op →
      hCheck (p.bytes.take 32) (p.bytes.drop 32) = .ok (tl, ign) →
      v = ({ s with hlt := { s.hlt with queues := tset noPkts s.hlt.queues 0 rest } }).cnt (hlA (0x200 + 4 * 9)) ign →
      r = ⟨0, p.src, p.stamp.getD (sTime v), p.bytes.take 32, tl⟩ →
      ((p.src.kind = 0 ∨ inUcl v p.src = true) ∧ hTok r.h = 0 → Completes c s fun t => t = hltSettle (f r v)) ∧
      (¬ ((p.src.kind = 0 ∨ inUcl v p.src = true) ∧ hTok r.h = 0) →
        Completes c s fun t => t = hltSettle (r.reply v stNotHolder [])))

/-- R472, R485: the unit-wide requests. -/
def Obligations.UnitRequestsAreAnswered : Prop :=
  ∀ (s u : State) (r : HReq),
    (Request s 0x001 0 r u → Completes .unitInfo s fun t => t = hltSettle (r.reply u stOk [tlv 1 (natLe 4 (plUnit u) ++
      natLe 4 Config.hltVersion.toNat ++ natLe 2 (u.hlt.cells.filter (fun c => decide (c.2.st ≠ 0))).length ++
      natLe 4 (poolSize u - poolSum (poolUsed u 2048)) ++ serial u)])) ∧
    (∀ v p g loc, Request s 0x070 0 r u → v = r.val 0x70 → p = le v 0 1 → g = le v 8 8 →
      loc = (fun (x : List Byte) => barnLocal u (g + le x 0 4) (x.length - 4)) →
      ((barnLocal u g 0 = none ∨ ∃ x ∈ r.vals 0x71, loc x = none) →
        Completes .planLoad s fun t => t = hltSettle (r.reply u stBadParam [])) ∧
      ((barnLocal u g 0).isSome = true → (∀ x ∈ r.vals 0x71, (loc x).isSome = true) →
        ((∃ x ∈ r.vals 0x71, ∃ a, loc x = some a ∧ hitsImage u a (x.length - 4) = true) ∨
            (tb (le v 1 1) 0 = true ∧ inflight u p ≠ 0) →
          Completes .planLoad s fun t => t = hltSettle (r.reply u stBusy [])) ∧
        ((∀ x ∈ r.vals 0x71, ∀ a, loc x = some a → hitsImage u a (x.length - 4) = false) →
          ∀ q, q = (r.vals 0x71).foldl (fun (q : Nat × State) x =>
            if q.1 = rspOk then q.2.putAll (hltCoreEp 0) ((loc x).getD 0) (x.drop 4) else q) (rspOk, u) →
          (q.1 = rspOk → tb (le v 1 1) 0 = false → Completes .planLoad s fun t => t = hltSettle (r.reply q.2 stOk [])) ∧
          (q.1 = rspOk → tb (le v 1 1) 0 = true → inflight u p = 0 → Completes .planLoad s fun t => ∃ w : State,
            t = hltSettle (r.reply w (if w.rb (planA p 0) 2 then stOk else stBadParam)
              [tlv 0x72 (natLe 1 (w.rf (planA p 0) 7 4))]) ∧
            w.mem = q.2.mem ∧ w.rb (planA p 0) 1 = false ∧ w.rd (planA p 8) % 2 ^ 32 = g % 2 ^ 44 % 2 ^ 32 ∧
            (w.rb (planA p 0) 2 = true → w.rd (planA p 4) = w.rd (planA p 8)) ∧
            w = { q.2 with regs := w.regs, bus := s.bus } ∧ RegsBut [planA p 0, planA p 4, planA p 8] q.2 w)))) ∧
    (∀ v id unit, v = le (r.val 0x80) 0 1 → unit = decide (v = 1) → id = le (r.val 0x80) 4 4 →
      (Request s 0x080 0 r u → ∀ q, q = (if unit then if id < 2 ^ 20 then plFenceCmd u (id + 2 ^ 20) else (rspTgt, u)
          else if isHltEp id then (rspTgt, u) else cmdFence u id) →
        (q.1 = rspOk → Completes .hltFence s fun t => t = hltSettle (r.reply q.2 stOk [])) ∧
        (q.1 ≠ rspOk → Completes .hltFence s fun t => t = hltSettle (r.reply u stBadParam []))) ∧
      (Request s 0x081 0 r u → ∀ q, q = (if unit then if id < 2 ^ 20 then plFenceCmd u (id + 2 * 2 ^ 20) else (rspTgt, u)
          else if isHltEp id then (rspTgt, u) else cmdUnfence u id) →
        (q.1 = rspOk → Completes .hltUnfence s fun t =>
          t = hltSettle { q.2 with hlt := { q.2.hlt with fences := q.2.hlt.fences ++ [⟨b2n unit, id, r.src, r.h⟩] } }) ∧
        (q.1 ≠ rspOk → Completes .hltUnfence s fun t => t = hltSettle (r.reply u stBadParam [])))) ∧
    (∀ d m, Request s 0x090 0 r u → d = le (r.val 0x90) 0 1 → m = le (r.val 0x90) 1 1 →
      (d < 2 → m < 2 → domState u d = 2 → domValid u d = true → Completes .timeSel s fun t => ∃ w : State,
        t = hltSettle (r.reply w stOk [tlv 0x91 (natLe 4 (ctView "CT_S_REM" [] (ctRegs + 0x18) w))]) ∧
        selDom w = d ∧ w.rb ctRegs 1 = decide (m = 1) ∧ w.bus = s.bus ∧ w.hlt = u.hlt ∧ w.mem = s.mem) ∧
      (2 ≤ d ∨ 2 ≤ m ∨ domState u d ≠ 2 ∨ domValid u d = false →
        Completes .timeSel s fun t => t = hltSettle (r.reply u stBadParam []))) ∧
    (∀ k st, Request s 0x0A0 0 r u → k = le (r.val 0xA0) 0 1 → st = le (r.val 0xA0) 1 1 →
      (50 ≤ k ∨ 4 ≤ st → Completes .powerReq s fun t => t = hltSettle (r.reply u stBadParam [])) ∧
      (k < 50 → st < 4 → st < u.shedCur k → u.hlt.cells.any (fun c => shedOfCell u k c.2) = true →
        Completes .powerReq s fun t => t = hltSettle (r.reply u stBusy [])) ∧
      (k < 50 → st < 4 → (u.shedCur k ≤ st ∨ u.hlt.cells.any (fun c => shedOfCell u k c.2) = false) →
        ∀ q w, u.ni (hltCoreEp 0) shedsEp = (rspOk, q) → w = shedReq q k st →
        Completes .powerReq s fun t => t = hltSettle (r.reply w.2 (if w.1 = rspOk then stOk else stBadParam) [])))

/-- R472-R475, R484, R485: the requests for a cell's holder, configuration, start and stop. -/
def Obligations.CellRequestsAreAnswered : Prop :=
  ∀ (s u : State) (r : HReq) (k : Nat), k < 4 →
    (∀ may, Request s 0x010 k r u →
      may = (decide (r.src.kind = 0) || (u.hcell r.cell).override.any (fun x => decide (keyEntry x = some (hKey r.src)))) →
      ((hForce r.h = false ∧ (u.hcell r.cell).holder = none) ∨
          (hForce r.h = true ∧ may = true ∧ ∀ h, (u.hcell r.cell).holder = some h → hKey h = hKey r.src) →
        Completes (.holdTake k) s fun t => ∃ v : State,
          t = hltSettle (r.reply v stOk [tlv 0x10 (natLe 4 (v.hcell r.cell).token ++ natLe 1 0)]) ∧
          v.hcell r.cell = { u.hcell r.cell with
            holder := some r.src, token := (v.hcell r.cell).token, last := (v.hcell r.cell).token } ∧
          (v.hcell r.cell).token ≠ 0 ∧ (v.hcell r.cell).token < 2 ^ 32 ∧
          (v.hcell r.cell).token ≠ (u.hcell r.cell).last ∧ (∀ c, c ≠ r.cell → v.hcell c = u.hcell c) ∧
          v = { u with hlt := { u.hlt with cells := v.hlt.cells }, fresh := u.fresh + 1 }) ∧
      (∀ h, hForce r.h = false → (u.hcell r.cell).holder = some h →
        (hKey h = hKey r.src → Completes (.holdTake k) s fun t =>
          t = hltSettle (r.reply u stOk [tlv 0x10 (natLe 4 (u.hcell r.cell).token ++ natLe 1 0)])) ∧
        (hKey h ≠ hKey r.src → Completes (.holdTake k) s fun t => t = hltSettle (r.reply u stNotHolder []))) ∧
      (hForce r.h = true → may = false → Completes (.holdTake k) s fun t => t = hltSettle (r.reply u stNotHolder [])) ∧
      (∀ h, hForce r.h = true → may = true → (u.hcell r.cell).holder = some h → hKey h ≠ hKey r.src →
        Completes (.holdTake k) s fun t => ∃ v w : State,
          t = hltSettle (r.reply v stOk [tlv 0x10 (natLe 4 (v.hcell r.cell).token ++ natLe 1 1)]) ∧
          w = abortOrders (hltReport u r.cell h stNotHolder 0 [tlv 0xF3 (natLe 1 0)]) r.cell
            (fun o => decide (hKey o.src = hKey h)) ∧
          (v.hcell r.cell).holder = some r.src ∧ (v.hcell r.cell).token ≠ 0 ∧
          (v.hcell r.cell).staged = (w.hcell r.cell).staged ∧
          v = { w with hlt := { w.hlt with cells := v.hlt.cells }, fresh := w.fresh + 1 })) ∧
    (Request s 0x011 k r u → Completes (.holdRelease k) s fun t => ∃ v : State, t = hltSettle (r.reply v stOk []) ∧
      v.hcell r.cell = { u.hcell r.cell with holder := none, token := 0 } ∧ (∀ c, c ≠ r.cell → v.hcell c = u.hcell c) ∧
      v = { u with hlt := { u.hlt with cells := v.hlt.cells } }) ∧
    (Request s 0x020 k r u →
      ((u.hcell r.cell).st = 2 ∨ configOk r = false → Completes (.cellConfig k) s fun t => t = hltSettle (r.reply u stBadParam [])) ∧
      (∀ sizes quota, (u.hcell r.cell).st ≠ 2 → configOk r = true →
        sizes = (r.vals 0x22).map (fun v => roundUp (le v 4 4) 256) → quota = le (r.val 0x23) 0 4 →
        (poolSize u < poolSum (poolUsed u r.cell) + sizes.sum + roundUp quota 256 →
          Completes (.cellConfig k) s fun t => t = hltSettle (r.reply u stBadParam [])) ∧
        (∀ q as s1 s2, poolSum (poolUsed u r.cell) + sizes.sum + roundUp quota 256 ≤ poolSize u →
          placeAll u (poolBase u) (poolBase u + poolSize u) (roundUp quota 256 :: sizes) (poolUsed u r.cell) = (some (q :: as), s1) →
          cellHatches s1 r.cell (r.val 0x24) = (true, s2) → Completes (.cellConfig k) s fun t => ∃ v : State,
            t = hltSettle (r.reply v stOk []) ∧ (v.hcell r.cell).st = 1 ∧ (v.hcell r.cell).cfg = r.val 0x20 ∧
            (v.hcell r.cell).holder = (s2.hcell r.cell).holder ∧ (v.hcell r.cell).quota = quota ∧
            (v.hcell r.cell).qaddr = q ∧ (v.hcell r.cell).dlLead = le (r.val 0x21) 0 4 ∧
            (v.hcell r.cell).ulLead = le (r.val 0x21) 4 4 ∧ (v.hcell r.cell).dataLag = le (r.val 0x21) 8 4 ∧
            (v.hcell r.cell).streams = ((r.vals 0x22).zip as).map (fun (x, a) => ⟨le x 0 2, tb (le x 2 1) 0, le x 4 4, a, []⟩) ∧
            v.rd (cellRoute r.cell) = 2 ^ 31 + le (r.val 0x20) 8 1 ∧ (∀ c, c ≠ r.cell → v.hcell c = s2.hcell c) ∧
            v = { s2 with hlt := { s2.hlt with cells := v.hlt.cells }, regs := v.regs } ∧ RegsBut [cellRoute r.cell] s2 v))) ∧
    (Request s 0x021 k r u →
      ((u.hcell r.cell).st = 1 → slotOk (cfgByte (u.hcell r.cell) 1) (le (r.val 0x26) 0 4) = true →
        Completes (.cellStart k) s fun t => ∃ v : State, t = hltSettle (r.reply v stOk []) ∧
          v.hcell r.cell = { u.hcell r.cell with
            st := 2, start := le (r.val 0x26) 0 4,
            streams := (u.hcell r.cell).streams.map (fun (x : HStream) => { x with gens := [] }) } ∧
          (∀ c, c ≠ r.cell → v.hcell c = u.hcell c) ∧ v = { u with hlt := { u.hlt with cells := v.hlt.cells } }) ∧
      ((u.hcell r.cell).st ≠ 1 ∨ slotOk (cfgByte (u.hcell r.cell) 1) (le (r.val 0x26) 0 4) = false →
        Completes (.cellStart k) s fun t => t = hltSettle (r.reply u stBadParam []))) ∧
    (Request s 0x022 k r u →
      ((u.hcell r.cell).st = 2 → Completes (.cellStop k) s fun t => ∃ v : State, t = hltSettle (r.reply v stOk []) ∧
        (v.hcell r.cell).st = 1 ∧ (v.hcell r.cell).staged = [] ∧ v.rb (cellRoute r.cell) 31 = false) ∧
      ((u.hcell r.cell).st ≠ 2 → Completes (.cellStop k) s fun t => t = hltSettle (r.reply u stBadParam []))) ∧
    (∀ v, Request s 0x040 k r u → v = r.val 0x40 →
      ((u.hcell r.cell).st ≠ 2 → le v 3 1 < 3 → 1 ≤ le v 8 1 → le v 8 1 ≤ 64 → 1 ≤ le v 9 1 → le v 9 1 ≤ 128 →
        1 ≤ le v 12 2 → le v 12 2 ≤ 1024 → Completes (.prachConfig k) s fun t => ∃ w : State,
          t = hltSettle (r.reply w stOk []) ∧ w.hcell r.cell = { u.hcell r.cell with prach := v } ∧
          (∀ c, c ≠ r.cell → w.hcell c = u.hcell c) ∧ w = { u with hlt := { u.hlt with cells := w.hlt.cells } }) ∧
      ((u.hcell r.cell).st = 2 → Completes (.prachConfig k) s fun t => t = hltSettle (r.reply u stBadParam []))) ∧
    (∀ v i, Request s 0x060 k r u → v = r.val 0x60 → i = cfgByte (u.hcell r.cell) 10 →
      ((u.hcell r.cell).st = 0 ∨ i = 255 → Completes (.lbtParam k) s fun t => t = hltSettle (r.reply u stBadParam [])) ∧
      ((u.hcell r.cell).st ≠ 0 → i < 64 → lbtState u i = 0 → u.shedReady (accelShed 9 i) = true →
        u.fenced (hltCoreEpOf r.cell) = false → u.fenced (eEp (engNum 9 i)) = false → u.down = [] →
        u.shedReady (epShed (eEp (engNum 9 i))) = true →
        1 ≤ le v 0 1 → le v 0 1 ≤ 7 → le v 2 2 < 1024 → le v 4 2 < 1024 → le v 2 2 ≤ le v 6 2 → le v 6 2 ≤ le v 4 2 →
        1 ≤ le v 8 2 → le v 8 2 ≤ 20000 → Completes (.lbtParam k) s fun t => ∃ w : State,
          t = hltSettle (r.reply w stOk []) ∧ w.rf (svA i 0x38) 2 0 = le v 0 1 ∧ w.rf (svA i 0x38) 13 4 = le v 2 2 ∧
          w.rf (svA i 0x38) 25 16 = le v 4 2 ∧ w.rf (svA i 0x3C) 9 0 = le v 6 2 ∧ w.rf (svA i 0x40) 15 0 = le v 8 2 ∧
          w = { u with regs := w.regs } ∧ RegsBut [svA i 0x38, svA i 0x3C, svA i 0x40] u w))

/-- A slot order with no other beside it, as the firmware stages it (R478). -/
def firstOrder (up : Bool) (r : HReq) : HSlot :=
  stageAll (hSeq r.h) ⟨hSlot r.h, up, [⟨hSeq r.h, r.src, r.h, []⟩], [], []⟩ r.tlvs

/-- R477-R480: slot orders, downlink data, the commit and the data deadline. -/
def Obligations.SlotOrdersAndData : Prop :=
  (∀ (s u : State) (r : HReq) (k : Nat) (up : Bool) (c : HCell) (x : Instr) (op : Nat), k < 4 →
    ((op = 0x030 ∧ x = .dlSlot k ∧ up = false) ∨ (op = 0x031 ∧ x = .ulSlot k ∧ up = true)) → Request s op k r u →
    c = u.hcell r.cell →
    (c.st ≠ 2 ∨ slotOk (trainFmt u (cfgByte c 2)) (hSlot r.h) = false →
      Completes x s fun t => t = hltSettle (r.reply u stBadParam [])) ∧
    (c.st = 2 → slotOk (trainFmt u (cfgByte c 2)) (hSlot r.h) = true →
      (∀ d, findDone c up (hSlot r.h) (hSeq r.h) = some d → Completes x s fun t =>
        t = hltSettle (hltReply u k r.src r.h d.1 true none (hSlot r.h) (if d.2.isEmpty then [] else [d.2]))) ∧
      (∀ q, findDone c up (hSlot r.h) (hSeq r.h) = none → findSlot c up (hSlot r.h) = some q →
        (∃ o ∈ q.orders, o.seq = hSeq r.h) → Completes x s fun t => t = hltSettle (hltCnt u 8)) ∧
      (findDone c up (hSlot r.h) (hSeq r.h) = none → findSlot c up (hSlot r.h) = none →
        (cmdDeadline u c up (hSlot r.h) ≤ r.time →
          Completes x s fun t => t = hltSettle (r.reply (hltCnt u 6) stLate [])) ∧
        (r.time < cmdDeadline u c up (hSlot r.h) → tooFar u c (hSlot r.h) = true →
          Completes x s fun t => t = hltSettle (r.reply u stBadParam [])) ∧
        (r.time < cmdDeadline u c up (hSlot r.h) → tooFar u c (hSlot r.h) = false → c.staged.length < 16 →
          (stagedBytes (firstOrder up r)).length ≤ 65536 → Completes x s fun t => ∃ v : State, t = hltSettle v ∧
            v.hcell r.cell = { c with staged := c.staged ++ [firstOrder up r] } ∧
            (∀ j, j ≠ r.cell → v.hcell j = u.hcell j) ∧ v = { u with hlt := { u.hlt with cells := v.hlt.cells } })))) ∧
  (∀ (s u : State) (r : HReq) (k : Nat), k < 4 → Request s 0x032 k r u →
    (∀ q, q = r.tlvs.foldl (fun (q : Nat × State) x => if q.1 = stOk then dataTlv r q.2 x else q) (stOk, u) →
      (q.1 = stOk → Completes (.dlData k) s fun t => t = hltSettle (r.reply q.2 stOk [])) ∧
      (q.1 ≠ stOk → Completes (.dlData k) s fun t => t = hltSettle (r.reply u q.1 []))) ∧
    (∀ l c id b slot w, r.tlvs = [(0x36, l)] → c = u.hcell r.cell → id = le l 0 2 → findAlloc c id = some (slot, b.size) →
      r.time < dataDeadline u c slot → 8 ≤ l.length → le l 4 4 + (l.length - 8) ≤ b.size →
      c.blocks.find? (fun (x : HBlock) => decide (x.id = id)) = some b → b.ready = false →
      covers (b.got ++ [(le l 4 4, le l 4 4 + (l.length - 8))]) b.size = true →
      u.putAll (hltCoreEpOf r.cell) (b.addr + le l 4 4) (l.drop 8) = (rspOk, w) → w.hlt = u.hlt →
      Completes (.dlData k) s fun t => ∃ v : State, t = hltSettle (r.reply v stOk []) ∧ v.mem = w.mem ∧
        (v.hcell r.cell).words = c.words ++ [2 * 2 ^ 60 + b.addr % 2 ^ 44 * 2 ^ 16 + id] ∧
        (∃ x ∈ (v.hcell r.cell).blocks, x.id = id ∧ x.ready = true ∧ x.addr = b.addr) ∧
        v = { w with hlt := { w.hlt with cells := v.hlt.cells } })) ∧
  (∀ (s : State) (ck : Nat), ck < 2048 → ck % 1024 < 768 → hltSettle s = s →
    (∀ slot up, findSlot (s.hcell ck) up slot = none → Completes (.slotCommit ck slot up) s fun t => t = s) ∧
    (∀ slot up q s1 s2 w, findSlot (s.hcell ck) up slot = some q → s1 = untilS (cmdDeadline s (s.hcell ck) up slot) 64 s →
      s2 = s1.modHcell ck (fun c => { c with staged := c.staged.erase q }) → w = commitWrites s2 ck q →
      Completes (.slotCommit ck slot up) s fun t =>
        (w.1 = rspOk → ∃ v : State,
          t = hltSettle ((bySeq q.orders).foldl (fun s o => commitReply s ck o stOk (orderTlvs q o)) v) ∧
          v.now = s1.now ∧ v.mem = w.2.mem ∧ (v.hcell ck).staged = (s.hcell ck).staged.erase q ∧
          (∃ d ∈ (v.hcell ck).done, d.slot = slot ∧ d.up = up ∧
            d.replies = (bySeq q.orders).map (fun o => (o.seq, stOk, (orderTlvs q o).flatten)))) ∧
        (w.1 ≠ rspOk → t = hltSettle ((bySeq q.orders).foldl (fun s o => commitReply s ck o stAborted []) w.2))) ∧
    (∀ id, findAlloc (s.hcell ck) id = none → Completes (.dataDeadline ck id) s fun t => t = s) ∧
    (∀ id slot n s1, findAlloc (s.hcell ck) id = some (slot, n) → s1 = untilS (dataDeadline s (s.hcell ck) slot) 64 s →
      ((s.hcell ck).blocks.any (fun (b : HBlock) => decide (b.id = id) && b.ready) = true →
        Completes (.dataDeadline ck id) s fun t => t = hltSettle s1) ∧
      ((s.hcell ck).blocks.any (fun (b : HBlock) => decide (b.id = id) && b.ready) = false →
        Completes (.dataDeadline ck id) s fun t => ∃ v : State, t = hltSettle v ∧ v.now = s1.now ∧
          (v.hcell ck).words = (s.hcell ck).words ++ [3 * 2 ^ 60 + id] ∧ (∀ b ∈ (v.hcell ck).blocks, b.id ≠ id) ∧
          (∀ b ∈ (s.hcell ck).blocks, b.id ≠ id → b ∈ (v.hcell ck).blocks) ∧
          v.rd (hlA (0x200 + 4 * 12)) = sat32 (s.rd (hlA (0x200 + 4 * 12)) + 1))))

/-- R470, R471, R481-R483, R488, R491: results, the plans' words, fragments, the request ring and the firmware's start. -/
def Obligations.ResultsRingAndFirmware : Prop :=
  (∀ (s u : State) (r : HReq) (k : Nat) (ack : Bool) (c : Instr) (op : Nat), k < 4 →
    ((op = 0x050 ∧ c = .resultRead k ∧ ack = false) ∨ (op = 0x051 ∧ c = .resultAck k ∧ ack = true)) → Request s op k r u →
    (findStream u r = none → Completes c s fun t => t = hltSettle (r.reply u stBadParam [])) ∧
    (∀ x, findStream u r = some x →
      (namedGen u r.cell x (r.val 0x50) = none → Completes c s fun t => t = hltSettle (r.reply u stBadParam [])) ∧
      (∀ g, namedGen u r.cell x (r.val 0x50) = some (g, none) → Completes c s fun t =>
        t = hltSettle (genReply r u stPending g (hSlot r.h) false [])) ∧
      (∀ g y, namedGen u r.cell x (r.val 0x50) = some (g, some y) →
        (y.st = 0 → Completes c s fun t => t = hltSettle (genReply r u stPending g y.slot false [])) ∧
        (y.st = 4 → Completes c s fun t => t = hltSettle (if ack then genReply r u stBadParam g y.slot false []
          else genReply r (hltCnt u 13) stAborted (currentGen x) y.slot false [])) ∧
        (y.st = 5 → Completes c s fun t =>
          t = hltSettle (if ack then genReply r u stOk g y.slot true [] else genReply r u stBadParam g y.slot false [])) ∧
        (1 ≤ y.st → y.st ≤ 3 → Completes c s fun t => ∃ v : State,
          t = hltSettle (if ack then genReply r v stOk g y.slot false []
            else genReply r v (deliver u r.cell x y).1 g y.slot (y.read && decide ((deliver u r.cell x y).1 = stOk))
              (deliver u r.cell x y).2.1) ∧
          (∀ z ∈ (v.hcell r.cell).streams, z.out = x.out → ∀ w ∈ z.gens, w.gen = g →
            if ack then w.st = 5 else w.read = true) ∧
          (∀ j, j ≠ r.cell → v.hcell j = u.hcell j) ∧ (ack = true → v = { u with hlt := { u.hlt with cells := v.hlt.cells } }))))) ∧
  (∀ (s : State) (ck : Nat), ck < 2048 → ck % 1024 < 768 → hltSettle s = s →
    (takeWord s ck 1 = none → Completes (.hltBegin ck) s fun t => t = s) ∧
    (∀ w s1 p o, takeWord s ck 1 = some (w, s1) → streamPlan s1 ck (fld w 47 32) = some (p, o) →
      Completes (.hltBegin ck) s fun t => ∃ v : State, t = hltSettle v ∧
        (v.hcell ck).words = (s1.hcell ck).words ++
          [2 ^ 60 + fld w 51 48 * 2 ^ 48 + fld w 47 32 * 2 ^ 32 + genOf s1 ck p (fld w 31 0)] ∧
        (∀ z ∈ (v.hcell ck).streams, z.out = fld w 47 32 →
          ∀ y ∈ z.gens, y.gen ≠ genOf s1 ck p (fld w 31 0) → y.st ≠ 0 ∧ y.st ≠ 1) ∧
        (∀ j, j ≠ ck → v.hcell j = s1.hcell j) ∧ v = { s1 with hlt := { s1.hlt with cells := v.hlt.cells } }) ∧
    (takeWord s ck 2 = none → Completes (.tbDone ck) s fun t => t = s) ∧
    (∀ w s1, takeWord s ck 2 = some (w, s1) → Completes (.tbDone ck) s fun t => ∃ v : State, t = hltSettle v ∧
      v.hcell ck = { s1.hcell ck with blocks := (s1.hcell ck).blocks.filter (fun (b : HBlock) => decide (b.id ≠ fld w 15 0)) } ∧
      (∀ j, j ≠ ck → v.hcell j = s1.hcell j) ∧ v = { s1 with hlt := { s1.hlt with cells := v.hlt.cells } }) ∧
    (takeWord s ck 3 = none → Completes (.resultDone ck) s fun t => t = s) ∧
    (∀ w s1 p o x y q v, takeWord s ck 3 = some (w, s1) → streamPlan s1 ck (fld w 47 32) = some (p, o) →
      (s1.hcell ck).streams.find? (fun (x : HStream) => decide (x.out = fld w 47 32)) = some x →
      x.gens.find? (fun (y : HGen) => decide (y.gen = fld w 15 0)) = some y → y.st = 0 →
      q = s1.fetch (hltCoreEpOf ck) (peek s1 (outA s1 (s1.rd (planA p 4)) o + 8) 4 + 8 * fld w 51 48) 8 → v = leNat q.2.1 →
      (q.1 = rspOk → fld v 31 0 ≠ y.slot → Completes (.resultDone ck) s fun t => t = hltSettle q.2.2) ∧
      (q.1 = rspOk → fld v 31 0 = y.slot → tb v 33 = false → tb v 32 = false → Completes (.resultDone ck) s fun t =>
        t = hltSettle (setGen q.2.2 ck (fld w 47 32) (fld w 15 0) y.slot (fun y => { y with st := 0, fb := tb v 34 }))) ∧
      (∀ st, (q.1 ≠ rspOk ∧ st = 2) ∨ (q.1 = rspOk ∧ fld v 31 0 = y.slot ∧ ((tb v 33 = true ∧ st = 3) ∨
          (tb v 33 = false ∧ tb v 32 = true ∧ st = (if tb v 35 then 2 else 1)))) → Completes (.resultDone ck) s fun t =>
        t = hltSettle (pushGen (setGen q.2.2 ck (fld w 47 32) (fld w 15 0) y.slot
          (fun y => { y with st := st, fb := tb v 34 })) ck (fld w 47 32) (fld w 15 0))))) ∧
  (∀ (s : State) (unit id : Nat),
    (∀ f, s.hlt.frags.find? (fun (f : HFrag) => decide (f.unit = unit ∧ f.id = id)) = some f →
      Completes (.fragmentTimeout unit id) s fun t => ∃ v : State, t = hltSettle v ∧ f.since + 1000 * us ≤ v.now ∧
        v.hlt = { s.hlt with frags := s.hlt.frags.erase f } ∧
        v.rd (hlA (0x200 + 4 * 10)) = sat32 (s.rd (hlA (0x200 + 4 * 10)) + 1) ∧
        v = { s with now := v.now, hlt := v.hlt, regs := v.regs } ∧ RegsBut [hlA (0x200 + 4 * 10)] s v) ∧
    (s.hlt.frags.find? (fun (f : HFrag) => decide (f.unit = unit ∧ f.id = id)) = none →
      Completes (.fragmentTimeout unit id) s fun t => t = hltSettle s)) ∧
  (∀ (s : State) (n : Nat),
    (s.rf (hlA 0x28) 10 0 ≤ n → Completes (.reqRingHead n) s fun t => t = { s with bus := ⟨rspTgt, 0⟩ }) ∧
    (n < s.rf (hlA 0x28) 10 0 → Completes (.reqRingHead n) s fun t => ∃ v : State,
      t = { hltIntake v with bus := ⟨rspOk, 0⟩ } ∧ v.rf (hlA 0x2C) 31 0 = n ∧ v = { s with regs := v.regs } ∧
      RegsBut [hlA 0x2C] s v)) ∧
  (∀ (s : State),
    (s.shedStep 62 ≠ 5 ∨ s.rb (hlA 4) 0 = true → Completes .halterFirmwareReady s fun t => t = s) ∧
    (s.shedStep 62 = 5 → s.rb (hlA 4) 0 = false → s.hlt.lost = [] → Completes .halterFirmwareReady s fun t => ∃ v : State,
      t = hltIntake v ∧ v.rb (hlA 4) 0 = true ∧ v = { s with regs := v.regs } ∧ RegsBut [hlA 4] s v) ∧
    (s.shedStep 62 = 5 → s.rb (hlA 4) 0 = false → s.rb (hlA 0) 0 = false → Completes .halterFirmwareReady s fun t =>
      t.rb (hlA 4) 0 = true ∧ t.hlt.lost = []))

/-! ## Tack room (R500-R520) -/

/-- The descriptor at the front of the queue is read and has no reserved opcode or field; `u` is the machine as the
command's own rule meets it. -/
abbrev Front (s : State) (opc : Nat) (d : TkDesc) (u : State) : Prop :=
  s.tack.halted = false ∧ s.shedReady shedLoft = true ∧ d.opc = opc ∧ d.addr % 64 = 0 ∧
    (tkLocal s (plUnit s * 2 ^ 44 + d.addr) 64).isSome = true ∧ ∃ rest b s1, s.tack.queue = d.addr :: rest ∧
    s.fetch tackEp d.addr 64 = (rspOk, b, s1) ∧ u = { s1 with tack := { s1.tack with queue := rest } } ∧
    le b 0 1 = d.opc ∧ le b 1 1 < 2 ∧ d.irq = tb (le b 1 1) 0 ∧ zeros b 2 2 = true ∧ zeros b 48 16 = true ∧
    d.inA = le b 8 8 ∧ d.inLen = le b 16 4 ∧ d.arg0 = le b 20 4 ∧ d.outA = le b 24 8 ∧ d.outLen = le b 32 4 ∧
    d.arg1 = le b 40 8

/-- The command's input, of a length from `lo` to `hi`, is read as `l`, leaving `v`. -/
abbrev Input (u : State) (d : TkDesc) (lo hi : Nat) (l : List Byte) (v : State) : Prop :=
  lo ≤ d.inLen ∧ d.inLen ≤ hi ∧ ∃ a, tkLocal u d.inA d.inLen = some a ∧ u.fetchAll tackEp a d.inLen = (rspOk, l, v)

/-- The output `out` is written where the descriptor says and the command ends TK_OK, or an output that does not fit, or
cannot be written, ends it otherwise. -/
abbrev Answered (d : TkDesc) (v : State) (out : List Byte) (t : State) : Prop :=
  (d.outLen < out.length → t = tkFinish v d tkBadCmd 0 0) ∧
  (out.length ≤ d.outLen → tkLocal v d.outA out.length = none → t = tkFinish v d tkBadAddr 0 0) ∧
  (∀ o w, out.length ≤ d.outLen → tkLocal v d.outA out.length = some o → w = v.putAll tackEp o out →
    t = (if w.1 = rspOk then tkFinish w.2 d tkOk 0 out.length else tkFinish w.2 d tkBadAddr w.1 0))

/-- R501, R502, R510, R517-R520: the queue, and the commands on random bytes, digests, signatures and keys. -/
def Obligations.TackCommandsOnData : Prop :=
  (∀ (s : State) (src : Nat),
    ((∀ c, c < 16 → src ≠ loftEp c) → Completes (.tkCmdGo src) s fun t => t = { s with bus := ⟨rspTgt, 0⟩ }) ∧
    (∀ c, c < 16 → src = loftEp c →
      (s.tack.queue.length < 8 → Completes (.tkCmdGo src) s fun t =>
        t.tack = { s.tack with queue := s.tack.queue ++ [s.rd (tkA 4) + s.rd (tkA 8) * 2 ^ 32] } ∧
        t = { s with tack := t.tack, bus := ⟨rspOk, 0⟩ }) ∧
      (8 ≤ s.tack.queue.length → Completes (.tkCmdGo src) s fun t => t.rb (tkA 0x10) 2 = true ∧
        t = { s with regs := t.regs, msiRise := t.msiRise, bus := ⟨rspTgt, 0⟩ } ∧ RegsBut [tkA 0x10] s t))) ∧
  (∀ (s : State) (opc : Nat) (c : Instr), (opc, c) ∈ [(1, Instr.tkRng), (2, .tkHash), (3, .tkExtend), (4, .tkVerify),
      (5, .tkLoad), (6, .tkSign), (7, .verifyPeer), (8, .tkAttest), (9, .ctrInc), (10, .kekSeal), (11, .kekLoad),
      (12, .sakDeliver), (13, .idGenerate), (14, .otpProgram)] →
    (s.tack.halted = true ∨ s.shedReady shedLoft = false ∨ s.tack.queue = [] ∨ (∃ o d u, o ≠ opc ∧ 1 ≤ o ∧ o ≤ 14 ∧ Front s o d u) →
      Completes c s fun t => t = s)) ∧
  (∀ (s u : State) (d : TkDesc),
    (Front s 1 d u →
      (1 ≤ d.outLen → d.outLen ≤ 4096 → Completes .tkRng s fun t => ∃ out v, out.length = d.outLen ∧
        v = { u with fresh := v.fresh } ∧ Answered d v out t) ∧
      (d.outLen = 0 ∨ 4096 < d.outLen → Completes .tkRng s fun t => t = tkFinish u d tkBadCmd 0 0)) ∧
    (Front s 2 d u →
      (d.arg0 = 0 ∨ 64 < d.arg0 → Completes .tkHash s fun t => t = tkFinish u d tkBadCmd 0 0) ∧
      (∀ l v, 1 ≤ d.arg0 → d.arg0 ≤ 64 → Input u d 1 (2 ^ 32 - 1) l v → Completes .tkHash s fun t =>
        Answered d v (shake256 l d.arg0) t)) ∧
    (Front s 3 d u →
      (d.arg0 < 5 ∨ 15 < d.arg0 → Completes .tkExtend s fun t => t = tkFinish u d tkBadCmd 0 0) ∧
      (∀ l v, 5 ≤ d.arg0 → d.arg0 ≤ 15 → Input u d 1 4096 l v → Completes .tkExtend s fun t => ∃ w,
        t = tkFinish w d tkOk 0 0 ∧ mrOf w d.arg0 = shake256 (mrOf v d.arg0 ++ l) 64 ∧
        (∀ i, i ≠ d.arg0 → mrOf w i = mrOf v i) ∧ w = { v with tack := { v.tack with mr := w.tack.mr } })) ∧
    (Front s 6 d u →
      (u.tack.ident = [] → Completes .tkSign s fun t => t = tkFinish u d tkNoId 0 0) ∧
      (∀ l v, u.tack.ident ≠ [] → Input u d 1 8192 l v → Completes .tkSign s fun t =>
        Answered d { v with fresh := v.fresh + 1 } (idSign v l).1 t ∧ (idSign v l).1.length = 1280)) ∧
    (Front s 8 d u →
      (u.tack.ident = [] → Completes .tkAttest s fun t => t = tkFinish u d tkNoId 0 0) ∧
      (∀ l v, u.tack.ident ≠ [] → Input u d 32 32 l v → Completes .tkAttest s fun t =>
        Answered d { v with fresh := v.fresh + 1 } (report v l ++ (idSign v (report v l)).1) t)) ∧
    (Front s 10 d u →
      (lifecycle u = 2 → Completes .kekSeal s fun t => t = tkFinish u d tkLifecycle 0 0) ∧
      (∀ l v, lifecycle u ≠ 2 → Input u d 32 32 l v → Completes .kekSeal s fun t => ∃ iv w, iv.length = 12 ∧
        w = { v with fresh := w.fresh } ∧
        Answered d w (iv ++ sub (Config.gcmSeal (storageKey v) iv [] l).1 0 32 ++
          sub (Config.gcmSeal (storageKey v) iv [] l).2 0 16 ++ List.replicate 4 0) t)) ∧
    (Front s 11 d u →
      (15 < d.arg0 → Completes .kekLoad s fun t => t = tkFinish u d tkBadCmd 0 0) ∧
      (d.arg0 ≤ 15 → lifecycle u = 2 → Completes .kekLoad s fun t => t = tkFinish u d tkLifecycle 0 0) ∧
      (∀ l v, d.arg0 ≤ 15 → lifecycle u ≠ 2 → Input u d 64 64 l v →
        Completes .kekLoad s fun t =>
          (∀ k, Config.gcmOpen (storageKey v) (l.take 12) [] (sub l 12 32) (sub l 44 16) = some k → zeros l 60 4 = true →
            ∃ w, t = tkFinish w d tkOk 0 0 ∧ tget noBytes w.tack.keks d.arg0 = sub k 0 32 ∧
              (∀ i, i ≠ d.arg0 → tget noBytes w.tack.keks i = tget noBytes v.tack.keks i) ∧
              w = { v with tack := { v.tack with keks := w.tack.keks } }) ∧
          (Config.gcmOpen (storageKey v) (l.take 12) [] (sub l 12 32) (sub l 44 16) = none ∨ zeros l 60 4 = false →
            t = tkFinish v d tkUnwrap 0 0))) ∧
    (Front s 12 d u → ∀ m i tx l v cfg kek, d.arg0 < 2 ^ 17 → m = fld d.arg0 8 4 → tx = tb d.arg0 9 →
      (tx = true → fld d.arg0 14 10 < 8) → i = 4 * fld d.arg0 14 10 + fld d.arg0 16 15 → Input u d 52 52 l v →
      v.ni tackEp (macEp m) = (rspOk, v) → cfg = (if tx then txSaA m i 0 else rxSaA m i 0) →
      kek = tget noBytes v.tack.keks (d.arg0 % 16) →
      (kek = [] → Completes .sakDeliver s fun t => t = tkFinish v d tkKey 0 0) ∧
      (kek ≠ [] → v.rb cfg 0 = true → Completes .sakDeliver s fun t => t = tkFinish v d tkSaBusy 0 0) ∧
      (kek ≠ [] → v.rb cfg 0 = false → Completes .sakDeliver s fun t =>
        (Config.keyUnwrap kek (l.take 40) = none → t = tkFinish v d tkUnwrap 0 0) ∧
        (∀ k, Config.keyUnwrap kek (l.take 40) = some k → ∃ x : State, t = tkFinish x d tkOk 0 0 ∧ x.rb cfg 1 = true ∧
          tget noBytes (x.mac m).keys (if tx then 128 + i else i) = sub k 0 32 ++ l.drop 40 ∧
          (∀ j, j ≠ m → x.mac j = v.mac j) ∧ x = { v with regs := x.regs, macs := x.macs } ∧ RegsBut [cfg] v x))) ∧
    (Front s 13 d u →
      (lifecycle u ≠ 0 → Completes .idGenerate s fun t => t = tkFinish u d tkLifecycle 0 0) ∧
      (lifecycle u = 0 → Completes .idGenerate s fun t => ∃ k iv w, k = Config.falconKeys (u.draw).1 ∧ iv.length = 12 ∧
        w = { u with fresh := w.fresh } ∧
        Answered d w (sub k.1 0 1793 ++ iv ++ (Config.gcmSeal (storageKey u) iv (serial u) k.2).1 ++
          sub (Config.gcmSeal (storageKey u) iv (serial u) k.2).2 0 16) t)))

/-- What VERIFY_PEER finds of a certificate, a signature and a message (R518). -/
def peerCode (v : State) (l : List Byte) : Nat :=
  if certOk v (l.take 3144) = false then tkCert
  else if Config.falconVerify (sub l 64 1793) (l.drop 4424) (sub l 3144 1280) = false then tkSig else tkOk

/-- R504, R506-R510, R512, R513, R515, R516, R518: images, peers, counters, OTP, boot and the lock. -/
def Obligations.TackImagesAndOtp : Prop :=
  (∀ (s u : State) (d : TkDesc),
    (Front s 4 d u →
      (d.arg0 ≠ 2 → Completes .tkVerify s fun t => t = tkFinish u d tkBadCmd 0 0) ∧
      (∀ l v h p, d.arg0 = 2 → Input u d 4096 (2 ^ 32 - 1) l v → h = l.take 4096 → p = (l.drop 4096).take (le h 16 8) →
        (headerOk h 2 = false → Completes .tkVerify s fun t => t = tkFinish v d tkType 0 0) ∧
        (headerOk h 2 = true → d.inLen < 4096 + le h 16 8 → Completes .tkVerify s fun t => t = tkFinish v d tkBadCmd 0 0) ∧
        (headerOk h 2 = true → 4096 + le h 16 8 ≤ d.inLen → Completes .tkVerify s fun t =>
          (imageCheck v h p ≠ tkOk → t = tkFinish v d (imageCheck v h p) 0 0) ∧
          (imageCheck v h p = tkOk → ∃ w, t = tkFinish w d tkOk 0 0 ∧
            mrOf w 1 = (if tget noBytes v.tack.digest 1 = sub h 48 64 then mrOf v 1
              else shake256 (mrOf v 1 ++ natLe 1 2 ++ natLe 4 (le h 8 4) ++ sub h 48 64) 64) ∧
            tget noBytes w.tack.digest 1 = sub h 48 64 ∧ (∀ i, i ≠ 1 → mrOf w i = mrOf v i) ∧
            w = { v with tack := w.tack })))) ∧
    (Front s 5 d u → ∀ k ty, k = d.arg1 % 64 → ty = d.arg0 →
      (3 ≤ ty → ty ≤ 5 → d.arg1 < 512 → fld d.arg1 7 6 = 0 → (k ≤ 39 ∨ k = 62) →
        ((ty = 3 ∧ 31 < k) ∨ (ty = 4 ∧ k ≠ 62) ∨ (ty = 5 ∧ (k < 32 ∨ k = 62)) →
          Completes .tkLoad s fun t => t = tkFinish u d tkType 0 0) ∧
        ((ty = 3 ∧ k ≤ 31) ∨ (ty = 4 ∧ k = 62) ∨ (ty = 5 ∧ 32 ≤ k ∧ k ≤ 39) →
          (u.shedHeld k = false → Completes .tkLoad s fun t => t = tkFinish u d tkBadCmd 0 0) ∧
          (∀ l v h p segs w, u.shedHeld k = true → (k = 62 → u.shedReady shedYard = true) →
            Input u d 4096 (2 ^ 32 - 1) l v → h = l.take 4096 → p = (l.drop 4096).take (le h 16 8) → headerOk h ty = true →
            4096 + le h 16 8 ≤ d.inLen → imageSegs (p.length / 12 + 1) p = some segs →
            (segs.all (segOk k) = false → Completes .tkLoad s fun t =>
              t = tkFinish v d (if imageCheck v h p = tkOk then tkType else imageCheck v h p) 0 0) ∧
            (segs.all (segOk k) = true →
              segs.foldl (fun (q : Nat × State) g => if q.1 = rspOk then q.2.putAll tackEp g.1 g.2 else q) (rspOk, v) = (rspOk, w) →
              Completes .tkLoad s fun t => (imageCheck v h p ≠ tkOk → t = tkFinish v d (imageCheck v h p) 0 0) ∧
               (imageCheck v h p = tkOk → ∃ x : State, t = tkFinish x d tkOk 0 0 ∧ x.mem = w.mem ∧
                tget noBytes x.tack.digest (ty - 1) = sub h 48 64 ∧
                x.rf (shdStatus k) 6 4 = (if tb d.arg1 8 then 5 else w.rf (shdStatus k) 6 4) ∧
                (tb d.arg1 8 = true → (x.shedTr k).held = false) ∧
                x = { w with tack := x.tack, regs := x.regs, power := x.power, hatWin := x.hatWin } ∧
                RegsBut [shdStatus k, hltRegs + 4] w x)))))) ∧
    (Front s 7 d u →
      (16 ≤ d.arg0 → Completes .verifyPeer s fun t => t = tkFinish u d tkBadCmd 0 0) ∧
      (∀ l v, d.arg0 < 16 → Input u d 4425 (2 ^ 32 - 1) l v →
        (tb d.arg0 3 = false → Completes .verifyPeer s fun t => t = tkFinish v d (peerCode v l) 0 0) ∧
        (∀ w p, tb d.arg0 3 = true → p = d.arg0 % 8 → v.ni tackEp (plPortEp p) = (rspOk, w) → plState w p ≠ 0 →
          Completes .verifyPeer s fun t => (peerCode v l ≠ tkOk → t = tkFinish v d (peerCode v l) 0 0) ∧
            (peerCode v l = tkOk → ∃ x : State, t = tkFinish x d tkOk 0 0 ∧ x.rb (plP p 4) 5 = true ∧
              plState x p = plState w p ∧ x = { w with regs := x.regs, bus := v.bus } ∧
              RegsBut [plP p 4, plP p 0x10] w x)))) ∧
    (Front s 9 d u →
      (63 < d.arg0 ∨ d.arg1 ≤ otpCounter u d.arg0 ∨ 224 < d.arg1 →
        Completes .ctrInc s fun t => t = tkFinish u d tkBadCmd 0 0) ∧
      (d.arg0 ≤ 63 → otpCounter u d.arg0 < d.arg1 → d.arg1 ≤ 224 →
        (d.arg0 < 5 → tget (fun _ => 0) u.tack.svn (d.arg0 + 1) ≤ d.arg1 →
          Completes .ctrInc s fun t => t = tkFinish u d tkRollback 0 0) ∧
        (5 ≤ d.arg0 ∨ d.arg1 < tget (fun _ => 0) u.tack.svn (d.arg0 + 1) →
          (bowHolds u = true → Completes .ctrInc s fun t => t = tkFinish u d tkBrownout 0 0) ∧
          (bowHolds u = false → Completes .ctrInc s fun t => ∃ w, t = tkFinish w d tkOk 0 0 ∧
            d.arg1 ≤ otpCounter w d.arg0 ∧ (∀ c, c ≤ 63 → c ≠ d.arg0 → otpCounter w c = otpCounter u c) ∧
            (∀ i, u.otpByte i &&& w.otpByte i = u.otpByte i) ∧ w = { u with otp := w.otp })))) ∧
    (Front s 14 d u → ∀ k, k = fld d.arg0 3 2 →
      (16 ≤ d.arg0 ∨ d.arg0 % 4 = 3 ∨ (d.arg0 % 4 = 2 ∧ k = 3) → Completes .otpProgram s fun t => t = tkFinish u d tkBadCmd 0 0) ∧
      (∀ l v, d.arg0 < 16 → d.arg0 % 4 = 0 → lifecycle u = 0 → (keyHash u k).all (fun b => decide (b = 0)) = true →
        Input u d 32 32 l v →
        (bowHolds v = true → Completes .otpProgram s fun t => t = tkFinish v d tkBrownout 0 0) ∧
        (bowHolds v = false → Completes .otpProgram s fun t => ∃ w, t = tkFinish w d tkOk 0 0 ∧
          (∀ i, i < 32 → w.otpByte (0x20 + 32 * k + i) = v.otpByte (0x20 + 32 * k + i) ||| l.getD i 0) ∧
          (∀ i, i < 0x20 + 32 * k ∨ 0x40 + 32 * k ≤ i → w.otpByte i = v.otpByte i) ∧ w = { v with otp := w.otp })) ∧
      (d.arg0 < 16 → d.arg0 % 4 = 0 → lifecycle u ≠ 0 → Completes .otpProgram s fun t => t = tkFinish u d tkLifecycle 0 0) ∧
      (d.arg0 < 16 → d.arg0 % 4 = 1 →
        (u.tack.slot = some k → Completes .otpProgram s fun t => t = tkFinish u d tkKey 0 0) ∧
        (u.tack.slot ≠ some k → bowHolds u = true → Completes .otpProgram s fun t => t = tkFinish u d tkBrownout 0 0) ∧
        (u.tack.slot ≠ some k → bowHolds u = false → Completes .otpProgram s fun t => ∃ w, t = tkFinish w d tkOk 0 0 ∧
          keyUsable w k = false ∧ (∀ i, i ≠ 0xA0 → w.otpByte i = u.otpByte i) ∧ w = { u with otp := w.otp })) ∧
      (d.arg0 < 16 → d.arg0 % 4 = 2 → k < 3 →
        (k ≤ lifecycle u → Completes .otpProgram s fun t => t = tkFinish u d tkLifecycle 0 0) ∧
        (lifecycle u < k → bowHolds u = true → Completes .otpProgram s fun t => t = tkFinish u d tkBrownout 0 0) ∧
        (lifecycle u < k → bowHolds u = false → Completes .otpProgram s fun t => ∃ w, t = tkFinish w d tkOk 0 0 ∧
          lifecycle w = k ∧ (∀ i, i ≠ 0xA1 → w.otpByte i = u.otpByte i) ∧ w = { u with otp := w.otp })))) ∧
  (∀ (s : State),
    (s.tack.halted = true ∨ s.rb (tkA 0x1C) 17 = true ∨ s.shedReady shedLoft = false → Completes .tkBoot s fun t => t = s) ∧
    (∀ s0 a b, s.tack.halted = false → s.rb (tkA 0x1C) 17 = false → s.shedReady shedLoft = true →
      s0 = { s with tack := { s.tack with ident := unsealIdentity s } } → a = bootCopy s0 0 → b = bootCopy a.2.2 0x800000 →
      Completes .tkBoot s fun t =>
        (a.1 = tkOk → t.rd (tkA 0x1C) = 2 ^ 17 ∧ t.tack.slot = some (le a.2.1 7 1) ∧ t.tack.halted = false ∧
          tget noBytes t.tack.digest 0 = sub a.2.1 48 64) ∧
        (a.1 ≠ tkOk → b.1 = tkOk → t.rd (tkA 0x1C) = a.1 + 2 ^ 16 + 2 ^ 17 ∧ t.tack.slot = some (le b.2.1 7 1) ∧
          t.tack.halted = false ∧ tget noBytes t.tack.digest 0 = sub b.2.1 48 64) ∧
        (a.1 ≠ tkOk → b.1 ≠ tkOk → t.rd (tkA 0x1C) = a.1 + b.1 * 2 ^ 8 + 2 ^ 16 ∧ t.tack.halted = true ∧
          .bootRecord [0x54, 0x4B, 0x46, BitVec.ofNat 8 a.1, BitVec.ofNat 8 b.1, 0, 0, 0] ∈ t.wire))) ∧
  (∀ (s : State) (src : Nat), Completes (.tkLockImem src) s fun t => t.rb (tkA 0x18) 0 = true ∧
    t = { s with regs := t.regs, bus := ⟨rspOk, 0⟩ } ∧ RegsBut [tkA 0x18] s t)

/-! ## Loft block and calendar (R492-R498, R522, R541-R547) -/

/-- R494, R495, R497, R498, R522: LPDDR5X control, core resets, messages, error records and the board's inputs. -/
def LoftControlAndInputs : Prop :=
  ∀ (s : State),
    (s.rb (lftA 0) 8 = false → Completes .ddrTrain s fun t => t.rb (lftA 0) 8 = true ∧ t.rf (lftA 0) 17 16 = 0 ∧
      t.rf (lftA 0) 2 0 = s.rf (lftA 0) 2 0 ∧ t = { s with regs := t.regs, bus := t.bus } ∧ t.bus.code = rspOk ∧
      RegsBut [lftA 0] s t) ∧
    (∀ ok, s.rb (lftA 0) 8 = true → Completes (.trainDone ok) s fun t => t.rb (lftA 0) 8 = false ∧
      t.rb (lftA 0) 16 = ok ∧ t.rb (lftA 0) 17 = (!ok) ∧ t.rf (lftA 0) 2 0 = s.rf (lftA 0) 2 0 ∧
      t = { s with regs := t.regs } ∧ RegsBut [lftA 0] s t) ∧
    (∀ ok, s.rb (lftA 0) 8 = false → Completes (.trainDone ok) s fun t => t = s) ∧
    ((s.rb (lftA 0) 0 = true ∨ s.rb (lftA 0) 16 = true) → Completes .ddrEnable s fun t => t.rb (lftA 0) 0 = true ∧
      t.rf (lftA 0) 2 1 = s.rf (lftA 0) 2 1 ∧ t.mem = s.mem ∧ t = { s with regs := t.regs, bus := ⟨rspOk, 0⟩ } ∧
      RegsBut [lftA 0] s t) ∧
    (s.rb (lftA 0) 0 = false → s.rb (lftA 0) 16 = false → Completes .ddrEnable s fun t => t = { s with bus := ⟨rspTgt, 0⟩ }) ∧
    (∀ mask, s.rb (lftA 4) 0 = false → Completes (.coreResetRelease mask) s fun t =>
      (∀ c, c < 16 → t.rb (lftA 4) c = (s.rb (lftA 4) c && !(mask.testBit c))) ∧
      (∀ c, c < 16 → s.rb (lftA 4) c = true → mask.testBit c = true → 256 + c ∈ t.hatWin) ∧
      (∀ i ∈ s.hatWin, i ∈ t.hatWin) ∧ t = { s with regs := t.regs, hatWin := t.hatWin, bus := ⟨rspOk, 0⟩ } ∧
      RegsBut [lftA 4] s t) ∧
    (∀ n, n < 256 →
      (n ∉ s.msiRise ∨ s.shedReady shedLoft = false → Completes (.msiSend n) s fun t => t = s) ∧
      (n ∈ s.msiRise → s.shedReady shedLoft = true →
        (s.rb (routeA n) 31 = false → Completes (.msiSend n) s fun t => t.rb (pendA n) (n % 32) = true ∧
          t = { s with regs := t.regs, msiRise := s.msiRise.erase n } ∧ RegsBut [pendA n] s t) ∧
        (s.rb (routeA n) 31 = true → s.fenced (ep (sysRouter 7) 2) = false → s.down = [] →
          Completes (.msiSend n) s fun t => t = { s with
            msiRise := s.msiRise.erase n
            wire := s.wire ++ [.aia (if 139 ≤ n ∧ n < 155 then n - 139 else s.rf (routeA n) 14 11) (s.rf (routeA n) 16 15)
              (s.rf (routeA n) 10 0)] }))) ∧
    (∀ c level async addr, c < 16 →
      (s.rb (lftA 8) 0 = true → Completes (.rasError c level async addr) s fun t => t = s) ∧
      (s.rb (lftA 8) 0 = false → Completes (.rasError c level async addr) s fun t =>
        t.rb (lftA 8) 0 = true ∧ t.rb (lftA 8) 1 = async ∧ t.rf (lftA 8) 5 2 = c ∧ t.rf (lftA 8) 7 6 = level % 4 ∧
        t.rd (lftA 0xC) = addr % 2 ^ 32 ∧ t.rd (lftA 0x10) = addr / 2 ^ 32 % 2 ^ 24 ∧
        t.msiRise = s.msiRise ++ (if async then [9] else []) ∧
        t = { s with regs := t.regs, msiRise := t.msiRise } ∧ RegsBut [lftA 8, lftA 0xC, lftA 0x10] s t)) ∧
    (∀ pin level, pin < 48 →
      (s.gpio.testBit pin = level → Completes (.gpioInputChange pin level) s fun t => t = s) ∧
      (s.gpio.testBit pin ≠ level → Completes (.gpioInputChange pin level) s fun t => t.gpio.testBit pin = level ∧
        (∀ i, i ≠ pin → t.gpio.testBit i = s.gpio.testBit i) ∧
        t = { s with gpio := t.gpio, msiRise := s.msiRise ++ [166] })) ∧
    Completes .smbalert s (fun t => t = { s with msiRise := s.msiRise ++ [167] }) ∧
    (∀ u ch, u < 2 → (tget noBytes s.uartRx u).length < 64 → Completes (.uartReceive u ch) s fun t =>
      tget noBytes t.uartRx u = tget noBytes s.uartRx u ++ [BitVec.ofNat 8 ch] ∧
      tget noBytes t.uartRx (1 - u) = tget noBytes s.uartRx (1 - u) ∧
      t = { s with uartRx := t.uartRx, msiRise := s.msiRise ++ [155 + u] }) ∧
    (∀ u ch, u < 2 → 64 ≤ (tget noBytes s.uartRx u).length → Completes (.uartReceive u ch) s fun t =>
      (tget noBytes t.uartRx u = tget noBytes s.uartRx u ∨
        tget noBytes t.uartRx u = (tget noBytes s.uartRx u).drop 1 ++ [BitVec.ofNat 8 ch]) ∧
      t = { s with uartRx := t.uartRx, msiRise := s.msiRise ++ [155 + u], fresh := s.fresh + 1 })

/-- R541-R544: the calendar is written, trimmed, alarms, and changes supply. -/
def CalendarEvents : Prop :=
  ∀ (s : State),
    (∀ src time date, src < 4096 →
      (dateOk date = true → fld time 31 27 < 24 → fld time 26 21 < 60 → fld time 20 15 < 60 →
        Completes (.calWrite src time date) s fun t => t.rd calRegs = time % 2 ^ 32 ∧ t.rd (calA 4) = date % 2 ^ 17 ∧
          t.power = { s.power with calAt := s.now } ∧ t = { s with regs := t.regs, power := t.power, bus := ⟨rspOk, 0⟩ } ∧
          RegsBut [calRegs, calA 4] s t) ∧
      (dateOk date = false ∨ 24 ≤ fld time 31 27 ∨ 60 ≤ fld time 26 21 ∨ 60 ≤ fld time 20 15 →
        Completes (.calWrite src time date) s fun t => t = { s with bus := ⟨rspTgt, 0⟩ })) ∧
    (s.rb (calA 0x1C) 0 = true → calTicks s ≤ alarmSecond s * 32768 → Completes .calAlarm s fun t =>
      t.rb (calA 0x20) 0 = true ∧ calReaches s (alarmSecond s * 32768) ≤ t.now ∧
      (s.rb (calA 0x20) 0 = false → t.msiRise = s.msiRise ++ [8]) ∧
      (s.rb (calA 0x1C) 1 = false →
        t = { s with now := t.now, regs := t.regs, msiRise := t.msiRise } ∧ RegsBut [calA 0x20] s t) ∧
      (s.rb (calA 0x1C) 1 = true → s.power.standby = 4 → t.power.standby = 5 ∧ t.shedBusy shedYard = true)) ∧
    ((s.rb (calA 0x1C) 0 = false ∨ alarmSecond s * 32768 < calTicks s) → Completes .calAlarm s fun t => t = s) ∧
    (Completes .trimApply s fun t => ∃ m : Nat, t.now = max s.now (s.power.calTrim + 32 * 32768 * calCycle) ∧
      (m : Int) = ((calTicks { s with now := t.now } : Int) + sgn 10 (s.rf (calA 8) 9 0)) % (calRange : Nat) ∧
      t.rd calRegs = calTimeWord m ∧ t.rd (calA 4) = calDateWord m ∧ t.power.calTrim = t.now ∧
      t = { s with now := t.now, regs := t.regs, power := t.power } ∧ RegsBut [calRegs, calA 4] s t) ∧
    (∀ mv, Completes (.vbatSample mv) s fun t => t.rb (calA 0x20) 3 = decide (mv < 1700) ∧
      t = { s with regs := t.regs } ∧ RegsBut [calA 0x20] s t) ∧
    (∀ on mv, Completes (.vbatSwitch on mv) s fun t => t.rb (calA 0x20) 2 = (on || s.rb (calA 0x20) 2) ∧
      t.power = { s.power with calVbat := on, calLose := s.power.calLose || (on && decide (mv = 0)) } ∧
      calTicks t = calTicks s ∧ t = { s with regs := t.regs, power := t.power } ∧ RegsBut [calA 0x20] s t) ∧
    (Completes .oscFail s fun t => t.rb (calA 0x20) 4 = true ∧ t.power = { s.power with calLose := true } ∧
      t = { s with regs := t.regs, power := t.power } ∧ RegsBut [calA 0x20] s t)

/-- The Loft complex's control and inputs, and the calendar. -/
def Obligations.LoftAndCalendar : Prop := LoftControlAndInputs ∧ CalendarEvents

/-! ## Sheds, supplies and standby (R524-R540, R546, R553, R555) -/

/-- R526-R529, R533: a shed is asked for a state, rises, fails, descends and is woken. -/
def Obligations.ShedTransitions : Prop :=
  ∀ (s : State) (k : Nat), k < 50 →
    (∀ req,
      (shedState k (req % 4) = false ∨ (req % 4 < 3 ∧ shedInUse s k = true) →
        Completes (.shedRequest k req) s fun t => t = { s with bus := ⟨rspTgt, 0⟩ }) ∧
      (shedState k (req % 4) = true → (req % 4 < 3 → shedInUse s k = false) →
        Completes (.shedRequest k req) s fun t => t.rf (shdCtrl k) 1 0 = req % 4 ∧ t.shedCur k = s.shedCur k ∧
          t = { s with regs := t.regs, power := t.power, bus := ⟨rspOk, 0⟩ } ∧ RegsBut [shdCtrl k, shdStatus k] s t ∧
          (s.shedBusy k = true → t.shedTr k = s.shedTr k ∧ t.shedBusy k = true) ∧
          (s.shedBusy k = false → req % 4 = s.shedCur k → t.shedBusy k = false ∧ t.shedTr k = s.shedTr k) ∧
          (s.shedBusy k = false → s.shedCur k < req % 4 → t.shedBusy k = true ∧ (t.shedTr k).tr = 1 + s.shedCur k ∧
            (t.shedTr k).since = s.now) ∧
          (s.shedBusy k = false → req % 4 < s.shedCur k → t.shedBusy k = true ∧ (t.shedTr k).tr = 4 + req % 4 ∧
            (t.shedTr k).since = s.now))) ∧
    ((s.shedTr k).tr = 1 → s.shedStep k < 2 → ¬ (s.shedStep k = 0 ∧ railGone s k = true) →
      Completes (.shedStepReady k) s fun t => t.shedStep k = s.shedStep k + 1 ∧ (t.shedTr k).since = s.now ∧
        t.shedCur k = s.shedCur k ∧ t = { s with regs := t.regs, power := t.power } ∧ RegsBut [shdStatus k] s t) ∧
    ((s.shedTr k).tr = 1 → s.shedStep k = 0 → railGone s k = true → Completes (.shedStepReady k) s fun t => t = s) ∧
    ((s.shedTr k).tr = 1 → s.shedStep k = 2 → Completes (.shedStepReady k) s fun t => t.shedStep k = 3 ∧
      (∀ a, t.byte a = if shedOf a = k then 0 else s.byte a) ∧ t.shedCur k = s.shedCur k) ∧
    ((s.shedTr k).tr = 1 → s.shedStep k = 3 → (s.rf (shdCtrl k) 1 0 = 3 ∨ s.rb (shdStatus k) 3 = true) →
      Completes (.shedStepReady k) s fun t => t.shedCur k = 3 ∧ t.shedBusy k = false ∧
        t.shedStep k = (if k < 40 then 4 else 5) ∧ t.rb (shdStatus k) 3 = false ∧ (t.shedTr k).tr = 0 ∧
        t.rf (shdCtrl k) 1 0 = 3) ∧
    ((s.shedTr k).tr = 2 → s.shedStep k < 3 → Completes (.shedStepReady k) s fun t =>
      t.shedStep k = s.shedStep k + 1 ∧ t = { s with regs := t.regs, power := t.power } ∧ RegsBut [shdStatus k] s t) ∧
    (((s.shedTr k).tr = 2 ∧ 3 ≤ s.shedStep k) ∨ (s.shedTr k).tr = 3 → s.rf (shdCtrl k) 1 0 = 3 →
      Completes (.shedStepReady k) s fun t => t.shedCur k = 3 ∧ t.shedBusy k = false ∧
        t.shedStep k = (if (s.shedTr k).held then 4 else 5) ∧ (t.shedTr k).tr = 0 ∧ SameBytes s t) ∧
    (∀ m, stepLimit (s.shedTr k).tr k (s.shedStep k) = some m → Completes (.stepFault k) s fun t =>
      t.shedCur k = 0 ∧ t.shedBusy k = false ∧ t.rf (shdStatus k) 10 8 = s.shedStep k + 1 ∧ t.rb (shdA 4) 2 = true ∧
      (s.shedTr k).since + 2 * m * us ≤ t.now ∧
      ((s.shedTr k).tr = 1 → t = { s with now := t.now, regs := t.regs, power := t.power, msiRise := t.msiRise } ∧
        RegsBut [shdStatus k, shdA 4, shdA 0x14] s t)) ∧
    (stepLimit (s.shedTr k).tr k (s.shedStep k) = none → Completes (.stepFault k) s fun t => t = s) ∧
    ((s.shedTr k).tr < 4 ∨ shedOwed s k = true → Completes (.shedDescentDone k) s fun t => t = s) ∧
    (∀ st, st < 3 → (s.shedTr k).tr = 4 + st → shedOwed s k = false → s.power.standby = 0 →
      (s.rb (shdStatus k) 3 = false → s.rf (shdCtrl k) 1 0 = st → Completes (.shedDescentDone k) s fun t =>
        t.shedCur k = st ∧ t.shedBusy k = false ∧ (t.shedTr k).tr = 0 ∧
        (st ≠ 0 → t = { s with regs := t.regs, power := t.power } ∧ RegsBut [shdStatus k] s t) ∧
        (st = 0 → k < 44 ∨ k = shedFh → ∀ a, shedOf a = k → keptReg a = false → t.reg a = regReset a)) ∧
      (s.rb (shdStatus k) 3 = true → Completes (.shedDescentDone k) s fun t => t.shedCur k = st ∧ t.shedBusy k = true ∧
        (t.shedTr k).tr = 1 + st)) ∧
    (s.shedBusy k = true → Completes (.shedWake k) s fun t => t.rb (shdStatus k) 3 = true ∧ t.shedTr k = s.shedTr k ∧
      t = { s with regs := t.regs } ∧ RegsBut [shdStatus k] s t) ∧
    (s.shedBusy k = false →
      (s.shedCur k = 3 → Completes (.shedWake k) s fun t => t = s) ∧
      (s.shedCur k = 0 → s.rf (shdCtrl k) 1 0 = 0 → Completes (.shedWake k) s fun t =>
        t.rd (shdA 0x30) = sat32 (s.rd (shdA 0x30) + 1) ∧ t = { s with regs := t.regs } ∧ RegsBut [shdA 0x30] s t) ∧
      (s.shedCur k ≠ 3 → (s.shedCur k ≠ 0 ∨ s.rf (shdCtrl k) 1 0 ≠ 0) → Completes (.shedWake k) s fun t =>
        t.shedBusy k = true ∧ t.rb (shdStatus k) 3 = true ∧ (t.shedTr k).tr = 1 + s.shedCur k ∧
        t.shedCur k = s.shedCur k ∧ t = { s with regs := t.regs, power := t.power } ∧ RegsBut [shdStatus k] s t))

/-- What a reset of the whole unit leaves (R539, R540, R546): every shed but AON is OFF with REQ as after reset, memory
holds nothing, every tag is free; the OTP, the flash, the queue and the AON registers beside the sheds' are kept. -/
abbrev UnitReset (s t : State) : Prop :=
  (∀ k, k < 49 → k ≠ shedYard → t.shedCur k = 0 ∧ t.shedBusy k = false) ∧ t.shedCur shedYard = 0 ∧
    (∀ k, k < 50 → t.rf (shdCtrl k) 1 0 = (if k = 44 ∨ k = 47 ∨ k = 49 then 3 else 0)) ∧ t.mem = [] ∧ t.ecc = [] ∧
    (∀ h x, (t.tag h x).st = 0) ∧ t.otp = s.otp ∧ t.flash = s.flash ∧ t.gpio = s.gpio ∧ t.now = s.now ∧
    t.pending = s.pending ∧ t.tack = Tack.reset ∧ t.hlt.cells = [] ∧
    (∀ a, keptReg a = true → a < shdRegs ∨ shdRegs + 0x400 ≤ a → t.rd a = s.rd a)

/-- R532, R534-R541, R546, R548, R553, R555, R560: standby, wakes, derating, brownout, resets and rails. -/
def Obligations.SuppliesResetsAndStandby : Prop :=
  ∀ (s : State),
    (∀ level s1, s1 = { s with power := { s.power with wakePin := level } } →
      (wakeLevel s1 = false → ¬ (s.rb (shdA 0x2C) 0 = true ∧ s.rb (shdA 0x2C) 1 = true ∧ s.power.wakePin = true ∧ level = false) →
        Completes (.wakeN level) s fun t => t = s1) ∧
      (wakeLevel s1 = true ∨ (s.rb (shdA 0x2C) 0 = true ∧ s.rb (shdA 0x2C) 1 = true ∧ s.power.wakePin = true ∧ level = false) →
        Completes (.wakeN level) s fun t => t.rb (shdA 4) 4 = true ∧ t.power.wakePin = level ∧
          (s.power.standby = 0 → t = { s1 with regs := t.regs, msiRise := t.msiRise } ∧ RegsBut [shdA 4] s t) ∧
          (s.power.standby = 4 → t.power.standby = 5 ∧ t.shedBusy shedYard = true))) ∧
    (∀ p, p < 8 →
      (s.rb (shdA 0x2C) 2 = false → Completes (.plWake p) s fun t => t = s) ∧
      (s.rb (shdA 0x2C) 2 = true → Completes (.plWake p) s fun t => t.rb (shdA 4) 5 = true ∧
        (s.shedBusy shedPl = false → s.shedCur shedPl = 1 → t.shedBusy shedPl = true ∧ (t.shedTr shedPl).tr = 2))) ∧
    (othersDown s = true → Completes .standbyEnter s fun t =>
      t.power = { s.power with standby := if s.power.standby = 0 then 1 else s.power.standby } ∧
      t = { s with power := t.power, bus := ⟨rspOk, 0⟩ }) ∧
    (othersDown s = false → Completes .standbyEnter s fun t => t = { s with bus := ⟨rspTgt, 0⟩ }) ∧
    (s.power.standby = 1 → Completes .loftCoresInWfi s fun t => t.power.standby = 2 ∧ t.shedBusy shedLoft = true ∧
      (t.shedTr shedLoft).tr = 5 ∧ t = { s with regs := t.regs, power := t.power } ∧ RegsBut [shdStatus shedLoft] s t) ∧
    (s.power.standby ≠ 1 → Completes .loftCoresInWfi s fun t => t = s) ∧
    (∀ vin cur low lim mx l now, now = max s.now (s.power.derHi + us) →
      low = (if 1220 ≤ vin then false else if vin < 1200 then true else s.rb (shdA 0x24) 8) →
      lim = (if low then 3200 else 3600) → mx = derMax vin low → l = s.rf (shdA 0x24) 2 0 →
      Completes (.derateMeasure vin cur) s fun t => t.now = now ∧ t.power.derHi = now ∧ t.rb (shdA 0x24) 8 = low ∧
        t.rf (shdA 0x24) 6 4 = mx ∧ t.rf (shdA 0x20) 11 0 = vin % 4096 ∧ t.rf (shdA 0x20) 27 16 = cur % 4096 ∧
        (97 * lim ≤ 100 * cur → l < mx → t.rf (shdA 0x24) 2 0 = l + 1 ∧ t.rb (shdA 4) 3 = true ∧ t.power.derLow = none ∧
          t.rd (shdA 0x28) = sat32 (s.rd (shdA 0x28) + 1)) ∧
        (¬ (97 * lim ≤ 100 * cur ∧ l < mx) →
          (0 < l → cur * derPower (l - 1) * 100 < 90 * lim * derPower l →
            (s.power.derLow = none → t.rf (shdA 0x24) 2 0 = l ∧ t.power.derLow = some now) ∧
            (∀ a, s.power.derLow = some a →
              (a + 1000 * us ≤ now → t.rf (shdA 0x24) 2 0 = l - 1 ∧ t.rb (shdA 4) 3 = true ∧ t.power.derLow = none) ∧
              (now < a + 1000 * us → t.rf (shdA 0x24) 2 0 = l ∧ t.power.derLow = some a))) ∧
          (l = 0 ∨ 90 * lim * derPower l ≤ cur * derPower (l - 1) * 100 → t.rf (shdA 0x24) 2 0 = l ∧
            t.power.derLow = none ∧ t = { s with now := t.now, regs := t.regs, power := t.power } ∧
            RegsBut [shdA 0x20, shdA 0x24] s t))) ∧
    (∀ below,
      (s.rb (shdA 0xC) 8 = below → Completes (.shdBow below) s fun t => t = s) ∧
      (s.rb (shdA 0xC) 8 ≠ below → Completes (.shdBow below) s fun t => t.rb (shdA 0xC) 8 = below ∧
        t.rb (shdA 4) (if below then 0 else 1) = true ∧
        (below = true → s.shedCur shedLoft ≠ 0 → t.rb (tkRegs + 0x10) 1 = true) ∧
        t = { s with regs := t.regs, msiRise := t.msiRise } ∧ RegsBut [shdA 0xC, shdA 4, tkRegs + 0x10] s t)) ∧
    (Completes .brownoutReset s fun t => UnitReset s t ∧ t.power.brown = true ∧ t.power.standby = 0 ∧
      t.rb (shdA 0x14) 1 = true ∧ t.shedBusy shedYard = false) ∧
    (s.power.brown = true → Completes .brownoutResetEnd s fun t => t.power.brown = false ∧ t.power.standby = 5 ∧
      t.shedBusy shedYard = true ∧ (t.shedTr shedYard).tr = 1 + s.shedCur shedYard ∧
      t = { s with regs := t.regs, power := t.power } ∧ RegsBut [shdStatus shedYard] s t) ∧
    (s.power.brown = false → Completes .brownoutResetEnd s fun t => t = s) ∧
    (∀ v, v % 2 ^ 32 = 0xA5C30001 → Completes (.shdSysrst v) s fun t => UnitReset s t ∧ t.bus = ⟨rspOk, 0⟩ ∧
      t.rb (shdA 0x14) 2 = true ∧ t.power.standby = 5 ∧ t.shedBusy shedYard = true ∧ (t.shedTr shedYard).tr = 1) ∧
    (∀ v, v % 2 ^ 32 ≠ 0xA5C30001 → Completes (.shdSysrst v) s fun t => t = { s with bus := ⟨rspTgt, 0⟩ }) ∧
    (∀ fsel strap, Completes (.aonPowerOn fsel strap) s fun t => t.mem = [] ∧ t.otp = s.otp ∧ t.flash = s.flash ∧
      t.power.strap = strap % 2 ^ 20 ∧ t.power.fsel = fsel % 8 ∧ t.power.therm = false ∧ t.power.standby = 5 ∧
      plFgen t = 0 ∧ t.shedBusy shedYard = true ∧ t.rb (calA 0x20) 1 = (s.rb (calA 0x20) 1 || s.power.calLose) ∧
      (s.power.calLose = false → t.rd calRegs = s.rd calRegs ∧ t.rd (calA 4) = s.rd (calA 4) ∧ t.power.calAt = s.power.calAt) ∧
      (strap % 2 ^ 20 ≠ 0xFFFFF → plUnit t = strap % 2 ^ 20 ∧ plValid t = true) ∧
      (strap % 2 ^ 20 = 0xFFFFF → plValid t = false)) ∧
    (s.power.therm = true → Completes .thermtrip s fun t => t = s) ∧
    (s.power.therm = false → Completes .thermtrip s fun t =>
      t = { s with power := { s.power with therm := true }, wire := s.wire ++ [.thermtrip] }) ∧
    (∀ fh lost k, k = (if fh then shedFh else shedPl) → Completes (.analogRailLoss fh lost) s fun t =>
      (if fh then t.power.fhRail else t.power.plRail) = (!lost) ∧
      (lost = true → s.shedCur k = 3 → t.shedCur k = 0 ∧ t.shedBusy k = false ∧ t.rf (shdStatus k) 10 8 = 1 ∧
        t.rb (shdA 4) 2 = true) ∧
      (lost = false ∨ s.shedCur k ≠ 3 → t = { s with power := t.power }))

/-! ## The code of the SRAM memories (R329) -/

/-- Check field difference of a word whose symbol `i` is wrong by `e` (R326). -/
def symbolError (i e : Nat) : Nat := if i < 32 then encodeSym i e else e * 16 ^ (i - 32)

/-- R329: what the decoder makes of a syndrome, a corrected symbol, and two symbols in error. -/
def Obligations.CodeOfTheSramMemories : Prop :=
  (∀ d y s0 s1 s2 s3, d < 2 ^ 16 → y = synd d → s0 = y % 16 → s1 = y / 16 % 16 → s2 = y / 256 % 16 → s3 = y / 4096 % 16 →
    (y = 0 → sramDecode d = .good) ∧
    (y = 0x0100 → sramDecode d = .poisoned) ∧
    (s0 = 0 → s1 = 0 → s2 = 0 → s3 ≠ 0 → sramDecode d = .fixed 35 s3 y) ∧
    (∀ i, s0 ≠ 0 → i < 35 → gfMul s0 (symPos i).1 = s1 → gfMul s0 (symPos i).2 = s2 →
      s3 = gfMul s0 (gfF (symPos i).1 (symPos i).2) → sramDecode d = .fixed i s0 y) ∧
    (y ≠ 0 → y ≠ 0x0100 → ¬ (s0 = 0 ∧ s1 = 0 ∧ s2 = 0) →
      ¬ (s0 ≠ 0 ∧ ∃ i, i < 35 ∧ gfMul s0 (symPos i).1 = s1 ∧ gfMul s0 (symPos i).2 = s2 ∧
        s3 = gfMul s0 (gfF (symPos i).1 (symPos i).2)) → sramDecode d = .bad)) ∧
  (∀ i e f j, i < 36 → j < 36 → i ≠ j → 0 < e → e < 16 → 0 < f → f < 16 →
    sramDecode (symbolError i e ^^^ symbolError j f) = .bad ∨ sramDecode (symbolError i e ^^^ symbolError j f) = .poisoned) ∧
  (∀ (s : State) (src a n : Nat), n < 292 → ctlOf a = some n → a % 16 = 0 →
    (∀ pos e syn i, s.wordSt a = .fixed pos e syn → (s.readMem a 16 0 src).2.1 = none ∧
      ((s.readMem a 16 0 src).1.getD i 0).toNat =
        (if 2 * i ≤ pos ∧ pos ≤ 2 * i + 1 ∧ i < 16 then (s.byte (a + i)).toNat ^^^ (e * 16 ^ (pos % 2))
         else if i < 16 then (s.byte (a + i)).toNat else 0)) ∧
    (s.wordSt a = .bad ∨ s.wordSt a = .poisoned → ((s.readMem a 16 0 src).2.1).isSome = true))

/-! ## The queue, reset and what every step keeps -/

/-- The command at the front of the queue runs with the queue's rest. With an empty queue a base-clock cycle passes
(the model's choice, log 3). No table word spells a command, so placing one changes nothing. -/
def Obligations.StepRunsTheFrontCommand : Prop :=
  (∀ (s : State) (c : Instr), step { s with pending := c :: s.pending } = exec c s) ∧
  (∀ (s : State) (c : Instr) (rest : List Instr), s.pending = c :: rest → step s = exec c { s with pending := rest }) ∧
  (∀ s : State, s.pending = [] → step s = .next (idle s)) ∧
  (∀ (s : State) (n w : Nat), decodeTableWord n w = none ∧ s.withFetchWord n w = s)

/-- A well-formed command runs in every state: no meaning stops on one. An ill-formed one, which names a unit the device
does not have (R15), is the one thing that stops. -/
def Obligations.WellFormedCommandsRun : Prop :=
  ∀ (c : Instr) (s : State), (c.wf = true → ∃ t, exec c s = .next t) ∧ (c.wf = false → exec c s = .fault .noSuchUnit)

/-- What holds in every state a run reaches: memory is in its canonical form. -/
abbrev MemCanonical (s : State) : Prop := Memory.wf s.mem

/-- Every step keeps the canonical form of memory, whatever the command. -/
def Obligations.EveryStepKeepsMemoryCanonical : Prop := ∀ s t : State, MemCanonical s → step s = .next t → MemCanonical t

/-- The state after reset: canonical memory, no command, and the reset values the spec gives (R12, R46, R145, R268, R307,
R319, R342, R352, R364, R368, R413, R429, R434, R453, R507, R512, R546). -/
def Obligations.ResetHoldsTheSpecsValues : Prop :=
  MemCanonical State.reset ∧ State.reset.pending = [] ∧
  (∀ k, k < 50 → State.reset.shedCur k = (if k = shedYard ∨ k = shedLoft ∨ k = shedAon then 3 else 0) ∧
    State.reset.shedBusy k = false ∧
    State.reset.rf (shdCtrl k) 1 0 = (if k = shedYard ∨ k = shedLoft ∨ k = shedAon then 3 else 0)) ∧
  State.reset.rd (shdA 0x14) = 1 ∧ lifecycle State.reset = 0 ∧
  (∀ h t, (State.reset.tag h t).st = 0) ∧ (∀ e, State.reset.fenced e = false ∧ (State.reset.epSt e).gen = 0) ∧
  (∀ u, plFenced State.reset u = false) ∧ (∀ p, p < 8 → plState State.reset p = 0) ∧ plFgen State.reset = 0 ∧
  (∀ ch, ch < 576 → chSt State.reset ch = 0) ∧ (∀ h, h < 4096 → hatFull State.reset h = false) ∧
  (∀ h, h < 8 → State.reset.rf (hatC h 8) 19 0 = 100) ∧
  (∀ d, d < 2 → domEn State.reset d = false ∧ domValid State.reset d = false ∧ State.reset.rd (domA d 0x18) = 1000) ∧
  (∀ t, t < 16 → trainOn State.reset t = false) ∧
  (∀ r d, r < 96 → d < 96 → routePort State.reset 0 r d = xFirst r d ∧ routePort State.reset 1 r d = xFirst r d) ∧
  State.reset.rd (lftA 4) = 0xFFFE ∧ State.reset.rd (calA 0x20) = 2
end

