-- ==== Sys2Proof/Laws/State.lean ====
section
/-! SUPPORT. One lemma per field per update of State: an update leaves every field it does not name. -/

namespace Sys2Proof.Machine

variable (s : State)

@[simp] theorem State.wr_pending (a v : Nat) : (s.wr a v).pending = s.pending := rfl
@[simp] theorem State.wr_now (a v : Nat) : (s.wr a v).now = s.now := rfl
@[simp] theorem State.wr_fresh (a v : Nat) : (s.wr a v).fresh = s.fresh := rfl
@[simp] theorem State.wr_mem (a v : Nat) : (s.wr a v).mem = s.mem := rfl
@[simp] theorem State.wr_caps (a v : Nat) : (s.wr a v).caps = s.caps := rfl
@[simp] theorem State.wr_stage (a v : Nat) : (s.wr a v).stage = s.stage := rfl
@[simp] theorem State.wr_bus (a v : Nat) : (s.wr a v).bus = s.bus := rfl
@[simp] theorem State.wr_wire (a v : Nat) : (s.wr a v).wire = s.wire := rfl
@[simp] theorem State.wr_msiRise (a v : Nat) : (s.wr a v).msiRise = s.msiRise := rfl
@[simp] theorem State.wr_ticks (a v : Nat) : (s.wr a v).ticks = s.ticks := rfl
@[simp] theorem State.wr_tickCount (a v : Nat) : (s.wr a v).tickCount = s.tickCount := rfl
@[simp] theorem State.wr_ct (a v : Nat) : (s.wr a v).ct = s.ct := rfl
@[simp] theorem State.wr_eps (a v : Nat) : (s.wr a v).eps = s.eps := rfl
@[simp] theorem State.wr_ecc (a v : Nat) : (s.wr a v).ecc = s.ecc := rfl
@[simp] theorem State.wr_cores (a v : Nat) : (s.wr a v).cores = s.cores := rfl
@[simp] theorem State.wr_tags (a v : Nat) : (s.wr a v).tags = s.tags := rfl
@[simp] theorem State.wr_guards (a v : Nat) : (s.wr a v).guards = s.guards := rfl
@[simp] theorem State.wr_hmsgs (a v : Nat) : (s.wr a v).hmsgs = s.hmsgs := rfl
@[simp] theorem State.wr_postAns (a v : Nat) : (s.wr a v).postAns = s.postAns := rfl
@[simp] theorem State.wr_comps (a v : Nat) : (s.wr a v).comps = s.comps := rfl
@[simp] theorem State.wr_resps (a v : Nat) : (s.wr a v).resps = s.resps := rfl
@[simp] theorem State.wr_resvs (a v : Nat) : (s.wr a v).resvs = s.resvs := rfl
@[simp] theorem State.wr_held (a v : Nat) : (s.wr a v).held = s.held := rfl
@[simp] theorem State.wr_down (a v : Nat) : (s.wr a v).down = s.down := rfl
@[simp] theorem State.wr_replays (a v : Nat) : (s.wr a v).replays = s.replays := rfl
@[simp] theorem State.wr_worms (a v : Nat) : (s.wr a v).worms = s.worms := rfl
@[simp] theorem State.wr_ym (a v : Nat) : (s.wr a v).ym = s.ym := rfl
@[simp] theorem State.wr_hatWin (a v : Nat) : (s.wr a v).hatWin = s.hatWin := rfl
@[simp] theorem State.wr_scrubDone (a v : Nat) : (s.wr a v).scrubDone = s.scrubDone := rfl
@[simp] theorem State.wr_chans (a v : Nat) : (s.wr a v).chans = s.chans := rfl
@[simp] theorem State.wr_brwLast (a v : Nat) : (s.wr a v).brwLast = s.brwLast := rfl
@[simp] theorem State.wr_tickWaits (a v : Nat) : (s.wr a v).tickWaits = s.tickWaits := rfl
@[simp] theorem State.wr_engines (a v : Nat) : (s.wr a v).engines = s.engines := rfl
@[simp] theorem State.wr_lbts (a v : Nat) : (s.wr a v).lbts = s.lbts := rfl
@[simp] theorem State.wr_sctx (a v : Nat) : (s.wr a v).sctx = s.sctx := rfl
@[simp] theorem State.wr_nbch (a v : Nat) : (s.wr a v).nbch = s.nbch := rfl
@[simp] theorem State.wr_pl (a v : Nat) : (s.wr a v).pl = s.pl := rfl
@[simp] theorem State.wr_macs (a v : Nat) : (s.wr a v).macs = s.macs := rfl
@[simp] theorem State.wr_hlt (a v : Nat) : (s.wr a v).hlt = s.hlt := rfl
@[simp] theorem State.wr_tack (a v : Nat) : (s.wr a v).tack = s.tack := rfl
@[simp] theorem State.wr_otp (a v : Nat) : (s.wr a v).otp = s.otp := rfl
@[simp] theorem State.wr_flash (a v : Nat) : (s.wr a v).flash = s.flash := rfl
@[simp] theorem State.wr_power (a v : Nat) : (s.wr a v).power = s.power := rfl
@[simp] theorem State.wr_gpio (a v : Nat) : (s.wr a v).gpio = s.gpio := rfl
@[simp] theorem State.wr_uartRx (a v : Nat) : (s.wr a v).uartRx = s.uartRx := rfl
@[simp] theorem State.wr_hatTmo (a v : Nat) : (s.wr a v).hatTmo = s.hatTmo := rfl

@[simp] theorem State.wf_pending (a hi lo v : Nat) : (s.wf a hi lo v).pending = s.pending := rfl
@[simp] theorem State.wf_now (a hi lo v : Nat) : (s.wf a hi lo v).now = s.now := rfl
@[simp] theorem State.wf_fresh (a hi lo v : Nat) : (s.wf a hi lo v).fresh = s.fresh := rfl
@[simp] theorem State.wf_mem (a hi lo v : Nat) : (s.wf a hi lo v).mem = s.mem := rfl
@[simp] theorem State.wf_caps (a hi lo v : Nat) : (s.wf a hi lo v).caps = s.caps := rfl
@[simp] theorem State.wf_stage (a hi lo v : Nat) : (s.wf a hi lo v).stage = s.stage := rfl
@[simp] theorem State.wf_bus (a hi lo v : Nat) : (s.wf a hi lo v).bus = s.bus := rfl
@[simp] theorem State.wf_wire (a hi lo v : Nat) : (s.wf a hi lo v).wire = s.wire := rfl
@[simp] theorem State.wf_msiRise (a hi lo v : Nat) : (s.wf a hi lo v).msiRise = s.msiRise := rfl
@[simp] theorem State.wf_ticks (a hi lo v : Nat) : (s.wf a hi lo v).ticks = s.ticks := rfl
@[simp] theorem State.wf_tickCount (a hi lo v : Nat) : (s.wf a hi lo v).tickCount = s.tickCount := rfl
@[simp] theorem State.wf_ct (a hi lo v : Nat) : (s.wf a hi lo v).ct = s.ct := rfl
@[simp] theorem State.wf_eps (a hi lo v : Nat) : (s.wf a hi lo v).eps = s.eps := rfl
@[simp] theorem State.wf_ecc (a hi lo v : Nat) : (s.wf a hi lo v).ecc = s.ecc := rfl
@[simp] theorem State.wf_cores (a hi lo v : Nat) : (s.wf a hi lo v).cores = s.cores := rfl
@[simp] theorem State.wf_tags (a hi lo v : Nat) : (s.wf a hi lo v).tags = s.tags := rfl
@[simp] theorem State.wf_guards (a hi lo v : Nat) : (s.wf a hi lo v).guards = s.guards := rfl
@[simp] theorem State.wf_hmsgs (a hi lo v : Nat) : (s.wf a hi lo v).hmsgs = s.hmsgs := rfl
@[simp] theorem State.wf_postAns (a hi lo v : Nat) : (s.wf a hi lo v).postAns = s.postAns := rfl
@[simp] theorem State.wf_comps (a hi lo v : Nat) : (s.wf a hi lo v).comps = s.comps := rfl
@[simp] theorem State.wf_resps (a hi lo v : Nat) : (s.wf a hi lo v).resps = s.resps := rfl
@[simp] theorem State.wf_resvs (a hi lo v : Nat) : (s.wf a hi lo v).resvs = s.resvs := rfl
@[simp] theorem State.wf_held (a hi lo v : Nat) : (s.wf a hi lo v).held = s.held := rfl
@[simp] theorem State.wf_down (a hi lo v : Nat) : (s.wf a hi lo v).down = s.down := rfl
@[simp] theorem State.wf_replays (a hi lo v : Nat) : (s.wf a hi lo v).replays = s.replays := rfl
@[simp] theorem State.wf_worms (a hi lo v : Nat) : (s.wf a hi lo v).worms = s.worms := rfl
@[simp] theorem State.wf_ym (a hi lo v : Nat) : (s.wf a hi lo v).ym = s.ym := rfl
@[simp] theorem State.wf_hatWin (a hi lo v : Nat) : (s.wf a hi lo v).hatWin = s.hatWin := rfl
@[simp] theorem State.wf_scrubDone (a hi lo v : Nat) : (s.wf a hi lo v).scrubDone = s.scrubDone := rfl
@[simp] theorem State.wf_chans (a hi lo v : Nat) : (s.wf a hi lo v).chans = s.chans := rfl
@[simp] theorem State.wf_brwLast (a hi lo v : Nat) : (s.wf a hi lo v).brwLast = s.brwLast := rfl
@[simp] theorem State.wf_tickWaits (a hi lo v : Nat) : (s.wf a hi lo v).tickWaits = s.tickWaits := rfl
@[simp] theorem State.wf_engines (a hi lo v : Nat) : (s.wf a hi lo v).engines = s.engines := rfl
@[simp] theorem State.wf_lbts (a hi lo v : Nat) : (s.wf a hi lo v).lbts = s.lbts := rfl
@[simp] theorem State.wf_sctx (a hi lo v : Nat) : (s.wf a hi lo v).sctx = s.sctx := rfl
@[simp] theorem State.wf_nbch (a hi lo v : Nat) : (s.wf a hi lo v).nbch = s.nbch := rfl
@[simp] theorem State.wf_pl (a hi lo v : Nat) : (s.wf a hi lo v).pl = s.pl := rfl
@[simp] theorem State.wf_macs (a hi lo v : Nat) : (s.wf a hi lo v).macs = s.macs := rfl
@[simp] theorem State.wf_hlt (a hi lo v : Nat) : (s.wf a hi lo v).hlt = s.hlt := rfl
@[simp] theorem State.wf_tack (a hi lo v : Nat) : (s.wf a hi lo v).tack = s.tack := rfl
@[simp] theorem State.wf_otp (a hi lo v : Nat) : (s.wf a hi lo v).otp = s.otp := rfl
@[simp] theorem State.wf_flash (a hi lo v : Nat) : (s.wf a hi lo v).flash = s.flash := rfl
@[simp] theorem State.wf_power (a hi lo v : Nat) : (s.wf a hi lo v).power = s.power := rfl
@[simp] theorem State.wf_gpio (a hi lo v : Nat) : (s.wf a hi lo v).gpio = s.gpio := rfl
@[simp] theorem State.wf_uartRx (a hi lo v : Nat) : (s.wf a hi lo v).uartRx = s.uartRx := rfl
@[simp] theorem State.wf_hatTmo (a hi lo v : Nat) : (s.wf a hi lo v).hatTmo = s.hatTmo := rfl

@[simp] theorem State.wb_pending (a i : Nat) (b : Bool) : (s.wb a i b).pending = s.pending := rfl
@[simp] theorem State.wb_now (a i : Nat) (b : Bool) : (s.wb a i b).now = s.now := rfl
@[simp] theorem State.wb_fresh (a i : Nat) (b : Bool) : (s.wb a i b).fresh = s.fresh := rfl
@[simp] theorem State.wb_mem (a i : Nat) (b : Bool) : (s.wb a i b).mem = s.mem := rfl
@[simp] theorem State.wb_caps (a i : Nat) (b : Bool) : (s.wb a i b).caps = s.caps := rfl
@[simp] theorem State.wb_stage (a i : Nat) (b : Bool) : (s.wb a i b).stage = s.stage := rfl
@[simp] theorem State.wb_bus (a i : Nat) (b : Bool) : (s.wb a i b).bus = s.bus := rfl
@[simp] theorem State.wb_wire (a i : Nat) (b : Bool) : (s.wb a i b).wire = s.wire := rfl
@[simp] theorem State.wb_msiRise (a i : Nat) (b : Bool) : (s.wb a i b).msiRise = s.msiRise := rfl
@[simp] theorem State.wb_ticks (a i : Nat) (b : Bool) : (s.wb a i b).ticks = s.ticks := rfl
@[simp] theorem State.wb_tickCount (a i : Nat) (b : Bool) : (s.wb a i b).tickCount = s.tickCount := rfl
@[simp] theorem State.wb_ct (a i : Nat) (b : Bool) : (s.wb a i b).ct = s.ct := rfl
@[simp] theorem State.wb_eps (a i : Nat) (b : Bool) : (s.wb a i b).eps = s.eps := rfl
@[simp] theorem State.wb_ecc (a i : Nat) (b : Bool) : (s.wb a i b).ecc = s.ecc := rfl
@[simp] theorem State.wb_cores (a i : Nat) (b : Bool) : (s.wb a i b).cores = s.cores := rfl
@[simp] theorem State.wb_tags (a i : Nat) (b : Bool) : (s.wb a i b).tags = s.tags := rfl
@[simp] theorem State.wb_guards (a i : Nat) (b : Bool) : (s.wb a i b).guards = s.guards := rfl
@[simp] theorem State.wb_hmsgs (a i : Nat) (b : Bool) : (s.wb a i b).hmsgs = s.hmsgs := rfl
@[simp] theorem State.wb_postAns (a i : Nat) (b : Bool) : (s.wb a i b).postAns = s.postAns := rfl
@[simp] theorem State.wb_comps (a i : Nat) (b : Bool) : (s.wb a i b).comps = s.comps := rfl
@[simp] theorem State.wb_resps (a i : Nat) (b : Bool) : (s.wb a i b).resps = s.resps := rfl
@[simp] theorem State.wb_resvs (a i : Nat) (b : Bool) : (s.wb a i b).resvs = s.resvs := rfl
@[simp] theorem State.wb_held (a i : Nat) (b : Bool) : (s.wb a i b).held = s.held := rfl
@[simp] theorem State.wb_down (a i : Nat) (b : Bool) : (s.wb a i b).down = s.down := rfl
@[simp] theorem State.wb_replays (a i : Nat) (b : Bool) : (s.wb a i b).replays = s.replays := rfl
@[simp] theorem State.wb_worms (a i : Nat) (b : Bool) : (s.wb a i b).worms = s.worms := rfl
@[simp] theorem State.wb_ym (a i : Nat) (b : Bool) : (s.wb a i b).ym = s.ym := rfl
@[simp] theorem State.wb_hatWin (a i : Nat) (b : Bool) : (s.wb a i b).hatWin = s.hatWin := rfl
@[simp] theorem State.wb_scrubDone (a i : Nat) (b : Bool) : (s.wb a i b).scrubDone = s.scrubDone := rfl
@[simp] theorem State.wb_chans (a i : Nat) (b : Bool) : (s.wb a i b).chans = s.chans := rfl
@[simp] theorem State.wb_brwLast (a i : Nat) (b : Bool) : (s.wb a i b).brwLast = s.brwLast := rfl
@[simp] theorem State.wb_tickWaits (a i : Nat) (b : Bool) : (s.wb a i b).tickWaits = s.tickWaits := rfl
@[simp] theorem State.wb_engines (a i : Nat) (b : Bool) : (s.wb a i b).engines = s.engines := rfl
@[simp] theorem State.wb_lbts (a i : Nat) (b : Bool) : (s.wb a i b).lbts = s.lbts := rfl
@[simp] theorem State.wb_sctx (a i : Nat) (b : Bool) : (s.wb a i b).sctx = s.sctx := rfl
@[simp] theorem State.wb_nbch (a i : Nat) (b : Bool) : (s.wb a i b).nbch = s.nbch := rfl
@[simp] theorem State.wb_pl (a i : Nat) (b : Bool) : (s.wb a i b).pl = s.pl := rfl
@[simp] theorem State.wb_macs (a i : Nat) (b : Bool) : (s.wb a i b).macs = s.macs := rfl
@[simp] theorem State.wb_hlt (a i : Nat) (b : Bool) : (s.wb a i b).hlt = s.hlt := rfl
@[simp] theorem State.wb_tack (a i : Nat) (b : Bool) : (s.wb a i b).tack = s.tack := rfl
@[simp] theorem State.wb_otp (a i : Nat) (b : Bool) : (s.wb a i b).otp = s.otp := rfl
@[simp] theorem State.wb_flash (a i : Nat) (b : Bool) : (s.wb a i b).flash = s.flash := rfl
@[simp] theorem State.wb_power (a i : Nat) (b : Bool) : (s.wb a i b).power = s.power := rfl
@[simp] theorem State.wb_gpio (a i : Nat) (b : Bool) : (s.wb a i b).gpio = s.gpio := rfl
@[simp] theorem State.wb_uartRx (a i : Nat) (b : Bool) : (s.wb a i b).uartRx = s.uartRx := rfl
@[simp] theorem State.wb_hatTmo (a i : Nat) (b : Bool) : (s.wb a i b).hatTmo = s.hatTmo := rfl

@[simp] theorem State.cnt_pending (a n : Nat) : (s.cnt a n).pending = s.pending := rfl
@[simp] theorem State.cnt_now (a n : Nat) : (s.cnt a n).now = s.now := rfl
@[simp] theorem State.cnt_fresh (a n : Nat) : (s.cnt a n).fresh = s.fresh := rfl
@[simp] theorem State.cnt_mem (a n : Nat) : (s.cnt a n).mem = s.mem := rfl
@[simp] theorem State.cnt_caps (a n : Nat) : (s.cnt a n).caps = s.caps := rfl
@[simp] theorem State.cnt_stage (a n : Nat) : (s.cnt a n).stage = s.stage := rfl
@[simp] theorem State.cnt_bus (a n : Nat) : (s.cnt a n).bus = s.bus := rfl
@[simp] theorem State.cnt_wire (a n : Nat) : (s.cnt a n).wire = s.wire := rfl
@[simp] theorem State.cnt_msiRise (a n : Nat) : (s.cnt a n).msiRise = s.msiRise := rfl
@[simp] theorem State.cnt_ticks (a n : Nat) : (s.cnt a n).ticks = s.ticks := rfl
@[simp] theorem State.cnt_tickCount (a n : Nat) : (s.cnt a n).tickCount = s.tickCount := rfl
@[simp] theorem State.cnt_ct (a n : Nat) : (s.cnt a n).ct = s.ct := rfl
@[simp] theorem State.cnt_eps (a n : Nat) : (s.cnt a n).eps = s.eps := rfl
@[simp] theorem State.cnt_ecc (a n : Nat) : (s.cnt a n).ecc = s.ecc := rfl
@[simp] theorem State.cnt_cores (a n : Nat) : (s.cnt a n).cores = s.cores := rfl
@[simp] theorem State.cnt_tags (a n : Nat) : (s.cnt a n).tags = s.tags := rfl
@[simp] theorem State.cnt_guards (a n : Nat) : (s.cnt a n).guards = s.guards := rfl
@[simp] theorem State.cnt_hmsgs (a n : Nat) : (s.cnt a n).hmsgs = s.hmsgs := rfl
@[simp] theorem State.cnt_postAns (a n : Nat) : (s.cnt a n).postAns = s.postAns := rfl
@[simp] theorem State.cnt_comps (a n : Nat) : (s.cnt a n).comps = s.comps := rfl
@[simp] theorem State.cnt_resps (a n : Nat) : (s.cnt a n).resps = s.resps := rfl
@[simp] theorem State.cnt_resvs (a n : Nat) : (s.cnt a n).resvs = s.resvs := rfl
@[simp] theorem State.cnt_held (a n : Nat) : (s.cnt a n).held = s.held := rfl
@[simp] theorem State.cnt_down (a n : Nat) : (s.cnt a n).down = s.down := rfl
@[simp] theorem State.cnt_replays (a n : Nat) : (s.cnt a n).replays = s.replays := rfl
@[simp] theorem State.cnt_worms (a n : Nat) : (s.cnt a n).worms = s.worms := rfl
@[simp] theorem State.cnt_ym (a n : Nat) : (s.cnt a n).ym = s.ym := rfl
@[simp] theorem State.cnt_hatWin (a n : Nat) : (s.cnt a n).hatWin = s.hatWin := rfl
@[simp] theorem State.cnt_scrubDone (a n : Nat) : (s.cnt a n).scrubDone = s.scrubDone := rfl
@[simp] theorem State.cnt_chans (a n : Nat) : (s.cnt a n).chans = s.chans := rfl
@[simp] theorem State.cnt_brwLast (a n : Nat) : (s.cnt a n).brwLast = s.brwLast := rfl
@[simp] theorem State.cnt_tickWaits (a n : Nat) : (s.cnt a n).tickWaits = s.tickWaits := rfl
@[simp] theorem State.cnt_engines (a n : Nat) : (s.cnt a n).engines = s.engines := rfl
@[simp] theorem State.cnt_lbts (a n : Nat) : (s.cnt a n).lbts = s.lbts := rfl
@[simp] theorem State.cnt_sctx (a n : Nat) : (s.cnt a n).sctx = s.sctx := rfl
@[simp] theorem State.cnt_nbch (a n : Nat) : (s.cnt a n).nbch = s.nbch := rfl
@[simp] theorem State.cnt_pl (a n : Nat) : (s.cnt a n).pl = s.pl := rfl
@[simp] theorem State.cnt_macs (a n : Nat) : (s.cnt a n).macs = s.macs := rfl
@[simp] theorem State.cnt_hlt (a n : Nat) : (s.cnt a n).hlt = s.hlt := rfl
@[simp] theorem State.cnt_tack (a n : Nat) : (s.cnt a n).tack = s.tack := rfl
@[simp] theorem State.cnt_otp (a n : Nat) : (s.cnt a n).otp = s.otp := rfl
@[simp] theorem State.cnt_flash (a n : Nat) : (s.cnt a n).flash = s.flash := rfl
@[simp] theorem State.cnt_power (a n : Nat) : (s.cnt a n).power = s.power := rfl
@[simp] theorem State.cnt_gpio (a n : Nat) : (s.cnt a n).gpio = s.gpio := rfl
@[simp] theorem State.cnt_uartRx (a n : Nat) : (s.cnt a n).uartRx = s.uartRx := rfl
@[simp] theorem State.cnt_hatTmo (a n : Nat) : (s.cnt a n).hatTmo = s.hatTmo := rfl

@[simp] theorem State.setByte_pending (a : Nat) (b : Byte) : (s.setByte a b).pending = s.pending := rfl
@[simp] theorem State.setByte_now (a : Nat) (b : Byte) : (s.setByte a b).now = s.now := rfl
@[simp] theorem State.setByte_fresh (a : Nat) (b : Byte) : (s.setByte a b).fresh = s.fresh := rfl
@[simp] theorem State.setByte_regs (a : Nat) (b : Byte) : (s.setByte a b).regs = s.regs := rfl
@[simp] theorem State.setByte_caps (a : Nat) (b : Byte) : (s.setByte a b).caps = s.caps := rfl
@[simp] theorem State.setByte_stage (a : Nat) (b : Byte) : (s.setByte a b).stage = s.stage := rfl
@[simp] theorem State.setByte_bus (a : Nat) (b : Byte) : (s.setByte a b).bus = s.bus := rfl
@[simp] theorem State.setByte_wire (a : Nat) (b : Byte) : (s.setByte a b).wire = s.wire := rfl
@[simp] theorem State.setByte_msiRise (a : Nat) (b : Byte) : (s.setByte a b).msiRise = s.msiRise := rfl
@[simp] theorem State.setByte_ticks (a : Nat) (b : Byte) : (s.setByte a b).ticks = s.ticks := rfl
@[simp] theorem State.setByte_tickCount (a : Nat) (b : Byte) : (s.setByte a b).tickCount = s.tickCount := rfl
@[simp] theorem State.setByte_ct (a : Nat) (b : Byte) : (s.setByte a b).ct = s.ct := rfl
@[simp] theorem State.setByte_eps (a : Nat) (b : Byte) : (s.setByte a b).eps = s.eps := rfl
@[simp] theorem State.setByte_ecc (a : Nat) (b : Byte) : (s.setByte a b).ecc = s.ecc := rfl
@[simp] theorem State.setByte_cores (a : Nat) (b : Byte) : (s.setByte a b).cores = s.cores := rfl
@[simp] theorem State.setByte_tags (a : Nat) (b : Byte) : (s.setByte a b).tags = s.tags := rfl
@[simp] theorem State.setByte_guards (a : Nat) (b : Byte) : (s.setByte a b).guards = s.guards := rfl
@[simp] theorem State.setByte_hmsgs (a : Nat) (b : Byte) : (s.setByte a b).hmsgs = s.hmsgs := rfl
@[simp] theorem State.setByte_postAns (a : Nat) (b : Byte) : (s.setByte a b).postAns = s.postAns := rfl
@[simp] theorem State.setByte_comps (a : Nat) (b : Byte) : (s.setByte a b).comps = s.comps := rfl
@[simp] theorem State.setByte_resps (a : Nat) (b : Byte) : (s.setByte a b).resps = s.resps := rfl
@[simp] theorem State.setByte_resvs (a : Nat) (b : Byte) : (s.setByte a b).resvs = s.resvs := rfl
@[simp] theorem State.setByte_held (a : Nat) (b : Byte) : (s.setByte a b).held = s.held := rfl
@[simp] theorem State.setByte_down (a : Nat) (b : Byte) : (s.setByte a b).down = s.down := rfl
@[simp] theorem State.setByte_replays (a : Nat) (b : Byte) : (s.setByte a b).replays = s.replays := rfl
@[simp] theorem State.setByte_worms (a : Nat) (b : Byte) : (s.setByte a b).worms = s.worms := rfl
@[simp] theorem State.setByte_ym (a : Nat) (b : Byte) : (s.setByte a b).ym = s.ym := rfl
@[simp] theorem State.setByte_hatWin (a : Nat) (b : Byte) : (s.setByte a b).hatWin = s.hatWin := rfl
@[simp] theorem State.setByte_scrubDone (a : Nat) (b : Byte) : (s.setByte a b).scrubDone = s.scrubDone := rfl
@[simp] theorem State.setByte_chans (a : Nat) (b : Byte) : (s.setByte a b).chans = s.chans := rfl
@[simp] theorem State.setByte_brwLast (a : Nat) (b : Byte) : (s.setByte a b).brwLast = s.brwLast := rfl
@[simp] theorem State.setByte_tickWaits (a : Nat) (b : Byte) : (s.setByte a b).tickWaits = s.tickWaits := rfl
@[simp] theorem State.setByte_engines (a : Nat) (b : Byte) : (s.setByte a b).engines = s.engines := rfl
@[simp] theorem State.setByte_lbts (a : Nat) (b : Byte) : (s.setByte a b).lbts = s.lbts := rfl
@[simp] theorem State.setByte_sctx (a : Nat) (b : Byte) : (s.setByte a b).sctx = s.sctx := rfl
@[simp] theorem State.setByte_nbch (a : Nat) (b : Byte) : (s.setByte a b).nbch = s.nbch := rfl
@[simp] theorem State.setByte_pl (a : Nat) (b : Byte) : (s.setByte a b).pl = s.pl := rfl
@[simp] theorem State.setByte_macs (a : Nat) (b : Byte) : (s.setByte a b).macs = s.macs := rfl
@[simp] theorem State.setByte_hlt (a : Nat) (b : Byte) : (s.setByte a b).hlt = s.hlt := rfl
@[simp] theorem State.setByte_tack (a : Nat) (b : Byte) : (s.setByte a b).tack = s.tack := rfl
@[simp] theorem State.setByte_otp (a : Nat) (b : Byte) : (s.setByte a b).otp = s.otp := rfl
@[simp] theorem State.setByte_flash (a : Nat) (b : Byte) : (s.setByte a b).flash = s.flash := rfl
@[simp] theorem State.setByte_power (a : Nat) (b : Byte) : (s.setByte a b).power = s.power := rfl
@[simp] theorem State.setByte_gpio (a : Nat) (b : Byte) : (s.setByte a b).gpio = s.gpio := rfl
@[simp] theorem State.setByte_uartRx (a : Nat) (b : Byte) : (s.setByte a b).uartRx = s.uartRx := rfl
@[simp] theorem State.setByte_hatTmo (a : Nat) (b : Byte) : (s.setByte a b).hatTmo = s.hatTmo := rfl

@[simp] theorem State.store_pending (a : Nat) (l : List Byte) : (s.store a l).pending = s.pending := rfl
@[simp] theorem State.store_now (a : Nat) (l : List Byte) : (s.store a l).now = s.now := rfl
@[simp] theorem State.store_fresh (a : Nat) (l : List Byte) : (s.store a l).fresh = s.fresh := rfl
@[simp] theorem State.store_regs (a : Nat) (l : List Byte) : (s.store a l).regs = s.regs := rfl
@[simp] theorem State.store_caps (a : Nat) (l : List Byte) : (s.store a l).caps = s.caps := rfl
@[simp] theorem State.store_stage (a : Nat) (l : List Byte) : (s.store a l).stage = s.stage := rfl
@[simp] theorem State.store_bus (a : Nat) (l : List Byte) : (s.store a l).bus = s.bus := rfl
@[simp] theorem State.store_wire (a : Nat) (l : List Byte) : (s.store a l).wire = s.wire := rfl
@[simp] theorem State.store_msiRise (a : Nat) (l : List Byte) : (s.store a l).msiRise = s.msiRise := rfl
@[simp] theorem State.store_ticks (a : Nat) (l : List Byte) : (s.store a l).ticks = s.ticks := rfl
@[simp] theorem State.store_tickCount (a : Nat) (l : List Byte) : (s.store a l).tickCount = s.tickCount := rfl
@[simp] theorem State.store_ct (a : Nat) (l : List Byte) : (s.store a l).ct = s.ct := rfl
@[simp] theorem State.store_eps (a : Nat) (l : List Byte) : (s.store a l).eps = s.eps := rfl
@[simp] theorem State.store_ecc (a : Nat) (l : List Byte) : (s.store a l).ecc = s.ecc := rfl
@[simp] theorem State.store_cores (a : Nat) (l : List Byte) : (s.store a l).cores = s.cores := rfl
@[simp] theorem State.store_tags (a : Nat) (l : List Byte) : (s.store a l).tags = s.tags := rfl
@[simp] theorem State.store_guards (a : Nat) (l : List Byte) : (s.store a l).guards = s.guards := rfl
@[simp] theorem State.store_hmsgs (a : Nat) (l : List Byte) : (s.store a l).hmsgs = s.hmsgs := rfl
@[simp] theorem State.store_postAns (a : Nat) (l : List Byte) : (s.store a l).postAns = s.postAns := rfl
@[simp] theorem State.store_comps (a : Nat) (l : List Byte) : (s.store a l).comps = s.comps := rfl
@[simp] theorem State.store_resps (a : Nat) (l : List Byte) : (s.store a l).resps = s.resps := rfl
@[simp] theorem State.store_resvs (a : Nat) (l : List Byte) : (s.store a l).resvs = s.resvs := rfl
@[simp] theorem State.store_held (a : Nat) (l : List Byte) : (s.store a l).held = s.held := rfl
@[simp] theorem State.store_down (a : Nat) (l : List Byte) : (s.store a l).down = s.down := rfl
@[simp] theorem State.store_replays (a : Nat) (l : List Byte) : (s.store a l).replays = s.replays := rfl
@[simp] theorem State.store_worms (a : Nat) (l : List Byte) : (s.store a l).worms = s.worms := rfl
@[simp] theorem State.store_ym (a : Nat) (l : List Byte) : (s.store a l).ym = s.ym := rfl
@[simp] theorem State.store_hatWin (a : Nat) (l : List Byte) : (s.store a l).hatWin = s.hatWin := rfl
@[simp] theorem State.store_scrubDone (a : Nat) (l : List Byte) : (s.store a l).scrubDone = s.scrubDone := rfl
@[simp] theorem State.store_chans (a : Nat) (l : List Byte) : (s.store a l).chans = s.chans := rfl
@[simp] theorem State.store_brwLast (a : Nat) (l : List Byte) : (s.store a l).brwLast = s.brwLast := rfl
@[simp] theorem State.store_tickWaits (a : Nat) (l : List Byte) : (s.store a l).tickWaits = s.tickWaits := rfl
@[simp] theorem State.store_engines (a : Nat) (l : List Byte) : (s.store a l).engines = s.engines := rfl
@[simp] theorem State.store_lbts (a : Nat) (l : List Byte) : (s.store a l).lbts = s.lbts := rfl
@[simp] theorem State.store_sctx (a : Nat) (l : List Byte) : (s.store a l).sctx = s.sctx := rfl
@[simp] theorem State.store_nbch (a : Nat) (l : List Byte) : (s.store a l).nbch = s.nbch := rfl
@[simp] theorem State.store_pl (a : Nat) (l : List Byte) : (s.store a l).pl = s.pl := rfl
@[simp] theorem State.store_macs (a : Nat) (l : List Byte) : (s.store a l).macs = s.macs := rfl
@[simp] theorem State.store_hlt (a : Nat) (l : List Byte) : (s.store a l).hlt = s.hlt := rfl
@[simp] theorem State.store_tack (a : Nat) (l : List Byte) : (s.store a l).tack = s.tack := rfl
@[simp] theorem State.store_otp (a : Nat) (l : List Byte) : (s.store a l).otp = s.otp := rfl
@[simp] theorem State.store_flash (a : Nat) (l : List Byte) : (s.store a l).flash = s.flash := rfl
@[simp] theorem State.store_power (a : Nat) (l : List Byte) : (s.store a l).power = s.power := rfl
@[simp] theorem State.store_gpio (a : Nat) (l : List Byte) : (s.store a l).gpio = s.gpio := rfl
@[simp] theorem State.store_uartRx (a : Nat) (l : List Byte) : (s.store a l).uartRx = s.uartRx := rfl
@[simp] theorem State.store_hatTmo (a : Nat) (l : List Byte) : (s.store a l).hatTmo = s.hatTmo := rfl

@[simp] theorem State.st_pending (a n v : Nat) : (s.st a n v).pending = s.pending := rfl
@[simp] theorem State.st_now (a n v : Nat) : (s.st a n v).now = s.now := rfl
@[simp] theorem State.st_fresh (a n v : Nat) : (s.st a n v).fresh = s.fresh := rfl
@[simp] theorem State.st_regs (a n v : Nat) : (s.st a n v).regs = s.regs := rfl
@[simp] theorem State.st_caps (a n v : Nat) : (s.st a n v).caps = s.caps := rfl
@[simp] theorem State.st_stage (a n v : Nat) : (s.st a n v).stage = s.stage := rfl
@[simp] theorem State.st_bus (a n v : Nat) : (s.st a n v).bus = s.bus := rfl
@[simp] theorem State.st_wire (a n v : Nat) : (s.st a n v).wire = s.wire := rfl
@[simp] theorem State.st_msiRise (a n v : Nat) : (s.st a n v).msiRise = s.msiRise := rfl
@[simp] theorem State.st_ticks (a n v : Nat) : (s.st a n v).ticks = s.ticks := rfl
@[simp] theorem State.st_tickCount (a n v : Nat) : (s.st a n v).tickCount = s.tickCount := rfl
@[simp] theorem State.st_ct (a n v : Nat) : (s.st a n v).ct = s.ct := rfl
@[simp] theorem State.st_eps (a n v : Nat) : (s.st a n v).eps = s.eps := rfl
@[simp] theorem State.st_ecc (a n v : Nat) : (s.st a n v).ecc = s.ecc := rfl
@[simp] theorem State.st_cores (a n v : Nat) : (s.st a n v).cores = s.cores := rfl
@[simp] theorem State.st_tags (a n v : Nat) : (s.st a n v).tags = s.tags := rfl
@[simp] theorem State.st_guards (a n v : Nat) : (s.st a n v).guards = s.guards := rfl
@[simp] theorem State.st_hmsgs (a n v : Nat) : (s.st a n v).hmsgs = s.hmsgs := rfl
@[simp] theorem State.st_postAns (a n v : Nat) : (s.st a n v).postAns = s.postAns := rfl
@[simp] theorem State.st_comps (a n v : Nat) : (s.st a n v).comps = s.comps := rfl
@[simp] theorem State.st_resps (a n v : Nat) : (s.st a n v).resps = s.resps := rfl
@[simp] theorem State.st_resvs (a n v : Nat) : (s.st a n v).resvs = s.resvs := rfl
@[simp] theorem State.st_held (a n v : Nat) : (s.st a n v).held = s.held := rfl
@[simp] theorem State.st_down (a n v : Nat) : (s.st a n v).down = s.down := rfl
@[simp] theorem State.st_replays (a n v : Nat) : (s.st a n v).replays = s.replays := rfl
@[simp] theorem State.st_worms (a n v : Nat) : (s.st a n v).worms = s.worms := rfl
@[simp] theorem State.st_ym (a n v : Nat) : (s.st a n v).ym = s.ym := rfl
@[simp] theorem State.st_hatWin (a n v : Nat) : (s.st a n v).hatWin = s.hatWin := rfl
@[simp] theorem State.st_scrubDone (a n v : Nat) : (s.st a n v).scrubDone = s.scrubDone := rfl
@[simp] theorem State.st_chans (a n v : Nat) : (s.st a n v).chans = s.chans := rfl
@[simp] theorem State.st_brwLast (a n v : Nat) : (s.st a n v).brwLast = s.brwLast := rfl
@[simp] theorem State.st_tickWaits (a n v : Nat) : (s.st a n v).tickWaits = s.tickWaits := rfl
@[simp] theorem State.st_engines (a n v : Nat) : (s.st a n v).engines = s.engines := rfl
@[simp] theorem State.st_lbts (a n v : Nat) : (s.st a n v).lbts = s.lbts := rfl
@[simp] theorem State.st_sctx (a n v : Nat) : (s.st a n v).sctx = s.sctx := rfl
@[simp] theorem State.st_nbch (a n v : Nat) : (s.st a n v).nbch = s.nbch := rfl
@[simp] theorem State.st_pl (a n v : Nat) : (s.st a n v).pl = s.pl := rfl
@[simp] theorem State.st_macs (a n v : Nat) : (s.st a n v).macs = s.macs := rfl
@[simp] theorem State.st_hlt (a n v : Nat) : (s.st a n v).hlt = s.hlt := rfl
@[simp] theorem State.st_tack (a n v : Nat) : (s.st a n v).tack = s.tack := rfl
@[simp] theorem State.st_otp (a n v : Nat) : (s.st a n v).otp = s.otp := rfl
@[simp] theorem State.st_flash (a n v : Nat) : (s.st a n v).flash = s.flash := rfl
@[simp] theorem State.st_power (a n v : Nat) : (s.st a n v).power = s.power := rfl
@[simp] theorem State.st_gpio (a n v : Nat) : (s.st a n v).gpio = s.gpio := rfl
@[simp] theorem State.st_uartRx (a n v : Nat) : (s.st a n v).uartRx = s.uartRx := rfl
@[simp] theorem State.st_hatTmo (a n v : Nat) : (s.st a n v).hatTmo = s.hatTmo := rfl

@[simp] theorem State.zero_pending (a n : Nat) : (s.zero a n).pending = s.pending := rfl
@[simp] theorem State.zero_now (a n : Nat) : (s.zero a n).now = s.now := rfl
@[simp] theorem State.zero_fresh (a n : Nat) : (s.zero a n).fresh = s.fresh := rfl
@[simp] theorem State.zero_regs (a n : Nat) : (s.zero a n).regs = s.regs := rfl
@[simp] theorem State.zero_caps (a n : Nat) : (s.zero a n).caps = s.caps := rfl
@[simp] theorem State.zero_stage (a n : Nat) : (s.zero a n).stage = s.stage := rfl
@[simp] theorem State.zero_bus (a n : Nat) : (s.zero a n).bus = s.bus := rfl
@[simp] theorem State.zero_wire (a n : Nat) : (s.zero a n).wire = s.wire := rfl
@[simp] theorem State.zero_msiRise (a n : Nat) : (s.zero a n).msiRise = s.msiRise := rfl
@[simp] theorem State.zero_ticks (a n : Nat) : (s.zero a n).ticks = s.ticks := rfl
@[simp] theorem State.zero_tickCount (a n : Nat) : (s.zero a n).tickCount = s.tickCount := rfl
@[simp] theorem State.zero_ct (a n : Nat) : (s.zero a n).ct = s.ct := rfl
@[simp] theorem State.zero_eps (a n : Nat) : (s.zero a n).eps = s.eps := rfl
@[simp] theorem State.zero_ecc (a n : Nat) : (s.zero a n).ecc = s.ecc := rfl
@[simp] theorem State.zero_cores (a n : Nat) : (s.zero a n).cores = s.cores := rfl
@[simp] theorem State.zero_tags (a n : Nat) : (s.zero a n).tags = s.tags := rfl
@[simp] theorem State.zero_guards (a n : Nat) : (s.zero a n).guards = s.guards := rfl
@[simp] theorem State.zero_hmsgs (a n : Nat) : (s.zero a n).hmsgs = s.hmsgs := rfl
@[simp] theorem State.zero_postAns (a n : Nat) : (s.zero a n).postAns = s.postAns := rfl
@[simp] theorem State.zero_comps (a n : Nat) : (s.zero a n).comps = s.comps := rfl
@[simp] theorem State.zero_resps (a n : Nat) : (s.zero a n).resps = s.resps := rfl
@[simp] theorem State.zero_resvs (a n : Nat) : (s.zero a n).resvs = s.resvs := rfl
@[simp] theorem State.zero_held (a n : Nat) : (s.zero a n).held = s.held := rfl
@[simp] theorem State.zero_down (a n : Nat) : (s.zero a n).down = s.down := rfl
@[simp] theorem State.zero_replays (a n : Nat) : (s.zero a n).replays = s.replays := rfl
@[simp] theorem State.zero_worms (a n : Nat) : (s.zero a n).worms = s.worms := rfl
@[simp] theorem State.zero_ym (a n : Nat) : (s.zero a n).ym = s.ym := rfl
@[simp] theorem State.zero_hatWin (a n : Nat) : (s.zero a n).hatWin = s.hatWin := rfl
@[simp] theorem State.zero_scrubDone (a n : Nat) : (s.zero a n).scrubDone = s.scrubDone := rfl
@[simp] theorem State.zero_chans (a n : Nat) : (s.zero a n).chans = s.chans := rfl
@[simp] theorem State.zero_brwLast (a n : Nat) : (s.zero a n).brwLast = s.brwLast := rfl
@[simp] theorem State.zero_tickWaits (a n : Nat) : (s.zero a n).tickWaits = s.tickWaits := rfl
@[simp] theorem State.zero_engines (a n : Nat) : (s.zero a n).engines = s.engines := rfl
@[simp] theorem State.zero_lbts (a n : Nat) : (s.zero a n).lbts = s.lbts := rfl
@[simp] theorem State.zero_sctx (a n : Nat) : (s.zero a n).sctx = s.sctx := rfl
@[simp] theorem State.zero_nbch (a n : Nat) : (s.zero a n).nbch = s.nbch := rfl
@[simp] theorem State.zero_pl (a n : Nat) : (s.zero a n).pl = s.pl := rfl
@[simp] theorem State.zero_macs (a n : Nat) : (s.zero a n).macs = s.macs := rfl
@[simp] theorem State.zero_hlt (a n : Nat) : (s.zero a n).hlt = s.hlt := rfl
@[simp] theorem State.zero_tack (a n : Nat) : (s.zero a n).tack = s.tack := rfl
@[simp] theorem State.zero_otp (a n : Nat) : (s.zero a n).otp = s.otp := rfl
@[simp] theorem State.zero_flash (a n : Nat) : (s.zero a n).flash = s.flash := rfl
@[simp] theorem State.zero_power (a n : Nat) : (s.zero a n).power = s.power := rfl
@[simp] theorem State.zero_gpio (a n : Nat) : (s.zero a n).gpio = s.gpio := rfl
@[simp] theorem State.zero_uartRx (a n : Nat) : (s.zero a n).uartRx = s.uartRx := rfl
@[simp] theorem State.zero_hatTmo (a n : Nat) : (s.zero a n).hatTmo = s.hatTmo := rfl

@[simp] theorem State.emit_pending (e : WireEv) : (s.emit e).pending = s.pending := rfl
@[simp] theorem State.emit_now (e : WireEv) : (s.emit e).now = s.now := rfl
@[simp] theorem State.emit_fresh (e : WireEv) : (s.emit e).fresh = s.fresh := rfl
@[simp] theorem State.emit_mem (e : WireEv) : (s.emit e).mem = s.mem := rfl
@[simp] theorem State.emit_regs (e : WireEv) : (s.emit e).regs = s.regs := rfl
@[simp] theorem State.emit_caps (e : WireEv) : (s.emit e).caps = s.caps := rfl
@[simp] theorem State.emit_stage (e : WireEv) : (s.emit e).stage = s.stage := rfl
@[simp] theorem State.emit_bus (e : WireEv) : (s.emit e).bus = s.bus := rfl
@[simp] theorem State.emit_msiRise (e : WireEv) : (s.emit e).msiRise = s.msiRise := rfl
@[simp] theorem State.emit_ticks (e : WireEv) : (s.emit e).ticks = s.ticks := rfl
@[simp] theorem State.emit_tickCount (e : WireEv) : (s.emit e).tickCount = s.tickCount := rfl
@[simp] theorem State.emit_ct (e : WireEv) : (s.emit e).ct = s.ct := rfl
@[simp] theorem State.emit_eps (e : WireEv) : (s.emit e).eps = s.eps := rfl
@[simp] theorem State.emit_ecc (e : WireEv) : (s.emit e).ecc = s.ecc := rfl
@[simp] theorem State.emit_cores (e : WireEv) : (s.emit e).cores = s.cores := rfl
@[simp] theorem State.emit_tags (e : WireEv) : (s.emit e).tags = s.tags := rfl
@[simp] theorem State.emit_guards (e : WireEv) : (s.emit e).guards = s.guards := rfl
@[simp] theorem State.emit_hmsgs (e : WireEv) : (s.emit e).hmsgs = s.hmsgs := rfl
@[simp] theorem State.emit_postAns (e : WireEv) : (s.emit e).postAns = s.postAns := rfl
@[simp] theorem State.emit_comps (e : WireEv) : (s.emit e).comps = s.comps := rfl
@[simp] theorem State.emit_resps (e : WireEv) : (s.emit e).resps = s.resps := rfl
@[simp] theorem State.emit_resvs (e : WireEv) : (s.emit e).resvs = s.resvs := rfl
@[simp] theorem State.emit_held (e : WireEv) : (s.emit e).held = s.held := rfl
@[simp] theorem State.emit_down (e : WireEv) : (s.emit e).down = s.down := rfl
@[simp] theorem State.emit_replays (e : WireEv) : (s.emit e).replays = s.replays := rfl
@[simp] theorem State.emit_worms (e : WireEv) : (s.emit e).worms = s.worms := rfl
@[simp] theorem State.emit_ym (e : WireEv) : (s.emit e).ym = s.ym := rfl
@[simp] theorem State.emit_hatWin (e : WireEv) : (s.emit e).hatWin = s.hatWin := rfl
@[simp] theorem State.emit_scrubDone (e : WireEv) : (s.emit e).scrubDone = s.scrubDone := rfl
@[simp] theorem State.emit_chans (e : WireEv) : (s.emit e).chans = s.chans := rfl
@[simp] theorem State.emit_brwLast (e : WireEv) : (s.emit e).brwLast = s.brwLast := rfl
@[simp] theorem State.emit_tickWaits (e : WireEv) : (s.emit e).tickWaits = s.tickWaits := rfl
@[simp] theorem State.emit_engines (e : WireEv) : (s.emit e).engines = s.engines := rfl
@[simp] theorem State.emit_lbts (e : WireEv) : (s.emit e).lbts = s.lbts := rfl
@[simp] theorem State.emit_sctx (e : WireEv) : (s.emit e).sctx = s.sctx := rfl
@[simp] theorem State.emit_nbch (e : WireEv) : (s.emit e).nbch = s.nbch := rfl
@[simp] theorem State.emit_pl (e : WireEv) : (s.emit e).pl = s.pl := rfl
@[simp] theorem State.emit_macs (e : WireEv) : (s.emit e).macs = s.macs := rfl
@[simp] theorem State.emit_hlt (e : WireEv) : (s.emit e).hlt = s.hlt := rfl
@[simp] theorem State.emit_tack (e : WireEv) : (s.emit e).tack = s.tack := rfl
@[simp] theorem State.emit_otp (e : WireEv) : (s.emit e).otp = s.otp := rfl
@[simp] theorem State.emit_flash (e : WireEv) : (s.emit e).flash = s.flash := rfl
@[simp] theorem State.emit_power (e : WireEv) : (s.emit e).power = s.power := rfl
@[simp] theorem State.emit_gpio (e : WireEv) : (s.emit e).gpio = s.gpio := rfl
@[simp] theorem State.emit_uartRx (e : WireEv) : (s.emit e).uartRx = s.uartRx := rfl
@[simp] theorem State.emit_hatTmo (e : WireEv) : (s.emit e).hatTmo = s.hatTmo := rfl

@[simp] theorem State.until_pending (t : Nat) : (s.until t).pending = s.pending := rfl
@[simp] theorem State.until_fresh (t : Nat) : (s.until t).fresh = s.fresh := rfl
@[simp] theorem State.until_mem (t : Nat) : (s.until t).mem = s.mem := rfl
@[simp] theorem State.until_regs (t : Nat) : (s.until t).regs = s.regs := rfl
@[simp] theorem State.until_caps (t : Nat) : (s.until t).caps = s.caps := rfl
@[simp] theorem State.until_stage (t : Nat) : (s.until t).stage = s.stage := rfl
@[simp] theorem State.until_bus (t : Nat) : (s.until t).bus = s.bus := rfl
@[simp] theorem State.until_wire (t : Nat) : (s.until t).wire = s.wire := rfl
@[simp] theorem State.until_msiRise (t : Nat) : (s.until t).msiRise = s.msiRise := rfl
@[simp] theorem State.until_ticks (t : Nat) : (s.until t).ticks = s.ticks := rfl
@[simp] theorem State.until_tickCount (t : Nat) : (s.until t).tickCount = s.tickCount := rfl
@[simp] theorem State.until_ct (t : Nat) : (s.until t).ct = s.ct := rfl
@[simp] theorem State.until_eps (t : Nat) : (s.until t).eps = s.eps := rfl
@[simp] theorem State.until_ecc (t : Nat) : (s.until t).ecc = s.ecc := rfl
@[simp] theorem State.until_cores (t : Nat) : (s.until t).cores = s.cores := rfl
@[simp] theorem State.until_tags (t : Nat) : (s.until t).tags = s.tags := rfl
@[simp] theorem State.until_guards (t : Nat) : (s.until t).guards = s.guards := rfl
@[simp] theorem State.until_hmsgs (t : Nat) : (s.until t).hmsgs = s.hmsgs := rfl
@[simp] theorem State.until_postAns (t : Nat) : (s.until t).postAns = s.postAns := rfl
@[simp] theorem State.until_comps (t : Nat) : (s.until t).comps = s.comps := rfl
@[simp] theorem State.until_resps (t : Nat) : (s.until t).resps = s.resps := rfl
@[simp] theorem State.until_resvs (t : Nat) : (s.until t).resvs = s.resvs := rfl
@[simp] theorem State.until_held (t : Nat) : (s.until t).held = s.held := rfl
@[simp] theorem State.until_down (t : Nat) : (s.until t).down = s.down := rfl
@[simp] theorem State.until_replays (t : Nat) : (s.until t).replays = s.replays := rfl
@[simp] theorem State.until_worms (t : Nat) : (s.until t).worms = s.worms := rfl
@[simp] theorem State.until_ym (t : Nat) : (s.until t).ym = s.ym := rfl
@[simp] theorem State.until_hatWin (t : Nat) : (s.until t).hatWin = s.hatWin := rfl
@[simp] theorem State.until_scrubDone (t : Nat) : (s.until t).scrubDone = s.scrubDone := rfl
@[simp] theorem State.until_chans (t : Nat) : (s.until t).chans = s.chans := rfl
@[simp] theorem State.until_brwLast (t : Nat) : (s.until t).brwLast = s.brwLast := rfl
@[simp] theorem State.until_tickWaits (t : Nat) : (s.until t).tickWaits = s.tickWaits := rfl
@[simp] theorem State.until_engines (t : Nat) : (s.until t).engines = s.engines := rfl
@[simp] theorem State.until_lbts (t : Nat) : (s.until t).lbts = s.lbts := rfl
@[simp] theorem State.until_sctx (t : Nat) : (s.until t).sctx = s.sctx := rfl
@[simp] theorem State.until_nbch (t : Nat) : (s.until t).nbch = s.nbch := rfl
@[simp] theorem State.until_pl (t : Nat) : (s.until t).pl = s.pl := rfl
@[simp] theorem State.until_macs (t : Nat) : (s.until t).macs = s.macs := rfl
@[simp] theorem State.until_hlt (t : Nat) : (s.until t).hlt = s.hlt := rfl
@[simp] theorem State.until_tack (t : Nat) : (s.until t).tack = s.tack := rfl
@[simp] theorem State.until_otp (t : Nat) : (s.until t).otp = s.otp := rfl
@[simp] theorem State.until_flash (t : Nat) : (s.until t).flash = s.flash := rfl
@[simp] theorem State.until_power (t : Nat) : (s.until t).power = s.power := rfl
@[simp] theorem State.until_gpio (t : Nat) : (s.until t).gpio = s.gpio := rfl
@[simp] theorem State.until_uartRx (t : Nat) : (s.until t).uartRx = s.uartRx := rfl
@[simp] theorem State.until_hatTmo (t : Nat) : (s.until t).hatTmo = s.hatTmo := rfl

@[simp] theorem State.answer_pending (c v : Nat) : (s.answer c v).pending = s.pending := rfl
@[simp] theorem State.answer_now (c v : Nat) : (s.answer c v).now = s.now := rfl
@[simp] theorem State.answer_fresh (c v : Nat) : (s.answer c v).fresh = s.fresh := rfl
@[simp] theorem State.answer_mem (c v : Nat) : (s.answer c v).mem = s.mem := rfl
@[simp] theorem State.answer_regs (c v : Nat) : (s.answer c v).regs = s.regs := rfl
@[simp] theorem State.answer_caps (c v : Nat) : (s.answer c v).caps = s.caps := rfl
@[simp] theorem State.answer_stage (c v : Nat) : (s.answer c v).stage = s.stage := rfl
@[simp] theorem State.answer_wire (c v : Nat) : (s.answer c v).wire = s.wire := rfl
@[simp] theorem State.answer_msiRise (c v : Nat) : (s.answer c v).msiRise = s.msiRise := rfl
@[simp] theorem State.answer_ticks (c v : Nat) : (s.answer c v).ticks = s.ticks := rfl
@[simp] theorem State.answer_tickCount (c v : Nat) : (s.answer c v).tickCount = s.tickCount := rfl
@[simp] theorem State.answer_ct (c v : Nat) : (s.answer c v).ct = s.ct := rfl
@[simp] theorem State.answer_eps (c v : Nat) : (s.answer c v).eps = s.eps := rfl
@[simp] theorem State.answer_ecc (c v : Nat) : (s.answer c v).ecc = s.ecc := rfl
@[simp] theorem State.answer_cores (c v : Nat) : (s.answer c v).cores = s.cores := rfl
@[simp] theorem State.answer_tags (c v : Nat) : (s.answer c v).tags = s.tags := rfl
@[simp] theorem State.answer_guards (c v : Nat) : (s.answer c v).guards = s.guards := rfl
@[simp] theorem State.answer_hmsgs (c v : Nat) : (s.answer c v).hmsgs = s.hmsgs := rfl
@[simp] theorem State.answer_postAns (c v : Nat) : (s.answer c v).postAns = s.postAns := rfl
@[simp] theorem State.answer_comps (c v : Nat) : (s.answer c v).comps = s.comps := rfl
@[simp] theorem State.answer_resps (c v : Nat) : (s.answer c v).resps = s.resps := rfl
@[simp] theorem State.answer_resvs (c v : Nat) : (s.answer c v).resvs = s.resvs := rfl
@[simp] theorem State.answer_held (c v : Nat) : (s.answer c v).held = s.held := rfl
@[simp] theorem State.answer_down (c v : Nat) : (s.answer c v).down = s.down := rfl
@[simp] theorem State.answer_replays (c v : Nat) : (s.answer c v).replays = s.replays := rfl
@[simp] theorem State.answer_worms (c v : Nat) : (s.answer c v).worms = s.worms := rfl
@[simp] theorem State.answer_ym (c v : Nat) : (s.answer c v).ym = s.ym := rfl
@[simp] theorem State.answer_hatWin (c v : Nat) : (s.answer c v).hatWin = s.hatWin := rfl
@[simp] theorem State.answer_scrubDone (c v : Nat) : (s.answer c v).scrubDone = s.scrubDone := rfl
@[simp] theorem State.answer_chans (c v : Nat) : (s.answer c v).chans = s.chans := rfl
@[simp] theorem State.answer_brwLast (c v : Nat) : (s.answer c v).brwLast = s.brwLast := rfl
@[simp] theorem State.answer_tickWaits (c v : Nat) : (s.answer c v).tickWaits = s.tickWaits := rfl
@[simp] theorem State.answer_engines (c v : Nat) : (s.answer c v).engines = s.engines := rfl
@[simp] theorem State.answer_lbts (c v : Nat) : (s.answer c v).lbts = s.lbts := rfl
@[simp] theorem State.answer_sctx (c v : Nat) : (s.answer c v).sctx = s.sctx := rfl
@[simp] theorem State.answer_nbch (c v : Nat) : (s.answer c v).nbch = s.nbch := rfl
@[simp] theorem State.answer_pl (c v : Nat) : (s.answer c v).pl = s.pl := rfl
@[simp] theorem State.answer_macs (c v : Nat) : (s.answer c v).macs = s.macs := rfl
@[simp] theorem State.answer_hlt (c v : Nat) : (s.answer c v).hlt = s.hlt := rfl
@[simp] theorem State.answer_tack (c v : Nat) : (s.answer c v).tack = s.tack := rfl
@[simp] theorem State.answer_otp (c v : Nat) : (s.answer c v).otp = s.otp := rfl
@[simp] theorem State.answer_flash (c v : Nat) : (s.answer c v).flash = s.flash := rfl
@[simp] theorem State.answer_power (c v : Nat) : (s.answer c v).power = s.power := rfl
@[simp] theorem State.answer_gpio (c v : Nat) : (s.answer c v).gpio = s.gpio := rfl
@[simp] theorem State.answer_uartRx (c v : Nat) : (s.answer c v).uartRx = s.uartRx := rfl
@[simp] theorem State.answer_hatTmo (c v : Nat) : (s.answer c v).hatTmo = s.hatTmo := rfl

@[simp] theorem State.capture_pending (l : List Nat) : (s.capture l).pending = s.pending := rfl
@[simp] theorem State.capture_now (l : List Nat) : (s.capture l).now = s.now := rfl
@[simp] theorem State.capture_fresh (l : List Nat) : (s.capture l).fresh = s.fresh := rfl
@[simp] theorem State.capture_mem (l : List Nat) : (s.capture l).mem = s.mem := rfl
@[simp] theorem State.capture_regs (l : List Nat) : (s.capture l).regs = s.regs := rfl
@[simp] theorem State.capture_stage (l : List Nat) : (s.capture l).stage = s.stage := rfl
@[simp] theorem State.capture_bus (l : List Nat) : (s.capture l).bus = s.bus := rfl
@[simp] theorem State.capture_wire (l : List Nat) : (s.capture l).wire = s.wire := rfl
@[simp] theorem State.capture_msiRise (l : List Nat) : (s.capture l).msiRise = s.msiRise := rfl
@[simp] theorem State.capture_ticks (l : List Nat) : (s.capture l).ticks = s.ticks := rfl
@[simp] theorem State.capture_tickCount (l : List Nat) : (s.capture l).tickCount = s.tickCount := rfl
@[simp] theorem State.capture_ct (l : List Nat) : (s.capture l).ct = s.ct := rfl
@[simp] theorem State.capture_eps (l : List Nat) : (s.capture l).eps = s.eps := rfl
@[simp] theorem State.capture_ecc (l : List Nat) : (s.capture l).ecc = s.ecc := rfl
@[simp] theorem State.capture_cores (l : List Nat) : (s.capture l).cores = s.cores := rfl
@[simp] theorem State.capture_tags (l : List Nat) : (s.capture l).tags = s.tags := rfl
@[simp] theorem State.capture_guards (l : List Nat) : (s.capture l).guards = s.guards := rfl
@[simp] theorem State.capture_hmsgs (l : List Nat) : (s.capture l).hmsgs = s.hmsgs := rfl
@[simp] theorem State.capture_postAns (l : List Nat) : (s.capture l).postAns = s.postAns := rfl
@[simp] theorem State.capture_comps (l : List Nat) : (s.capture l).comps = s.comps := rfl
@[simp] theorem State.capture_resps (l : List Nat) : (s.capture l).resps = s.resps := rfl
@[simp] theorem State.capture_resvs (l : List Nat) : (s.capture l).resvs = s.resvs := rfl
@[simp] theorem State.capture_held (l : List Nat) : (s.capture l).held = s.held := rfl
@[simp] theorem State.capture_down (l : List Nat) : (s.capture l).down = s.down := rfl
@[simp] theorem State.capture_replays (l : List Nat) : (s.capture l).replays = s.replays := rfl
@[simp] theorem State.capture_worms (l : List Nat) : (s.capture l).worms = s.worms := rfl
@[simp] theorem State.capture_ym (l : List Nat) : (s.capture l).ym = s.ym := rfl
@[simp] theorem State.capture_hatWin (l : List Nat) : (s.capture l).hatWin = s.hatWin := rfl
@[simp] theorem State.capture_scrubDone (l : List Nat) : (s.capture l).scrubDone = s.scrubDone := rfl
@[simp] theorem State.capture_chans (l : List Nat) : (s.capture l).chans = s.chans := rfl
@[simp] theorem State.capture_brwLast (l : List Nat) : (s.capture l).brwLast = s.brwLast := rfl
@[simp] theorem State.capture_tickWaits (l : List Nat) : (s.capture l).tickWaits = s.tickWaits := rfl
@[simp] theorem State.capture_engines (l : List Nat) : (s.capture l).engines = s.engines := rfl
@[simp] theorem State.capture_lbts (l : List Nat) : (s.capture l).lbts = s.lbts := rfl
@[simp] theorem State.capture_sctx (l : List Nat) : (s.capture l).sctx = s.sctx := rfl
@[simp] theorem State.capture_nbch (l : List Nat) : (s.capture l).nbch = s.nbch := rfl
@[simp] theorem State.capture_pl (l : List Nat) : (s.capture l).pl = s.pl := rfl
@[simp] theorem State.capture_macs (l : List Nat) : (s.capture l).macs = s.macs := rfl
@[simp] theorem State.capture_hlt (l : List Nat) : (s.capture l).hlt = s.hlt := rfl
@[simp] theorem State.capture_tack (l : List Nat) : (s.capture l).tack = s.tack := rfl
@[simp] theorem State.capture_otp (l : List Nat) : (s.capture l).otp = s.otp := rfl
@[simp] theorem State.capture_flash (l : List Nat) : (s.capture l).flash = s.flash := rfl
@[simp] theorem State.capture_power (l : List Nat) : (s.capture l).power = s.power := rfl
@[simp] theorem State.capture_gpio (l : List Nat) : (s.capture l).gpio = s.gpio := rfl
@[simp] theorem State.capture_uartRx (l : List Nat) : (s.capture l).uartRx = s.uartRx := rfl
@[simp] theorem State.capture_hatTmo (l : List Nat) : (s.capture l).hatTmo = s.hatTmo := rfl

@[simp] theorem State.setDom_pending (d : Nat) (x : Domain) : (s.setDom d x).pending = s.pending := rfl
@[simp] theorem State.setDom_now (d : Nat) (x : Domain) : (s.setDom d x).now = s.now := rfl
@[simp] theorem State.setDom_fresh (d : Nat) (x : Domain) : (s.setDom d x).fresh = s.fresh := rfl
@[simp] theorem State.setDom_mem (d : Nat) (x : Domain) : (s.setDom d x).mem = s.mem := rfl
@[simp] theorem State.setDom_regs (d : Nat) (x : Domain) : (s.setDom d x).regs = s.regs := rfl
@[simp] theorem State.setDom_caps (d : Nat) (x : Domain) : (s.setDom d x).caps = s.caps := rfl
@[simp] theorem State.setDom_stage (d : Nat) (x : Domain) : (s.setDom d x).stage = s.stage := rfl
@[simp] theorem State.setDom_bus (d : Nat) (x : Domain) : (s.setDom d x).bus = s.bus := rfl
@[simp] theorem State.setDom_wire (d : Nat) (x : Domain) : (s.setDom d x).wire = s.wire := rfl
@[simp] theorem State.setDom_msiRise (d : Nat) (x : Domain) : (s.setDom d x).msiRise = s.msiRise := rfl
@[simp] theorem State.setDom_ticks (d : Nat) (x : Domain) : (s.setDom d x).ticks = s.ticks := rfl
@[simp] theorem State.setDom_tickCount (d : Nat) (x : Domain) : (s.setDom d x).tickCount = s.tickCount := rfl
@[simp] theorem State.setDom_eps (d : Nat) (x : Domain) : (s.setDom d x).eps = s.eps := rfl
@[simp] theorem State.setDom_ecc (d : Nat) (x : Domain) : (s.setDom d x).ecc = s.ecc := rfl
@[simp] theorem State.setDom_cores (d : Nat) (x : Domain) : (s.setDom d x).cores = s.cores := rfl
@[simp] theorem State.setDom_tags (d : Nat) (x : Domain) : (s.setDom d x).tags = s.tags := rfl
@[simp] theorem State.setDom_guards (d : Nat) (x : Domain) : (s.setDom d x).guards = s.guards := rfl
@[simp] theorem State.setDom_hmsgs (d : Nat) (x : Domain) : (s.setDom d x).hmsgs = s.hmsgs := rfl
@[simp] theorem State.setDom_postAns (d : Nat) (x : Domain) : (s.setDom d x).postAns = s.postAns := rfl
@[simp] theorem State.setDom_comps (d : Nat) (x : Domain) : (s.setDom d x).comps = s.comps := rfl
@[simp] theorem State.setDom_resps (d : Nat) (x : Domain) : (s.setDom d x).resps = s.resps := rfl
@[simp] theorem State.setDom_resvs (d : Nat) (x : Domain) : (s.setDom d x).resvs = s.resvs := rfl
@[simp] theorem State.setDom_held (d : Nat) (x : Domain) : (s.setDom d x).held = s.held := rfl
@[simp] theorem State.setDom_down (d : Nat) (x : Domain) : (s.setDom d x).down = s.down := rfl
@[simp] theorem State.setDom_replays (d : Nat) (x : Domain) : (s.setDom d x).replays = s.replays := rfl
@[simp] theorem State.setDom_worms (d : Nat) (x : Domain) : (s.setDom d x).worms = s.worms := rfl
@[simp] theorem State.setDom_ym (d : Nat) (x : Domain) : (s.setDom d x).ym = s.ym := rfl
@[simp] theorem State.setDom_hatWin (d : Nat) (x : Domain) : (s.setDom d x).hatWin = s.hatWin := rfl
@[simp] theorem State.setDom_scrubDone (d : Nat) (x : Domain) : (s.setDom d x).scrubDone = s.scrubDone := rfl
@[simp] theorem State.setDom_chans (d : Nat) (x : Domain) : (s.setDom d x).chans = s.chans := rfl
@[simp] theorem State.setDom_brwLast (d : Nat) (x : Domain) : (s.setDom d x).brwLast = s.brwLast := rfl
@[simp] theorem State.setDom_tickWaits (d : Nat) (x : Domain) : (s.setDom d x).tickWaits = s.tickWaits := rfl
@[simp] theorem State.setDom_engines (d : Nat) (x : Domain) : (s.setDom d x).engines = s.engines := rfl
@[simp] theorem State.setDom_lbts (d : Nat) (x : Domain) : (s.setDom d x).lbts = s.lbts := rfl
@[simp] theorem State.setDom_sctx (d : Nat) (x : Domain) : (s.setDom d x).sctx = s.sctx := rfl
@[simp] theorem State.setDom_nbch (d : Nat) (x : Domain) : (s.setDom d x).nbch = s.nbch := rfl
@[simp] theorem State.setDom_pl (d : Nat) (x : Domain) : (s.setDom d x).pl = s.pl := rfl
@[simp] theorem State.setDom_macs (d : Nat) (x : Domain) : (s.setDom d x).macs = s.macs := rfl
@[simp] theorem State.setDom_hlt (d : Nat) (x : Domain) : (s.setDom d x).hlt = s.hlt := rfl
@[simp] theorem State.setDom_tack (d : Nat) (x : Domain) : (s.setDom d x).tack = s.tack := rfl
@[simp] theorem State.setDom_otp (d : Nat) (x : Domain) : (s.setDom d x).otp = s.otp := rfl
@[simp] theorem State.setDom_flash (d : Nat) (x : Domain) : (s.setDom d x).flash = s.flash := rfl
@[simp] theorem State.setDom_power (d : Nat) (x : Domain) : (s.setDom d x).power = s.power := rfl
@[simp] theorem State.setDom_gpio (d : Nat) (x : Domain) : (s.setDom d x).gpio = s.gpio := rfl
@[simp] theorem State.setDom_uartRx (d : Nat) (x : Domain) : (s.setDom d x).uartRx = s.uartRx := rfl
@[simp] theorem State.setDom_hatTmo (d : Nat) (x : Domain) : (s.setDom d x).hatTmo = s.hatTmo := rfl

@[simp] theorem State.setTrain_pending (k : Nat) (x : Train) : (s.setTrain k x).pending = s.pending := rfl
@[simp] theorem State.setTrain_now (k : Nat) (x : Train) : (s.setTrain k x).now = s.now := rfl
@[simp] theorem State.setTrain_fresh (k : Nat) (x : Train) : (s.setTrain k x).fresh = s.fresh := rfl
@[simp] theorem State.setTrain_mem (k : Nat) (x : Train) : (s.setTrain k x).mem = s.mem := rfl
@[simp] theorem State.setTrain_regs (k : Nat) (x : Train) : (s.setTrain k x).regs = s.regs := rfl
@[simp] theorem State.setTrain_caps (k : Nat) (x : Train) : (s.setTrain k x).caps = s.caps := rfl
@[simp] theorem State.setTrain_stage (k : Nat) (x : Train) : (s.setTrain k x).stage = s.stage := rfl
@[simp] theorem State.setTrain_bus (k : Nat) (x : Train) : (s.setTrain k x).bus = s.bus := rfl
@[simp] theorem State.setTrain_wire (k : Nat) (x : Train) : (s.setTrain k x).wire = s.wire := rfl
@[simp] theorem State.setTrain_msiRise (k : Nat) (x : Train) : (s.setTrain k x).msiRise = s.msiRise := rfl
@[simp] theorem State.setTrain_ticks (k : Nat) (x : Train) : (s.setTrain k x).ticks = s.ticks := rfl
@[simp] theorem State.setTrain_tickCount (k : Nat) (x : Train) : (s.setTrain k x).tickCount = s.tickCount := rfl
@[simp] theorem State.setTrain_eps (k : Nat) (x : Train) : (s.setTrain k x).eps = s.eps := rfl
@[simp] theorem State.setTrain_ecc (k : Nat) (x : Train) : (s.setTrain k x).ecc = s.ecc := rfl
@[simp] theorem State.setTrain_cores (k : Nat) (x : Train) : (s.setTrain k x).cores = s.cores := rfl
@[simp] theorem State.setTrain_tags (k : Nat) (x : Train) : (s.setTrain k x).tags = s.tags := rfl
@[simp] theorem State.setTrain_guards (k : Nat) (x : Train) : (s.setTrain k x).guards = s.guards := rfl
@[simp] theorem State.setTrain_hmsgs (k : Nat) (x : Train) : (s.setTrain k x).hmsgs = s.hmsgs := rfl
@[simp] theorem State.setTrain_postAns (k : Nat) (x : Train) : (s.setTrain k x).postAns = s.postAns := rfl
@[simp] theorem State.setTrain_comps (k : Nat) (x : Train) : (s.setTrain k x).comps = s.comps := rfl
@[simp] theorem State.setTrain_resps (k : Nat) (x : Train) : (s.setTrain k x).resps = s.resps := rfl
@[simp] theorem State.setTrain_resvs (k : Nat) (x : Train) : (s.setTrain k x).resvs = s.resvs := rfl
@[simp] theorem State.setTrain_held (k : Nat) (x : Train) : (s.setTrain k x).held = s.held := rfl
@[simp] theorem State.setTrain_down (k : Nat) (x : Train) : (s.setTrain k x).down = s.down := rfl
@[simp] theorem State.setTrain_replays (k : Nat) (x : Train) : (s.setTrain k x).replays = s.replays := rfl
@[simp] theorem State.setTrain_worms (k : Nat) (x : Train) : (s.setTrain k x).worms = s.worms := rfl
@[simp] theorem State.setTrain_ym (k : Nat) (x : Train) : (s.setTrain k x).ym = s.ym := rfl
@[simp] theorem State.setTrain_hatWin (k : Nat) (x : Train) : (s.setTrain k x).hatWin = s.hatWin := rfl
@[simp] theorem State.setTrain_scrubDone (k : Nat) (x : Train) : (s.setTrain k x).scrubDone = s.scrubDone := rfl
@[simp] theorem State.setTrain_chans (k : Nat) (x : Train) : (s.setTrain k x).chans = s.chans := rfl
@[simp] theorem State.setTrain_brwLast (k : Nat) (x : Train) : (s.setTrain k x).brwLast = s.brwLast := rfl
@[simp] theorem State.setTrain_tickWaits (k : Nat) (x : Train) : (s.setTrain k x).tickWaits = s.tickWaits := rfl
@[simp] theorem State.setTrain_engines (k : Nat) (x : Train) : (s.setTrain k x).engines = s.engines := rfl
@[simp] theorem State.setTrain_lbts (k : Nat) (x : Train) : (s.setTrain k x).lbts = s.lbts := rfl
@[simp] theorem State.setTrain_sctx (k : Nat) (x : Train) : (s.setTrain k x).sctx = s.sctx := rfl
@[simp] theorem State.setTrain_nbch (k : Nat) (x : Train) : (s.setTrain k x).nbch = s.nbch := rfl
@[simp] theorem State.setTrain_pl (k : Nat) (x : Train) : (s.setTrain k x).pl = s.pl := rfl
@[simp] theorem State.setTrain_macs (k : Nat) (x : Train) : (s.setTrain k x).macs = s.macs := rfl
@[simp] theorem State.setTrain_hlt (k : Nat) (x : Train) : (s.setTrain k x).hlt = s.hlt := rfl
@[simp] theorem State.setTrain_tack (k : Nat) (x : Train) : (s.setTrain k x).tack = s.tack := rfl
@[simp] theorem State.setTrain_otp (k : Nat) (x : Train) : (s.setTrain k x).otp = s.otp := rfl
@[simp] theorem State.setTrain_flash (k : Nat) (x : Train) : (s.setTrain k x).flash = s.flash := rfl
@[simp] theorem State.setTrain_power (k : Nat) (x : Train) : (s.setTrain k x).power = s.power := rfl
@[simp] theorem State.setTrain_gpio (k : Nat) (x : Train) : (s.setTrain k x).gpio = s.gpio := rfl
@[simp] theorem State.setTrain_uartRx (k : Nat) (x : Train) : (s.setTrain k x).uartRx = s.uartRx := rfl
@[simp] theorem State.setTrain_hatTmo (k : Nat) (x : Train) : (s.setTrain k x).hatTmo = s.hatTmo := rfl

@[simp] theorem State.setPps_pending (i : Nat) (x : PpsIn) : (s.setPps i x).pending = s.pending := rfl
@[simp] theorem State.setPps_now (i : Nat) (x : PpsIn) : (s.setPps i x).now = s.now := rfl
@[simp] theorem State.setPps_fresh (i : Nat) (x : PpsIn) : (s.setPps i x).fresh = s.fresh := rfl
@[simp] theorem State.setPps_mem (i : Nat) (x : PpsIn) : (s.setPps i x).mem = s.mem := rfl
@[simp] theorem State.setPps_regs (i : Nat) (x : PpsIn) : (s.setPps i x).regs = s.regs := rfl
@[simp] theorem State.setPps_caps (i : Nat) (x : PpsIn) : (s.setPps i x).caps = s.caps := rfl
@[simp] theorem State.setPps_stage (i : Nat) (x : PpsIn) : (s.setPps i x).stage = s.stage := rfl
@[simp] theorem State.setPps_bus (i : Nat) (x : PpsIn) : (s.setPps i x).bus = s.bus := rfl
@[simp] theorem State.setPps_wire (i : Nat) (x : PpsIn) : (s.setPps i x).wire = s.wire := rfl
@[simp] theorem State.setPps_msiRise (i : Nat) (x : PpsIn) : (s.setPps i x).msiRise = s.msiRise := rfl
@[simp] theorem State.setPps_ticks (i : Nat) (x : PpsIn) : (s.setPps i x).ticks = s.ticks := rfl
@[simp] theorem State.setPps_tickCount (i : Nat) (x : PpsIn) : (s.setPps i x).tickCount = s.tickCount := rfl
@[simp] theorem State.setPps_eps (i : Nat) (x : PpsIn) : (s.setPps i x).eps = s.eps := rfl
@[simp] theorem State.setPps_ecc (i : Nat) (x : PpsIn) : (s.setPps i x).ecc = s.ecc := rfl
@[simp] theorem State.setPps_cores (i : Nat) (x : PpsIn) : (s.setPps i x).cores = s.cores := rfl
@[simp] theorem State.setPps_tags (i : Nat) (x : PpsIn) : (s.setPps i x).tags = s.tags := rfl
@[simp] theorem State.setPps_guards (i : Nat) (x : PpsIn) : (s.setPps i x).guards = s.guards := rfl
@[simp] theorem State.setPps_hmsgs (i : Nat) (x : PpsIn) : (s.setPps i x).hmsgs = s.hmsgs := rfl
@[simp] theorem State.setPps_postAns (i : Nat) (x : PpsIn) : (s.setPps i x).postAns = s.postAns := rfl
@[simp] theorem State.setPps_comps (i : Nat) (x : PpsIn) : (s.setPps i x).comps = s.comps := rfl
@[simp] theorem State.setPps_resps (i : Nat) (x : PpsIn) : (s.setPps i x).resps = s.resps := rfl
@[simp] theorem State.setPps_resvs (i : Nat) (x : PpsIn) : (s.setPps i x).resvs = s.resvs := rfl
@[simp] theorem State.setPps_held (i : Nat) (x : PpsIn) : (s.setPps i x).held = s.held := rfl
@[simp] theorem State.setPps_down (i : Nat) (x : PpsIn) : (s.setPps i x).down = s.down := rfl
@[simp] theorem State.setPps_replays (i : Nat) (x : PpsIn) : (s.setPps i x).replays = s.replays := rfl
@[simp] theorem State.setPps_worms (i : Nat) (x : PpsIn) : (s.setPps i x).worms = s.worms := rfl
@[simp] theorem State.setPps_ym (i : Nat) (x : PpsIn) : (s.setPps i x).ym = s.ym := rfl
@[simp] theorem State.setPps_hatWin (i : Nat) (x : PpsIn) : (s.setPps i x).hatWin = s.hatWin := rfl
@[simp] theorem State.setPps_scrubDone (i : Nat) (x : PpsIn) : (s.setPps i x).scrubDone = s.scrubDone := rfl
@[simp] theorem State.setPps_chans (i : Nat) (x : PpsIn) : (s.setPps i x).chans = s.chans := rfl
@[simp] theorem State.setPps_brwLast (i : Nat) (x : PpsIn) : (s.setPps i x).brwLast = s.brwLast := rfl
@[simp] theorem State.setPps_tickWaits (i : Nat) (x : PpsIn) : (s.setPps i x).tickWaits = s.tickWaits := rfl
@[simp] theorem State.setPps_engines (i : Nat) (x : PpsIn) : (s.setPps i x).engines = s.engines := rfl
@[simp] theorem State.setPps_lbts (i : Nat) (x : PpsIn) : (s.setPps i x).lbts = s.lbts := rfl
@[simp] theorem State.setPps_sctx (i : Nat) (x : PpsIn) : (s.setPps i x).sctx = s.sctx := rfl
@[simp] theorem State.setPps_nbch (i : Nat) (x : PpsIn) : (s.setPps i x).nbch = s.nbch := rfl
@[simp] theorem State.setPps_pl (i : Nat) (x : PpsIn) : (s.setPps i x).pl = s.pl := rfl
@[simp] theorem State.setPps_macs (i : Nat) (x : PpsIn) : (s.setPps i x).macs = s.macs := rfl
@[simp] theorem State.setPps_hlt (i : Nat) (x : PpsIn) : (s.setPps i x).hlt = s.hlt := rfl
@[simp] theorem State.setPps_tack (i : Nat) (x : PpsIn) : (s.setPps i x).tack = s.tack := rfl
@[simp] theorem State.setPps_otp (i : Nat) (x : PpsIn) : (s.setPps i x).otp = s.otp := rfl
@[simp] theorem State.setPps_flash (i : Nat) (x : PpsIn) : (s.setPps i x).flash = s.flash := rfl
@[simp] theorem State.setPps_power (i : Nat) (x : PpsIn) : (s.setPps i x).power = s.power := rfl
@[simp] theorem State.setPps_gpio (i : Nat) (x : PpsIn) : (s.setPps i x).gpio = s.gpio := rfl
@[simp] theorem State.setPps_uartRx (i : Nat) (x : PpsIn) : (s.setPps i x).uartRx = s.uartRx := rfl
@[simp] theorem State.setPps_hatTmo (i : Nat) (x : PpsIn) : (s.setPps i x).hatTmo = s.hatTmo := rfl

@[simp] theorem State.setEp_pending (e : Nat) (x : EpState) : (s.setEp e x).pending = s.pending := rfl
@[simp] theorem State.setEp_now (e : Nat) (x : EpState) : (s.setEp e x).now = s.now := rfl
@[simp] theorem State.setEp_fresh (e : Nat) (x : EpState) : (s.setEp e x).fresh = s.fresh := rfl
@[simp] theorem State.setEp_mem (e : Nat) (x : EpState) : (s.setEp e x).mem = s.mem := rfl
@[simp] theorem State.setEp_regs (e : Nat) (x : EpState) : (s.setEp e x).regs = s.regs := rfl
@[simp] theorem State.setEp_caps (e : Nat) (x : EpState) : (s.setEp e x).caps = s.caps := rfl
@[simp] theorem State.setEp_stage (e : Nat) (x : EpState) : (s.setEp e x).stage = s.stage := rfl
@[simp] theorem State.setEp_bus (e : Nat) (x : EpState) : (s.setEp e x).bus = s.bus := rfl
@[simp] theorem State.setEp_wire (e : Nat) (x : EpState) : (s.setEp e x).wire = s.wire := rfl
@[simp] theorem State.setEp_msiRise (e : Nat) (x : EpState) : (s.setEp e x).msiRise = s.msiRise := rfl
@[simp] theorem State.setEp_ticks (e : Nat) (x : EpState) : (s.setEp e x).ticks = s.ticks := rfl
@[simp] theorem State.setEp_tickCount (e : Nat) (x : EpState) : (s.setEp e x).tickCount = s.tickCount := rfl
@[simp] theorem State.setEp_ct (e : Nat) (x : EpState) : (s.setEp e x).ct = s.ct := rfl
@[simp] theorem State.setEp_ecc (e : Nat) (x : EpState) : (s.setEp e x).ecc = s.ecc := rfl
@[simp] theorem State.setEp_cores (e : Nat) (x : EpState) : (s.setEp e x).cores = s.cores := rfl
@[simp] theorem State.setEp_tags (e : Nat) (x : EpState) : (s.setEp e x).tags = s.tags := rfl
@[simp] theorem State.setEp_guards (e : Nat) (x : EpState) : (s.setEp e x).guards = s.guards := rfl
@[simp] theorem State.setEp_hmsgs (e : Nat) (x : EpState) : (s.setEp e x).hmsgs = s.hmsgs := rfl
@[simp] theorem State.setEp_postAns (e : Nat) (x : EpState) : (s.setEp e x).postAns = s.postAns := rfl
@[simp] theorem State.setEp_comps (e : Nat) (x : EpState) : (s.setEp e x).comps = s.comps := rfl
@[simp] theorem State.setEp_resps (e : Nat) (x : EpState) : (s.setEp e x).resps = s.resps := rfl
@[simp] theorem State.setEp_resvs (e : Nat) (x : EpState) : (s.setEp e x).resvs = s.resvs := rfl
@[simp] theorem State.setEp_held (e : Nat) (x : EpState) : (s.setEp e x).held = s.held := rfl
@[simp] theorem State.setEp_down (e : Nat) (x : EpState) : (s.setEp e x).down = s.down := rfl
@[simp] theorem State.setEp_replays (e : Nat) (x : EpState) : (s.setEp e x).replays = s.replays := rfl
@[simp] theorem State.setEp_worms (e : Nat) (x : EpState) : (s.setEp e x).worms = s.worms := rfl
@[simp] theorem State.setEp_ym (e : Nat) (x : EpState) : (s.setEp e x).ym = s.ym := rfl
@[simp] theorem State.setEp_hatWin (e : Nat) (x : EpState) : (s.setEp e x).hatWin = s.hatWin := rfl
@[simp] theorem State.setEp_scrubDone (e : Nat) (x : EpState) : (s.setEp e x).scrubDone = s.scrubDone := rfl
@[simp] theorem State.setEp_chans (e : Nat) (x : EpState) : (s.setEp e x).chans = s.chans := rfl
@[simp] theorem State.setEp_brwLast (e : Nat) (x : EpState) : (s.setEp e x).brwLast = s.brwLast := rfl
@[simp] theorem State.setEp_tickWaits (e : Nat) (x : EpState) : (s.setEp e x).tickWaits = s.tickWaits := rfl
@[simp] theorem State.setEp_engines (e : Nat) (x : EpState) : (s.setEp e x).engines = s.engines := rfl
@[simp] theorem State.setEp_lbts (e : Nat) (x : EpState) : (s.setEp e x).lbts = s.lbts := rfl
@[simp] theorem State.setEp_sctx (e : Nat) (x : EpState) : (s.setEp e x).sctx = s.sctx := rfl
@[simp] theorem State.setEp_nbch (e : Nat) (x : EpState) : (s.setEp e x).nbch = s.nbch := rfl
@[simp] theorem State.setEp_pl (e : Nat) (x : EpState) : (s.setEp e x).pl = s.pl := rfl
@[simp] theorem State.setEp_macs (e : Nat) (x : EpState) : (s.setEp e x).macs = s.macs := rfl
@[simp] theorem State.setEp_hlt (e : Nat) (x : EpState) : (s.setEp e x).hlt = s.hlt := rfl
@[simp] theorem State.setEp_tack (e : Nat) (x : EpState) : (s.setEp e x).tack = s.tack := rfl
@[simp] theorem State.setEp_otp (e : Nat) (x : EpState) : (s.setEp e x).otp = s.otp := rfl
@[simp] theorem State.setEp_flash (e : Nat) (x : EpState) : (s.setEp e x).flash = s.flash := rfl
@[simp] theorem State.setEp_power (e : Nat) (x : EpState) : (s.setEp e x).power = s.power := rfl
@[simp] theorem State.setEp_gpio (e : Nat) (x : EpState) : (s.setEp e x).gpio = s.gpio := rfl
@[simp] theorem State.setEp_uartRx (e : Nat) (x : EpState) : (s.setEp e x).uartRx = s.uartRx := rfl
@[simp] theorem State.setEp_hatTmo (e : Nat) (x : EpState) : (s.setEp e x).hatTmo = s.hatTmo := rfl

@[simp] theorem State.setEcc_pending (w d : Nat) : (s.setEcc w d).pending = s.pending := rfl
@[simp] theorem State.setEcc_now (w d : Nat) : (s.setEcc w d).now = s.now := rfl
@[simp] theorem State.setEcc_fresh (w d : Nat) : (s.setEcc w d).fresh = s.fresh := rfl
@[simp] theorem State.setEcc_mem (w d : Nat) : (s.setEcc w d).mem = s.mem := rfl
@[simp] theorem State.setEcc_regs (w d : Nat) : (s.setEcc w d).regs = s.regs := rfl
@[simp] theorem State.setEcc_caps (w d : Nat) : (s.setEcc w d).caps = s.caps := rfl
@[simp] theorem State.setEcc_stage (w d : Nat) : (s.setEcc w d).stage = s.stage := rfl
@[simp] theorem State.setEcc_bus (w d : Nat) : (s.setEcc w d).bus = s.bus := rfl
@[simp] theorem State.setEcc_wire (w d : Nat) : (s.setEcc w d).wire = s.wire := rfl
@[simp] theorem State.setEcc_msiRise (w d : Nat) : (s.setEcc w d).msiRise = s.msiRise := rfl
@[simp] theorem State.setEcc_ticks (w d : Nat) : (s.setEcc w d).ticks = s.ticks := rfl
@[simp] theorem State.setEcc_tickCount (w d : Nat) : (s.setEcc w d).tickCount = s.tickCount := rfl
@[simp] theorem State.setEcc_ct (w d : Nat) : (s.setEcc w d).ct = s.ct := rfl
@[simp] theorem State.setEcc_eps (w d : Nat) : (s.setEcc w d).eps = s.eps := rfl
@[simp] theorem State.setEcc_cores (w d : Nat) : (s.setEcc w d).cores = s.cores := rfl
@[simp] theorem State.setEcc_tags (w d : Nat) : (s.setEcc w d).tags = s.tags := rfl
@[simp] theorem State.setEcc_guards (w d : Nat) : (s.setEcc w d).guards = s.guards := rfl
@[simp] theorem State.setEcc_hmsgs (w d : Nat) : (s.setEcc w d).hmsgs = s.hmsgs := rfl
@[simp] theorem State.setEcc_postAns (w d : Nat) : (s.setEcc w d).postAns = s.postAns := rfl
@[simp] theorem State.setEcc_comps (w d : Nat) : (s.setEcc w d).comps = s.comps := rfl
@[simp] theorem State.setEcc_resps (w d : Nat) : (s.setEcc w d).resps = s.resps := rfl
@[simp] theorem State.setEcc_resvs (w d : Nat) : (s.setEcc w d).resvs = s.resvs := rfl
@[simp] theorem State.setEcc_held (w d : Nat) : (s.setEcc w d).held = s.held := rfl
@[simp] theorem State.setEcc_down (w d : Nat) : (s.setEcc w d).down = s.down := rfl
@[simp] theorem State.setEcc_replays (w d : Nat) : (s.setEcc w d).replays = s.replays := rfl
@[simp] theorem State.setEcc_worms (w d : Nat) : (s.setEcc w d).worms = s.worms := rfl
@[simp] theorem State.setEcc_ym (w d : Nat) : (s.setEcc w d).ym = s.ym := rfl
@[simp] theorem State.setEcc_hatWin (w d : Nat) : (s.setEcc w d).hatWin = s.hatWin := rfl
@[simp] theorem State.setEcc_scrubDone (w d : Nat) : (s.setEcc w d).scrubDone = s.scrubDone := rfl
@[simp] theorem State.setEcc_chans (w d : Nat) : (s.setEcc w d).chans = s.chans := rfl
@[simp] theorem State.setEcc_brwLast (w d : Nat) : (s.setEcc w d).brwLast = s.brwLast := rfl
@[simp] theorem State.setEcc_tickWaits (w d : Nat) : (s.setEcc w d).tickWaits = s.tickWaits := rfl
@[simp] theorem State.setEcc_engines (w d : Nat) : (s.setEcc w d).engines = s.engines := rfl
@[simp] theorem State.setEcc_lbts (w d : Nat) : (s.setEcc w d).lbts = s.lbts := rfl
@[simp] theorem State.setEcc_sctx (w d : Nat) : (s.setEcc w d).sctx = s.sctx := rfl
@[simp] theorem State.setEcc_nbch (w d : Nat) : (s.setEcc w d).nbch = s.nbch := rfl
@[simp] theorem State.setEcc_pl (w d : Nat) : (s.setEcc w d).pl = s.pl := rfl
@[simp] theorem State.setEcc_macs (w d : Nat) : (s.setEcc w d).macs = s.macs := rfl
@[simp] theorem State.setEcc_hlt (w d : Nat) : (s.setEcc w d).hlt = s.hlt := rfl
@[simp] theorem State.setEcc_tack (w d : Nat) : (s.setEcc w d).tack = s.tack := rfl
@[simp] theorem State.setEcc_otp (w d : Nat) : (s.setEcc w d).otp = s.otp := rfl
@[simp] theorem State.setEcc_flash (w d : Nat) : (s.setEcc w d).flash = s.flash := rfl
@[simp] theorem State.setEcc_power (w d : Nat) : (s.setEcc w d).power = s.power := rfl
@[simp] theorem State.setEcc_gpio (w d : Nat) : (s.setEcc w d).gpio = s.gpio := rfl
@[simp] theorem State.setEcc_uartRx (w d : Nat) : (s.setEcc w d).uartRx = s.uartRx := rfl
@[simp] theorem State.setEcc_hatTmo (w d : Nat) : (s.setEcc w d).hatTmo = s.hatTmo := rfl

@[simp] theorem State.setCore_pending (g : Nat) (x : Core) : (s.setCore g x).pending = s.pending := rfl
@[simp] theorem State.setCore_now (g : Nat) (x : Core) : (s.setCore g x).now = s.now := rfl
@[simp] theorem State.setCore_fresh (g : Nat) (x : Core) : (s.setCore g x).fresh = s.fresh := rfl
@[simp] theorem State.setCore_mem (g : Nat) (x : Core) : (s.setCore g x).mem = s.mem := rfl
@[simp] theorem State.setCore_regs (g : Nat) (x : Core) : (s.setCore g x).regs = s.regs := rfl
@[simp] theorem State.setCore_caps (g : Nat) (x : Core) : (s.setCore g x).caps = s.caps := rfl
@[simp] theorem State.setCore_stage (g : Nat) (x : Core) : (s.setCore g x).stage = s.stage := rfl
@[simp] theorem State.setCore_bus (g : Nat) (x : Core) : (s.setCore g x).bus = s.bus := rfl
@[simp] theorem State.setCore_wire (g : Nat) (x : Core) : (s.setCore g x).wire = s.wire := rfl
@[simp] theorem State.setCore_msiRise (g : Nat) (x : Core) : (s.setCore g x).msiRise = s.msiRise := rfl
@[simp] theorem State.setCore_ticks (g : Nat) (x : Core) : (s.setCore g x).ticks = s.ticks := rfl
@[simp] theorem State.setCore_tickCount (g : Nat) (x : Core) : (s.setCore g x).tickCount = s.tickCount := rfl
@[simp] theorem State.setCore_ct (g : Nat) (x : Core) : (s.setCore g x).ct = s.ct := rfl
@[simp] theorem State.setCore_eps (g : Nat) (x : Core) : (s.setCore g x).eps = s.eps := rfl
@[simp] theorem State.setCore_ecc (g : Nat) (x : Core) : (s.setCore g x).ecc = s.ecc := rfl
@[simp] theorem State.setCore_tags (g : Nat) (x : Core) : (s.setCore g x).tags = s.tags := rfl
@[simp] theorem State.setCore_guards (g : Nat) (x : Core) : (s.setCore g x).guards = s.guards := rfl
@[simp] theorem State.setCore_hmsgs (g : Nat) (x : Core) : (s.setCore g x).hmsgs = s.hmsgs := rfl
@[simp] theorem State.setCore_postAns (g : Nat) (x : Core) : (s.setCore g x).postAns = s.postAns := rfl
@[simp] theorem State.setCore_comps (g : Nat) (x : Core) : (s.setCore g x).comps = s.comps := rfl
@[simp] theorem State.setCore_resps (g : Nat) (x : Core) : (s.setCore g x).resps = s.resps := rfl
@[simp] theorem State.setCore_resvs (g : Nat) (x : Core) : (s.setCore g x).resvs = s.resvs := rfl
@[simp] theorem State.setCore_held (g : Nat) (x : Core) : (s.setCore g x).held = s.held := rfl
@[simp] theorem State.setCore_down (g : Nat) (x : Core) : (s.setCore g x).down = s.down := rfl
@[simp] theorem State.setCore_replays (g : Nat) (x : Core) : (s.setCore g x).replays = s.replays := rfl
@[simp] theorem State.setCore_worms (g : Nat) (x : Core) : (s.setCore g x).worms = s.worms := rfl
@[simp] theorem State.setCore_ym (g : Nat) (x : Core) : (s.setCore g x).ym = s.ym := rfl
@[simp] theorem State.setCore_hatWin (g : Nat) (x : Core) : (s.setCore g x).hatWin = s.hatWin := rfl
@[simp] theorem State.setCore_scrubDone (g : Nat) (x : Core) : (s.setCore g x).scrubDone = s.scrubDone := rfl
@[simp] theorem State.setCore_chans (g : Nat) (x : Core) : (s.setCore g x).chans = s.chans := rfl
@[simp] theorem State.setCore_brwLast (g : Nat) (x : Core) : (s.setCore g x).brwLast = s.brwLast := rfl
@[simp] theorem State.setCore_tickWaits (g : Nat) (x : Core) : (s.setCore g x).tickWaits = s.tickWaits := rfl
@[simp] theorem State.setCore_engines (g : Nat) (x : Core) : (s.setCore g x).engines = s.engines := rfl
@[simp] theorem State.setCore_lbts (g : Nat) (x : Core) : (s.setCore g x).lbts = s.lbts := rfl
@[simp] theorem State.setCore_sctx (g : Nat) (x : Core) : (s.setCore g x).sctx = s.sctx := rfl
@[simp] theorem State.setCore_nbch (g : Nat) (x : Core) : (s.setCore g x).nbch = s.nbch := rfl
@[simp] theorem State.setCore_pl (g : Nat) (x : Core) : (s.setCore g x).pl = s.pl := rfl
@[simp] theorem State.setCore_macs (g : Nat) (x : Core) : (s.setCore g x).macs = s.macs := rfl
@[simp] theorem State.setCore_hlt (g : Nat) (x : Core) : (s.setCore g x).hlt = s.hlt := rfl
@[simp] theorem State.setCore_tack (g : Nat) (x : Core) : (s.setCore g x).tack = s.tack := rfl
@[simp] theorem State.setCore_otp (g : Nat) (x : Core) : (s.setCore g x).otp = s.otp := rfl
@[simp] theorem State.setCore_flash (g : Nat) (x : Core) : (s.setCore g x).flash = s.flash := rfl
@[simp] theorem State.setCore_power (g : Nat) (x : Core) : (s.setCore g x).power = s.power := rfl
@[simp] theorem State.setCore_gpio (g : Nat) (x : Core) : (s.setCore g x).gpio = s.gpio := rfl
@[simp] theorem State.setCore_uartRx (g : Nat) (x : Core) : (s.setCore g x).uartRx = s.uartRx := rfl
@[simp] theorem State.setCore_hatTmo (g : Nat) (x : Core) : (s.setCore g x).hatTmo = s.hatTmo := rfl

@[simp] theorem State.modCore_pending (g : Nat) (f : Core → Core) : (s.modCore g f).pending = s.pending := rfl
@[simp] theorem State.modCore_now (g : Nat) (f : Core → Core) : (s.modCore g f).now = s.now := rfl
@[simp] theorem State.modCore_fresh (g : Nat) (f : Core → Core) : (s.modCore g f).fresh = s.fresh := rfl
@[simp] theorem State.modCore_mem (g : Nat) (f : Core → Core) : (s.modCore g f).mem = s.mem := rfl
@[simp] theorem State.modCore_regs (g : Nat) (f : Core → Core) : (s.modCore g f).regs = s.regs := rfl
@[simp] theorem State.modCore_caps (g : Nat) (f : Core → Core) : (s.modCore g f).caps = s.caps := rfl
@[simp] theorem State.modCore_stage (g : Nat) (f : Core → Core) : (s.modCore g f).stage = s.stage := rfl
@[simp] theorem State.modCore_bus (g : Nat) (f : Core → Core) : (s.modCore g f).bus = s.bus := rfl
@[simp] theorem State.modCore_wire (g : Nat) (f : Core → Core) : (s.modCore g f).wire = s.wire := rfl
@[simp] theorem State.modCore_msiRise (g : Nat) (f : Core → Core) : (s.modCore g f).msiRise = s.msiRise := rfl
@[simp] theorem State.modCore_ticks (g : Nat) (f : Core → Core) : (s.modCore g f).ticks = s.ticks := rfl
@[simp] theorem State.modCore_tickCount (g : Nat) (f : Core → Core) : (s.modCore g f).tickCount = s.tickCount := rfl
@[simp] theorem State.modCore_ct (g : Nat) (f : Core → Core) : (s.modCore g f).ct = s.ct := rfl
@[simp] theorem State.modCore_eps (g : Nat) (f : Core → Core) : (s.modCore g f).eps = s.eps := rfl
@[simp] theorem State.modCore_ecc (g : Nat) (f : Core → Core) : (s.modCore g f).ecc = s.ecc := rfl
@[simp] theorem State.modCore_tags (g : Nat) (f : Core → Core) : (s.modCore g f).tags = s.tags := rfl
@[simp] theorem State.modCore_guards (g : Nat) (f : Core → Core) : (s.modCore g f).guards = s.guards := rfl
@[simp] theorem State.modCore_hmsgs (g : Nat) (f : Core → Core) : (s.modCore g f).hmsgs = s.hmsgs := rfl
@[simp] theorem State.modCore_postAns (g : Nat) (f : Core → Core) : (s.modCore g f).postAns = s.postAns := rfl
@[simp] theorem State.modCore_comps (g : Nat) (f : Core → Core) : (s.modCore g f).comps = s.comps := rfl
@[simp] theorem State.modCore_resps (g : Nat) (f : Core → Core) : (s.modCore g f).resps = s.resps := rfl
@[simp] theorem State.modCore_resvs (g : Nat) (f : Core → Core) : (s.modCore g f).resvs = s.resvs := rfl
@[simp] theorem State.modCore_held (g : Nat) (f : Core → Core) : (s.modCore g f).held = s.held := rfl
@[simp] theorem State.modCore_down (g : Nat) (f : Core → Core) : (s.modCore g f).down = s.down := rfl
@[simp] theorem State.modCore_replays (g : Nat) (f : Core → Core) : (s.modCore g f).replays = s.replays := rfl
@[simp] theorem State.modCore_worms (g : Nat) (f : Core → Core) : (s.modCore g f).worms = s.worms := rfl
@[simp] theorem State.modCore_ym (g : Nat) (f : Core → Core) : (s.modCore g f).ym = s.ym := rfl
@[simp] theorem State.modCore_hatWin (g : Nat) (f : Core → Core) : (s.modCore g f).hatWin = s.hatWin := rfl
@[simp] theorem State.modCore_scrubDone (g : Nat) (f : Core → Core) : (s.modCore g f).scrubDone = s.scrubDone := rfl
@[simp] theorem State.modCore_chans (g : Nat) (f : Core → Core) : (s.modCore g f).chans = s.chans := rfl
@[simp] theorem State.modCore_brwLast (g : Nat) (f : Core → Core) : (s.modCore g f).brwLast = s.brwLast := rfl
@[simp] theorem State.modCore_tickWaits (g : Nat) (f : Core → Core) : (s.modCore g f).tickWaits = s.tickWaits := rfl
@[simp] theorem State.modCore_engines (g : Nat) (f : Core → Core) : (s.modCore g f).engines = s.engines := rfl
@[simp] theorem State.modCore_lbts (g : Nat) (f : Core → Core) : (s.modCore g f).lbts = s.lbts := rfl
@[simp] theorem State.modCore_sctx (g : Nat) (f : Core → Core) : (s.modCore g f).sctx = s.sctx := rfl
@[simp] theorem State.modCore_nbch (g : Nat) (f : Core → Core) : (s.modCore g f).nbch = s.nbch := rfl
@[simp] theorem State.modCore_pl (g : Nat) (f : Core → Core) : (s.modCore g f).pl = s.pl := rfl
@[simp] theorem State.modCore_macs (g : Nat) (f : Core → Core) : (s.modCore g f).macs = s.macs := rfl
@[simp] theorem State.modCore_hlt (g : Nat) (f : Core → Core) : (s.modCore g f).hlt = s.hlt := rfl
@[simp] theorem State.modCore_tack (g : Nat) (f : Core → Core) : (s.modCore g f).tack = s.tack := rfl
@[simp] theorem State.modCore_otp (g : Nat) (f : Core → Core) : (s.modCore g f).otp = s.otp := rfl
@[simp] theorem State.modCore_flash (g : Nat) (f : Core → Core) : (s.modCore g f).flash = s.flash := rfl
@[simp] theorem State.modCore_power (g : Nat) (f : Core → Core) : (s.modCore g f).power = s.power := rfl
@[simp] theorem State.modCore_gpio (g : Nat) (f : Core → Core) : (s.modCore g f).gpio = s.gpio := rfl
@[simp] theorem State.modCore_uartRx (g : Nat) (f : Core → Core) : (s.modCore g f).uartRx = s.uartRx := rfl
@[simp] theorem State.modCore_hatTmo (g : Nat) (f : Core → Core) : (s.modCore g f).hatTmo = s.hatTmo := rfl

@[simp] theorem State.setTag_pending (h k : Nat) (x : Tag) : (s.setTag h k x).pending = s.pending := rfl
@[simp] theorem State.setTag_now (h k : Nat) (x : Tag) : (s.setTag h k x).now = s.now := rfl
@[simp] theorem State.setTag_fresh (h k : Nat) (x : Tag) : (s.setTag h k x).fresh = s.fresh := rfl
@[simp] theorem State.setTag_mem (h k : Nat) (x : Tag) : (s.setTag h k x).mem = s.mem := rfl
@[simp] theorem State.setTag_regs (h k : Nat) (x : Tag) : (s.setTag h k x).regs = s.regs := rfl
@[simp] theorem State.setTag_caps (h k : Nat) (x : Tag) : (s.setTag h k x).caps = s.caps := rfl
@[simp] theorem State.setTag_stage (h k : Nat) (x : Tag) : (s.setTag h k x).stage = s.stage := rfl
@[simp] theorem State.setTag_bus (h k : Nat) (x : Tag) : (s.setTag h k x).bus = s.bus := rfl
@[simp] theorem State.setTag_wire (h k : Nat) (x : Tag) : (s.setTag h k x).wire = s.wire := rfl
@[simp] theorem State.setTag_msiRise (h k : Nat) (x : Tag) : (s.setTag h k x).msiRise = s.msiRise := rfl
@[simp] theorem State.setTag_ticks (h k : Nat) (x : Tag) : (s.setTag h k x).ticks = s.ticks := rfl
@[simp] theorem State.setTag_tickCount (h k : Nat) (x : Tag) : (s.setTag h k x).tickCount = s.tickCount := rfl
@[simp] theorem State.setTag_ct (h k : Nat) (x : Tag) : (s.setTag h k x).ct = s.ct := rfl
@[simp] theorem State.setTag_eps (h k : Nat) (x : Tag) : (s.setTag h k x).eps = s.eps := rfl
@[simp] theorem State.setTag_ecc (h k : Nat) (x : Tag) : (s.setTag h k x).ecc = s.ecc := rfl
@[simp] theorem State.setTag_cores (h k : Nat) (x : Tag) : (s.setTag h k x).cores = s.cores := rfl
@[simp] theorem State.setTag_guards (h k : Nat) (x : Tag) : (s.setTag h k x).guards = s.guards := rfl
@[simp] theorem State.setTag_hmsgs (h k : Nat) (x : Tag) : (s.setTag h k x).hmsgs = s.hmsgs := rfl
@[simp] theorem State.setTag_postAns (h k : Nat) (x : Tag) : (s.setTag h k x).postAns = s.postAns := rfl
@[simp] theorem State.setTag_comps (h k : Nat) (x : Tag) : (s.setTag h k x).comps = s.comps := rfl
@[simp] theorem State.setTag_resps (h k : Nat) (x : Tag) : (s.setTag h k x).resps = s.resps := rfl
@[simp] theorem State.setTag_resvs (h k : Nat) (x : Tag) : (s.setTag h k x).resvs = s.resvs := rfl
@[simp] theorem State.setTag_held (h k : Nat) (x : Tag) : (s.setTag h k x).held = s.held := rfl
@[simp] theorem State.setTag_down (h k : Nat) (x : Tag) : (s.setTag h k x).down = s.down := rfl
@[simp] theorem State.setTag_replays (h k : Nat) (x : Tag) : (s.setTag h k x).replays = s.replays := rfl
@[simp] theorem State.setTag_worms (h k : Nat) (x : Tag) : (s.setTag h k x).worms = s.worms := rfl
@[simp] theorem State.setTag_ym (h k : Nat) (x : Tag) : (s.setTag h k x).ym = s.ym := rfl
@[simp] theorem State.setTag_hatWin (h k : Nat) (x : Tag) : (s.setTag h k x).hatWin = s.hatWin := rfl
@[simp] theorem State.setTag_scrubDone (h k : Nat) (x : Tag) : (s.setTag h k x).scrubDone = s.scrubDone := rfl
@[simp] theorem State.setTag_chans (h k : Nat) (x : Tag) : (s.setTag h k x).chans = s.chans := rfl
@[simp] theorem State.setTag_brwLast (h k : Nat) (x : Tag) : (s.setTag h k x).brwLast = s.brwLast := rfl
@[simp] theorem State.setTag_tickWaits (h k : Nat) (x : Tag) : (s.setTag h k x).tickWaits = s.tickWaits := rfl
@[simp] theorem State.setTag_engines (h k : Nat) (x : Tag) : (s.setTag h k x).engines = s.engines := rfl
@[simp] theorem State.setTag_lbts (h k : Nat) (x : Tag) : (s.setTag h k x).lbts = s.lbts := rfl
@[simp] theorem State.setTag_sctx (h k : Nat) (x : Tag) : (s.setTag h k x).sctx = s.sctx := rfl
@[simp] theorem State.setTag_nbch (h k : Nat) (x : Tag) : (s.setTag h k x).nbch = s.nbch := rfl
@[simp] theorem State.setTag_pl (h k : Nat) (x : Tag) : (s.setTag h k x).pl = s.pl := rfl
@[simp] theorem State.setTag_macs (h k : Nat) (x : Tag) : (s.setTag h k x).macs = s.macs := rfl
@[simp] theorem State.setTag_hlt (h k : Nat) (x : Tag) : (s.setTag h k x).hlt = s.hlt := rfl
@[simp] theorem State.setTag_tack (h k : Nat) (x : Tag) : (s.setTag h k x).tack = s.tack := rfl
@[simp] theorem State.setTag_otp (h k : Nat) (x : Tag) : (s.setTag h k x).otp = s.otp := rfl
@[simp] theorem State.setTag_flash (h k : Nat) (x : Tag) : (s.setTag h k x).flash = s.flash := rfl
@[simp] theorem State.setTag_power (h k : Nat) (x : Tag) : (s.setTag h k x).power = s.power := rfl
@[simp] theorem State.setTag_gpio (h k : Nat) (x : Tag) : (s.setTag h k x).gpio = s.gpio := rfl
@[simp] theorem State.setTag_uartRx (h k : Nat) (x : Tag) : (s.setTag h k x).uartRx = s.uartRx := rfl
@[simp] theorem State.setTag_hatTmo (h k : Nat) (x : Tag) : (s.setTag h k x).hatTmo = s.hatTmo := rfl

@[simp] theorem State.setGuard_pending (g i : Nat) (x : Guard) : (s.setGuard g i x).pending = s.pending := rfl
@[simp] theorem State.setGuard_now (g i : Nat) (x : Guard) : (s.setGuard g i x).now = s.now := rfl
@[simp] theorem State.setGuard_fresh (g i : Nat) (x : Guard) : (s.setGuard g i x).fresh = s.fresh := rfl
@[simp] theorem State.setGuard_mem (g i : Nat) (x : Guard) : (s.setGuard g i x).mem = s.mem := rfl
@[simp] theorem State.setGuard_regs (g i : Nat) (x : Guard) : (s.setGuard g i x).regs = s.regs := rfl
@[simp] theorem State.setGuard_caps (g i : Nat) (x : Guard) : (s.setGuard g i x).caps = s.caps := rfl
@[simp] theorem State.setGuard_stage (g i : Nat) (x : Guard) : (s.setGuard g i x).stage = s.stage := rfl
@[simp] theorem State.setGuard_bus (g i : Nat) (x : Guard) : (s.setGuard g i x).bus = s.bus := rfl
@[simp] theorem State.setGuard_wire (g i : Nat) (x : Guard) : (s.setGuard g i x).wire = s.wire := rfl
@[simp] theorem State.setGuard_msiRise (g i : Nat) (x : Guard) : (s.setGuard g i x).msiRise = s.msiRise := rfl
@[simp] theorem State.setGuard_ticks (g i : Nat) (x : Guard) : (s.setGuard g i x).ticks = s.ticks := rfl
@[simp] theorem State.setGuard_tickCount (g i : Nat) (x : Guard) : (s.setGuard g i x).tickCount = s.tickCount := rfl
@[simp] theorem State.setGuard_ct (g i : Nat) (x : Guard) : (s.setGuard g i x).ct = s.ct := rfl
@[simp] theorem State.setGuard_eps (g i : Nat) (x : Guard) : (s.setGuard g i x).eps = s.eps := rfl
@[simp] theorem State.setGuard_ecc (g i : Nat) (x : Guard) : (s.setGuard g i x).ecc = s.ecc := rfl
@[simp] theorem State.setGuard_cores (g i : Nat) (x : Guard) : (s.setGuard g i x).cores = s.cores := rfl
@[simp] theorem State.setGuard_tags (g i : Nat) (x : Guard) : (s.setGuard g i x).tags = s.tags := rfl
@[simp] theorem State.setGuard_hmsgs (g i : Nat) (x : Guard) : (s.setGuard g i x).hmsgs = s.hmsgs := rfl
@[simp] theorem State.setGuard_postAns (g i : Nat) (x : Guard) : (s.setGuard g i x).postAns = s.postAns := rfl
@[simp] theorem State.setGuard_comps (g i : Nat) (x : Guard) : (s.setGuard g i x).comps = s.comps := rfl
@[simp] theorem State.setGuard_resps (g i : Nat) (x : Guard) : (s.setGuard g i x).resps = s.resps := rfl
@[simp] theorem State.setGuard_resvs (g i : Nat) (x : Guard) : (s.setGuard g i x).resvs = s.resvs := rfl
@[simp] theorem State.setGuard_held (g i : Nat) (x : Guard) : (s.setGuard g i x).held = s.held := rfl
@[simp] theorem State.setGuard_down (g i : Nat) (x : Guard) : (s.setGuard g i x).down = s.down := rfl
@[simp] theorem State.setGuard_replays (g i : Nat) (x : Guard) : (s.setGuard g i x).replays = s.replays := rfl
@[simp] theorem State.setGuard_worms (g i : Nat) (x : Guard) : (s.setGuard g i x).worms = s.worms := rfl
@[simp] theorem State.setGuard_ym (g i : Nat) (x : Guard) : (s.setGuard g i x).ym = s.ym := rfl
@[simp] theorem State.setGuard_hatWin (g i : Nat) (x : Guard) : (s.setGuard g i x).hatWin = s.hatWin := rfl
@[simp] theorem State.setGuard_scrubDone (g i : Nat) (x : Guard) : (s.setGuard g i x).scrubDone = s.scrubDone := rfl
@[simp] theorem State.setGuard_chans (g i : Nat) (x : Guard) : (s.setGuard g i x).chans = s.chans := rfl
@[simp] theorem State.setGuard_brwLast (g i : Nat) (x : Guard) : (s.setGuard g i x).brwLast = s.brwLast := rfl
@[simp] theorem State.setGuard_tickWaits (g i : Nat) (x : Guard) : (s.setGuard g i x).tickWaits = s.tickWaits := rfl
@[simp] theorem State.setGuard_engines (g i : Nat) (x : Guard) : (s.setGuard g i x).engines = s.engines := rfl
@[simp] theorem State.setGuard_lbts (g i : Nat) (x : Guard) : (s.setGuard g i x).lbts = s.lbts := rfl
@[simp] theorem State.setGuard_sctx (g i : Nat) (x : Guard) : (s.setGuard g i x).sctx = s.sctx := rfl
@[simp] theorem State.setGuard_nbch (g i : Nat) (x : Guard) : (s.setGuard g i x).nbch = s.nbch := rfl
@[simp] theorem State.setGuard_pl (g i : Nat) (x : Guard) : (s.setGuard g i x).pl = s.pl := rfl
@[simp] theorem State.setGuard_macs (g i : Nat) (x : Guard) : (s.setGuard g i x).macs = s.macs := rfl
@[simp] theorem State.setGuard_hlt (g i : Nat) (x : Guard) : (s.setGuard g i x).hlt = s.hlt := rfl
@[simp] theorem State.setGuard_tack (g i : Nat) (x : Guard) : (s.setGuard g i x).tack = s.tack := rfl
@[simp] theorem State.setGuard_otp (g i : Nat) (x : Guard) : (s.setGuard g i x).otp = s.otp := rfl
@[simp] theorem State.setGuard_flash (g i : Nat) (x : Guard) : (s.setGuard g i x).flash = s.flash := rfl
@[simp] theorem State.setGuard_power (g i : Nat) (x : Guard) : (s.setGuard g i x).power = s.power := rfl
@[simp] theorem State.setGuard_gpio (g i : Nat) (x : Guard) : (s.setGuard g i x).gpio = s.gpio := rfl
@[simp] theorem State.setGuard_uartRx (g i : Nat) (x : Guard) : (s.setGuard g i x).uartRx = s.uartRx := rfl
@[simp] theorem State.setGuard_hatTmo (g i : Nat) (x : Guard) : (s.setGuard g i x).hatTmo = s.hatTmo := rfl

@[simp] theorem State.setTh_pending (g : Nat) (x : Thread) : (s.setTh g x).pending = s.pending := rfl
@[simp] theorem State.setTh_now (g : Nat) (x : Thread) : (s.setTh g x).now = s.now := rfl
@[simp] theorem State.setTh_fresh (g : Nat) (x : Thread) : (s.setTh g x).fresh = s.fresh := rfl
@[simp] theorem State.setTh_mem (g : Nat) (x : Thread) : (s.setTh g x).mem = s.mem := rfl
@[simp] theorem State.setTh_regs (g : Nat) (x : Thread) : (s.setTh g x).regs = s.regs := rfl
@[simp] theorem State.setTh_caps (g : Nat) (x : Thread) : (s.setTh g x).caps = s.caps := rfl
@[simp] theorem State.setTh_stage (g : Nat) (x : Thread) : (s.setTh g x).stage = s.stage := rfl
@[simp] theorem State.setTh_bus (g : Nat) (x : Thread) : (s.setTh g x).bus = s.bus := rfl
@[simp] theorem State.setTh_wire (g : Nat) (x : Thread) : (s.setTh g x).wire = s.wire := rfl
@[simp] theorem State.setTh_msiRise (g : Nat) (x : Thread) : (s.setTh g x).msiRise = s.msiRise := rfl
@[simp] theorem State.setTh_ticks (g : Nat) (x : Thread) : (s.setTh g x).ticks = s.ticks := rfl
@[simp] theorem State.setTh_tickCount (g : Nat) (x : Thread) : (s.setTh g x).tickCount = s.tickCount := rfl
@[simp] theorem State.setTh_ct (g : Nat) (x : Thread) : (s.setTh g x).ct = s.ct := rfl
@[simp] theorem State.setTh_eps (g : Nat) (x : Thread) : (s.setTh g x).eps = s.eps := rfl
@[simp] theorem State.setTh_ecc (g : Nat) (x : Thread) : (s.setTh g x).ecc = s.ecc := rfl
@[simp] theorem State.setTh_cores (g : Nat) (x : Thread) : (s.setTh g x).cores = s.cores := rfl
@[simp] theorem State.setTh_tags (g : Nat) (x : Thread) : (s.setTh g x).tags = s.tags := rfl
@[simp] theorem State.setTh_guards (g : Nat) (x : Thread) : (s.setTh g x).guards = s.guards := rfl
@[simp] theorem State.setTh_hmsgs (g : Nat) (x : Thread) : (s.setTh g x).hmsgs = s.hmsgs := rfl
@[simp] theorem State.setTh_postAns (g : Nat) (x : Thread) : (s.setTh g x).postAns = s.postAns := rfl
@[simp] theorem State.setTh_comps (g : Nat) (x : Thread) : (s.setTh g x).comps = s.comps := rfl
@[simp] theorem State.setTh_resps (g : Nat) (x : Thread) : (s.setTh g x).resps = s.resps := rfl
@[simp] theorem State.setTh_resvs (g : Nat) (x : Thread) : (s.setTh g x).resvs = s.resvs := rfl
@[simp] theorem State.setTh_held (g : Nat) (x : Thread) : (s.setTh g x).held = s.held := rfl
@[simp] theorem State.setTh_down (g : Nat) (x : Thread) : (s.setTh g x).down = s.down := rfl
@[simp] theorem State.setTh_replays (g : Nat) (x : Thread) : (s.setTh g x).replays = s.replays := rfl
@[simp] theorem State.setTh_worms (g : Nat) (x : Thread) : (s.setTh g x).worms = s.worms := rfl
@[simp] theorem State.setTh_hatWin (g : Nat) (x : Thread) : (s.setTh g x).hatWin = s.hatWin := rfl
@[simp] theorem State.setTh_scrubDone (g : Nat) (x : Thread) : (s.setTh g x).scrubDone = s.scrubDone := rfl
@[simp] theorem State.setTh_chans (g : Nat) (x : Thread) : (s.setTh g x).chans = s.chans := rfl
@[simp] theorem State.setTh_brwLast (g : Nat) (x : Thread) : (s.setTh g x).brwLast = s.brwLast := rfl
@[simp] theorem State.setTh_tickWaits (g : Nat) (x : Thread) : (s.setTh g x).tickWaits = s.tickWaits := rfl
@[simp] theorem State.setTh_engines (g : Nat) (x : Thread) : (s.setTh g x).engines = s.engines := rfl
@[simp] theorem State.setTh_lbts (g : Nat) (x : Thread) : (s.setTh g x).lbts = s.lbts := rfl
@[simp] theorem State.setTh_sctx (g : Nat) (x : Thread) : (s.setTh g x).sctx = s.sctx := rfl
@[simp] theorem State.setTh_nbch (g : Nat) (x : Thread) : (s.setTh g x).nbch = s.nbch := rfl
@[simp] theorem State.setTh_pl (g : Nat) (x : Thread) : (s.setTh g x).pl = s.pl := rfl
@[simp] theorem State.setTh_macs (g : Nat) (x : Thread) : (s.setTh g x).macs = s.macs := rfl
@[simp] theorem State.setTh_hlt (g : Nat) (x : Thread) : (s.setTh g x).hlt = s.hlt := rfl
@[simp] theorem State.setTh_tack (g : Nat) (x : Thread) : (s.setTh g x).tack = s.tack := rfl
@[simp] theorem State.setTh_otp (g : Nat) (x : Thread) : (s.setTh g x).otp = s.otp := rfl
@[simp] theorem State.setTh_flash (g : Nat) (x : Thread) : (s.setTh g x).flash = s.flash := rfl
@[simp] theorem State.setTh_power (g : Nat) (x : Thread) : (s.setTh g x).power = s.power := rfl
@[simp] theorem State.setTh_gpio (g : Nat) (x : Thread) : (s.setTh g x).gpio = s.gpio := rfl
@[simp] theorem State.setTh_uartRx (g : Nat) (x : Thread) : (s.setTh g x).uartRx = s.uartRx := rfl
@[simp] theorem State.setTh_hatTmo (g : Nat) (x : Thread) : (s.setTh g x).hatTmo = s.hatTmo := rfl

@[simp] theorem State.setFlow_pending (f : Nat) (x : Flow) : (s.setFlow f x).pending = s.pending := rfl
@[simp] theorem State.setFlow_now (f : Nat) (x : Flow) : (s.setFlow f x).now = s.now := rfl
@[simp] theorem State.setFlow_fresh (f : Nat) (x : Flow) : (s.setFlow f x).fresh = s.fresh := rfl
@[simp] theorem State.setFlow_mem (f : Nat) (x : Flow) : (s.setFlow f x).mem = s.mem := rfl
@[simp] theorem State.setFlow_regs (f : Nat) (x : Flow) : (s.setFlow f x).regs = s.regs := rfl
@[simp] theorem State.setFlow_caps (f : Nat) (x : Flow) : (s.setFlow f x).caps = s.caps := rfl
@[simp] theorem State.setFlow_stage (f : Nat) (x : Flow) : (s.setFlow f x).stage = s.stage := rfl
@[simp] theorem State.setFlow_bus (f : Nat) (x : Flow) : (s.setFlow f x).bus = s.bus := rfl
@[simp] theorem State.setFlow_wire (f : Nat) (x : Flow) : (s.setFlow f x).wire = s.wire := rfl
@[simp] theorem State.setFlow_msiRise (f : Nat) (x : Flow) : (s.setFlow f x).msiRise = s.msiRise := rfl
@[simp] theorem State.setFlow_ticks (f : Nat) (x : Flow) : (s.setFlow f x).ticks = s.ticks := rfl
@[simp] theorem State.setFlow_tickCount (f : Nat) (x : Flow) : (s.setFlow f x).tickCount = s.tickCount := rfl
@[simp] theorem State.setFlow_ct (f : Nat) (x : Flow) : (s.setFlow f x).ct = s.ct := rfl
@[simp] theorem State.setFlow_eps (f : Nat) (x : Flow) : (s.setFlow f x).eps = s.eps := rfl
@[simp] theorem State.setFlow_ecc (f : Nat) (x : Flow) : (s.setFlow f x).ecc = s.ecc := rfl
@[simp] theorem State.setFlow_cores (f : Nat) (x : Flow) : (s.setFlow f x).cores = s.cores := rfl
@[simp] theorem State.setFlow_tags (f : Nat) (x : Flow) : (s.setFlow f x).tags = s.tags := rfl
@[simp] theorem State.setFlow_guards (f : Nat) (x : Flow) : (s.setFlow f x).guards = s.guards := rfl
@[simp] theorem State.setFlow_hmsgs (f : Nat) (x : Flow) : (s.setFlow f x).hmsgs = s.hmsgs := rfl
@[simp] theorem State.setFlow_postAns (f : Nat) (x : Flow) : (s.setFlow f x).postAns = s.postAns := rfl
@[simp] theorem State.setFlow_comps (f : Nat) (x : Flow) : (s.setFlow f x).comps = s.comps := rfl
@[simp] theorem State.setFlow_resps (f : Nat) (x : Flow) : (s.setFlow f x).resps = s.resps := rfl
@[simp] theorem State.setFlow_resvs (f : Nat) (x : Flow) : (s.setFlow f x).resvs = s.resvs := rfl
@[simp] theorem State.setFlow_held (f : Nat) (x : Flow) : (s.setFlow f x).held = s.held := rfl
@[simp] theorem State.setFlow_down (f : Nat) (x : Flow) : (s.setFlow f x).down = s.down := rfl
@[simp] theorem State.setFlow_replays (f : Nat) (x : Flow) : (s.setFlow f x).replays = s.replays := rfl
@[simp] theorem State.setFlow_worms (f : Nat) (x : Flow) : (s.setFlow f x).worms = s.worms := rfl
@[simp] theorem State.setFlow_hatWin (f : Nat) (x : Flow) : (s.setFlow f x).hatWin = s.hatWin := rfl
@[simp] theorem State.setFlow_scrubDone (f : Nat) (x : Flow) : (s.setFlow f x).scrubDone = s.scrubDone := rfl
@[simp] theorem State.setFlow_chans (f : Nat) (x : Flow) : (s.setFlow f x).chans = s.chans := rfl
@[simp] theorem State.setFlow_brwLast (f : Nat) (x : Flow) : (s.setFlow f x).brwLast = s.brwLast := rfl
@[simp] theorem State.setFlow_tickWaits (f : Nat) (x : Flow) : (s.setFlow f x).tickWaits = s.tickWaits := rfl
@[simp] theorem State.setFlow_engines (f : Nat) (x : Flow) : (s.setFlow f x).engines = s.engines := rfl
@[simp] theorem State.setFlow_lbts (f : Nat) (x : Flow) : (s.setFlow f x).lbts = s.lbts := rfl
@[simp] theorem State.setFlow_sctx (f : Nat) (x : Flow) : (s.setFlow f x).sctx = s.sctx := rfl
@[simp] theorem State.setFlow_nbch (f : Nat) (x : Flow) : (s.setFlow f x).nbch = s.nbch := rfl
@[simp] theorem State.setFlow_pl (f : Nat) (x : Flow) : (s.setFlow f x).pl = s.pl := rfl
@[simp] theorem State.setFlow_macs (f : Nat) (x : Flow) : (s.setFlow f x).macs = s.macs := rfl
@[simp] theorem State.setFlow_hlt (f : Nat) (x : Flow) : (s.setFlow f x).hlt = s.hlt := rfl
@[simp] theorem State.setFlow_tack (f : Nat) (x : Flow) : (s.setFlow f x).tack = s.tack := rfl
@[simp] theorem State.setFlow_otp (f : Nat) (x : Flow) : (s.setFlow f x).otp = s.otp := rfl
@[simp] theorem State.setFlow_flash (f : Nat) (x : Flow) : (s.setFlow f x).flash = s.flash := rfl
@[simp] theorem State.setFlow_power (f : Nat) (x : Flow) : (s.setFlow f x).power = s.power := rfl
@[simp] theorem State.setFlow_gpio (f : Nat) (x : Flow) : (s.setFlow f x).gpio = s.gpio := rfl
@[simp] theorem State.setFlow_uartRx (f : Nat) (x : Flow) : (s.setFlow f x).uartRx = s.uartRx := rfl
@[simp] theorem State.setFlow_hatTmo (f : Nat) (x : Flow) : (s.setFlow f x).hatTmo = s.hatTmo := rfl

@[simp] theorem State.setInsts_pending (l : List Inst) : (s.setInsts l).pending = s.pending := rfl
@[simp] theorem State.setInsts_now (l : List Inst) : (s.setInsts l).now = s.now := rfl
@[simp] theorem State.setInsts_fresh (l : List Inst) : (s.setInsts l).fresh = s.fresh := rfl
@[simp] theorem State.setInsts_mem (l : List Inst) : (s.setInsts l).mem = s.mem := rfl
@[simp] theorem State.setInsts_regs (l : List Inst) : (s.setInsts l).regs = s.regs := rfl
@[simp] theorem State.setInsts_caps (l : List Inst) : (s.setInsts l).caps = s.caps := rfl
@[simp] theorem State.setInsts_stage (l : List Inst) : (s.setInsts l).stage = s.stage := rfl
@[simp] theorem State.setInsts_bus (l : List Inst) : (s.setInsts l).bus = s.bus := rfl
@[simp] theorem State.setInsts_wire (l : List Inst) : (s.setInsts l).wire = s.wire := rfl
@[simp] theorem State.setInsts_msiRise (l : List Inst) : (s.setInsts l).msiRise = s.msiRise := rfl
@[simp] theorem State.setInsts_ticks (l : List Inst) : (s.setInsts l).ticks = s.ticks := rfl
@[simp] theorem State.setInsts_tickCount (l : List Inst) : (s.setInsts l).tickCount = s.tickCount := rfl
@[simp] theorem State.setInsts_ct (l : List Inst) : (s.setInsts l).ct = s.ct := rfl
@[simp] theorem State.setInsts_eps (l : List Inst) : (s.setInsts l).eps = s.eps := rfl
@[simp] theorem State.setInsts_ecc (l : List Inst) : (s.setInsts l).ecc = s.ecc := rfl
@[simp] theorem State.setInsts_cores (l : List Inst) : (s.setInsts l).cores = s.cores := rfl
@[simp] theorem State.setInsts_tags (l : List Inst) : (s.setInsts l).tags = s.tags := rfl
@[simp] theorem State.setInsts_guards (l : List Inst) : (s.setInsts l).guards = s.guards := rfl
@[simp] theorem State.setInsts_hmsgs (l : List Inst) : (s.setInsts l).hmsgs = s.hmsgs := rfl
@[simp] theorem State.setInsts_postAns (l : List Inst) : (s.setInsts l).postAns = s.postAns := rfl
@[simp] theorem State.setInsts_comps (l : List Inst) : (s.setInsts l).comps = s.comps := rfl
@[simp] theorem State.setInsts_resps (l : List Inst) : (s.setInsts l).resps = s.resps := rfl
@[simp] theorem State.setInsts_resvs (l : List Inst) : (s.setInsts l).resvs = s.resvs := rfl
@[simp] theorem State.setInsts_held (l : List Inst) : (s.setInsts l).held = s.held := rfl
@[simp] theorem State.setInsts_down (l : List Inst) : (s.setInsts l).down = s.down := rfl
@[simp] theorem State.setInsts_replays (l : List Inst) : (s.setInsts l).replays = s.replays := rfl
@[simp] theorem State.setInsts_worms (l : List Inst) : (s.setInsts l).worms = s.worms := rfl
@[simp] theorem State.setInsts_hatWin (l : List Inst) : (s.setInsts l).hatWin = s.hatWin := rfl
@[simp] theorem State.setInsts_scrubDone (l : List Inst) : (s.setInsts l).scrubDone = s.scrubDone := rfl
@[simp] theorem State.setInsts_chans (l : List Inst) : (s.setInsts l).chans = s.chans := rfl
@[simp] theorem State.setInsts_brwLast (l : List Inst) : (s.setInsts l).brwLast = s.brwLast := rfl
@[simp] theorem State.setInsts_tickWaits (l : List Inst) : (s.setInsts l).tickWaits = s.tickWaits := rfl
@[simp] theorem State.setInsts_engines (l : List Inst) : (s.setInsts l).engines = s.engines := rfl
@[simp] theorem State.setInsts_lbts (l : List Inst) : (s.setInsts l).lbts = s.lbts := rfl
@[simp] theorem State.setInsts_sctx (l : List Inst) : (s.setInsts l).sctx = s.sctx := rfl
@[simp] theorem State.setInsts_nbch (l : List Inst) : (s.setInsts l).nbch = s.nbch := rfl
@[simp] theorem State.setInsts_pl (l : List Inst) : (s.setInsts l).pl = s.pl := rfl
@[simp] theorem State.setInsts_macs (l : List Inst) : (s.setInsts l).macs = s.macs := rfl
@[simp] theorem State.setInsts_hlt (l : List Inst) : (s.setInsts l).hlt = s.hlt := rfl
@[simp] theorem State.setInsts_tack (l : List Inst) : (s.setInsts l).tack = s.tack := rfl
@[simp] theorem State.setInsts_otp (l : List Inst) : (s.setInsts l).otp = s.otp := rfl
@[simp] theorem State.setInsts_flash (l : List Inst) : (s.setInsts l).flash = s.flash := rfl
@[simp] theorem State.setInsts_power (l : List Inst) : (s.setInsts l).power = s.power := rfl
@[simp] theorem State.setInsts_gpio (l : List Inst) : (s.setInsts l).gpio = s.gpio := rfl
@[simp] theorem State.setInsts_uartRx (l : List Inst) : (s.setInsts l).uartRx = s.uartRx := rfl
@[simp] theorem State.setInsts_hatTmo (l : List Inst) : (s.setInsts l).hatTmo = s.hatTmo := rfl

@[simp] theorem State.setPlace_pending (l : List Place) : (s.setPlace l).pending = s.pending := rfl
@[simp] theorem State.setPlace_now (l : List Place) : (s.setPlace l).now = s.now := rfl
@[simp] theorem State.setPlace_fresh (l : List Place) : (s.setPlace l).fresh = s.fresh := rfl
@[simp] theorem State.setPlace_mem (l : List Place) : (s.setPlace l).mem = s.mem := rfl
@[simp] theorem State.setPlace_regs (l : List Place) : (s.setPlace l).regs = s.regs := rfl
@[simp] theorem State.setPlace_caps (l : List Place) : (s.setPlace l).caps = s.caps := rfl
@[simp] theorem State.setPlace_stage (l : List Place) : (s.setPlace l).stage = s.stage := rfl
@[simp] theorem State.setPlace_bus (l : List Place) : (s.setPlace l).bus = s.bus := rfl
@[simp] theorem State.setPlace_wire (l : List Place) : (s.setPlace l).wire = s.wire := rfl
@[simp] theorem State.setPlace_msiRise (l : List Place) : (s.setPlace l).msiRise = s.msiRise := rfl
@[simp] theorem State.setPlace_ticks (l : List Place) : (s.setPlace l).ticks = s.ticks := rfl
@[simp] theorem State.setPlace_tickCount (l : List Place) : (s.setPlace l).tickCount = s.tickCount := rfl
@[simp] theorem State.setPlace_ct (l : List Place) : (s.setPlace l).ct = s.ct := rfl
@[simp] theorem State.setPlace_eps (l : List Place) : (s.setPlace l).eps = s.eps := rfl
@[simp] theorem State.setPlace_ecc (l : List Place) : (s.setPlace l).ecc = s.ecc := rfl
@[simp] theorem State.setPlace_cores (l : List Place) : (s.setPlace l).cores = s.cores := rfl
@[simp] theorem State.setPlace_tags (l : List Place) : (s.setPlace l).tags = s.tags := rfl
@[simp] theorem State.setPlace_guards (l : List Place) : (s.setPlace l).guards = s.guards := rfl
@[simp] theorem State.setPlace_hmsgs (l : List Place) : (s.setPlace l).hmsgs = s.hmsgs := rfl
@[simp] theorem State.setPlace_postAns (l : List Place) : (s.setPlace l).postAns = s.postAns := rfl
@[simp] theorem State.setPlace_comps (l : List Place) : (s.setPlace l).comps = s.comps := rfl
@[simp] theorem State.setPlace_resps (l : List Place) : (s.setPlace l).resps = s.resps := rfl
@[simp] theorem State.setPlace_resvs (l : List Place) : (s.setPlace l).resvs = s.resvs := rfl
@[simp] theorem State.setPlace_held (l : List Place) : (s.setPlace l).held = s.held := rfl
@[simp] theorem State.setPlace_down (l : List Place) : (s.setPlace l).down = s.down := rfl
@[simp] theorem State.setPlace_replays (l : List Place) : (s.setPlace l).replays = s.replays := rfl
@[simp] theorem State.setPlace_worms (l : List Place) : (s.setPlace l).worms = s.worms := rfl
@[simp] theorem State.setPlace_hatWin (l : List Place) : (s.setPlace l).hatWin = s.hatWin := rfl
@[simp] theorem State.setPlace_scrubDone (l : List Place) : (s.setPlace l).scrubDone = s.scrubDone := rfl
@[simp] theorem State.setPlace_chans (l : List Place) : (s.setPlace l).chans = s.chans := rfl
@[simp] theorem State.setPlace_brwLast (l : List Place) : (s.setPlace l).brwLast = s.brwLast := rfl
@[simp] theorem State.setPlace_tickWaits (l : List Place) : (s.setPlace l).tickWaits = s.tickWaits := rfl
@[simp] theorem State.setPlace_engines (l : List Place) : (s.setPlace l).engines = s.engines := rfl
@[simp] theorem State.setPlace_lbts (l : List Place) : (s.setPlace l).lbts = s.lbts := rfl
@[simp] theorem State.setPlace_sctx (l : List Place) : (s.setPlace l).sctx = s.sctx := rfl
@[simp] theorem State.setPlace_nbch (l : List Place) : (s.setPlace l).nbch = s.nbch := rfl
@[simp] theorem State.setPlace_pl (l : List Place) : (s.setPlace l).pl = s.pl := rfl
@[simp] theorem State.setPlace_macs (l : List Place) : (s.setPlace l).macs = s.macs := rfl
@[simp] theorem State.setPlace_hlt (l : List Place) : (s.setPlace l).hlt = s.hlt := rfl
@[simp] theorem State.setPlace_tack (l : List Place) : (s.setPlace l).tack = s.tack := rfl
@[simp] theorem State.setPlace_otp (l : List Place) : (s.setPlace l).otp = s.otp := rfl
@[simp] theorem State.setPlace_flash (l : List Place) : (s.setPlace l).flash = s.flash := rfl
@[simp] theorem State.setPlace_power (l : List Place) : (s.setPlace l).power = s.power := rfl
@[simp] theorem State.setPlace_gpio (l : List Place) : (s.setPlace l).gpio = s.gpio := rfl
@[simp] theorem State.setPlace_uartRx (l : List Place) : (s.setPlace l).uartRx = s.uartRx := rfl
@[simp] theorem State.setPlace_hatTmo (l : List Place) : (s.setPlace l).hatTmo = s.hatTmo := rfl

@[simp] theorem State.setChan_pending (c : Nat) (x : Chan) : (s.setChan c x).pending = s.pending := rfl
@[simp] theorem State.setChan_now (c : Nat) (x : Chan) : (s.setChan c x).now = s.now := rfl
@[simp] theorem State.setChan_fresh (c : Nat) (x : Chan) : (s.setChan c x).fresh = s.fresh := rfl
@[simp] theorem State.setChan_mem (c : Nat) (x : Chan) : (s.setChan c x).mem = s.mem := rfl
@[simp] theorem State.setChan_regs (c : Nat) (x : Chan) : (s.setChan c x).regs = s.regs := rfl
@[simp] theorem State.setChan_caps (c : Nat) (x : Chan) : (s.setChan c x).caps = s.caps := rfl
@[simp] theorem State.setChan_stage (c : Nat) (x : Chan) : (s.setChan c x).stage = s.stage := rfl
@[simp] theorem State.setChan_bus (c : Nat) (x : Chan) : (s.setChan c x).bus = s.bus := rfl
@[simp] theorem State.setChan_wire (c : Nat) (x : Chan) : (s.setChan c x).wire = s.wire := rfl
@[simp] theorem State.setChan_msiRise (c : Nat) (x : Chan) : (s.setChan c x).msiRise = s.msiRise := rfl
@[simp] theorem State.setChan_ticks (c : Nat) (x : Chan) : (s.setChan c x).ticks = s.ticks := rfl
@[simp] theorem State.setChan_tickCount (c : Nat) (x : Chan) : (s.setChan c x).tickCount = s.tickCount := rfl
@[simp] theorem State.setChan_ct (c : Nat) (x : Chan) : (s.setChan c x).ct = s.ct := rfl
@[simp] theorem State.setChan_eps (c : Nat) (x : Chan) : (s.setChan c x).eps = s.eps := rfl
@[simp] theorem State.setChan_ecc (c : Nat) (x : Chan) : (s.setChan c x).ecc = s.ecc := rfl
@[simp] theorem State.setChan_cores (c : Nat) (x : Chan) : (s.setChan c x).cores = s.cores := rfl
@[simp] theorem State.setChan_tags (c : Nat) (x : Chan) : (s.setChan c x).tags = s.tags := rfl
@[simp] theorem State.setChan_guards (c : Nat) (x : Chan) : (s.setChan c x).guards = s.guards := rfl
@[simp] theorem State.setChan_hmsgs (c : Nat) (x : Chan) : (s.setChan c x).hmsgs = s.hmsgs := rfl
@[simp] theorem State.setChan_postAns (c : Nat) (x : Chan) : (s.setChan c x).postAns = s.postAns := rfl
@[simp] theorem State.setChan_comps (c : Nat) (x : Chan) : (s.setChan c x).comps = s.comps := rfl
@[simp] theorem State.setChan_resps (c : Nat) (x : Chan) : (s.setChan c x).resps = s.resps := rfl
@[simp] theorem State.setChan_resvs (c : Nat) (x : Chan) : (s.setChan c x).resvs = s.resvs := rfl
@[simp] theorem State.setChan_held (c : Nat) (x : Chan) : (s.setChan c x).held = s.held := rfl
@[simp] theorem State.setChan_down (c : Nat) (x : Chan) : (s.setChan c x).down = s.down := rfl
@[simp] theorem State.setChan_replays (c : Nat) (x : Chan) : (s.setChan c x).replays = s.replays := rfl
@[simp] theorem State.setChan_worms (c : Nat) (x : Chan) : (s.setChan c x).worms = s.worms := rfl
@[simp] theorem State.setChan_ym (c : Nat) (x : Chan) : (s.setChan c x).ym = s.ym := rfl
@[simp] theorem State.setChan_hatWin (c : Nat) (x : Chan) : (s.setChan c x).hatWin = s.hatWin := rfl
@[simp] theorem State.setChan_scrubDone (c : Nat) (x : Chan) : (s.setChan c x).scrubDone = s.scrubDone := rfl
@[simp] theorem State.setChan_brwLast (c : Nat) (x : Chan) : (s.setChan c x).brwLast = s.brwLast := rfl
@[simp] theorem State.setChan_tickWaits (c : Nat) (x : Chan) : (s.setChan c x).tickWaits = s.tickWaits := rfl
@[simp] theorem State.setChan_engines (c : Nat) (x : Chan) : (s.setChan c x).engines = s.engines := rfl
@[simp] theorem State.setChan_lbts (c : Nat) (x : Chan) : (s.setChan c x).lbts = s.lbts := rfl
@[simp] theorem State.setChan_sctx (c : Nat) (x : Chan) : (s.setChan c x).sctx = s.sctx := rfl
@[simp] theorem State.setChan_nbch (c : Nat) (x : Chan) : (s.setChan c x).nbch = s.nbch := rfl
@[simp] theorem State.setChan_pl (c : Nat) (x : Chan) : (s.setChan c x).pl = s.pl := rfl
@[simp] theorem State.setChan_macs (c : Nat) (x : Chan) : (s.setChan c x).macs = s.macs := rfl
@[simp] theorem State.setChan_hlt (c : Nat) (x : Chan) : (s.setChan c x).hlt = s.hlt := rfl
@[simp] theorem State.setChan_tack (c : Nat) (x : Chan) : (s.setChan c x).tack = s.tack := rfl
@[simp] theorem State.setChan_otp (c : Nat) (x : Chan) : (s.setChan c x).otp = s.otp := rfl
@[simp] theorem State.setChan_flash (c : Nat) (x : Chan) : (s.setChan c x).flash = s.flash := rfl
@[simp] theorem State.setChan_power (c : Nat) (x : Chan) : (s.setChan c x).power = s.power := rfl
@[simp] theorem State.setChan_gpio (c : Nat) (x : Chan) : (s.setChan c x).gpio = s.gpio := rfl
@[simp] theorem State.setChan_uartRx (c : Nat) (x : Chan) : (s.setChan c x).uartRx = s.uartRx := rfl
@[simp] theorem State.setChan_hatTmo (c : Nat) (x : Chan) : (s.setChan c x).hatTmo = s.hatTmo := rfl

@[simp] theorem State.modChan_pending (c : Nat) (f : Chan → Chan) : (s.modChan c f).pending = s.pending := rfl
@[simp] theorem State.modChan_now (c : Nat) (f : Chan → Chan) : (s.modChan c f).now = s.now := rfl
@[simp] theorem State.modChan_fresh (c : Nat) (f : Chan → Chan) : (s.modChan c f).fresh = s.fresh := rfl
@[simp] theorem State.modChan_mem (c : Nat) (f : Chan → Chan) : (s.modChan c f).mem = s.mem := rfl
@[simp] theorem State.modChan_regs (c : Nat) (f : Chan → Chan) : (s.modChan c f).regs = s.regs := rfl
@[simp] theorem State.modChan_caps (c : Nat) (f : Chan → Chan) : (s.modChan c f).caps = s.caps := rfl
@[simp] theorem State.modChan_stage (c : Nat) (f : Chan → Chan) : (s.modChan c f).stage = s.stage := rfl
@[simp] theorem State.modChan_bus (c : Nat) (f : Chan → Chan) : (s.modChan c f).bus = s.bus := rfl
@[simp] theorem State.modChan_wire (c : Nat) (f : Chan → Chan) : (s.modChan c f).wire = s.wire := rfl
@[simp] theorem State.modChan_msiRise (c : Nat) (f : Chan → Chan) : (s.modChan c f).msiRise = s.msiRise := rfl
@[simp] theorem State.modChan_ticks (c : Nat) (f : Chan → Chan) : (s.modChan c f).ticks = s.ticks := rfl
@[simp] theorem State.modChan_tickCount (c : Nat) (f : Chan → Chan) : (s.modChan c f).tickCount = s.tickCount := rfl
@[simp] theorem State.modChan_ct (c : Nat) (f : Chan → Chan) : (s.modChan c f).ct = s.ct := rfl
@[simp] theorem State.modChan_eps (c : Nat) (f : Chan → Chan) : (s.modChan c f).eps = s.eps := rfl
@[simp] theorem State.modChan_ecc (c : Nat) (f : Chan → Chan) : (s.modChan c f).ecc = s.ecc := rfl
@[simp] theorem State.modChan_cores (c : Nat) (f : Chan → Chan) : (s.modChan c f).cores = s.cores := rfl
@[simp] theorem State.modChan_tags (c : Nat) (f : Chan → Chan) : (s.modChan c f).tags = s.tags := rfl
@[simp] theorem State.modChan_guards (c : Nat) (f : Chan → Chan) : (s.modChan c f).guards = s.guards := rfl
@[simp] theorem State.modChan_hmsgs (c : Nat) (f : Chan → Chan) : (s.modChan c f).hmsgs = s.hmsgs := rfl
@[simp] theorem State.modChan_postAns (c : Nat) (f : Chan → Chan) : (s.modChan c f).postAns = s.postAns := rfl
@[simp] theorem State.modChan_comps (c : Nat) (f : Chan → Chan) : (s.modChan c f).comps = s.comps := rfl
@[simp] theorem State.modChan_resps (c : Nat) (f : Chan → Chan) : (s.modChan c f).resps = s.resps := rfl
@[simp] theorem State.modChan_resvs (c : Nat) (f : Chan → Chan) : (s.modChan c f).resvs = s.resvs := rfl
@[simp] theorem State.modChan_held (c : Nat) (f : Chan → Chan) : (s.modChan c f).held = s.held := rfl
@[simp] theorem State.modChan_down (c : Nat) (f : Chan → Chan) : (s.modChan c f).down = s.down := rfl
@[simp] theorem State.modChan_replays (c : Nat) (f : Chan → Chan) : (s.modChan c f).replays = s.replays := rfl
@[simp] theorem State.modChan_worms (c : Nat) (f : Chan → Chan) : (s.modChan c f).worms = s.worms := rfl
@[simp] theorem State.modChan_ym (c : Nat) (f : Chan → Chan) : (s.modChan c f).ym = s.ym := rfl
@[simp] theorem State.modChan_hatWin (c : Nat) (f : Chan → Chan) : (s.modChan c f).hatWin = s.hatWin := rfl
@[simp] theorem State.modChan_scrubDone (c : Nat) (f : Chan → Chan) : (s.modChan c f).scrubDone = s.scrubDone := rfl
@[simp] theorem State.modChan_brwLast (c : Nat) (f : Chan → Chan) : (s.modChan c f).brwLast = s.brwLast := rfl
@[simp] theorem State.modChan_tickWaits (c : Nat) (f : Chan → Chan) : (s.modChan c f).tickWaits = s.tickWaits := rfl
@[simp] theorem State.modChan_engines (c : Nat) (f : Chan → Chan) : (s.modChan c f).engines = s.engines := rfl
@[simp] theorem State.modChan_lbts (c : Nat) (f : Chan → Chan) : (s.modChan c f).lbts = s.lbts := rfl
@[simp] theorem State.modChan_sctx (c : Nat) (f : Chan → Chan) : (s.modChan c f).sctx = s.sctx := rfl
@[simp] theorem State.modChan_nbch (c : Nat) (f : Chan → Chan) : (s.modChan c f).nbch = s.nbch := rfl
@[simp] theorem State.modChan_pl (c : Nat) (f : Chan → Chan) : (s.modChan c f).pl = s.pl := rfl
@[simp] theorem State.modChan_macs (c : Nat) (f : Chan → Chan) : (s.modChan c f).macs = s.macs := rfl
@[simp] theorem State.modChan_hlt (c : Nat) (f : Chan → Chan) : (s.modChan c f).hlt = s.hlt := rfl
@[simp] theorem State.modChan_tack (c : Nat) (f : Chan → Chan) : (s.modChan c f).tack = s.tack := rfl
@[simp] theorem State.modChan_otp (c : Nat) (f : Chan → Chan) : (s.modChan c f).otp = s.otp := rfl
@[simp] theorem State.modChan_flash (c : Nat) (f : Chan → Chan) : (s.modChan c f).flash = s.flash := rfl
@[simp] theorem State.modChan_power (c : Nat) (f : Chan → Chan) : (s.modChan c f).power = s.power := rfl
@[simp] theorem State.modChan_gpio (c : Nat) (f : Chan → Chan) : (s.modChan c f).gpio = s.gpio := rfl
@[simp] theorem State.modChan_uartRx (c : Nat) (f : Chan → Chan) : (s.modChan c f).uartRx = s.uartRx := rfl
@[simp] theorem State.modChan_hatTmo (c : Nat) (f : Chan → Chan) : (s.modChan c f).hatTmo = s.hatTmo := rfl

@[simp] theorem State.setEng_pending (e : Nat) (x : Engine) : (s.setEng e x).pending = s.pending := rfl
@[simp] theorem State.setEng_now (e : Nat) (x : Engine) : (s.setEng e x).now = s.now := rfl
@[simp] theorem State.setEng_fresh (e : Nat) (x : Engine) : (s.setEng e x).fresh = s.fresh := rfl
@[simp] theorem State.setEng_mem (e : Nat) (x : Engine) : (s.setEng e x).mem = s.mem := rfl
@[simp] theorem State.setEng_regs (e : Nat) (x : Engine) : (s.setEng e x).regs = s.regs := rfl
@[simp] theorem State.setEng_caps (e : Nat) (x : Engine) : (s.setEng e x).caps = s.caps := rfl
@[simp] theorem State.setEng_stage (e : Nat) (x : Engine) : (s.setEng e x).stage = s.stage := rfl
@[simp] theorem State.setEng_bus (e : Nat) (x : Engine) : (s.setEng e x).bus = s.bus := rfl
@[simp] theorem State.setEng_wire (e : Nat) (x : Engine) : (s.setEng e x).wire = s.wire := rfl
@[simp] theorem State.setEng_msiRise (e : Nat) (x : Engine) : (s.setEng e x).msiRise = s.msiRise := rfl
@[simp] theorem State.setEng_ticks (e : Nat) (x : Engine) : (s.setEng e x).ticks = s.ticks := rfl
@[simp] theorem State.setEng_tickCount (e : Nat) (x : Engine) : (s.setEng e x).tickCount = s.tickCount := rfl
@[simp] theorem State.setEng_ct (e : Nat) (x : Engine) : (s.setEng e x).ct = s.ct := rfl
@[simp] theorem State.setEng_eps (e : Nat) (x : Engine) : (s.setEng e x).eps = s.eps := rfl
@[simp] theorem State.setEng_ecc (e : Nat) (x : Engine) : (s.setEng e x).ecc = s.ecc := rfl
@[simp] theorem State.setEng_cores (e : Nat) (x : Engine) : (s.setEng e x).cores = s.cores := rfl
@[simp] theorem State.setEng_tags (e : Nat) (x : Engine) : (s.setEng e x).tags = s.tags := rfl
@[simp] theorem State.setEng_guards (e : Nat) (x : Engine) : (s.setEng e x).guards = s.guards := rfl
@[simp] theorem State.setEng_hmsgs (e : Nat) (x : Engine) : (s.setEng e x).hmsgs = s.hmsgs := rfl
@[simp] theorem State.setEng_postAns (e : Nat) (x : Engine) : (s.setEng e x).postAns = s.postAns := rfl
@[simp] theorem State.setEng_comps (e : Nat) (x : Engine) : (s.setEng e x).comps = s.comps := rfl
@[simp] theorem State.setEng_resps (e : Nat) (x : Engine) : (s.setEng e x).resps = s.resps := rfl
@[simp] theorem State.setEng_resvs (e : Nat) (x : Engine) : (s.setEng e x).resvs = s.resvs := rfl
@[simp] theorem State.setEng_held (e : Nat) (x : Engine) : (s.setEng e x).held = s.held := rfl
@[simp] theorem State.setEng_down (e : Nat) (x : Engine) : (s.setEng e x).down = s.down := rfl
@[simp] theorem State.setEng_replays (e : Nat) (x : Engine) : (s.setEng e x).replays = s.replays := rfl
@[simp] theorem State.setEng_worms (e : Nat) (x : Engine) : (s.setEng e x).worms = s.worms := rfl
@[simp] theorem State.setEng_ym (e : Nat) (x : Engine) : (s.setEng e x).ym = s.ym := rfl
@[simp] theorem State.setEng_hatWin (e : Nat) (x : Engine) : (s.setEng e x).hatWin = s.hatWin := rfl
@[simp] theorem State.setEng_scrubDone (e : Nat) (x : Engine) : (s.setEng e x).scrubDone = s.scrubDone := rfl
@[simp] theorem State.setEng_chans (e : Nat) (x : Engine) : (s.setEng e x).chans = s.chans := rfl
@[simp] theorem State.setEng_brwLast (e : Nat) (x : Engine) : (s.setEng e x).brwLast = s.brwLast := rfl
@[simp] theorem State.setEng_tickWaits (e : Nat) (x : Engine) : (s.setEng e x).tickWaits = s.tickWaits := rfl
@[simp] theorem State.setEng_lbts (e : Nat) (x : Engine) : (s.setEng e x).lbts = s.lbts := rfl
@[simp] theorem State.setEng_sctx (e : Nat) (x : Engine) : (s.setEng e x).sctx = s.sctx := rfl
@[simp] theorem State.setEng_nbch (e : Nat) (x : Engine) : (s.setEng e x).nbch = s.nbch := rfl
@[simp] theorem State.setEng_pl (e : Nat) (x : Engine) : (s.setEng e x).pl = s.pl := rfl
@[simp] theorem State.setEng_macs (e : Nat) (x : Engine) : (s.setEng e x).macs = s.macs := rfl
@[simp] theorem State.setEng_hlt (e : Nat) (x : Engine) : (s.setEng e x).hlt = s.hlt := rfl
@[simp] theorem State.setEng_tack (e : Nat) (x : Engine) : (s.setEng e x).tack = s.tack := rfl
@[simp] theorem State.setEng_otp (e : Nat) (x : Engine) : (s.setEng e x).otp = s.otp := rfl
@[simp] theorem State.setEng_flash (e : Nat) (x : Engine) : (s.setEng e x).flash = s.flash := rfl
@[simp] theorem State.setEng_power (e : Nat) (x : Engine) : (s.setEng e x).power = s.power := rfl
@[simp] theorem State.setEng_gpio (e : Nat) (x : Engine) : (s.setEng e x).gpio = s.gpio := rfl
@[simp] theorem State.setEng_uartRx (e : Nat) (x : Engine) : (s.setEng e x).uartRx = s.uartRx := rfl
@[simp] theorem State.setEng_hatTmo (e : Nat) (x : Engine) : (s.setEng e x).hatTmo = s.hatTmo := rfl

@[simp] theorem State.modEng_pending (e : Nat) (f : Engine → Engine) : (s.modEng e f).pending = s.pending := rfl
@[simp] theorem State.modEng_now (e : Nat) (f : Engine → Engine) : (s.modEng e f).now = s.now := rfl
@[simp] theorem State.modEng_fresh (e : Nat) (f : Engine → Engine) : (s.modEng e f).fresh = s.fresh := rfl
@[simp] theorem State.modEng_mem (e : Nat) (f : Engine → Engine) : (s.modEng e f).mem = s.mem := rfl
@[simp] theorem State.modEng_regs (e : Nat) (f : Engine → Engine) : (s.modEng e f).regs = s.regs := rfl
@[simp] theorem State.modEng_caps (e : Nat) (f : Engine → Engine) : (s.modEng e f).caps = s.caps := rfl
@[simp] theorem State.modEng_stage (e : Nat) (f : Engine → Engine) : (s.modEng e f).stage = s.stage := rfl
@[simp] theorem State.modEng_bus (e : Nat) (f : Engine → Engine) : (s.modEng e f).bus = s.bus := rfl
@[simp] theorem State.modEng_wire (e : Nat) (f : Engine → Engine) : (s.modEng e f).wire = s.wire := rfl
@[simp] theorem State.modEng_msiRise (e : Nat) (f : Engine → Engine) : (s.modEng e f).msiRise = s.msiRise := rfl
@[simp] theorem State.modEng_ticks (e : Nat) (f : Engine → Engine) : (s.modEng e f).ticks = s.ticks := rfl
@[simp] theorem State.modEng_tickCount (e : Nat) (f : Engine → Engine) : (s.modEng e f).tickCount = s.tickCount := rfl
@[simp] theorem State.modEng_ct (e : Nat) (f : Engine → Engine) : (s.modEng e f).ct = s.ct := rfl
@[simp] theorem State.modEng_eps (e : Nat) (f : Engine → Engine) : (s.modEng e f).eps = s.eps := rfl
@[simp] theorem State.modEng_ecc (e : Nat) (f : Engine → Engine) : (s.modEng e f).ecc = s.ecc := rfl
@[simp] theorem State.modEng_cores (e : Nat) (f : Engine → Engine) : (s.modEng e f).cores = s.cores := rfl
@[simp] theorem State.modEng_tags (e : Nat) (f : Engine → Engine) : (s.modEng e f).tags = s.tags := rfl
@[simp] theorem State.modEng_guards (e : Nat) (f : Engine → Engine) : (s.modEng e f).guards = s.guards := rfl
@[simp] theorem State.modEng_hmsgs (e : Nat) (f : Engine → Engine) : (s.modEng e f).hmsgs = s.hmsgs := rfl
@[simp] theorem State.modEng_postAns (e : Nat) (f : Engine → Engine) : (s.modEng e f).postAns = s.postAns := rfl
@[simp] theorem State.modEng_comps (e : Nat) (f : Engine → Engine) : (s.modEng e f).comps = s.comps := rfl
@[simp] theorem State.modEng_resps (e : Nat) (f : Engine → Engine) : (s.modEng e f).resps = s.resps := rfl
@[simp] theorem State.modEng_resvs (e : Nat) (f : Engine → Engine) : (s.modEng e f).resvs = s.resvs := rfl
@[simp] theorem State.modEng_held (e : Nat) (f : Engine → Engine) : (s.modEng e f).held = s.held := rfl
@[simp] theorem State.modEng_down (e : Nat) (f : Engine → Engine) : (s.modEng e f).down = s.down := rfl
@[simp] theorem State.modEng_replays (e : Nat) (f : Engine → Engine) : (s.modEng e f).replays = s.replays := rfl
@[simp] theorem State.modEng_worms (e : Nat) (f : Engine → Engine) : (s.modEng e f).worms = s.worms := rfl
@[simp] theorem State.modEng_ym (e : Nat) (f : Engine → Engine) : (s.modEng e f).ym = s.ym := rfl
@[simp] theorem State.modEng_hatWin (e : Nat) (f : Engine → Engine) : (s.modEng e f).hatWin = s.hatWin := rfl
@[simp] theorem State.modEng_scrubDone (e : Nat) (f : Engine → Engine) : (s.modEng e f).scrubDone = s.scrubDone := rfl
@[simp] theorem State.modEng_chans (e : Nat) (f : Engine → Engine) : (s.modEng e f).chans = s.chans := rfl
@[simp] theorem State.modEng_brwLast (e : Nat) (f : Engine → Engine) : (s.modEng e f).brwLast = s.brwLast := rfl
@[simp] theorem State.modEng_tickWaits (e : Nat) (f : Engine → Engine) : (s.modEng e f).tickWaits = s.tickWaits := rfl
@[simp] theorem State.modEng_lbts (e : Nat) (f : Engine → Engine) : (s.modEng e f).lbts = s.lbts := rfl
@[simp] theorem State.modEng_sctx (e : Nat) (f : Engine → Engine) : (s.modEng e f).sctx = s.sctx := rfl
@[simp] theorem State.modEng_nbch (e : Nat) (f : Engine → Engine) : (s.modEng e f).nbch = s.nbch := rfl
@[simp] theorem State.modEng_pl (e : Nat) (f : Engine → Engine) : (s.modEng e f).pl = s.pl := rfl
@[simp] theorem State.modEng_macs (e : Nat) (f : Engine → Engine) : (s.modEng e f).macs = s.macs := rfl
@[simp] theorem State.modEng_hlt (e : Nat) (f : Engine → Engine) : (s.modEng e f).hlt = s.hlt := rfl
@[simp] theorem State.modEng_tack (e : Nat) (f : Engine → Engine) : (s.modEng e f).tack = s.tack := rfl
@[simp] theorem State.modEng_otp (e : Nat) (f : Engine → Engine) : (s.modEng e f).otp = s.otp := rfl
@[simp] theorem State.modEng_flash (e : Nat) (f : Engine → Engine) : (s.modEng e f).flash = s.flash := rfl
@[simp] theorem State.modEng_power (e : Nat) (f : Engine → Engine) : (s.modEng e f).power = s.power := rfl
@[simp] theorem State.modEng_gpio (e : Nat) (f : Engine → Engine) : (s.modEng e f).gpio = s.gpio := rfl
@[simp] theorem State.modEng_uartRx (e : Nat) (f : Engine → Engine) : (s.modEng e f).uartRx = s.uartRx := rfl
@[simp] theorem State.modEng_hatTmo (e : Nat) (f : Engine → Engine) : (s.modEng e f).hatTmo = s.hatTmo := rfl

@[simp] theorem State.setLbt_pending (c : Nat) (x : Lbt) : (s.setLbt c x).pending = s.pending := rfl
@[simp] theorem State.setLbt_now (c : Nat) (x : Lbt) : (s.setLbt c x).now = s.now := rfl
@[simp] theorem State.setLbt_fresh (c : Nat) (x : Lbt) : (s.setLbt c x).fresh = s.fresh := rfl
@[simp] theorem State.setLbt_mem (c : Nat) (x : Lbt) : (s.setLbt c x).mem = s.mem := rfl
@[simp] theorem State.setLbt_regs (c : Nat) (x : Lbt) : (s.setLbt c x).regs = s.regs := rfl
@[simp] theorem State.setLbt_caps (c : Nat) (x : Lbt) : (s.setLbt c x).caps = s.caps := rfl
@[simp] theorem State.setLbt_stage (c : Nat) (x : Lbt) : (s.setLbt c x).stage = s.stage := rfl
@[simp] theorem State.setLbt_bus (c : Nat) (x : Lbt) : (s.setLbt c x).bus = s.bus := rfl
@[simp] theorem State.setLbt_wire (c : Nat) (x : Lbt) : (s.setLbt c x).wire = s.wire := rfl
@[simp] theorem State.setLbt_msiRise (c : Nat) (x : Lbt) : (s.setLbt c x).msiRise = s.msiRise := rfl
@[simp] theorem State.setLbt_ticks (c : Nat) (x : Lbt) : (s.setLbt c x).ticks = s.ticks := rfl
@[simp] theorem State.setLbt_tickCount (c : Nat) (x : Lbt) : (s.setLbt c x).tickCount = s.tickCount := rfl
@[simp] theorem State.setLbt_ct (c : Nat) (x : Lbt) : (s.setLbt c x).ct = s.ct := rfl
@[simp] theorem State.setLbt_eps (c : Nat) (x : Lbt) : (s.setLbt c x).eps = s.eps := rfl
@[simp] theorem State.setLbt_ecc (c : Nat) (x : Lbt) : (s.setLbt c x).ecc = s.ecc := rfl
@[simp] theorem State.setLbt_cores (c : Nat) (x : Lbt) : (s.setLbt c x).cores = s.cores := rfl
@[simp] theorem State.setLbt_tags (c : Nat) (x : Lbt) : (s.setLbt c x).tags = s.tags := rfl
@[simp] theorem State.setLbt_guards (c : Nat) (x : Lbt) : (s.setLbt c x).guards = s.guards := rfl
@[simp] theorem State.setLbt_hmsgs (c : Nat) (x : Lbt) : (s.setLbt c x).hmsgs = s.hmsgs := rfl
@[simp] theorem State.setLbt_postAns (c : Nat) (x : Lbt) : (s.setLbt c x).postAns = s.postAns := rfl
@[simp] theorem State.setLbt_comps (c : Nat) (x : Lbt) : (s.setLbt c x).comps = s.comps := rfl
@[simp] theorem State.setLbt_resps (c : Nat) (x : Lbt) : (s.setLbt c x).resps = s.resps := rfl
@[simp] theorem State.setLbt_resvs (c : Nat) (x : Lbt) : (s.setLbt c x).resvs = s.resvs := rfl
@[simp] theorem State.setLbt_held (c : Nat) (x : Lbt) : (s.setLbt c x).held = s.held := rfl
@[simp] theorem State.setLbt_down (c : Nat) (x : Lbt) : (s.setLbt c x).down = s.down := rfl
@[simp] theorem State.setLbt_replays (c : Nat) (x : Lbt) : (s.setLbt c x).replays = s.replays := rfl
@[simp] theorem State.setLbt_worms (c : Nat) (x : Lbt) : (s.setLbt c x).worms = s.worms := rfl
@[simp] theorem State.setLbt_ym (c : Nat) (x : Lbt) : (s.setLbt c x).ym = s.ym := rfl
@[simp] theorem State.setLbt_hatWin (c : Nat) (x : Lbt) : (s.setLbt c x).hatWin = s.hatWin := rfl
@[simp] theorem State.setLbt_scrubDone (c : Nat) (x : Lbt) : (s.setLbt c x).scrubDone = s.scrubDone := rfl
@[simp] theorem State.setLbt_chans (c : Nat) (x : Lbt) : (s.setLbt c x).chans = s.chans := rfl
@[simp] theorem State.setLbt_brwLast (c : Nat) (x : Lbt) : (s.setLbt c x).brwLast = s.brwLast := rfl
@[simp] theorem State.setLbt_tickWaits (c : Nat) (x : Lbt) : (s.setLbt c x).tickWaits = s.tickWaits := rfl
@[simp] theorem State.setLbt_engines (c : Nat) (x : Lbt) : (s.setLbt c x).engines = s.engines := rfl
@[simp] theorem State.setLbt_sctx (c : Nat) (x : Lbt) : (s.setLbt c x).sctx = s.sctx := rfl
@[simp] theorem State.setLbt_nbch (c : Nat) (x : Lbt) : (s.setLbt c x).nbch = s.nbch := rfl
@[simp] theorem State.setLbt_pl (c : Nat) (x : Lbt) : (s.setLbt c x).pl = s.pl := rfl
@[simp] theorem State.setLbt_macs (c : Nat) (x : Lbt) : (s.setLbt c x).macs = s.macs := rfl
@[simp] theorem State.setLbt_hlt (c : Nat) (x : Lbt) : (s.setLbt c x).hlt = s.hlt := rfl
@[simp] theorem State.setLbt_tack (c : Nat) (x : Lbt) : (s.setLbt c x).tack = s.tack := rfl
@[simp] theorem State.setLbt_otp (c : Nat) (x : Lbt) : (s.setLbt c x).otp = s.otp := rfl
@[simp] theorem State.setLbt_flash (c : Nat) (x : Lbt) : (s.setLbt c x).flash = s.flash := rfl
@[simp] theorem State.setLbt_power (c : Nat) (x : Lbt) : (s.setLbt c x).power = s.power := rfl
@[simp] theorem State.setLbt_gpio (c : Nat) (x : Lbt) : (s.setLbt c x).gpio = s.gpio := rfl
@[simp] theorem State.setLbt_uartRx (c : Nat) (x : Lbt) : (s.setLbt c x).uartRx = s.uartRx := rfl
@[simp] theorem State.setLbt_hatTmo (c : Nat) (x : Lbt) : (s.setLbt c x).hatTmo = s.hatTmo := rfl

@[simp] theorem State.setNb_pending (i c : Nat) (x : NbChan) : (s.setNb i c x).pending = s.pending := rfl
@[simp] theorem State.setNb_now (i c : Nat) (x : NbChan) : (s.setNb i c x).now = s.now := rfl
@[simp] theorem State.setNb_fresh (i c : Nat) (x : NbChan) : (s.setNb i c x).fresh = s.fresh := rfl
@[simp] theorem State.setNb_mem (i c : Nat) (x : NbChan) : (s.setNb i c x).mem = s.mem := rfl
@[simp] theorem State.setNb_regs (i c : Nat) (x : NbChan) : (s.setNb i c x).regs = s.regs := rfl
@[simp] theorem State.setNb_caps (i c : Nat) (x : NbChan) : (s.setNb i c x).caps = s.caps := rfl
@[simp] theorem State.setNb_stage (i c : Nat) (x : NbChan) : (s.setNb i c x).stage = s.stage := rfl
@[simp] theorem State.setNb_bus (i c : Nat) (x : NbChan) : (s.setNb i c x).bus = s.bus := rfl
@[simp] theorem State.setNb_wire (i c : Nat) (x : NbChan) : (s.setNb i c x).wire = s.wire := rfl
@[simp] theorem State.setNb_msiRise (i c : Nat) (x : NbChan) : (s.setNb i c x).msiRise = s.msiRise := rfl
@[simp] theorem State.setNb_ticks (i c : Nat) (x : NbChan) : (s.setNb i c x).ticks = s.ticks := rfl
@[simp] theorem State.setNb_tickCount (i c : Nat) (x : NbChan) : (s.setNb i c x).tickCount = s.tickCount := rfl
@[simp] theorem State.setNb_ct (i c : Nat) (x : NbChan) : (s.setNb i c x).ct = s.ct := rfl
@[simp] theorem State.setNb_eps (i c : Nat) (x : NbChan) : (s.setNb i c x).eps = s.eps := rfl
@[simp] theorem State.setNb_ecc (i c : Nat) (x : NbChan) : (s.setNb i c x).ecc = s.ecc := rfl
@[simp] theorem State.setNb_cores (i c : Nat) (x : NbChan) : (s.setNb i c x).cores = s.cores := rfl
@[simp] theorem State.setNb_tags (i c : Nat) (x : NbChan) : (s.setNb i c x).tags = s.tags := rfl
@[simp] theorem State.setNb_guards (i c : Nat) (x : NbChan) : (s.setNb i c x).guards = s.guards := rfl
@[simp] theorem State.setNb_hmsgs (i c : Nat) (x : NbChan) : (s.setNb i c x).hmsgs = s.hmsgs := rfl
@[simp] theorem State.setNb_postAns (i c : Nat) (x : NbChan) : (s.setNb i c x).postAns = s.postAns := rfl
@[simp] theorem State.setNb_comps (i c : Nat) (x : NbChan) : (s.setNb i c x).comps = s.comps := rfl
@[simp] theorem State.setNb_resps (i c : Nat) (x : NbChan) : (s.setNb i c x).resps = s.resps := rfl
@[simp] theorem State.setNb_resvs (i c : Nat) (x : NbChan) : (s.setNb i c x).resvs = s.resvs := rfl
@[simp] theorem State.setNb_held (i c : Nat) (x : NbChan) : (s.setNb i c x).held = s.held := rfl
@[simp] theorem State.setNb_down (i c : Nat) (x : NbChan) : (s.setNb i c x).down = s.down := rfl
@[simp] theorem State.setNb_replays (i c : Nat) (x : NbChan) : (s.setNb i c x).replays = s.replays := rfl
@[simp] theorem State.setNb_worms (i c : Nat) (x : NbChan) : (s.setNb i c x).worms = s.worms := rfl
@[simp] theorem State.setNb_ym (i c : Nat) (x : NbChan) : (s.setNb i c x).ym = s.ym := rfl
@[simp] theorem State.setNb_hatWin (i c : Nat) (x : NbChan) : (s.setNb i c x).hatWin = s.hatWin := rfl
@[simp] theorem State.setNb_scrubDone (i c : Nat) (x : NbChan) : (s.setNb i c x).scrubDone = s.scrubDone := rfl
@[simp] theorem State.setNb_chans (i c : Nat) (x : NbChan) : (s.setNb i c x).chans = s.chans := rfl
@[simp] theorem State.setNb_brwLast (i c : Nat) (x : NbChan) : (s.setNb i c x).brwLast = s.brwLast := rfl
@[simp] theorem State.setNb_tickWaits (i c : Nat) (x : NbChan) : (s.setNb i c x).tickWaits = s.tickWaits := rfl
@[simp] theorem State.setNb_engines (i c : Nat) (x : NbChan) : (s.setNb i c x).engines = s.engines := rfl
@[simp] theorem State.setNb_lbts (i c : Nat) (x : NbChan) : (s.setNb i c x).lbts = s.lbts := rfl
@[simp] theorem State.setNb_sctx (i c : Nat) (x : NbChan) : (s.setNb i c x).sctx = s.sctx := rfl
@[simp] theorem State.setNb_pl (i c : Nat) (x : NbChan) : (s.setNb i c x).pl = s.pl := rfl
@[simp] theorem State.setNb_macs (i c : Nat) (x : NbChan) : (s.setNb i c x).macs = s.macs := rfl
@[simp] theorem State.setNb_hlt (i c : Nat) (x : NbChan) : (s.setNb i c x).hlt = s.hlt := rfl
@[simp] theorem State.setNb_tack (i c : Nat) (x : NbChan) : (s.setNb i c x).tack = s.tack := rfl
@[simp] theorem State.setNb_otp (i c : Nat) (x : NbChan) : (s.setNb i c x).otp = s.otp := rfl
@[simp] theorem State.setNb_flash (i c : Nat) (x : NbChan) : (s.setNb i c x).flash = s.flash := rfl
@[simp] theorem State.setNb_power (i c : Nat) (x : NbChan) : (s.setNb i c x).power = s.power := rfl
@[simp] theorem State.setNb_gpio (i c : Nat) (x : NbChan) : (s.setNb i c x).gpio = s.gpio := rfl
@[simp] theorem State.setNb_uartRx (i c : Nat) (x : NbChan) : (s.setNb i c x).uartRx = s.uartRx := rfl
@[simp] theorem State.setNb_hatTmo (i c : Nat) (x : NbChan) : (s.setNb i c x).hatTmo = s.hatTmo := rfl

@[simp] theorem State.setPlp_pending (p : Nat) (x : PlPort) : (s.setPlp p x).pending = s.pending := rfl
@[simp] theorem State.setPlp_now (p : Nat) (x : PlPort) : (s.setPlp p x).now = s.now := rfl
@[simp] theorem State.setPlp_fresh (p : Nat) (x : PlPort) : (s.setPlp p x).fresh = s.fresh := rfl
@[simp] theorem State.setPlp_mem (p : Nat) (x : PlPort) : (s.setPlp p x).mem = s.mem := rfl
@[simp] theorem State.setPlp_regs (p : Nat) (x : PlPort) : (s.setPlp p x).regs = s.regs := rfl
@[simp] theorem State.setPlp_caps (p : Nat) (x : PlPort) : (s.setPlp p x).caps = s.caps := rfl
@[simp] theorem State.setPlp_stage (p : Nat) (x : PlPort) : (s.setPlp p x).stage = s.stage := rfl
@[simp] theorem State.setPlp_bus (p : Nat) (x : PlPort) : (s.setPlp p x).bus = s.bus := rfl
@[simp] theorem State.setPlp_wire (p : Nat) (x : PlPort) : (s.setPlp p x).wire = s.wire := rfl
@[simp] theorem State.setPlp_msiRise (p : Nat) (x : PlPort) : (s.setPlp p x).msiRise = s.msiRise := rfl
@[simp] theorem State.setPlp_ticks (p : Nat) (x : PlPort) : (s.setPlp p x).ticks = s.ticks := rfl
@[simp] theorem State.setPlp_tickCount (p : Nat) (x : PlPort) : (s.setPlp p x).tickCount = s.tickCount := rfl
@[simp] theorem State.setPlp_ct (p : Nat) (x : PlPort) : (s.setPlp p x).ct = s.ct := rfl
@[simp] theorem State.setPlp_eps (p : Nat) (x : PlPort) : (s.setPlp p x).eps = s.eps := rfl
@[simp] theorem State.setPlp_ecc (p : Nat) (x : PlPort) : (s.setPlp p x).ecc = s.ecc := rfl
@[simp] theorem State.setPlp_cores (p : Nat) (x : PlPort) : (s.setPlp p x).cores = s.cores := rfl
@[simp] theorem State.setPlp_tags (p : Nat) (x : PlPort) : (s.setPlp p x).tags = s.tags := rfl
@[simp] theorem State.setPlp_guards (p : Nat) (x : PlPort) : (s.setPlp p x).guards = s.guards := rfl
@[simp] theorem State.setPlp_hmsgs (p : Nat) (x : PlPort) : (s.setPlp p x).hmsgs = s.hmsgs := rfl
@[simp] theorem State.setPlp_postAns (p : Nat) (x : PlPort) : (s.setPlp p x).postAns = s.postAns := rfl
@[simp] theorem State.setPlp_comps (p : Nat) (x : PlPort) : (s.setPlp p x).comps = s.comps := rfl
@[simp] theorem State.setPlp_resps (p : Nat) (x : PlPort) : (s.setPlp p x).resps = s.resps := rfl
@[simp] theorem State.setPlp_resvs (p : Nat) (x : PlPort) : (s.setPlp p x).resvs = s.resvs := rfl
@[simp] theorem State.setPlp_held (p : Nat) (x : PlPort) : (s.setPlp p x).held = s.held := rfl
@[simp] theorem State.setPlp_down (p : Nat) (x : PlPort) : (s.setPlp p x).down = s.down := rfl
@[simp] theorem State.setPlp_replays (p : Nat) (x : PlPort) : (s.setPlp p x).replays = s.replays := rfl
@[simp] theorem State.setPlp_worms (p : Nat) (x : PlPort) : (s.setPlp p x).worms = s.worms := rfl
@[simp] theorem State.setPlp_ym (p : Nat) (x : PlPort) : (s.setPlp p x).ym = s.ym := rfl
@[simp] theorem State.setPlp_hatWin (p : Nat) (x : PlPort) : (s.setPlp p x).hatWin = s.hatWin := rfl
@[simp] theorem State.setPlp_scrubDone (p : Nat) (x : PlPort) : (s.setPlp p x).scrubDone = s.scrubDone := rfl
@[simp] theorem State.setPlp_chans (p : Nat) (x : PlPort) : (s.setPlp p x).chans = s.chans := rfl
@[simp] theorem State.setPlp_brwLast (p : Nat) (x : PlPort) : (s.setPlp p x).brwLast = s.brwLast := rfl
@[simp] theorem State.setPlp_tickWaits (p : Nat) (x : PlPort) : (s.setPlp p x).tickWaits = s.tickWaits := rfl
@[simp] theorem State.setPlp_engines (p : Nat) (x : PlPort) : (s.setPlp p x).engines = s.engines := rfl
@[simp] theorem State.setPlp_lbts (p : Nat) (x : PlPort) : (s.setPlp p x).lbts = s.lbts := rfl
@[simp] theorem State.setPlp_sctx (p : Nat) (x : PlPort) : (s.setPlp p x).sctx = s.sctx := rfl
@[simp] theorem State.setPlp_nbch (p : Nat) (x : PlPort) : (s.setPlp p x).nbch = s.nbch := rfl
@[simp] theorem State.setPlp_macs (p : Nat) (x : PlPort) : (s.setPlp p x).macs = s.macs := rfl
@[simp] theorem State.setPlp_hlt (p : Nat) (x : PlPort) : (s.setPlp p x).hlt = s.hlt := rfl
@[simp] theorem State.setPlp_tack (p : Nat) (x : PlPort) : (s.setPlp p x).tack = s.tack := rfl
@[simp] theorem State.setPlp_otp (p : Nat) (x : PlPort) : (s.setPlp p x).otp = s.otp := rfl
@[simp] theorem State.setPlp_flash (p : Nat) (x : PlPort) : (s.setPlp p x).flash = s.flash := rfl
@[simp] theorem State.setPlp_power (p : Nat) (x : PlPort) : (s.setPlp p x).power = s.power := rfl
@[simp] theorem State.setPlp_gpio (p : Nat) (x : PlPort) : (s.setPlp p x).gpio = s.gpio := rfl
@[simp] theorem State.setPlp_uartRx (p : Nat) (x : PlPort) : (s.setPlp p x).uartRx = s.uartRx := rfl
@[simp] theorem State.setPlp_hatTmo (p : Nat) (x : PlPort) : (s.setPlp p x).hatTmo = s.hatTmo := rfl

@[simp] theorem State.modPlp_pending (p : Nat) (f : PlPort → PlPort) : (s.modPlp p f).pending = s.pending := rfl
@[simp] theorem State.modPlp_now (p : Nat) (f : PlPort → PlPort) : (s.modPlp p f).now = s.now := rfl
@[simp] theorem State.modPlp_fresh (p : Nat) (f : PlPort → PlPort) : (s.modPlp p f).fresh = s.fresh := rfl
@[simp] theorem State.modPlp_mem (p : Nat) (f : PlPort → PlPort) : (s.modPlp p f).mem = s.mem := rfl
@[simp] theorem State.modPlp_regs (p : Nat) (f : PlPort → PlPort) : (s.modPlp p f).regs = s.regs := rfl
@[simp] theorem State.modPlp_caps (p : Nat) (f : PlPort → PlPort) : (s.modPlp p f).caps = s.caps := rfl
@[simp] theorem State.modPlp_stage (p : Nat) (f : PlPort → PlPort) : (s.modPlp p f).stage = s.stage := rfl
@[simp] theorem State.modPlp_bus (p : Nat) (f : PlPort → PlPort) : (s.modPlp p f).bus = s.bus := rfl
@[simp] theorem State.modPlp_wire (p : Nat) (f : PlPort → PlPort) : (s.modPlp p f).wire = s.wire := rfl
@[simp] theorem State.modPlp_msiRise (p : Nat) (f : PlPort → PlPort) : (s.modPlp p f).msiRise = s.msiRise := rfl
@[simp] theorem State.modPlp_ticks (p : Nat) (f : PlPort → PlPort) : (s.modPlp p f).ticks = s.ticks := rfl
@[simp] theorem State.modPlp_tickCount (p : Nat) (f : PlPort → PlPort) : (s.modPlp p f).tickCount = s.tickCount := rfl
@[simp] theorem State.modPlp_ct (p : Nat) (f : PlPort → PlPort) : (s.modPlp p f).ct = s.ct := rfl
@[simp] theorem State.modPlp_eps (p : Nat) (f : PlPort → PlPort) : (s.modPlp p f).eps = s.eps := rfl
@[simp] theorem State.modPlp_ecc (p : Nat) (f : PlPort → PlPort) : (s.modPlp p f).ecc = s.ecc := rfl
@[simp] theorem State.modPlp_cores (p : Nat) (f : PlPort → PlPort) : (s.modPlp p f).cores = s.cores := rfl
@[simp] theorem State.modPlp_tags (p : Nat) (f : PlPort → PlPort) : (s.modPlp p f).tags = s.tags := rfl
@[simp] theorem State.modPlp_guards (p : Nat) (f : PlPort → PlPort) : (s.modPlp p f).guards = s.guards := rfl
@[simp] theorem State.modPlp_hmsgs (p : Nat) (f : PlPort → PlPort) : (s.modPlp p f).hmsgs = s.hmsgs := rfl
@[simp] theorem State.modPlp_postAns (p : Nat) (f : PlPort → PlPort) : (s.modPlp p f).postAns = s.postAns := rfl
@[simp] theorem State.modPlp_comps (p : Nat) (f : PlPort → PlPort) : (s.modPlp p f).comps = s.comps := rfl
@[simp] theorem State.modPlp_resps (p : Nat) (f : PlPort → PlPort) : (s.modPlp p f).resps = s.resps := rfl
@[simp] theorem State.modPlp_resvs (p : Nat) (f : PlPort → PlPort) : (s.modPlp p f).resvs = s.resvs := rfl
@[simp] theorem State.modPlp_held (p : Nat) (f : PlPort → PlPort) : (s.modPlp p f).held = s.held := rfl
@[simp] theorem State.modPlp_down (p : Nat) (f : PlPort → PlPort) : (s.modPlp p f).down = s.down := rfl
@[simp] theorem State.modPlp_replays (p : Nat) (f : PlPort → PlPort) : (s.modPlp p f).replays = s.replays := rfl
@[simp] theorem State.modPlp_worms (p : Nat) (f : PlPort → PlPort) : (s.modPlp p f).worms = s.worms := rfl
@[simp] theorem State.modPlp_ym (p : Nat) (f : PlPort → PlPort) : (s.modPlp p f).ym = s.ym := rfl
@[simp] theorem State.modPlp_hatWin (p : Nat) (f : PlPort → PlPort) : (s.modPlp p f).hatWin = s.hatWin := rfl
@[simp] theorem State.modPlp_scrubDone (p : Nat) (f : PlPort → PlPort) : (s.modPlp p f).scrubDone = s.scrubDone := rfl
@[simp] theorem State.modPlp_chans (p : Nat) (f : PlPort → PlPort) : (s.modPlp p f).chans = s.chans := rfl
@[simp] theorem State.modPlp_brwLast (p : Nat) (f : PlPort → PlPort) : (s.modPlp p f).brwLast = s.brwLast := rfl
@[simp] theorem State.modPlp_tickWaits (p : Nat) (f : PlPort → PlPort) : (s.modPlp p f).tickWaits = s.tickWaits := rfl
@[simp] theorem State.modPlp_engines (p : Nat) (f : PlPort → PlPort) : (s.modPlp p f).engines = s.engines := rfl
@[simp] theorem State.modPlp_lbts (p : Nat) (f : PlPort → PlPort) : (s.modPlp p f).lbts = s.lbts := rfl
@[simp] theorem State.modPlp_sctx (p : Nat) (f : PlPort → PlPort) : (s.modPlp p f).sctx = s.sctx := rfl
@[simp] theorem State.modPlp_nbch (p : Nat) (f : PlPort → PlPort) : (s.modPlp p f).nbch = s.nbch := rfl
@[simp] theorem State.modPlp_macs (p : Nat) (f : PlPort → PlPort) : (s.modPlp p f).macs = s.macs := rfl
@[simp] theorem State.modPlp_hlt (p : Nat) (f : PlPort → PlPort) : (s.modPlp p f).hlt = s.hlt := rfl
@[simp] theorem State.modPlp_tack (p : Nat) (f : PlPort → PlPort) : (s.modPlp p f).tack = s.tack := rfl
@[simp] theorem State.modPlp_otp (p : Nat) (f : PlPort → PlPort) : (s.modPlp p f).otp = s.otp := rfl
@[simp] theorem State.modPlp_flash (p : Nat) (f : PlPort → PlPort) : (s.modPlp p f).flash = s.flash := rfl
@[simp] theorem State.modPlp_power (p : Nat) (f : PlPort → PlPort) : (s.modPlp p f).power = s.power := rfl
@[simp] theorem State.modPlp_gpio (p : Nat) (f : PlPort → PlPort) : (s.modPlp p f).gpio = s.gpio := rfl
@[simp] theorem State.modPlp_uartRx (p : Nat) (f : PlPort → PlPort) : (s.modPlp p f).uartRx = s.uartRx := rfl
@[simp] theorem State.modPlp_hatTmo (p : Nat) (f : PlPort → PlPort) : (s.modPlp p f).hatTmo = s.hatTmo := rfl

@[simp] theorem State.setMac_pending (m : Nat) (x : Mac) : (s.setMac m x).pending = s.pending := rfl
@[simp] theorem State.setMac_now (m : Nat) (x : Mac) : (s.setMac m x).now = s.now := rfl
@[simp] theorem State.setMac_fresh (m : Nat) (x : Mac) : (s.setMac m x).fresh = s.fresh := rfl
@[simp] theorem State.setMac_mem (m : Nat) (x : Mac) : (s.setMac m x).mem = s.mem := rfl
@[simp] theorem State.setMac_regs (m : Nat) (x : Mac) : (s.setMac m x).regs = s.regs := rfl
@[simp] theorem State.setMac_caps (m : Nat) (x : Mac) : (s.setMac m x).caps = s.caps := rfl
@[simp] theorem State.setMac_stage (m : Nat) (x : Mac) : (s.setMac m x).stage = s.stage := rfl
@[simp] theorem State.setMac_bus (m : Nat) (x : Mac) : (s.setMac m x).bus = s.bus := rfl
@[simp] theorem State.setMac_wire (m : Nat) (x : Mac) : (s.setMac m x).wire = s.wire := rfl
@[simp] theorem State.setMac_msiRise (m : Nat) (x : Mac) : (s.setMac m x).msiRise = s.msiRise := rfl
@[simp] theorem State.setMac_ticks (m : Nat) (x : Mac) : (s.setMac m x).ticks = s.ticks := rfl
@[simp] theorem State.setMac_tickCount (m : Nat) (x : Mac) : (s.setMac m x).tickCount = s.tickCount := rfl
@[simp] theorem State.setMac_ct (m : Nat) (x : Mac) : (s.setMac m x).ct = s.ct := rfl
@[simp] theorem State.setMac_eps (m : Nat) (x : Mac) : (s.setMac m x).eps = s.eps := rfl
@[simp] theorem State.setMac_ecc (m : Nat) (x : Mac) : (s.setMac m x).ecc = s.ecc := rfl
@[simp] theorem State.setMac_cores (m : Nat) (x : Mac) : (s.setMac m x).cores = s.cores := rfl
@[simp] theorem State.setMac_tags (m : Nat) (x : Mac) : (s.setMac m x).tags = s.tags := rfl
@[simp] theorem State.setMac_guards (m : Nat) (x : Mac) : (s.setMac m x).guards = s.guards := rfl
@[simp] theorem State.setMac_hmsgs (m : Nat) (x : Mac) : (s.setMac m x).hmsgs = s.hmsgs := rfl
@[simp] theorem State.setMac_postAns (m : Nat) (x : Mac) : (s.setMac m x).postAns = s.postAns := rfl
@[simp] theorem State.setMac_comps (m : Nat) (x : Mac) : (s.setMac m x).comps = s.comps := rfl
@[simp] theorem State.setMac_resps (m : Nat) (x : Mac) : (s.setMac m x).resps = s.resps := rfl
@[simp] theorem State.setMac_resvs (m : Nat) (x : Mac) : (s.setMac m x).resvs = s.resvs := rfl
@[simp] theorem State.setMac_held (m : Nat) (x : Mac) : (s.setMac m x).held = s.held := rfl
@[simp] theorem State.setMac_down (m : Nat) (x : Mac) : (s.setMac m x).down = s.down := rfl
@[simp] theorem State.setMac_replays (m : Nat) (x : Mac) : (s.setMac m x).replays = s.replays := rfl
@[simp] theorem State.setMac_worms (m : Nat) (x : Mac) : (s.setMac m x).worms = s.worms := rfl
@[simp] theorem State.setMac_ym (m : Nat) (x : Mac) : (s.setMac m x).ym = s.ym := rfl
@[simp] theorem State.setMac_hatWin (m : Nat) (x : Mac) : (s.setMac m x).hatWin = s.hatWin := rfl
@[simp] theorem State.setMac_scrubDone (m : Nat) (x : Mac) : (s.setMac m x).scrubDone = s.scrubDone := rfl
@[simp] theorem State.setMac_chans (m : Nat) (x : Mac) : (s.setMac m x).chans = s.chans := rfl
@[simp] theorem State.setMac_brwLast (m : Nat) (x : Mac) : (s.setMac m x).brwLast = s.brwLast := rfl
@[simp] theorem State.setMac_tickWaits (m : Nat) (x : Mac) : (s.setMac m x).tickWaits = s.tickWaits := rfl
@[simp] theorem State.setMac_engines (m : Nat) (x : Mac) : (s.setMac m x).engines = s.engines := rfl
@[simp] theorem State.setMac_lbts (m : Nat) (x : Mac) : (s.setMac m x).lbts = s.lbts := rfl
@[simp] theorem State.setMac_sctx (m : Nat) (x : Mac) : (s.setMac m x).sctx = s.sctx := rfl
@[simp] theorem State.setMac_nbch (m : Nat) (x : Mac) : (s.setMac m x).nbch = s.nbch := rfl
@[simp] theorem State.setMac_pl (m : Nat) (x : Mac) : (s.setMac m x).pl = s.pl := rfl
@[simp] theorem State.setMac_hlt (m : Nat) (x : Mac) : (s.setMac m x).hlt = s.hlt := rfl
@[simp] theorem State.setMac_tack (m : Nat) (x : Mac) : (s.setMac m x).tack = s.tack := rfl
@[simp] theorem State.setMac_otp (m : Nat) (x : Mac) : (s.setMac m x).otp = s.otp := rfl
@[simp] theorem State.setMac_flash (m : Nat) (x : Mac) : (s.setMac m x).flash = s.flash := rfl
@[simp] theorem State.setMac_power (m : Nat) (x : Mac) : (s.setMac m x).power = s.power := rfl
@[simp] theorem State.setMac_gpio (m : Nat) (x : Mac) : (s.setMac m x).gpio = s.gpio := rfl
@[simp] theorem State.setMac_uartRx (m : Nat) (x : Mac) : (s.setMac m x).uartRx = s.uartRx := rfl
@[simp] theorem State.setMac_hatTmo (m : Nat) (x : Mac) : (s.setMac m x).hatTmo = s.hatTmo := rfl

@[simp] theorem State.modMac_pending (m : Nat) (f : Mac → Mac) : (s.modMac m f).pending = s.pending := rfl
@[simp] theorem State.modMac_now (m : Nat) (f : Mac → Mac) : (s.modMac m f).now = s.now := rfl
@[simp] theorem State.modMac_fresh (m : Nat) (f : Mac → Mac) : (s.modMac m f).fresh = s.fresh := rfl
@[simp] theorem State.modMac_mem (m : Nat) (f : Mac → Mac) : (s.modMac m f).mem = s.mem := rfl
@[simp] theorem State.modMac_regs (m : Nat) (f : Mac → Mac) : (s.modMac m f).regs = s.regs := rfl
@[simp] theorem State.modMac_caps (m : Nat) (f : Mac → Mac) : (s.modMac m f).caps = s.caps := rfl
@[simp] theorem State.modMac_stage (m : Nat) (f : Mac → Mac) : (s.modMac m f).stage = s.stage := rfl
@[simp] theorem State.modMac_bus (m : Nat) (f : Mac → Mac) : (s.modMac m f).bus = s.bus := rfl
@[simp] theorem State.modMac_wire (m : Nat) (f : Mac → Mac) : (s.modMac m f).wire = s.wire := rfl
@[simp] theorem State.modMac_msiRise (m : Nat) (f : Mac → Mac) : (s.modMac m f).msiRise = s.msiRise := rfl
@[simp] theorem State.modMac_ticks (m : Nat) (f : Mac → Mac) : (s.modMac m f).ticks = s.ticks := rfl
@[simp] theorem State.modMac_tickCount (m : Nat) (f : Mac → Mac) : (s.modMac m f).tickCount = s.tickCount := rfl
@[simp] theorem State.modMac_ct (m : Nat) (f : Mac → Mac) : (s.modMac m f).ct = s.ct := rfl
@[simp] theorem State.modMac_eps (m : Nat) (f : Mac → Mac) : (s.modMac m f).eps = s.eps := rfl
@[simp] theorem State.modMac_ecc (m : Nat) (f : Mac → Mac) : (s.modMac m f).ecc = s.ecc := rfl
@[simp] theorem State.modMac_cores (m : Nat) (f : Mac → Mac) : (s.modMac m f).cores = s.cores := rfl
@[simp] theorem State.modMac_tags (m : Nat) (f : Mac → Mac) : (s.modMac m f).tags = s.tags := rfl
@[simp] theorem State.modMac_guards (m : Nat) (f : Mac → Mac) : (s.modMac m f).guards = s.guards := rfl
@[simp] theorem State.modMac_hmsgs (m : Nat) (f : Mac → Mac) : (s.modMac m f).hmsgs = s.hmsgs := rfl
@[simp] theorem State.modMac_postAns (m : Nat) (f : Mac → Mac) : (s.modMac m f).postAns = s.postAns := rfl
@[simp] theorem State.modMac_comps (m : Nat) (f : Mac → Mac) : (s.modMac m f).comps = s.comps := rfl
@[simp] theorem State.modMac_resps (m : Nat) (f : Mac → Mac) : (s.modMac m f).resps = s.resps := rfl
@[simp] theorem State.modMac_resvs (m : Nat) (f : Mac → Mac) : (s.modMac m f).resvs = s.resvs := rfl
@[simp] theorem State.modMac_held (m : Nat) (f : Mac → Mac) : (s.modMac m f).held = s.held := rfl
@[simp] theorem State.modMac_down (m : Nat) (f : Mac → Mac) : (s.modMac m f).down = s.down := rfl
@[simp] theorem State.modMac_replays (m : Nat) (f : Mac → Mac) : (s.modMac m f).replays = s.replays := rfl
@[simp] theorem State.modMac_worms (m : Nat) (f : Mac → Mac) : (s.modMac m f).worms = s.worms := rfl
@[simp] theorem State.modMac_ym (m : Nat) (f : Mac → Mac) : (s.modMac m f).ym = s.ym := rfl
@[simp] theorem State.modMac_hatWin (m : Nat) (f : Mac → Mac) : (s.modMac m f).hatWin = s.hatWin := rfl
@[simp] theorem State.modMac_scrubDone (m : Nat) (f : Mac → Mac) : (s.modMac m f).scrubDone = s.scrubDone := rfl
@[simp] theorem State.modMac_chans (m : Nat) (f : Mac → Mac) : (s.modMac m f).chans = s.chans := rfl
@[simp] theorem State.modMac_brwLast (m : Nat) (f : Mac → Mac) : (s.modMac m f).brwLast = s.brwLast := rfl
@[simp] theorem State.modMac_tickWaits (m : Nat) (f : Mac → Mac) : (s.modMac m f).tickWaits = s.tickWaits := rfl
@[simp] theorem State.modMac_engines (m : Nat) (f : Mac → Mac) : (s.modMac m f).engines = s.engines := rfl
@[simp] theorem State.modMac_lbts (m : Nat) (f : Mac → Mac) : (s.modMac m f).lbts = s.lbts := rfl
@[simp] theorem State.modMac_sctx (m : Nat) (f : Mac → Mac) : (s.modMac m f).sctx = s.sctx := rfl
@[simp] theorem State.modMac_nbch (m : Nat) (f : Mac → Mac) : (s.modMac m f).nbch = s.nbch := rfl
@[simp] theorem State.modMac_pl (m : Nat) (f : Mac → Mac) : (s.modMac m f).pl = s.pl := rfl
@[simp] theorem State.modMac_hlt (m : Nat) (f : Mac → Mac) : (s.modMac m f).hlt = s.hlt := rfl
@[simp] theorem State.modMac_tack (m : Nat) (f : Mac → Mac) : (s.modMac m f).tack = s.tack := rfl
@[simp] theorem State.modMac_otp (m : Nat) (f : Mac → Mac) : (s.modMac m f).otp = s.otp := rfl
@[simp] theorem State.modMac_flash (m : Nat) (f : Mac → Mac) : (s.modMac m f).flash = s.flash := rfl
@[simp] theorem State.modMac_power (m : Nat) (f : Mac → Mac) : (s.modMac m f).power = s.power := rfl
@[simp] theorem State.modMac_gpio (m : Nat) (f : Mac → Mac) : (s.modMac m f).gpio = s.gpio := rfl
@[simp] theorem State.modMac_uartRx (m : Nat) (f : Mac → Mac) : (s.modMac m f).uartRx = s.uartRx := rfl
@[simp] theorem State.modMac_hatTmo (m : Nat) (f : Mac → Mac) : (s.modMac m f).hatTmo = s.hatTmo := rfl

@[simp] theorem State.setHcell_pending (c : Nat) (x : HCell) : (s.setHcell c x).pending = s.pending := rfl
@[simp] theorem State.setHcell_now (c : Nat) (x : HCell) : (s.setHcell c x).now = s.now := rfl
@[simp] theorem State.setHcell_fresh (c : Nat) (x : HCell) : (s.setHcell c x).fresh = s.fresh := rfl
@[simp] theorem State.setHcell_mem (c : Nat) (x : HCell) : (s.setHcell c x).mem = s.mem := rfl
@[simp] theorem State.setHcell_regs (c : Nat) (x : HCell) : (s.setHcell c x).regs = s.regs := rfl
@[simp] theorem State.setHcell_caps (c : Nat) (x : HCell) : (s.setHcell c x).caps = s.caps := rfl
@[simp] theorem State.setHcell_stage (c : Nat) (x : HCell) : (s.setHcell c x).stage = s.stage := rfl
@[simp] theorem State.setHcell_bus (c : Nat) (x : HCell) : (s.setHcell c x).bus = s.bus := rfl
@[simp] theorem State.setHcell_wire (c : Nat) (x : HCell) : (s.setHcell c x).wire = s.wire := rfl
@[simp] theorem State.setHcell_msiRise (c : Nat) (x : HCell) : (s.setHcell c x).msiRise = s.msiRise := rfl
@[simp] theorem State.setHcell_ticks (c : Nat) (x : HCell) : (s.setHcell c x).ticks = s.ticks := rfl
@[simp] theorem State.setHcell_tickCount (c : Nat) (x : HCell) : (s.setHcell c x).tickCount = s.tickCount := rfl
@[simp] theorem State.setHcell_ct (c : Nat) (x : HCell) : (s.setHcell c x).ct = s.ct := rfl
@[simp] theorem State.setHcell_eps (c : Nat) (x : HCell) : (s.setHcell c x).eps = s.eps := rfl
@[simp] theorem State.setHcell_ecc (c : Nat) (x : HCell) : (s.setHcell c x).ecc = s.ecc := rfl
@[simp] theorem State.setHcell_cores (c : Nat) (x : HCell) : (s.setHcell c x).cores = s.cores := rfl
@[simp] theorem State.setHcell_tags (c : Nat) (x : HCell) : (s.setHcell c x).tags = s.tags := rfl
@[simp] theorem State.setHcell_guards (c : Nat) (x : HCell) : (s.setHcell c x).guards = s.guards := rfl
@[simp] theorem State.setHcell_hmsgs (c : Nat) (x : HCell) : (s.setHcell c x).hmsgs = s.hmsgs := rfl
@[simp] theorem State.setHcell_postAns (c : Nat) (x : HCell) : (s.setHcell c x).postAns = s.postAns := rfl
@[simp] theorem State.setHcell_comps (c : Nat) (x : HCell) : (s.setHcell c x).comps = s.comps := rfl
@[simp] theorem State.setHcell_resps (c : Nat) (x : HCell) : (s.setHcell c x).resps = s.resps := rfl
@[simp] theorem State.setHcell_resvs (c : Nat) (x : HCell) : (s.setHcell c x).resvs = s.resvs := rfl
@[simp] theorem State.setHcell_held (c : Nat) (x : HCell) : (s.setHcell c x).held = s.held := rfl
@[simp] theorem State.setHcell_down (c : Nat) (x : HCell) : (s.setHcell c x).down = s.down := rfl
@[simp] theorem State.setHcell_replays (c : Nat) (x : HCell) : (s.setHcell c x).replays = s.replays := rfl
@[simp] theorem State.setHcell_worms (c : Nat) (x : HCell) : (s.setHcell c x).worms = s.worms := rfl
@[simp] theorem State.setHcell_ym (c : Nat) (x : HCell) : (s.setHcell c x).ym = s.ym := rfl
@[simp] theorem State.setHcell_hatWin (c : Nat) (x : HCell) : (s.setHcell c x).hatWin = s.hatWin := rfl
@[simp] theorem State.setHcell_scrubDone (c : Nat) (x : HCell) : (s.setHcell c x).scrubDone = s.scrubDone := rfl
@[simp] theorem State.setHcell_chans (c : Nat) (x : HCell) : (s.setHcell c x).chans = s.chans := rfl
@[simp] theorem State.setHcell_brwLast (c : Nat) (x : HCell) : (s.setHcell c x).brwLast = s.brwLast := rfl
@[simp] theorem State.setHcell_tickWaits (c : Nat) (x : HCell) : (s.setHcell c x).tickWaits = s.tickWaits := rfl
@[simp] theorem State.setHcell_engines (c : Nat) (x : HCell) : (s.setHcell c x).engines = s.engines := rfl
@[simp] theorem State.setHcell_lbts (c : Nat) (x : HCell) : (s.setHcell c x).lbts = s.lbts := rfl
@[simp] theorem State.setHcell_sctx (c : Nat) (x : HCell) : (s.setHcell c x).sctx = s.sctx := rfl
@[simp] theorem State.setHcell_nbch (c : Nat) (x : HCell) : (s.setHcell c x).nbch = s.nbch := rfl
@[simp] theorem State.setHcell_pl (c : Nat) (x : HCell) : (s.setHcell c x).pl = s.pl := rfl
@[simp] theorem State.setHcell_macs (c : Nat) (x : HCell) : (s.setHcell c x).macs = s.macs := rfl
@[simp] theorem State.setHcell_tack (c : Nat) (x : HCell) : (s.setHcell c x).tack = s.tack := rfl
@[simp] theorem State.setHcell_otp (c : Nat) (x : HCell) : (s.setHcell c x).otp = s.otp := rfl
@[simp] theorem State.setHcell_flash (c : Nat) (x : HCell) : (s.setHcell c x).flash = s.flash := rfl
@[simp] theorem State.setHcell_power (c : Nat) (x : HCell) : (s.setHcell c x).power = s.power := rfl
@[simp] theorem State.setHcell_gpio (c : Nat) (x : HCell) : (s.setHcell c x).gpio = s.gpio := rfl
@[simp] theorem State.setHcell_uartRx (c : Nat) (x : HCell) : (s.setHcell c x).uartRx = s.uartRx := rfl
@[simp] theorem State.setHcell_hatTmo (c : Nat) (x : HCell) : (s.setHcell c x).hatTmo = s.hatTmo := rfl

@[simp] theorem State.modHcell_pending (c : Nat) (f : HCell → HCell) : (s.modHcell c f).pending = s.pending := rfl
@[simp] theorem State.modHcell_now (c : Nat) (f : HCell → HCell) : (s.modHcell c f).now = s.now := rfl
@[simp] theorem State.modHcell_fresh (c : Nat) (f : HCell → HCell) : (s.modHcell c f).fresh = s.fresh := rfl
@[simp] theorem State.modHcell_mem (c : Nat) (f : HCell → HCell) : (s.modHcell c f).mem = s.mem := rfl
@[simp] theorem State.modHcell_regs (c : Nat) (f : HCell → HCell) : (s.modHcell c f).regs = s.regs := rfl
@[simp] theorem State.modHcell_caps (c : Nat) (f : HCell → HCell) : (s.modHcell c f).caps = s.caps := rfl
@[simp] theorem State.modHcell_stage (c : Nat) (f : HCell → HCell) : (s.modHcell c f).stage = s.stage := rfl
@[simp] theorem State.modHcell_bus (c : Nat) (f : HCell → HCell) : (s.modHcell c f).bus = s.bus := rfl
@[simp] theorem State.modHcell_wire (c : Nat) (f : HCell → HCell) : (s.modHcell c f).wire = s.wire := rfl
@[simp] theorem State.modHcell_msiRise (c : Nat) (f : HCell → HCell) : (s.modHcell c f).msiRise = s.msiRise := rfl
@[simp] theorem State.modHcell_ticks (c : Nat) (f : HCell → HCell) : (s.modHcell c f).ticks = s.ticks := rfl
@[simp] theorem State.modHcell_tickCount (c : Nat) (f : HCell → HCell) : (s.modHcell c f).tickCount = s.tickCount := rfl
@[simp] theorem State.modHcell_ct (c : Nat) (f : HCell → HCell) : (s.modHcell c f).ct = s.ct := rfl
@[simp] theorem State.modHcell_eps (c : Nat) (f : HCell → HCell) : (s.modHcell c f).eps = s.eps := rfl
@[simp] theorem State.modHcell_ecc (c : Nat) (f : HCell → HCell) : (s.modHcell c f).ecc = s.ecc := rfl
@[simp] theorem State.modHcell_cores (c : Nat) (f : HCell → HCell) : (s.modHcell c f).cores = s.cores := rfl
@[simp] theorem State.modHcell_tags (c : Nat) (f : HCell → HCell) : (s.modHcell c f).tags = s.tags := rfl
@[simp] theorem State.modHcell_guards (c : Nat) (f : HCell → HCell) : (s.modHcell c f).guards = s.guards := rfl
@[simp] theorem State.modHcell_hmsgs (c : Nat) (f : HCell → HCell) : (s.modHcell c f).hmsgs = s.hmsgs := rfl
@[simp] theorem State.modHcell_postAns (c : Nat) (f : HCell → HCell) : (s.modHcell c f).postAns = s.postAns := rfl
@[simp] theorem State.modHcell_comps (c : Nat) (f : HCell → HCell) : (s.modHcell c f).comps = s.comps := rfl
@[simp] theorem State.modHcell_resps (c : Nat) (f : HCell → HCell) : (s.modHcell c f).resps = s.resps := rfl
@[simp] theorem State.modHcell_resvs (c : Nat) (f : HCell → HCell) : (s.modHcell c f).resvs = s.resvs := rfl
@[simp] theorem State.modHcell_held (c : Nat) (f : HCell → HCell) : (s.modHcell c f).held = s.held := rfl
@[simp] theorem State.modHcell_down (c : Nat) (f : HCell → HCell) : (s.modHcell c f).down = s.down := rfl
@[simp] theorem State.modHcell_replays (c : Nat) (f : HCell → HCell) : (s.modHcell c f).replays = s.replays := rfl
@[simp] theorem State.modHcell_worms (c : Nat) (f : HCell → HCell) : (s.modHcell c f).worms = s.worms := rfl
@[simp] theorem State.modHcell_ym (c : Nat) (f : HCell → HCell) : (s.modHcell c f).ym = s.ym := rfl
@[simp] theorem State.modHcell_hatWin (c : Nat) (f : HCell → HCell) : (s.modHcell c f).hatWin = s.hatWin := rfl
@[simp] theorem State.modHcell_scrubDone (c : Nat) (f : HCell → HCell) : (s.modHcell c f).scrubDone = s.scrubDone := rfl
@[simp] theorem State.modHcell_chans (c : Nat) (f : HCell → HCell) : (s.modHcell c f).chans = s.chans := rfl
@[simp] theorem State.modHcell_brwLast (c : Nat) (f : HCell → HCell) : (s.modHcell c f).brwLast = s.brwLast := rfl
@[simp] theorem State.modHcell_tickWaits (c : Nat) (f : HCell → HCell) : (s.modHcell c f).tickWaits = s.tickWaits := rfl
@[simp] theorem State.modHcell_engines (c : Nat) (f : HCell → HCell) : (s.modHcell c f).engines = s.engines := rfl
@[simp] theorem State.modHcell_lbts (c : Nat) (f : HCell → HCell) : (s.modHcell c f).lbts = s.lbts := rfl
@[simp] theorem State.modHcell_sctx (c : Nat) (f : HCell → HCell) : (s.modHcell c f).sctx = s.sctx := rfl
@[simp] theorem State.modHcell_nbch (c : Nat) (f : HCell → HCell) : (s.modHcell c f).nbch = s.nbch := rfl
@[simp] theorem State.modHcell_pl (c : Nat) (f : HCell → HCell) : (s.modHcell c f).pl = s.pl := rfl
@[simp] theorem State.modHcell_macs (c : Nat) (f : HCell → HCell) : (s.modHcell c f).macs = s.macs := rfl
@[simp] theorem State.modHcell_tack (c : Nat) (f : HCell → HCell) : (s.modHcell c f).tack = s.tack := rfl
@[simp] theorem State.modHcell_otp (c : Nat) (f : HCell → HCell) : (s.modHcell c f).otp = s.otp := rfl
@[simp] theorem State.modHcell_flash (c : Nat) (f : HCell → HCell) : (s.modHcell c f).flash = s.flash := rfl
@[simp] theorem State.modHcell_power (c : Nat) (f : HCell → HCell) : (s.modHcell c f).power = s.power := rfl
@[simp] theorem State.modHcell_gpio (c : Nat) (f : HCell → HCell) : (s.modHcell c f).gpio = s.gpio := rfl
@[simp] theorem State.modHcell_uartRx (c : Nat) (f : HCell → HCell) : (s.modHcell c f).uartRx = s.uartRx := rfl
@[simp] theorem State.modHcell_hatTmo (c : Nat) (f : HCell → HCell) : (s.modHcell c f).hatTmo = s.hatTmo := rfl

@[simp] theorem State.otpSet_pending (i : Nat) (b : Byte) : (s.otpSet i b).pending = s.pending := rfl
@[simp] theorem State.otpSet_now (i : Nat) (b : Byte) : (s.otpSet i b).now = s.now := rfl
@[simp] theorem State.otpSet_fresh (i : Nat) (b : Byte) : (s.otpSet i b).fresh = s.fresh := rfl
@[simp] theorem State.otpSet_mem (i : Nat) (b : Byte) : (s.otpSet i b).mem = s.mem := rfl
@[simp] theorem State.otpSet_regs (i : Nat) (b : Byte) : (s.otpSet i b).regs = s.regs := rfl
@[simp] theorem State.otpSet_caps (i : Nat) (b : Byte) : (s.otpSet i b).caps = s.caps := rfl
@[simp] theorem State.otpSet_stage (i : Nat) (b : Byte) : (s.otpSet i b).stage = s.stage := rfl
@[simp] theorem State.otpSet_bus (i : Nat) (b : Byte) : (s.otpSet i b).bus = s.bus := rfl
@[simp] theorem State.otpSet_wire (i : Nat) (b : Byte) : (s.otpSet i b).wire = s.wire := rfl
@[simp] theorem State.otpSet_msiRise (i : Nat) (b : Byte) : (s.otpSet i b).msiRise = s.msiRise := rfl
@[simp] theorem State.otpSet_ticks (i : Nat) (b : Byte) : (s.otpSet i b).ticks = s.ticks := rfl
@[simp] theorem State.otpSet_tickCount (i : Nat) (b : Byte) : (s.otpSet i b).tickCount = s.tickCount := rfl
@[simp] theorem State.otpSet_ct (i : Nat) (b : Byte) : (s.otpSet i b).ct = s.ct := rfl
@[simp] theorem State.otpSet_eps (i : Nat) (b : Byte) : (s.otpSet i b).eps = s.eps := rfl
@[simp] theorem State.otpSet_ecc (i : Nat) (b : Byte) : (s.otpSet i b).ecc = s.ecc := rfl
@[simp] theorem State.otpSet_cores (i : Nat) (b : Byte) : (s.otpSet i b).cores = s.cores := rfl
@[simp] theorem State.otpSet_tags (i : Nat) (b : Byte) : (s.otpSet i b).tags = s.tags := rfl
@[simp] theorem State.otpSet_guards (i : Nat) (b : Byte) : (s.otpSet i b).guards = s.guards := rfl
@[simp] theorem State.otpSet_hmsgs (i : Nat) (b : Byte) : (s.otpSet i b).hmsgs = s.hmsgs := rfl
@[simp] theorem State.otpSet_postAns (i : Nat) (b : Byte) : (s.otpSet i b).postAns = s.postAns := rfl
@[simp] theorem State.otpSet_comps (i : Nat) (b : Byte) : (s.otpSet i b).comps = s.comps := rfl
@[simp] theorem State.otpSet_resps (i : Nat) (b : Byte) : (s.otpSet i b).resps = s.resps := rfl
@[simp] theorem State.otpSet_resvs (i : Nat) (b : Byte) : (s.otpSet i b).resvs = s.resvs := rfl
@[simp] theorem State.otpSet_held (i : Nat) (b : Byte) : (s.otpSet i b).held = s.held := rfl
@[simp] theorem State.otpSet_down (i : Nat) (b : Byte) : (s.otpSet i b).down = s.down := rfl
@[simp] theorem State.otpSet_replays (i : Nat) (b : Byte) : (s.otpSet i b).replays = s.replays := rfl
@[simp] theorem State.otpSet_worms (i : Nat) (b : Byte) : (s.otpSet i b).worms = s.worms := rfl
@[simp] theorem State.otpSet_ym (i : Nat) (b : Byte) : (s.otpSet i b).ym = s.ym := rfl
@[simp] theorem State.otpSet_hatWin (i : Nat) (b : Byte) : (s.otpSet i b).hatWin = s.hatWin := rfl
@[simp] theorem State.otpSet_scrubDone (i : Nat) (b : Byte) : (s.otpSet i b).scrubDone = s.scrubDone := rfl
@[simp] theorem State.otpSet_chans (i : Nat) (b : Byte) : (s.otpSet i b).chans = s.chans := rfl
@[simp] theorem State.otpSet_brwLast (i : Nat) (b : Byte) : (s.otpSet i b).brwLast = s.brwLast := rfl
@[simp] theorem State.otpSet_tickWaits (i : Nat) (b : Byte) : (s.otpSet i b).tickWaits = s.tickWaits := rfl
@[simp] theorem State.otpSet_engines (i : Nat) (b : Byte) : (s.otpSet i b).engines = s.engines := rfl
@[simp] theorem State.otpSet_lbts (i : Nat) (b : Byte) : (s.otpSet i b).lbts = s.lbts := rfl
@[simp] theorem State.otpSet_sctx (i : Nat) (b : Byte) : (s.otpSet i b).sctx = s.sctx := rfl
@[simp] theorem State.otpSet_nbch (i : Nat) (b : Byte) : (s.otpSet i b).nbch = s.nbch := rfl
@[simp] theorem State.otpSet_pl (i : Nat) (b : Byte) : (s.otpSet i b).pl = s.pl := rfl
@[simp] theorem State.otpSet_macs (i : Nat) (b : Byte) : (s.otpSet i b).macs = s.macs := rfl
@[simp] theorem State.otpSet_hlt (i : Nat) (b : Byte) : (s.otpSet i b).hlt = s.hlt := rfl
@[simp] theorem State.otpSet_tack (i : Nat) (b : Byte) : (s.otpSet i b).tack = s.tack := rfl
@[simp] theorem State.otpSet_flash (i : Nat) (b : Byte) : (s.otpSet i b).flash = s.flash := rfl
@[simp] theorem State.otpSet_power (i : Nat) (b : Byte) : (s.otpSet i b).power = s.power := rfl
@[simp] theorem State.otpSet_gpio (i : Nat) (b : Byte) : (s.otpSet i b).gpio = s.gpio := rfl
@[simp] theorem State.otpSet_uartRx (i : Nat) (b : Byte) : (s.otpSet i b).uartRx = s.uartRx := rfl
@[simp] theorem State.otpSet_hatTmo (i : Nat) (b : Byte) : (s.otpSet i b).hatTmo = s.hatTmo := rfl

@[simp] theorem State.setShedTr_pending (k : Nat) (x : ShedTr) : (s.setShedTr k x).pending = s.pending := rfl
@[simp] theorem State.setShedTr_now (k : Nat) (x : ShedTr) : (s.setShedTr k x).now = s.now := rfl
@[simp] theorem State.setShedTr_fresh (k : Nat) (x : ShedTr) : (s.setShedTr k x).fresh = s.fresh := rfl
@[simp] theorem State.setShedTr_mem (k : Nat) (x : ShedTr) : (s.setShedTr k x).mem = s.mem := rfl
@[simp] theorem State.setShedTr_regs (k : Nat) (x : ShedTr) : (s.setShedTr k x).regs = s.regs := rfl
@[simp] theorem State.setShedTr_caps (k : Nat) (x : ShedTr) : (s.setShedTr k x).caps = s.caps := rfl
@[simp] theorem State.setShedTr_stage (k : Nat) (x : ShedTr) : (s.setShedTr k x).stage = s.stage := rfl
@[simp] theorem State.setShedTr_bus (k : Nat) (x : ShedTr) : (s.setShedTr k x).bus = s.bus := rfl
@[simp] theorem State.setShedTr_wire (k : Nat) (x : ShedTr) : (s.setShedTr k x).wire = s.wire := rfl
@[simp] theorem State.setShedTr_msiRise (k : Nat) (x : ShedTr) : (s.setShedTr k x).msiRise = s.msiRise := rfl
@[simp] theorem State.setShedTr_ticks (k : Nat) (x : ShedTr) : (s.setShedTr k x).ticks = s.ticks := rfl
@[simp] theorem State.setShedTr_tickCount (k : Nat) (x : ShedTr) : (s.setShedTr k x).tickCount = s.tickCount := rfl
@[simp] theorem State.setShedTr_ct (k : Nat) (x : ShedTr) : (s.setShedTr k x).ct = s.ct := rfl
@[simp] theorem State.setShedTr_eps (k : Nat) (x : ShedTr) : (s.setShedTr k x).eps = s.eps := rfl
@[simp] theorem State.setShedTr_ecc (k : Nat) (x : ShedTr) : (s.setShedTr k x).ecc = s.ecc := rfl
@[simp] theorem State.setShedTr_cores (k : Nat) (x : ShedTr) : (s.setShedTr k x).cores = s.cores := rfl
@[simp] theorem State.setShedTr_tags (k : Nat) (x : ShedTr) : (s.setShedTr k x).tags = s.tags := rfl
@[simp] theorem State.setShedTr_guards (k : Nat) (x : ShedTr) : (s.setShedTr k x).guards = s.guards := rfl
@[simp] theorem State.setShedTr_hmsgs (k : Nat) (x : ShedTr) : (s.setShedTr k x).hmsgs = s.hmsgs := rfl
@[simp] theorem State.setShedTr_postAns (k : Nat) (x : ShedTr) : (s.setShedTr k x).postAns = s.postAns := rfl
@[simp] theorem State.setShedTr_comps (k : Nat) (x : ShedTr) : (s.setShedTr k x).comps = s.comps := rfl
@[simp] theorem State.setShedTr_resps (k : Nat) (x : ShedTr) : (s.setShedTr k x).resps = s.resps := rfl
@[simp] theorem State.setShedTr_resvs (k : Nat) (x : ShedTr) : (s.setShedTr k x).resvs = s.resvs := rfl
@[simp] theorem State.setShedTr_held (k : Nat) (x : ShedTr) : (s.setShedTr k x).held = s.held := rfl
@[simp] theorem State.setShedTr_down (k : Nat) (x : ShedTr) : (s.setShedTr k x).down = s.down := rfl
@[simp] theorem State.setShedTr_replays (k : Nat) (x : ShedTr) : (s.setShedTr k x).replays = s.replays := rfl
@[simp] theorem State.setShedTr_worms (k : Nat) (x : ShedTr) : (s.setShedTr k x).worms = s.worms := rfl
@[simp] theorem State.setShedTr_ym (k : Nat) (x : ShedTr) : (s.setShedTr k x).ym = s.ym := rfl
@[simp] theorem State.setShedTr_hatWin (k : Nat) (x : ShedTr) : (s.setShedTr k x).hatWin = s.hatWin := rfl
@[simp] theorem State.setShedTr_scrubDone (k : Nat) (x : ShedTr) : (s.setShedTr k x).scrubDone = s.scrubDone := rfl
@[simp] theorem State.setShedTr_chans (k : Nat) (x : ShedTr) : (s.setShedTr k x).chans = s.chans := rfl
@[simp] theorem State.setShedTr_brwLast (k : Nat) (x : ShedTr) : (s.setShedTr k x).brwLast = s.brwLast := rfl
@[simp] theorem State.setShedTr_tickWaits (k : Nat) (x : ShedTr) : (s.setShedTr k x).tickWaits = s.tickWaits := rfl
@[simp] theorem State.setShedTr_engines (k : Nat) (x : ShedTr) : (s.setShedTr k x).engines = s.engines := rfl
@[simp] theorem State.setShedTr_lbts (k : Nat) (x : ShedTr) : (s.setShedTr k x).lbts = s.lbts := rfl
@[simp] theorem State.setShedTr_sctx (k : Nat) (x : ShedTr) : (s.setShedTr k x).sctx = s.sctx := rfl
@[simp] theorem State.setShedTr_nbch (k : Nat) (x : ShedTr) : (s.setShedTr k x).nbch = s.nbch := rfl
@[simp] theorem State.setShedTr_pl (k : Nat) (x : ShedTr) : (s.setShedTr k x).pl = s.pl := rfl
@[simp] theorem State.setShedTr_macs (k : Nat) (x : ShedTr) : (s.setShedTr k x).macs = s.macs := rfl
@[simp] theorem State.setShedTr_hlt (k : Nat) (x : ShedTr) : (s.setShedTr k x).hlt = s.hlt := rfl
@[simp] theorem State.setShedTr_tack (k : Nat) (x : ShedTr) : (s.setShedTr k x).tack = s.tack := rfl
@[simp] theorem State.setShedTr_otp (k : Nat) (x : ShedTr) : (s.setShedTr k x).otp = s.otp := rfl
@[simp] theorem State.setShedTr_flash (k : Nat) (x : ShedTr) : (s.setShedTr k x).flash = s.flash := rfl
@[simp] theorem State.setShedTr_gpio (k : Nat) (x : ShedTr) : (s.setShedTr k x).gpio = s.gpio := rfl
@[simp] theorem State.setShedTr_uartRx (k : Nat) (x : ShedTr) : (s.setShedTr k x).uartRx = s.uartRx := rfl
@[simp] theorem State.setShedTr_hatTmo (k : Nat) (x : ShedTr) : (s.setShedTr k x).hatTmo = s.hatTmo := rfl

end Sys2Proof.Machine
end

