-- ==== Sys2Proof/Laws/Tables.lean ====
section
/-! SUPPORT. Laws of the sparse tables State is built from: read after write, and the canonical form that every
table operation keeps. -/

namespace Sys2Proof.Machine

variable {α : Type} [DecidableEq α] (d : Nat → α)

omit [DecidableEq α] in
@[simp] theorem tget_nil (k : Nat) : tget d [] k = d k := rfl

omit [DecidableEq α] in
theorem tget_tput (t : Tab α) (k j : Nat) (v : α) :
    tget d (tput t k v) j = if k = j then v else tget d t j := by
  induction t with
  | nil => simp [tput, tget]
  | cons p t ih =>
    obtain ⟨i, w⟩ := p
    simp only [tput]
    split
    · simp [tget]
    · split
      · subst k
        simp only [tget]
        split <;> rfl
      · simp only [tget, ih]
        split
        · split
          · omega
          · rfl
        · rfl

omit [DecidableEq α] in
theorem tget_filter_ne (t : Tab α) (k j : Nat) :
    tget d (t.filter (fun p => p.1 != k)) j = if k = j then d j else tget d t j := by
  induction t with
  | nil => simp [tget]
  | cons p t ih =>
    obtain ⟨i, w⟩ := p
    by_cases h : i = k
    · subst h
      simp only [List.filter_cons, bne_self_eq_false, Bool.false_eq_true, if_false, ih, tget]
      split <;> rfl
    · simp only [List.filter_cons, bne_iff_ne, ne_eq, h, not_false_eq_true, if_true, tget, ih]
      split
      · split
        · omega
        · rfl
      · rfl

/-- A table read after a write: the value written at its key, what it held at every other. -/
theorem tget_tset (t : Tab α) (k j : Nat) (v : α) :
    tget d (tset d t k v) j = if k = j then v else tget d t j := by
  unfold tset
  split
  · next h => subst h; rw [tget_filter_ne]; split <;> simp_all
  · exact tget_tput d t k j v

@[simp] theorem tget_tset_same (t : Tab α) (k : Nat) (v : α) : tget d (tset d t k v) k = v := by
  simp [tget_tset]

theorem tget_tset_other (t : Tab α) {k j : Nat} (v : α) (h : k ≠ j) :
    tget d (tset d t k v) j = tget d t j := by
  simp [tget_tset, h]

omit [DecidableEq α] in
/-- What is read of a table from which keys were dropped. -/
theorem tget_tdrop (f : Nat → Bool) (t : Tab α) (j : Nat) :
    tget d (tdrop f t) j = if f j then d j else tget d t j := by
  induction t with
  | nil => simp [tdrop, tget]
  | cons p t ih =>
    obtain ⟨i, w⟩ := p
    unfold tdrop at *
    by_cases h : f i
    · simp only [List.filter_cons, h, Bool.not_true, Bool.false_eq_true, if_false, ih, tget]
      split
      · rfl
      · split
        · simp_all
        · rfl
    · simp only [List.filter_cons, h, Bool.not_false, if_true, tget, ih]
      split
      · simp_all
      · rfl

/-! ## The canonical form -/

theorem twf_nil : twf d [] := ⟨List.Pairwise.nil, by simp⟩

omit [DecidableEq α] in
theorem mem_tput {t : Tab α} {k : Nat} {v : α} {p : Nat × α} (h : p ∈ tput t k v) : p = (k, v) ∨ p ∈ t := by
  induction t with
  | nil => simpa [tput] using h
  | cons q t ih =>
    obtain ⟨i, w⟩ := q
    simp only [tput] at h
    split at h
    · simpa using h
    · split at h
      · rcases List.mem_cons.1 h with h | h
        · exact .inl h
        · exact .inr (List.mem_cons_of_mem _ h)
      · rcases List.mem_cons.1 h with h | h
        · exact .inr (h ▸ List.mem_cons_self)
        · exact (ih h).imp id (List.mem_cons_of_mem _)

omit [DecidableEq α] in
theorem pairwise_tput {t : Tab α} (h : t.Pairwise (fun p q => p.1 < q.1)) (k : Nat) (v : α) :
    (tput t k v).Pairwise (fun p q => p.1 < q.1) := by
  induction t with
  | nil => simp [tput]
  | cons q t ih =>
    obtain ⟨i, w⟩ := q
    have hc := List.pairwise_cons.1 h
    simp only [tput]
    split
    · next hk =>
      refine List.pairwise_cons.2 ⟨fun p hp => ?_, h⟩
      rcases List.mem_cons.1 hp with rfl | hp
      · exact hk
      · exact Nat.lt_trans hk (hc.1 p hp)
    · split
      · next hk => exact List.pairwise_cons.2 ⟨fun p hp => hk ▸ hc.1 p hp, hc.2⟩
      · next h1 h2 =>
        refine List.pairwise_cons.2 ⟨fun p hp => ?_, ih hc.2⟩
        rcases mem_tput hp with rfl | hp
        · simp only; omega
        · exact hc.1 p hp

/-- Writing keeps the canonical form. -/
theorem twf_tset {t : Tab α} (h : twf d t) (k : Nat) (v : α) : twf d (tset d t k v) := by
  unfold tset
  split
  · exact ⟨h.1.filter _, fun p hp => h.2 p (List.mem_filter.1 hp).1⟩
  · next hv =>
    refine ⟨pairwise_tput h.1 k v, fun p hp => ?_⟩
    rcases mem_tput hp with rfl | hp
    · exact hv
    · exact h.2 p hp

/-- Dropping keys keeps the canonical form. -/
theorem twf_tdrop {t : Tab α} (h : twf d t) (f : Nat → Bool) : twf d (tdrop f t) :=
  ⟨h.1.filter _, fun p hp => h.2 p (List.mem_filter.1 hp).1⟩

/-! ## Fields of words -/

@[simp] theorem b2n_true : b2n true = 1 := rfl
@[simp] theorem b2n_false : b2n false = 0 := rfl

theorem b2n_lt_two (b : Bool) : b2n b < 2 := by cases b <;> decide

theorem testBit_setFld (v hi lo x i : Nat) (h : lo ≤ hi) :
    (setFld v hi lo x).testBit i =
      if lo ≤ i ∧ i ≤ hi then x.testBit (i - lo) else v.testBit i := by
  simp only [setFld, Nat.testBit_or, Nat.testBit_shiftLeft, Nat.testBit_shiftRight, Nat.testBit_mod_two_pow]
  by_cases h1 : i < lo
  · have a1 : ¬ i ≥ hi + 1 := by omega
    have a2 : ¬ i ≥ lo := by omega
    have a3 : ¬ (lo ≤ i ∧ i ≤ hi) := by omega
    simp [a1, a2, h1]
  · by_cases h2 : i ≤ hi
    · have a1 : ¬ i ≥ hi + 1 := by omega
      have a2 : i ≥ lo := by omega
      have a3 : lo ≤ i ∧ i ≤ hi := by omega
      have a4 : i - lo < hi + 1 - lo := by omega
      simp [a1, a2, a3, h1, a4]
    · have a1 : i ≥ hi + 1 := by omega
      have a2 : i ≥ lo := by omega
      have a3 : ¬ (lo ≤ i ∧ i ≤ hi) := by omega
      have a4 : ¬ i - lo < hi + 1 - lo := by omega
      have a5 : hi + 1 + (i - (hi + 1)) = i := by omega
      simp [a1, a3, h1, a4, a5]

/-- A field just written reads back what was written, cut to its width. -/
theorem fld_setFld (v hi lo x : Nat) (h : lo ≤ hi) : fld (setFld v hi lo x) hi lo = x % 2 ^ (hi + 1 - lo) := by
  apply Nat.eq_of_testBit_eq
  intro i
  simp only [fld, Nat.testBit_mod_two_pow, Nat.testBit_shiftRight, testBit_setFld _ _ _ _ _ h]
  by_cases hi' : i < hi + 1 - lo
  · have : lo ≤ lo + i ∧ lo + i ≤ hi := by omega
    simp [hi', this]
  · simp [hi']

/-- Writing one field leaves every field that does not overlap it. -/
theorem fld_setFld_other (v hi lo x hi' lo' : Nat) (h : lo ≤ hi) (hd : hi' < lo ∨ hi < lo') (h' : lo' ≤ hi') :
    fld (setFld v hi lo x) hi' lo' = fld v hi' lo' := by
  apply Nat.eq_of_testBit_eq
  intro i
  simp only [fld, Nat.testBit_mod_two_pow, Nat.testBit_shiftRight, testBit_setFld _ _ _ _ _ h]
  by_cases hi1 : i < hi' + 1 - lo'
  · have : ¬ (lo ≤ lo' + i ∧ lo' + i ≤ hi) := by omega
    simp [this]
  · simp [hi1]

theorem testBit_setBit (v i j : Nat) : (setBit v i).testBit j = (v.testBit j || decide (i = j)) := by
  simp only [setBit, Nat.testBit_or, Nat.one_shiftLeft, Nat.testBit_two_pow]

end Sys2Proof.Machine
end

