-- ==== Sys2Proof/Laws/Ops.lean ====
section
/-! SUPPORT. Laws of the shared operations: registers, memory, time, interrupt flags, and the units' tables. -/

namespace Sys2Proof.Machine

variable (s t : State)

/-! ## Registers -/

theorem State.rd_lt (a : Nat) : s.rd a < 2 ^ 64 := (s.reg a).isLt

/-- A register read after a write. -/
theorem State.rd_wr (a b v : Nat) : (s.wr a v).rd b = if a = b then v % 2 ^ 64 else s.rd b := by
  simp only [State.rd, State.reg, State.wr, tget_tset]
  split <;> simp [BitVec.toNat_ofNat]

@[simp] theorem State.rd_wr_same (a v : Nat) : (s.wr a v).rd a = v % 2 ^ 64 := by simp [State.rd_wr]

theorem State.rd_wr_other {a b : Nat} (v : Nat) (h : a ≠ b) : (s.wr a v).rd b = s.rd b := by simp [State.rd_wr, h]

theorem State.rd_of_regs {s t : State} (h : t.regs = s.regs) (a : Nat) : t.rd a = s.rd a := by
  simp only [State.rd, State.reg, h]

theorem State.rb_of_regs {s t : State} (h : t.regs = s.regs) (a i : Nat) : t.rb a i = s.rb a i := by
  simp only [State.rb, State.rd_of_regs h]

theorem State.rf_of_regs {s t : State} (h : t.regs = s.regs) (a i j : Nat) : t.rf a i j = s.rf a i j := by
  simp only [State.rf, State.rd_of_regs h]

theorem setFld_lt (v hi lo x w : Nat) (h : lo ≤ hi) (hw : hi < w) (hv : v < 2 ^ w) : setFld v hi lo x < 2 ^ w := by
  apply Nat.lt_pow_two_of_testBit
  intro i hi'
  rw [testBit_setFld _ _ _ _ _ h, if_neg (by omega)]
  exact Nat.testBit_lt_two_pow (Nat.lt_of_lt_of_le hv (Nat.pow_le_pow_right (by decide) hi'))

/-- A register read after one of its fields was written. -/
theorem State.rd_wf (a b hi lo v : Nat) (h : lo ≤ hi) (hw : hi < 64) :
    (s.wf a hi lo v).rd b = if a = b then setFld (s.rd a) hi lo v else s.rd b := by
  simp only [State.wf, State.rd_wr]
  split
  · exact Nat.mod_eq_of_lt (setFld_lt _ _ _ _ 64 h hw (s.rd_lt a))
  · rfl

theorem State.rd_wb (a b i : Nat) (x : Bool) (hw : i < 64) :
    (s.wb a i x).rd b = if a = b then setFld (s.rd a) i i (b2n x) else s.rd b := s.rd_wf a b i i _ (Nat.le_refl _) hw

/-- A field just written reads back. -/
theorem State.rf_wf_same (a hi lo v : Nat) (h : lo ≤ hi) (hw : hi < 64) :
    (s.wf a hi lo v).rf a hi lo = v % 2 ^ (hi + 1 - lo) := by
  simp only [State.rf, s.rd_wf a a hi lo v h hw, if_true, fld_setFld _ _ _ _ h]

/-- A bit just written reads back. -/
theorem State.rb_wb_same (a i : Nat) (x : Bool) (hw : i < 64) : (s.wb a i x).rb a i = x := by
  simp only [State.rb, s.rd_wb a a i x hw, if_true, tb, testBit_setFld _ _ _ _ _ (Nat.le_refl i)]
  cases x <;> simp

/-- Another bit of the same register is unchanged. -/
theorem State.rb_wb_other (a i j : Nat) (x : Bool) (hw : i < 64) (h : i ≠ j) : (s.wb a i x).rb a j = s.rb a j := by
  simp only [State.rb, s.rd_wb a a i x hw, if_true, tb, testBit_setFld _ _ _ _ _ (Nat.le_refl i)]
  rw [if_neg (by omega)]

/-- A bit of another register is unchanged. -/
theorem State.rb_wb_reg {a b : Nat} (i j : Nat) (x : Bool) (h : a ≠ b) : (s.wb a i x).rb b j = s.rb b j := by
  simp only [State.rb, State.wb, State.wf, s.rd_wr_other _ h]

theorem State.rf_wf_reg {a b : Nat} (hi lo v hi' lo' : Nat) (h : a ≠ b) : (s.wf a hi lo v).rf b hi' lo' = s.rf b hi' lo' := by
  simp only [State.rf, State.wf, s.rd_wr_other _ h]

/-! ## Memory -/

/-- A byte read after one was stored. -/
theorem State.byte_setByte (a b : Nat) (x : Byte) : (s.setByte a x).byte b = if a = b then x else s.byte b := by
  simp only [State.byte, State.setByte, tget_tset]

theorem tget_memStore (m : List Host.Cell) (a b : Nat) (l : List Byte) :
    tget memReset (memStore m a l) b = if a ≤ b ∧ b < a + l.length then l.getD (b - a) 0 else tget memReset m b := by
  induction l generalizing m a with
  | nil =>
    have h : ¬ (a ≤ b ∧ b < a + ([] : List Byte).length) := by simp only [List.length_nil]; omega
    rw [if_neg h]; rfl
  | cons x l ih =>
    simp only [memStore, ih, tget_tset, List.length_cons]
    by_cases h1 : a = b
    · subst h1
      simp
    · by_cases h2 : a ≤ b ∧ b < a + (l.length + 1)
      · have h3 : a + 1 ≤ b ∧ b < a + 1 + l.length := by omega
        have h4 : b - a = (b - (a + 1)) + 1 := by omega
        rw [if_pos h3, if_pos h2, h4, List.getD_cons_succ]
      · have h3 : ¬ (a + 1 ≤ b ∧ b < a + 1 + l.length) := by omega
        rw [if_neg h3, if_neg h1, if_neg h2]

/-- What a store of bytes leaves at each address: the bytes stored, and elsewhere what was there. -/
theorem State.byte_store (a b : Nat) (l : List Byte) :
    (s.store a l).byte b = if a ≤ b ∧ b < a + l.length then l.getD (b - a) 0 else s.byte b := by
  simp only [State.byte, State.store, tget_memStore]

theorem State.byte_store_other {a b : Nat} (l : List Byte) (h : b < a ∨ a + l.length ≤ b) : (s.store a l).byte b = s.byte b := by
  rw [State.byte_store, if_neg (by omega)]

@[simp] theorem length_natLe (n v : Nat) : (natLe n v).length = n := by
  induction n generalizing v with
  | zero => rfl
  | succ n ih => simp [natLe, ih]

@[simp] theorem length_sub (l : List Byte) (o n : Nat) : (sub l o n).length = n := by
  simp only [sub, List.length_append, List.length_replicate, List.length_take, List.length_drop]
  omega

theorem leNat_natLe (n v : Nat) : leNat (natLe n v) = v % 256 ^ n := by
  induction n generalizing v with
  | zero => simp [natLe, leNat, Nat.mod_one]
  | succ n ih =>
    rw [natLe, leNat, ih, BitVec.toNat_ofNat, Nat.pow_succ' (n := n), Nat.mod_mul]

/-- The bytes at a stretch just stored. -/
theorem State.bytes_store (a : Nat) (l : List Byte) : (s.store a l).bytes a l.length = l := by
  apply List.ext_getElem
  · simp [State.bytes]
  · intro i h1 h2
    simp only [State.bytes, List.getElem_map, List.getElem_range, State.byte_store]
    rw [if_pos (by omega), Nat.add_sub_cancel_left, List.getD_eq_getElem _ _ h2]

/-- A number read back where it was stored (R3). -/
theorem State.ld_st (a n v : Nat) : (s.st a n v).ld a n = v % 256 ^ n := by
  have h := s.bytes_store a (natLe n v)
  rw [length_natLe] at h
  simp only [State.ld, State.st, h, leNat_natLe]

theorem State.bytes_of_mem {s t : State} (h : t.mem = s.mem) (a n : Nat) : t.bytes a n = s.bytes a n := by
  simp only [State.bytes, State.byte, h]

theorem State.ld_of_mem {s t : State} (h : t.mem = s.mem) (a n : Nat) : t.ld a n = s.ld a n := by
  simp only [State.ld, State.bytes_of_mem h]

theorem State.byte_of_mem {s t : State} (h : t.mem = s.mem) (a : Nat) : t.byte a = s.byte a := by
  simp only [State.byte, h]

/-! ### The canonical form of memory -/

theorem memStore_wf {m : List Host.Cell} (h : Memory.wf m) (a : Nat) (l : List Byte) : Memory.wf (memStore m a l) := by
  induction l generalizing m a with
  | nil => exact h
  | cons b l ih => exact ih (twf_tset memReset h a b) (a + 1)

theorem State.setByte_wf {s : State} (h : Memory.wf s.mem) (a : Nat) (b : Byte) : Memory.wf (s.setByte a b).mem := twf_tset memReset h a b
theorem State.store_wf {s : State} (h : Memory.wf s.mem) (a : Nat) (l : List Byte) : Memory.wf (s.store a l).mem := memStore_wf h a l
theorem State.st_wf {s : State} (h : Memory.wf s.mem) (a n v : Nat) : Memory.wf (s.st a n v).mem := memStore_wf h a _
theorem State.zero_wf {s : State} (h : Memory.wf s.mem) (a n : Nat) : Memory.wf (s.zero a n).mem := twf_tdrop memReset h (fun k => decide (a ≤ k) && decide (k < a + n))
theorem State.initMem_wf {s : State} (h : Memory.wf s.mem) (f : Nat → Bool) : Memory.wf (s.initMem f).mem := twf_tdrop memReset h f

/-! ## Time, outputs, answers -/

@[simp] theorem State.until_now (n : Nat) : (s.until n).now = max s.now n := rfl
@[simp] theorem State.answer_bus (c v : Nat) : (s.answer c v).bus = ⟨c, v⟩ := rfl
@[simp] theorem State.emit_wire (e : WireEv) : (s.emit e).wire = s.wire ++ [e] := rfl

/-! ## Interrupt flags (R497) -/

@[simp] theorem State.rise_regs (src : Nat) (b a : Bool) : (s.rise src b a).regs = s.regs := by unfold State.rise; split <;> rfl
@[simp] theorem State.rise_mem (src : Nat) (b a : Bool) : (s.rise src b a).mem = s.mem := by unfold State.rise; split <;> rfl
@[simp] theorem State.rise_pending (src : Nat) (b a : Bool) : (s.rise src b a).pending = s.pending := by unfold State.rise; split <;> rfl
@[simp] theorem State.rise_now (src : Nat) (b a : Bool) : (s.rise src b a).now = s.now := by unfold State.rise; split <;> rfl
@[simp] theorem State.flag_mem (st en src i : Nat) : (s.flag st en src i).mem = s.mem := by simp [State.flag]
@[simp] theorem State.flag_pending (st en src i : Nat) : (s.flag st en src i).pending = s.pending := by simp [State.flag]
@[simp] theorem State.flag_now (st en src i : Nat) : (s.flag st en src i).now = s.now := by simp [State.flag]

/-- Raising a flag sets its bit and changes no other register. -/
theorem State.rd_flag (st en src i b : Nat) (h : i < 64) :
    (s.flag st en src i).rd b = if st = b then setBit (s.rd st) i else s.rd b := by
  rw [State.flag, State.rd_of_regs (State.rise_regs _ _ _ _), State.rd_wr]
  split
  · refine Nat.mod_eq_of_lt (Nat.lt_pow_two_of_testBit _ fun j hj => ?_)
    rw [testBit_setBit, Nat.testBit_lt_two_pow (Nat.lt_of_lt_of_le (s.rd_lt st) (Nat.pow_le_pow_right (by decide) hj))]
    simp; omega
  · rfl

/-! ## The units' tables -/

theorem State.dom_setDom (d e : Nat) (x : Domain) : (s.setDom d x).dom e = if d = e then x else s.dom e := by
  simp only [State.dom, State.setDom, tget_tset]
theorem State.train_setTrain (d e : Nat) (x : Train) : (s.setTrain d x).train e = if d = e then x else s.train e := by
  simp only [State.train, State.setTrain, tget_tset]
theorem State.ppsIn_setPps (d e : Nat) (x : PpsIn) : (s.setPps d x).ppsIn e = if d = e then x else s.ppsIn e := by
  simp only [State.ppsIn, State.setPps, tget_tset]
theorem State.epSt_setEp (d e : Nat) (x : EpState) : (s.setEp d x).epSt e = if d = e then x else s.epSt e := by
  simp only [State.epSt, State.setEp, tget_tset]
theorem State.eccOf_setEcc (d e x : Nat) : (s.setEcc d x).eccOf e = if d = e then x else s.eccOf e := by
  simp only [State.eccOf, State.setEcc, tget_tset]
theorem State.core_setCore (d e : Nat) (x : Core) : (s.setCore d x).core e = if d = e then x else s.core e := by
  simp only [State.core, State.setCore, tget_tset]
theorem State.th_setTh (d e : Nat) (x : Thread) : (s.setTh d x).th e = if d = e then x else s.th e := by
  simp only [State.th, State.setTh, tget_tset]
theorem State.flow_setFlow (d e : Nat) (x : Flow) : (s.setFlow d x).flow e = if d = e then x else s.flow e := by
  simp only [State.flow, State.setFlow, tget_tset]
theorem State.chan_setChan (d e : Nat) (x : Chan) : (s.setChan d x).chan e = if d = e then x else s.chan e := by
  simp only [State.chan, State.setChan, tget_tset]
theorem State.eng_setEng (d e : Nat) (x : Engine) : (s.setEng d x).eng e = if d = e then x else s.eng e := by
  simp only [State.eng, State.setEng, tget_tset]
theorem State.lbt_setLbt (d e : Nat) (x : Lbt) : (s.setLbt d x).lbt e = if d = e then x else s.lbt e := by
  simp only [State.lbt, State.setLbt, tget_tset]
theorem State.plp_setPlp (d e : Nat) (x : PlPort) : (s.setPlp d x).plp e = if d = e then x else s.plp e := by
  simp only [State.plp, State.setPlp, tget_tset]
theorem State.mac_setMac (d e : Nat) (x : Mac) : (s.setMac d x).mac e = if d = e then x else s.mac e := by
  simp only [State.mac, State.setMac, tget_tset]
theorem State.hcell_setHcell (d e : Nat) (x : HCell) : (s.setHcell d x).hcell e = if d = e then x else s.hcell e := by
  simp only [State.hcell, State.setHcell, tget_tset]
theorem State.shedTr_setShedTr (d e : Nat) (x : ShedTr) : (s.setShedTr d x).shedTr e = if d = e then x else s.shedTr e := by
  simp only [State.shedTr, State.setShedTr, tget_tset]
theorem State.core_modCore (d e : Nat) (f : Core → Core) : (s.modCore d f).core e = if d = e then f (s.core d) else s.core e := by
  simp only [State.modCore, State.core_setCore]
theorem State.chan_modChan (d e : Nat) (f : Chan → Chan) : (s.modChan d f).chan e = if d = e then f (s.chan d) else s.chan e := by
  simp only [State.modChan, State.chan_setChan]
theorem State.eng_modEng (d e : Nat) (f : Engine → Engine) : (s.modEng d f).eng e = if d = e then f (s.eng d) else s.eng e := by
  simp only [State.modEng, State.eng_setEng]
theorem State.plp_modPlp (d e : Nat) (f : PlPort → PlPort) : (s.modPlp d f).plp e = if d = e then f (s.plp d) else s.plp e := by
  simp only [State.modPlp, State.plp_setPlp]
theorem State.mac_modMac (d e : Nat) (f : Mac → Mac) : (s.modMac d f).mac e = if d = e then f (s.mac d) else s.mac e := by
  simp only [State.modMac, State.mac_setMac]
theorem State.hcell_modHcell (d e : Nat) (f : HCell → HCell) : (s.modHcell d f).hcell e = if d = e then f (s.hcell d) else s.hcell e := by
  simp only [State.modHcell, State.hcell_setHcell]
theorem State.tag_setTag_same (h k : Nat) (x : Tag) : (s.setTag h k x).tag h k = x := by simp [State.tag, State.setTag]
theorem State.guard_setGuard_same (g i : Nat) (x : Guard) : (s.setGuard g i x).guard g i = x := by simp [State.guard, State.setGuard]

/-! ## What reads nothing an update changed -/

@[simp] theorem State.setByte_rd (a : Nat) (b : Byte) (r : Nat) : (s.setByte a b).rd r = s.rd r := rfl
@[simp] theorem State.store_rd (a : Nat) (l : List Byte) (r : Nat) : (s.store a l).rd r = s.rd r := rfl
@[simp] theorem State.st_rd (a n v : Nat) (r : Nat) : (s.st a n v).rd r = s.rd r := rfl
@[simp] theorem State.zero_rd (a n : Nat) (r : Nat) : (s.zero a n).rd r = s.rd r := rfl
@[simp] theorem State.emit_rd (e : WireEv) (r : Nat) : (s.emit e).rd r = s.rd r := rfl
@[simp] theorem State.until_rd (t : Nat) (r : Nat) : (s.until t).rd r = s.rd r := rfl
@[simp] theorem State.answer_rd (c v : Nat) (r : Nat) : (s.answer c v).rd r = s.rd r := rfl
@[simp] theorem State.capture_rd (l : List Nat) (r : Nat) : (s.capture l).rd r = s.rd r := rfl
@[simp] theorem State.setDom_rd (d : Nat) (x : Domain) (r : Nat) : (s.setDom d x).rd r = s.rd r := rfl
@[simp] theorem State.setTrain_rd (k : Nat) (x : Train) (r : Nat) : (s.setTrain k x).rd r = s.rd r := rfl
@[simp] theorem State.setPps_rd (i : Nat) (x : PpsIn) (r : Nat) : (s.setPps i x).rd r = s.rd r := rfl
@[simp] theorem State.setEp_rd (e : Nat) (x : EpState) (r : Nat) : (s.setEp e x).rd r = s.rd r := rfl
@[simp] theorem State.setEcc_rd (w d : Nat) (r : Nat) : (s.setEcc w d).rd r = s.rd r := rfl
@[simp] theorem State.setCore_rd (g : Nat) (x : Core) (r : Nat) : (s.setCore g x).rd r = s.rd r := rfl
@[simp] theorem State.modCore_rd (g : Nat) (f : Core → Core) (r : Nat) : (s.modCore g f).rd r = s.rd r := rfl
@[simp] theorem State.setTag_rd (h k : Nat) (x : Tag) (r : Nat) : (s.setTag h k x).rd r = s.rd r := rfl
@[simp] theorem State.setGuard_rd (g i : Nat) (x : Guard) (r : Nat) : (s.setGuard g i x).rd r = s.rd r := rfl
@[simp] theorem State.setTh_rd (g : Nat) (x : Thread) (r : Nat) : (s.setTh g x).rd r = s.rd r := rfl
@[simp] theorem State.setFlow_rd (f : Nat) (x : Flow) (r : Nat) : (s.setFlow f x).rd r = s.rd r := rfl
@[simp] theorem State.setInsts_rd (l : List Inst) (r : Nat) : (s.setInsts l).rd r = s.rd r := rfl
@[simp] theorem State.setPlace_rd (l : List Place) (r : Nat) : (s.setPlace l).rd r = s.rd r := rfl
@[simp] theorem State.setChan_rd (c : Nat) (x : Chan) (r : Nat) : (s.setChan c x).rd r = s.rd r := rfl
@[simp] theorem State.modChan_rd (c : Nat) (f : Chan → Chan) (r : Nat) : (s.modChan c f).rd r = s.rd r := rfl
@[simp] theorem State.setEng_rd (e : Nat) (x : Engine) (r : Nat) : (s.setEng e x).rd r = s.rd r := rfl
@[simp] theorem State.modEng_rd (e : Nat) (f : Engine → Engine) (r : Nat) : (s.modEng e f).rd r = s.rd r := rfl
@[simp] theorem State.setLbt_rd (c : Nat) (x : Lbt) (r : Nat) : (s.setLbt c x).rd r = s.rd r := rfl
@[simp] theorem State.setNb_rd (i c : Nat) (x : NbChan) (r : Nat) : (s.setNb i c x).rd r = s.rd r := rfl
@[simp] theorem State.setPlp_rd (p : Nat) (x : PlPort) (r : Nat) : (s.setPlp p x).rd r = s.rd r := rfl
@[simp] theorem State.modPlp_rd (p : Nat) (f : PlPort → PlPort) (r : Nat) : (s.modPlp p f).rd r = s.rd r := rfl
@[simp] theorem State.setMac_rd (m : Nat) (x : Mac) (r : Nat) : (s.setMac m x).rd r = s.rd r := rfl
@[simp] theorem State.modMac_rd (m : Nat) (f : Mac → Mac) (r : Nat) : (s.modMac m f).rd r = s.rd r := rfl
@[simp] theorem State.setHcell_rd (c : Nat) (x : HCell) (r : Nat) : (s.setHcell c x).rd r = s.rd r := rfl
@[simp] theorem State.modHcell_rd (c : Nat) (f : HCell → HCell) (r : Nat) : (s.modHcell c f).rd r = s.rd r := rfl
@[simp] theorem State.otpSet_rd (i : Nat) (b : Byte) (r : Nat) : (s.otpSet i b).rd r = s.rd r := rfl
@[simp] theorem State.setShedTr_rd (k : Nat) (x : ShedTr) (r : Nat) : (s.setShedTr k x).rd r = s.rd r := rfl
@[simp] theorem State.wr_byte (a v : Nat) (r : Nat) : (s.wr a v).byte r = s.byte r := rfl
@[simp] theorem State.wf_byte (a hi lo v : Nat) (r : Nat) : (s.wf a hi lo v).byte r = s.byte r := rfl
@[simp] theorem State.wb_byte (a i : Nat) (b : Bool) (r : Nat) : (s.wb a i b).byte r = s.byte r := rfl
@[simp] theorem State.cnt_byte (a n : Nat) (r : Nat) : (s.cnt a n).byte r = s.byte r := rfl
@[simp] theorem State.emit_byte (e : WireEv) (r : Nat) : (s.emit e).byte r = s.byte r := rfl
@[simp] theorem State.until_byte (t : Nat) (r : Nat) : (s.until t).byte r = s.byte r := rfl
@[simp] theorem State.answer_byte (c v : Nat) (r : Nat) : (s.answer c v).byte r = s.byte r := rfl
@[simp] theorem State.capture_byte (l : List Nat) (r : Nat) : (s.capture l).byte r = s.byte r := rfl
@[simp] theorem State.setDom_byte (d : Nat) (x : Domain) (r : Nat) : (s.setDom d x).byte r = s.byte r := rfl
@[simp] theorem State.setTrain_byte (k : Nat) (x : Train) (r : Nat) : (s.setTrain k x).byte r = s.byte r := rfl
@[simp] theorem State.setPps_byte (i : Nat) (x : PpsIn) (r : Nat) : (s.setPps i x).byte r = s.byte r := rfl
@[simp] theorem State.setEp_byte (e : Nat) (x : EpState) (r : Nat) : (s.setEp e x).byte r = s.byte r := rfl
@[simp] theorem State.setEcc_byte (w d : Nat) (r : Nat) : (s.setEcc w d).byte r = s.byte r := rfl
@[simp] theorem State.setCore_byte (g : Nat) (x : Core) (r : Nat) : (s.setCore g x).byte r = s.byte r := rfl
@[simp] theorem State.modCore_byte (g : Nat) (f : Core → Core) (r : Nat) : (s.modCore g f).byte r = s.byte r := rfl
@[simp] theorem State.setTag_byte (h k : Nat) (x : Tag) (r : Nat) : (s.setTag h k x).byte r = s.byte r := rfl
@[simp] theorem State.setGuard_byte (g i : Nat) (x : Guard) (r : Nat) : (s.setGuard g i x).byte r = s.byte r := rfl
@[simp] theorem State.setTh_byte (g : Nat) (x : Thread) (r : Nat) : (s.setTh g x).byte r = s.byte r := rfl
@[simp] theorem State.setFlow_byte (f : Nat) (x : Flow) (r : Nat) : (s.setFlow f x).byte r = s.byte r := rfl
@[simp] theorem State.setInsts_byte (l : List Inst) (r : Nat) : (s.setInsts l).byte r = s.byte r := rfl
@[simp] theorem State.setPlace_byte (l : List Place) (r : Nat) : (s.setPlace l).byte r = s.byte r := rfl
@[simp] theorem State.setChan_byte (c : Nat) (x : Chan) (r : Nat) : (s.setChan c x).byte r = s.byte r := rfl
@[simp] theorem State.modChan_byte (c : Nat) (f : Chan → Chan) (r : Nat) : (s.modChan c f).byte r = s.byte r := rfl
@[simp] theorem State.setEng_byte (e : Nat) (x : Engine) (r : Nat) : (s.setEng e x).byte r = s.byte r := rfl
@[simp] theorem State.modEng_byte (e : Nat) (f : Engine → Engine) (r : Nat) : (s.modEng e f).byte r = s.byte r := rfl
@[simp] theorem State.setLbt_byte (c : Nat) (x : Lbt) (r : Nat) : (s.setLbt c x).byte r = s.byte r := rfl
@[simp] theorem State.setNb_byte (i c : Nat) (x : NbChan) (r : Nat) : (s.setNb i c x).byte r = s.byte r := rfl
@[simp] theorem State.setPlp_byte (p : Nat) (x : PlPort) (r : Nat) : (s.setPlp p x).byte r = s.byte r := rfl
@[simp] theorem State.modPlp_byte (p : Nat) (f : PlPort → PlPort) (r : Nat) : (s.modPlp p f).byte r = s.byte r := rfl
@[simp] theorem State.setMac_byte (m : Nat) (x : Mac) (r : Nat) : (s.setMac m x).byte r = s.byte r := rfl
@[simp] theorem State.modMac_byte (m : Nat) (f : Mac → Mac) (r : Nat) : (s.modMac m f).byte r = s.byte r := rfl
@[simp] theorem State.setHcell_byte (c : Nat) (x : HCell) (r : Nat) : (s.setHcell c x).byte r = s.byte r := rfl
@[simp] theorem State.modHcell_byte (c : Nat) (f : HCell → HCell) (r : Nat) : (s.modHcell c f).byte r = s.byte r := rfl
@[simp] theorem State.otpSet_byte (i : Nat) (b : Byte) (r : Nat) : (s.otpSet i b).byte r = s.byte r := rfl
@[simp] theorem State.setShedTr_byte (k : Nat) (x : ShedTr) (r : Nat) : (s.setShedTr k x).byte r = s.byte r := rfl

end Sys2Proof.Machine
end

section
/-! PROOFS of the statements on register accesses and on the step (00_scope.md). The access codes bit by bit, what an
access to a register area does once the network lets it through, and why no such access cuts the response's way back. -/

namespace Sys2Proof.Machine

/-! ## Access codes (R7, R8) -/

/-- The access masks of a row lie within a 64-bit register. -/
abbrev RegRow.MasksFit (row : RegRow) : Prop := row.rw < 2 ^ 64 ∧ row.w1c < 2 ^ 64 ∧ row.w1s < 2 ^ 64

/-- A register's next value bit by bit: the kept bits, the RW bits written, the W1C bits not cleared, the W1S bits set. -/
theorem testBit_regNext {row : RegRow} (hm : row.MasksFit) (old : Nat) {v i : Nat} (hi : i < 64) (hv : v < 2 ^ 64) :
    (regNext row old v).testBit i =
      (old.testBit i && !(row.rw.testBit i || row.w1c.testBit i || row.w1s.testBit i) || v.testBit i && row.rw.testBit i ||
        old.testBit i && row.w1c.testBit i && !v.testBit i || (old.testBit i || v.testBit i) && row.w1s.testBit i) := by
  obtain ⟨hrw, hw1c, hw1s⟩ := hm
  have hmask : row.rw ||| row.w1c ||| row.w1s < 2 ^ 64 := Nat.or_lt_two_pow (Nat.or_lt_two_pow hrw hw1c) hw1s
  have complement {x : Nat} (hx : x < 2 ^ 64) : (2 ^ 64 - 1 - x).testBit i = !x.testBit i := by
    rw [Nat.sub_sub, Nat.add_comm, Nat.testBit_two_pow_sub_succ hx]
    simp [hi]
  simp only [regNext, Nat.testBit_or, Nat.testBit_and, complement hmask, complement hv]

theorem masksFit_of_stableRegion {n o base : Nat} {rows : List RegRow} (h : stableRegion n o = .regs base rows) :
    ∀ row ∈ rows, row.MasksFit := by
  have hcore : ∀ row ∈ rowsCore, row.MasksFit := by decide
  have hstb : ∀ row ∈ rowsStb, row.MasksFit := by decide
  unfold stableRegion at h
  split at h
  · dsimp only at h
    split_ifs at h
  · dsimp only at h
    split_ifs at h <;> cases h <;> assumption

theorem masksFit_of_rowsClass (c : Nat) : ∀ row ∈ rowsClass c, row.MasksFit := by
  unfold rowsClass
  split <;> decide

theorem masksFit_of_engRegion {c o base : Nat} {rows : List RegRow} (h : engRegion c o = .regs base rows) :
    ∀ row ∈ rows, row.MasksFit := by
  have heng : ∀ row ∈ rowsEng, row.MasksFit := by decide
  unfold engRegion at h
  dsimp only at h
  split_ifs at h
  cases h
  exact List.forall_mem_append.mpr ⟨heng, masksFit_of_rowsClass c⟩

theorem masksFit_of_blockRegion {b o base : Nat} {rows : List RegRow} (h : blockRegion b o = .regs base rows) :
    ∀ row ∈ rows, row.MasksFit := by
  unfold blockRegion at h
  dsimp only at h
  repeat' split at h
  all_goals cases h
  all_goals decide

/-- No register of the device has a mask wider than 64 bits. -/
theorem masksFit_of_regionOf {a base : Nat} {rows : List RegRow} (h : regionOf a = .regs base rows) :
    ∀ row ∈ rows, row.MasksFit := by
  unfold regionOf at h
  split_ifs at h
  · exact masksFit_of_stableRegion h
  · exact masksFit_of_engRegion h
  · exact masksFit_of_blockRegion h

/-- The register at an address is a row of the area that holds the address. -/
theorem regionOf_of_busRow {a base : Nat} {row : RegRow} (h : busRow a = some (base, row)) :
    ∃ rows, regionOf a = .regs base rows ∧ findRow rows (a - base) = some row := by
  unfold busRow at h
  split at h
  · cases h
  unfold regRow at h
  split at h
  · next b rows hreg =>
    obtain ⟨r, hfind, heq⟩ := Option.map_eq_some_iff.mp h
    cases heq
    exact ⟨rows, hreg, hfind⟩
  · cases h

/-- R7 and R8 hold of every register the device has. -/
theorem regNext_accessCodes_of_busRow {a base : Nat} {row : RegRow} (h : busRow a = some (base, row)) (old : Nat)
    {v i : Nat} (hi : i < 64) (hv : v < 2 ^ 64) :
    (row.rw.testBit i = true → row.w1c.testBit i = false → row.w1s.testBit i = false →
      (regNext row old v).testBit i = v.testBit i) ∧
    (row.w1c.testBit i = true → row.rw.testBit i = false → row.w1s.testBit i = false →
      (regNext row old v).testBit i = (old.testBit i && !v.testBit i)) ∧
    (row.w1s.testBit i = true → row.rw.testBit i = false → row.w1c.testBit i = false →
      (regNext row old v).testBit i = (old.testBit i || v.testBit i)) ∧
    (row.rw.testBit i = false → row.w1c.testBit i = false → row.w1s.testBit i = false →
      (regNext row old v).testBit i = old.testBit i) := by
  obtain ⟨rows, hreg, hfind⟩ := regionOf_of_busRow h
  have hm : row.MasksFit := masksFit_of_regionOf hreg row (List.mem_of_find?_eq_some hfind)
  rw [testBit_regNext hm old hi hv]
  refine ⟨?rw, ?w1c, ?w1s, ?kept⟩ <;> intro h1 h2 h3 <;> simp [h1, h2, h3]

/-- A row whose RW mask names bit 64, which no register has. -/
def wideMaskRow : RegRow := ⟨"", 0, [], 4, 0, 2 ^ 64, 0, 0, 0, 0, 0, 0⟩

/-- The complement of a mask is taken in natural numbers, so a mask wider than 64 bits keeps no bit. -/
theorem regNext_wideMaskRow : regNext wideMaskRow 1 0 = 0 := by decide

/-- Refutes O1: the statement ranges over rows of any mask, and for one with a mask wider than a register a bit in no
mask is lost on a write (`wideMaskRow`, bit 0, 1 before and 0 after). Of the registers the device has it is true:
`regNext_accessCodes_of_busRow`. -/
theorem not_accessCodesOfAWrite : ¬ Obligations.AccessCodesOfAWrite := by
  intro h
  obtain ⟨-, -, -, hkept⟩ := h wideMaskRow 1 0 0 (by decide) (by decide) (by decide)
  have hbit := hkept (by decide) rfl rfl
  rw [regNext_wideMaskRow] at hbit
  exact absurd hbit (by decide)

/-! ## Registers after a write -/

@[simp] theorem State.reg_wr_same (s : State) (a v : Nat) : (s.wr a v).reg a = BitVec.ofNat 64 v := by
  simp only [State.reg, State.wr, tget_tset_same]

theorem regsBut_wr (s : State) (a v : Nat) : RegsBut [a] s (s.wr a v) := fun _ hb =>
  s.rd_wr_other v fun h => hb (List.mem_singleton.mpr h.symm)

/-- A write of what the register holds. -/
theorem regNext_of_noMask {row : RegRow} (hrw : row.rw = 0) (hw1c : row.w1c = 0) (hw1s : row.w1s = 0) {old : Nat}
    (hold : old < 2 ^ 64) (v : Nat) : regNext row old v = old := by
  have hkeep : old &&& (2 ^ 64 - 1) = old := by rw [Nat.and_two_pow_sub_one_eq_mod, Nat.mod_eq_of_lt hold]
  simp [regNext, hrw, hw1c, hw1s] at hkeep ⊢
  exact hkeep

/-! ## The network's part of an access (R298, R304) -/

theorem ni_of_reaches {s : State} {src dst : Nat} (h : Reaches s src dst) : s.ni src dst = (rspOk, s) := by
  obtain ⟨hdst, -, -, hsrcOpen, hdstOpen, hcut, -, hready⟩ := h
  simp [State.ni, hdst, hsrcOpen, hdstOpen, hcut, hready]

theorem wayBack_of_reaches {s : State} {src dst : Nat} (h : Reaches s src dst) :
    epExists src = true ∧ epExists dst = true ∧ s.cut dst src = false := by
  obtain ⟨-, hsrc, hdst, -, -, -, hopen, -⟩ := h
  exact ⟨hsrc, hdst, hopen⟩

theorem back_of_not_cut {s : State} {src dst : Nat} (h : s.cut dst src = false) (code : Nat) :
    s.back src dst code = (code, s) := by
  simp [State.back, h]

theorem neighbour_lt {r p q : Nat} (hr : r < 96) (h : neighbour r p = some q) : q < 96 := by
  unfold neighbour at h
  split at h
  · split_ifs at h; cases h; assumption
  · split_ifs at h; cases h; omega
  · split_ifs at h; cases h; omega
  · split_ifs at h; cases h; omega
  · cases h

/-- A path depends on the links that are down and on the table's ports towards its end, of the device's 96 routers. -/
theorem routeDown_congr {s t : State} {e d : Nat} (hdown : t.down = s.down)
    (hport : ∀ r, r < 96 → routePort t e r d = routePort s e r d) (n r : Nat) (hr : r < 96) :
    routeDown t e d n r = routeDown s e d n r := by
  induction n generalizing r with
  | zero => rfl
  | succ n ih =>
    simp only [routeDown, hdown, hport r hr]
    cases hq : neighbour r (routePort s e r d) with
    | none => rfl
    | some q => simp only [ih q (neighbour_lt hr hq)]

/-- Whether the way between two endpoints is cut depends on the links that are down, the epoch and its table. -/
theorem cut_congr {s t : State} {src dst : Nat} (hsrc : src / 32 < 96) (hdown : t.down = s.down)
    (hepoch : yrdEpoch t = yrdEpoch s)
    (hport : ∀ r, r < 96 → routePort t (yrdEpoch s) r (dst / 32) = routePort s (yrdEpoch s) r (dst / 32)) :
    t.cut src dst = s.cut src dst := by
  simp only [State.cut, hdown, hepoch, routeDown_congr hdown hport 31 (src / 32) hsrc]

theorem router_lt_of_epExists {e : Nat} (h : epExists e = true) : e / 32 < 96 := by
  simp only [epExists, Bool.and_eq_true, decide_eq_true_eq] at h
  exact h.1

theorem cut_of_regs {s t : State} {src dst : Nat} (hsrc : epExists src = true) (hdown : t.down = s.down)
    (hregs : t.regs = s.regs) : t.cut src dst = s.cut src dst :=
  cut_congr (router_lt_of_epExists hsrc) hdown (State.rf_of_regs hregs _ _ _) fun _ _ => State.rf_of_regs hregs _ _ _

theorem yrdEpoch_lt (s : State) : yrdEpoch s < 2 := Nat.mod_lt _ (by decide)

/-! ## Writes that leave the routes alone (R298, R313)

The response to an access crosses the network after the access took effect, so it matters that no plain write of a
register can cut the way back: the epoch's own table is read-only, and what else a worm's path depends on is not
reached by access codes. -/

/-- The Yard network control block is one register area. -/
theorem regionOf_yrdA {o : Nat} (h : o < 0x1000000) : regionOf (yrdA o) = .regs yrdRegs rowsYrd := by
  have hblock : (yrdA o - 0x03000000000) / 0x1000000 = 10 := by
    simp only [yrdA, yrdRegs, blockBase]; omega
  unfold regionOf
  rw [if_neg, if_neg, if_neg, if_pos, hblock]
  · rfl
  all_goals simp only [yrdA, yrdRegs, blockBase, barnSize]; omega

theorem busRow_yrdA {o base : Nat} {row : RegRow} (ho : o < 0x1000000) (h : busRow (yrdA o) = some (base, row)) :
    base = yrdRegs ∧ findRow rowsYrd o = some row := by
  obtain ⟨rows, hreg, hfind⟩ := regionOf_of_busRow h
  rw [regionOf_yrdA ho] at hreg
  cases hreg
  have hoff : yrdA o - yrdRegs = o := Nat.add_sub_cancel_left ..
  rw [hoff] at hfind
  exact ⟨rfl, hfind⟩

/-- Bytes from the first register of a row to the end of its array, as its widest dimension gives them. -/
def dimsExtent : List (Nat × Nat) → Nat
  | [] => 1
  | (c, st) :: _ => c * st

theorem lt_dimsExtent_of_matchDims {dims : List (Nat × Nat)} {o : Nat} (hst : ∀ p ∈ dims, 0 < p.2)
    (h : matchDims dims o = true) : o < dimsExtent dims := by
  cases dims with
  | nil =>
    simp only [matchDims, beq_iff_eq] at h
    simp [h, dimsExtent]
  | cons p t =>
    obtain ⟨c, st⟩ := p
    simp only [matchDims, Bool.and_eq_true, decide_eq_true_eq] at h
    exact (Nat.div_lt_iff_lt_mul (hst _ List.mem_cons_self)).mp h.1

/-- The row of the route tables' words (R319). -/
def routeWordRow : RegRow :=
  ⟨"YRD_RT_WORD", 0x20000, [(96, 0x100), (2, 0x80), (32, 4)], 4, 0, 0x7070707, 0, 0, 0, 0, 0, 0⟩

/-- The offsets of the route tables belong to their row alone. -/
theorem eq_routeWordRow_of_findRow {o : Nat} {row : RegRow} (h : findRow rowsYrd o = some row) (hlo : 0x20000 ≤ o)
    (hhi : o < 0x26000) : row = routeWordRow := by
  have hlayout : ∀ r ∈ rowsYrd, (∀ p ∈ r.dims, 0 < p.2) ∧
      (r = routeWordRow ∨ r.off + dimsExtent r.dims ≤ 0x20000 ∨ 0x26000 ≤ r.off) := by decide
  obtain ⟨hst, hplace⟩ := hlayout row (List.mem_of_find?_eq_some h)
  have hfits := List.find?_some h
  simp only [Bool.and_eq_true, decide_eq_true_eq] at hfits
  obtain ⟨hoff, hdims⟩ := hfits
  have hlt := lt_dimsExtent_of_matchDims hst hdims
  exact hplace.resolve_right (by omega)

theorem regHook_yrdRegs (src : Nat) (km : Bool) (a : Nat) : regHook src km yrdRegs a = yrdWrite := rfl

/-- A write to the table of the current epoch is refused (R313). -/
theorem yrdWrite_currentTable (s s1 : State) {ix : List Nat} (v : Nat) (h : ix.getD 1 0 = yrdEpoch s) :
    yrdWrite routeWordRow.name ix v s s1 = (rspTgt, s) := if_pos (Or.inl h)

/-- A write is plain when its block adds nothing to what the access codes make of it. -/
abbrev PlainWrite (src : Nat) (km : Bool) (base a : Nat) (row : RegRow) (v : Nat) (s : State) : Prop :=
  regHook src km base a row.name (rowIdx base row a) v s (s.wr a (regNext row (s.rd a) v)) =
    (rspOk, s.wr a (regNext row (s.rd a) v))

section
variable {s : State} {src a v base : Nat} {km : Bool} {row : RegRow}

/-- The route status, which holds the epoch, is read-only. -/
theorem yrdEpoch_write (hrow : busRow a = some (base, row)) :
    yrdEpoch (s.wr a (regNext row (s.rd a) v)) = yrdEpoch s := by
  have hstatus : (s.wr a (regNext row (s.rd a) v)).rd (yrdA 0x24) = s.rd (yrdA 0x24) := by
    by_cases ha : a = yrdA 0x24
    · subst ha
      obtain ⟨-, hfind⟩ := busRow_yrdA (by decide) hrow
      have hro : findRow rowsYrd 0x24 = some ⟨"YRD_RT_STATUS", 0x24, [], 4, 0, 0, 0, 0, 0, 0, 0, 0⟩ := by decide
      cases hro.symm.trans hfind
      rw [State.rd_wr_same, regNext_of_noMask rfl rfl rfl (s.rd_lt _), Nat.mod_eq_of_lt (s.rd_lt _)]
    · exact s.rd_wr_other _ ha
  simp only [yrdEpoch, State.rf, hstatus]

/-- A plain write is not to a word of the current epoch's table. -/
theorem ne_routeWord_of_plainWrite (hrow : busRow a = some (base, row)) (hplain : PlainWrite src km base a row v s)
    {r d : Nat} (hr : r < 96) (hd : d < 96) : a ≠ yrdA (0x20000 + r * 0x100 + yrdEpoch s * 0x80 + d / 4 * 4) := by
  have he := yrdEpoch_lt s
  intro ha
  subst ha
  obtain ⟨rfl, hfind⟩ := busRow_yrdA (by omega) hrow
  cases eq_routeWordRow_of_findRow hfind (by omega) (by omega)
  have htable : (rowIdx yrdRegs routeWordRow (yrdA (0x20000 + r * 0x100 + yrdEpoch s * 0x80 + d / 4 * 4))).getD 1 0 =
      yrdEpoch s := by
    simp only [rowIdx, routeWordRow, dimIdx, yrdA, List.getD_cons_succ, List.getD_cons_zero]
    omega
  rw [PlainWrite, regHook_yrdRegs, yrdWrite_currentTable s _ v htable] at hplain
  have hcode : rspTgt = rspOk := congrArg Prod.fst hplain
  exact absurd hcode (by decide)

/-- A plain write leaves every way as it was. -/
theorem cut_of_plainWrite (hrow : busRow a = some (base, row)) (hplain : PlainWrite src km base a row v s)
    {e f : Nat} (he : epExists e = true) (hf : epExists f = true) :
    (s.wr a (regNext row (s.rd a) v)).cut e f = s.cut e f :=
  cut_congr (router_lt_of_epExists he) rfl (yrdEpoch_write hrow) fun r hr => by
    simp only [routePort, State.rf, s.rd_wr_other _ (ne_routeWord_of_plainWrite hrow hplain hr (router_lt_of_epExists hf))]

/-- Writing a register of another block leaves every way as it was. -/
theorem cut_wr_of_ne_yrdRegs (hrow : busRow a = some (base, row)) (hbase : base ≠ yrdRegs) (x : Nat)
    {e f : Nat} (he : epExists e = true) (hf : epExists f = true) : (s.wr a x).cut e f = s.cut e f := by
  have hout {o : Nat} (ho : o < 0x1000000) : (s.wr a x).rd (yrdA o) = s.rd (yrdA o) :=
    s.rd_wr_other _ fun ha => by
      subst ha
      exact hbase (busRow_yrdA ho hrow).1
  have hf' := router_lt_of_epExists hf
  refine cut_congr (router_lt_of_epExists he) rfl ?_ fun r hr => ?_
  · simp only [yrdEpoch, State.rf, hout (o := 0x24) (by decide)]
  · have hep := yrdEpoch_lt s
    simp only [routePort, State.rf, hout (o := 0x20000 + r * 0x100 + yrdEpoch s * 0x80 + f / 32 / 4 * 4) (by omega)]

end

/-! ## Accesses to a register area at their target (R5, R6, R8, R11) -/

section
variable (s : State) (src : Nat) (km : Bool) {a n v base : Nat} {row : RegRow}

/-- A write of the register's width takes the register's next value and the block's own part. -/
theorem regWrite_of_width (hrow : busRow a = some (base, row)) (hw : row.w = n) (hgroup : row.ghi = 0) :
    regWrite s src km a n v =
      regHook src km base a row.name (rowIdx base row a) v s (s.wr a (regNext row (s.rd a) v)) := by
  simp [regWrite, oneWrite, hrow, hw, hgroup]

theorem regWrite_of_wrongWidth (hrow : busRow a = some (base, row)) (hw : row.w ≠ n) (hname : row.name ≠ "HAT_POST") :
    regWrite s src km a n v = (rspTgt, s) := by
  simp [regWrite, hrow, hw, hname]

theorem regWrite_of_noRegister (hrow : busRow a = none) (htouch : touchesReg a n = false) :
    regWrite s src km a n v = (rspOk, s) := by
  simp [regWrite, hrow, htouch]

theorem regRead_of_noRegister (hrow : busRow a = none) (htouch : touchesReg a n = false) :
    regRead s src a n = (rspOk, 0, s) := by
  simp [regRead, hrow, htouch]

/-- A read whose block adds nothing returns the live value and clears the RC bits. -/
theorem regRead_of_width (hrow : busRow a = some (base, row)) (hw : row.w = n) (hgroup : row.ghi = 0)
    (hname : row.name ∉ ["HAT_TAKE", "HAT_WITHDRAW", "CT_TXQ_ENTRY"]) :
    regRead s src a n = (rspOk, regView base row a s, clearRead base row a s) := by
  simp only [List.mem_cons, List.not_mem_nil, or_false, not_or] at hname
  obtain ⟨htake, hwithdraw, htxq⟩ := hname
  simp [regRead, hrow, hw, hgroup, htake, hwithdraw, htxq]

/-- A read of a group's lowest register returns its live value and captures the group. -/
theorem regRead_of_lowest (hrow : busRow a = some (base, row)) (hw : row.w = n) (hgroup : row.ghi ≠ 0)
    (hname : row.name ∉ ["HAT_TAKE", "HAT_WITHDRAW", "CT_TXQ_ENTRY"]) (ha : a = base + row.off) (hlow : row.off = row.glo) :
    regRead s src a n =
      (rspOk, regView base row a s, captureViews s (groupAddrs (base + row.glo) (base + row.ghi))) := by
  simp only [List.mem_cons, List.not_mem_nil, or_false, not_or] at hname
  obtain ⟨htake, hwithdraw, htxq⟩ := hname
  have hd : a - base - row.off = 0 := by omega
  have hfirst : a = base + row.glo + (a - base - row.off) := by omega
  simp only [regRead, hrow, hw, hgroup, htake, hwithdraw, htxq, ne_eq, not_true_eq_false, not_false_eq_true, if_true, if_false]
  rw [if_pos hfirst, hd]
  rfl

theorem clearRead_of_rc (hrc : row.rc ≠ 0) (hbase : base ≠ yrdRegs) :
    clearRead base row a s = s.wr a (s.rd a &&& (2 ^ 64 - 1 - row.rc)) := by
  simp [clearRead, hrc, hbase]

end

/-! ## Captures (R11) -/

section
variable (s : State) {as : List Nat} {a base : Nat} {row : RegRow}

theorem caps_captureViews_concat_register (hrow : busRow a = some (base, row)) :
    (captureViews s (as ++ [a])).caps =
      tset noCap (captureViews s as).caps a (some (BitVec.ofNat 64 (regView base row a s))) := by
  simp only [captureViews, List.foldl_append, List.foldl_cons, List.foldl_nil, hrow]

theorem caps_captureViews_concat_none (hrow : busRow a = none) :
    (captureViews s (as ++ [a])).caps = (captureViews s as).caps := by
  simp only [captureViews, List.foldl_append, List.foldl_cons, List.foldl_nil, hrow]

/-- A capture takes the live value of every register of its group. -/
theorem tget_captureViews (ha : a ∈ as) (hrow : busRow a = some (base, row)) :
    tget noCap (captureViews s as).caps a = some (BitVec.ofNat 64 (regView base row a s)) := by
  induction as using List.reverseRecOn with
  | nil => cases ha
  | append_singleton as b ih =>
    by_cases hab : b = a
    · subst hab
      rw [caps_captureViews_concat_register s hrow, tget_tset_same]
    · have hmem : a ∈ as := (List.mem_append.mp ha).resolve_right fun h => hab (List.mem_singleton.mp h).symm
      cases hb : busRow b with
      | none => rw [caps_captureViews_concat_none s hb, ih hmem]
      | some x => rw [caps_captureViews_concat_register s hb, tget_tset_other _ _ _ hab, ih hmem]

/-- Of a register captured, the capture returns the live value at the capture's time. -/
theorem captured_captureViews (ha : a ∈ as) (hrow : busRow a = some (base, row)) :
    (captureViews s as).captured a = regView base row a s % 2 ^ 64 := by
  simp only [State.captured, tget_captureViews s ha hrow, BitVec.toNat_ofNat]

/-- A capture changes nothing that a worm's path depends on. -/
theorem cut_captureViews (as : List Nat) {e f : Nat} (he : epExists e = true) : (captureViews s as).cut e f = s.cut e f :=
  cut_of_regs he rfl rfl

end

/-! ## Accesses over the Yard (R298, R304) -/

section
variable {s t : State} {src a n v base c : Nat} {rows : List RegRow}

theorem localize_of_regs (hreg : regionOf a = .regs base rows) : localize s a = a := by
  simp [localize, hreg]

theorem busDst_of_regs (hreg : regionOf a = .regs base rows) : busDst src a = epOf a := by
  simp [busDst, isRemote, hreg]

theorem isRemote_of_regs (hreg : regionOf a = .regs base rows) : isRemote a = false := by
  simp [isRemote, hreg]

theorem tgtWrite_of_regs {km : Bool} (hreg : regionOf a = .regs base rows) (hheld : s.shedHeld (shedOf a) = false)
    (hbase : base ≠ ctRegs) (l : List Byte) :
    tgtWrite s src km a l = regWrite s src km a l.length (leNat l) := by
  simp [tgtWrite, hreg, hheld, hbase]

theorem tgtRead_of_regs (hreg : regionOf a = .regs base rows) (hread : regRead s src a n = (rspOk, v, t)) :
    tgtRead s src a n = (rspOk, natLe n v, t) := by
  simp [tgtRead, hreg, hread]

/-- A write that reaches a register area is answered what the area answers, if the way back stays open. -/
theorem busWrite_of_regs {km : Bool} (hreg : regionOf a = .regs base rows) (hreach : Reaches s src (epOf a))
    (hheld : s.shedHeld (shedOf a) = false) (hbase : base ≠ ctRegs) {l : List Byte}
    (hwrite : regWrite s src km a l.length (leNat l) = (c, t)) (hback : t.cut (epOf a) src = false) :
    busWrite s src km a l = (c, t) := by
  simp [busWrite, localize_of_regs hreg, busDst_of_regs hreg, isRemote_of_regs hreg, ni_of_reaches hreach,
    tgtWrite_of_regs hreg hheld hbase, hwrite, back_of_not_cut hback]

theorem busRead_of_regs (hreg : regionOf a = .regs base rows) (hreach : Reaches s src (epOf a))
    (hread : regRead s src a n = (rspOk, v, t)) (hback : t.cut (epOf a) src = false) :
    busRead s src a n = (rspOk, natLe n v, t) := by
  simp [busRead, localize_of_regs hreg, busDst_of_regs hreg, isRemote_of_regs hreg, ni_of_reaches hreach,
    tgtRead_of_regs hreg hread, back_of_not_cut hback]

end

/-! ## The commands -/

section
variable {s t : State} {src a base v c size : Nat} {row : RegRow} {rows : List RegRow}

theorem exec_registerWrite_of_regs (hreg : regionOf a = .regs base rows) (hreach : Reaches s src (epOf a))
    (hheld : s.shedHeld (shedOf a) = false) (hbase : base ≠ ctRegs)
    (hwrite : regWrite s src (epKindOf src == 0) a size (v % 256 ^ size) = (c, t)) (hback : t.cut (epOf a) src = false) :
    exec (.registerWrite src a size v) s = .next (t.answer c 0) := by
  have hbus : busWrite s src (epKindOf src == 0) a (natLe size v) = (c, t) :=
    busWrite_of_regs hreg hreach hheld hbase (by rwa [length_natLe, leNat_natLe]) hback
  show execRegisterWrite src a size v s = _
  rw [execRegisterWrite, hbus]

theorem exec_rcRead_of_regs (hreg : regionOf a = .regs base rows) (hreach : Reaches s src (epOf a))
    (hread : regRead s src a size = (rspOk, v, t)) (hback : t.cut (epOf a) src = false) :
    exec (.rcRead src a size) s = .next (t.answer rspOk (v % 256 ^ size)) := by
  show execRcRead src a size s = _
  rw [execRcRead, busRead_of_regs hreg hreach hread hback, leNat_natLe]

theorem exec_groupCaptureRead_of_regs (hreg : regionOf a = .regs base rows) (hreach : Reaches s src (epOf a))
    (hread : regRead s src a 4 = (rspOk, v, t)) (hback : t.cut (epOf a) src = false) :
    exec (.groupCaptureRead src a) s = .next (t.answer rspOk (v % 2 ^ 32)) := by
  show execGroupCaptureRead src a s = _
  rw [execGroupCaptureRead, busRead_of_regs hreg hreach hread hback, leNat_natLe]
  rfl

end

section
variable {s : State} {src a base v size : Nat} {row : RegRow} {rows : List RegRow}
  (hreg : regionOf a = .regs base rows) (hreach : Reaches s src (epOf a))
include hreg hreach

/-- R8: a read returns the value and clears the RC bits, and only those. -/
theorem completes_rcRead (hrow : busRow a = some (base, row)) (hw : row.w = size) (hgroup : row.ghi = 0)
    (hrc : row.rc ≠ 0) (hbase : base ≠ yrdRegs) (hname : row.name ∉ ["HAT_TAKE", "HAT_WITHDRAW", "CT_TXQ_ENTRY"]) :
    Completes (.rcRead src a size) s fun t => t.bus = ⟨rspOk, regView base row a s % 256 ^ size⟩ ∧
      t.rd a = (s.rd a &&& (2 ^ 64 - 1 - row.rc)) % 2 ^ 64 ∧ RegsBut [a] s t ∧
      t = { s with regs := t.regs, bus := t.bus } := by
  obtain ⟨hsrc, hdst, hopen⟩ := wayBack_of_reaches hreach
  have hread := regRead_of_width s src hrow hw hgroup hname
  rw [clearRead_of_rc s hrc hbase] at hread
  have hback : (s.wr a (s.rd a &&& (2 ^ 64 - 1 - row.rc))).cut (epOf a) src = false :=
    (cut_wr_of_ne_yrdRegs hrow hbase _ hdst hsrc).trans hopen
  exact ⟨_, exec_rcRead_of_regs hreg hreach hread hback, rfl, s.rd_wr_same a _, regsBut_wr s a _, rfl⟩

/-- R6: an offset that no register occupies reads 0. -/
theorem completes_read_of_noRegister (hrow : busRow a = none) (htouch : touchesReg a size = false) :
    Completes (.rcRead src a size) s fun t => t = { s with bus := ⟨rspOk, 0⟩ } := by
  obtain ⟨-, -, hopen⟩ := wayBack_of_reaches hreach
  refine ⟨_, exec_rcRead_of_regs hreg hreach (regRead_of_noRegister s src hrow htouch) hopen, ?_⟩
  rw [Nat.zero_mod]
  rfl

/-- R11: a read of a group's lowest register captures the live value of every register of the group. -/
theorem completes_groupCaptureRead (hrow : busRow a = some (base, row)) (hw : row.w = 4) (hgroup : row.ghi ≠ 0)
    (hname : row.name ∉ ["HAT_TAKE", "HAT_WITHDRAW", "CT_TXQ_ENTRY"]) (ha : a = base + row.off) (hlow : row.off = row.glo) :
    Completes (.groupCaptureRead src a) s fun t => t.bus = ⟨rspOk, regView base row a s % 2 ^ 32⟩ ∧
      (∀ b r, b ∈ groupAddrs (base + row.glo) (base + row.ghi) → busRow b = some (base, r) →
        t.captured b = regView base r b s % 2 ^ 64) ∧
      t = { s with caps := t.caps, bus := t.bus } := by
  obtain ⟨-, hdst, hopen⟩ := wayBack_of_reaches hreach
  have hread := regRead_of_lowest s src hrow hw hgroup hname ha hlow
  exact ⟨_, exec_groupCaptureRead_of_regs hreg hreach hread ((cut_captureViews s _ hdst).trans hopen), rfl,
    fun b r hb hr => captured_captureViews s hb hr, rfl⟩

variable (hheld : s.shedHeld (shedOf a) = false) (hbase : base ≠ ctRegs)
include hheld hbase

/-- R8: a plain write of the register's width leaves the access codes' value and nothing else. -/
theorem completes_plainWrite (hrow : busRow a = some (base, row)) (hw : row.w = size) (hgroup : row.ghi = 0)
    (hv : v < 256 ^ size) (hplain : PlainWrite src (epKindOf src == 0) base a row v s) :
    Completes (.registerWrite src a size v) s fun t => t.reg a = BitVec.ofNat 64 (regNext row (s.rd a) v) ∧
      RegsBut [a] s t ∧ t = { s with regs := t.regs, bus := ⟨rspOk, 0⟩ } := by
  obtain ⟨hsrc, hdst, hopen⟩ := wayBack_of_reaches hreach
  have hback : (s.wr a (regNext row (s.rd a) v)).cut (epOf a) src = false :=
    (cut_of_plainWrite hrow hplain hdst hsrc).trans hopen
  have hwrite : regWrite s src (epKindOf src == 0) a size (v % 256 ^ size) = (rspOk, s.wr a (regNext row (s.rd a) v)) := by
    rw [Nat.mod_eq_of_lt hv, regWrite_of_width s src _ hrow hw hgroup, hplain]
  exact ⟨_, exec_registerWrite_of_regs hreg hreach hheld hbase hwrite hback, s.reg_wr_same a _, regsBut_wr s a _, rfl⟩

/-- R5: a write of another width is refused and changes nothing. -/
theorem completes_write_of_wrongWidth (hrow : busRow a = some (base, row)) (hw : row.w ≠ size)
    (hname : row.name ≠ "HAT_POST") :
    Completes (.registerWrite src a size v) s fun t => t = { s with bus := ⟨rspTgt, 0⟩ } := by
  obtain ⟨-, -, hopen⟩ := wayBack_of_reaches hreach
  exact ⟨_, exec_registerWrite_of_regs hreg hreach hheld hbase (regWrite_of_wrongWidth s src _ hrow hw hname) hopen, rfl⟩

/-- R6: an offset that no register occupies drops writes. -/
theorem completes_write_of_noRegister (hrow : busRow a = none) (htouch : touchesReg a size = false) :
    Completes (.registerWrite src a size v) s fun t => t = { s with bus := ⟨rspOk, 0⟩ } := by
  obtain ⟨-, -, hopen⟩ := wayBack_of_reaches hreach
  exact ⟨_, exec_registerWrite_of_regs hreg hreach hheld hbase (regWrite_of_noRegister s src _ hrow htouch) hopen, rfl⟩

end

/-- The hypotheses of a plain write are met after reset: Loft core 0 selects endpoint 5 in YRD_EP_SEL. -/
theorem completes_plainWrite_reset :
    Completes (.registerWrite (loftEp 0) (yrdA 0x34) 4 5) State.reset fun t => t.rd (yrdA 0x34) = 5 := by
  obtain ⟨t, hexec, hreg, -, -⟩ := completes_plainWrite (s := State.reset) (src := loftEp 0) (a := yrdA 0x34)
    (base := yrdRegs) (v := 5) (rows := rowsYrd) (row := ⟨"YRD_EP_SEL", 0x34, [], 4, 0, 0xfff, 0, 0, 0, 0, 0, 0⟩)
    (by decide) (by decide) (by decide) (by decide) (by decide) rfl rfl (by decide) rfl
  exact ⟨t, hexec, (congrArg BitVec.toNat hreg).trans (by decide)⟩

/-- The hypotheses of a read that clears are met after reset: Loft core 0 reads YM_EV_UNUSED. -/
theorem completes_rcRead_reset :
    Completes (.rcRead (loftEp 0) (ymRegs + 0x14) 4) State.reset fun t => t.bus = ⟨rspOk, 0⟩ := by
  obtain ⟨t, hexec, hbus, -⟩ := completes_rcRead (s := State.reset) (src := loftEp 0) (a := ymRegs + 0x14)
    (base := ymRegs) (rows := rowsYm) (row := ⟨"YM_EV_UNUSED", 0x14, [], 4, 0, 0, 0, 0, 0xffffffff, 0, 0, 0⟩)
    (by decide) (by decide) (by decide) rfl rfl (by decide) (by decide) (by decide)
  exact ⟨t, hexec, hbus.trans (by decide)⟩

/-- The hypotheses of a group's capture are met after reset: Loft core 0 reads the accounts of Kubry core 0. -/
theorem completes_groupCaptureRead_reset :
    Completes (.groupCaptureRead (loftEp 0) (ymRegs + 0x8000c)) State.reset fun t => t.bus = ⟨rspOk, 0⟩ := by
  obtain ⟨t, hexec, hbus, -⟩ := completes_groupCaptureRead (s := State.reset) (src := loftEp 0) (a := ymRegs + 0x8000c)
    (base := ymRegs) (rows := rowsYm)
    (row := ⟨"YM_ACC_ADMITTED", 0x8000c, [(256, 0x40)], 4, 0, 0, 0, 0, 0, 0, 0x8000c, 0x80018⟩)
    (by decide) (by decide) (by decide) rfl (by decide) (by decide) rfl rfl
  exact ⟨t, hexec, hbus.trans (by decide)⟩

/-- Settles O2: each clause is the rule of that access, above. -/
theorem registerAccesses : Obligations.RegisterAccesses := by
  intro s src a size v base row rows hreg hreach hheld hct
  refine ⟨?plain, ?width, ?none, ?rc, ?group⟩
  case plain => exact completes_plainWrite hreg hreach hheld hct
  case width => exact completes_write_of_wrongWidth hreg hreach hheld hct
  case none =>
    exact fun hrow htouch => ⟨completes_write_of_noRegister hreg hreach hheld hct hrow htouch,
      completes_read_of_noRegister hreg hreach hrow htouch⟩
  case rc => exact completes_rcRead hreg hreach
  case group => exact completes_groupCaptureRead hreg hreach

/-! ## The queue -/

theorem step_of_pending_cons {s : State} {c : Instr} {rest : List Instr} (h : s.pending = c :: rest) :
    step s = exec c { s with pending := rest } := by
  simp only [step, h]

theorem step_of_pending_nil {s : State} (h : s.pending = []) : step s = .next (idle s) := by
  simp only [step, h]

/-- Settles O57: `step` by the two forms of the queue; the decoder spells no command. -/
theorem stepRunsTheFrontCommand : Obligations.StepRunsTheFrontCommand :=
  ⟨fun _ _ => step_of_pending_cons rfl, fun _ _ _ => step_of_pending_cons, fun _ => step_of_pending_nil,
    fun _ _ _ => ⟨rfl, rfl⟩⟩

end Sys2Proof.Machine
end

section
/-! PROOF of the statement that every well-formed command runs (01_architecture.md R15). Each meaning is a guard on the
units it names around a next state; the state of the machine decides which next state, never whether there is one. -/

namespace Sys2Proof.Machine

/-- `o` is a next state where `ok` holds, and the fault of R15 where it does not. -/
abbrev AnswersIff (ok : Bool) (o : Out) : Prop :=
  (ok = true → ∃ t, o = .next t) ∧ (ok = false → o = .fault .noSuchUnit)

section
variable {P Q : Prop} [Decidable P] [Decidable Q] {o : Out} {b : Bool} {t u : State}

theorem answersIff_true (h : ∃ t, o = .next t) : AnswersIff true o :=
  ⟨fun _ => h, nofun⟩

theorem answersIff_false : AnswersIff false (.fault .noSuchUnit) :=
  ⟨nofun, fun _ => rfl⟩

/-- The shape of a meaning that names a unit: the guard decides between the next state and the fault. -/
theorem answersIff_guard (h : P → ∃ t, o = .next t) :
    AnswersIff (decide P) (if P then o else .fault .noSuchUnit) := by
  by_cases hP : P
  · simpa only [hP, decide_true, if_true] using answersIff_true (h hP)
  · simpa only [hP, decide_false, if_false] using answersIff_false

/-- The same for a guard that is a `Bool`, as `epExists` is. -/
theorem answersIff_boolGuard (h : ∃ t, o = .next t) : AnswersIff b (if b then o else .fault .noSuchUnit) :=
  match b with
  | true => answersIff_true h
  | false => answersIff_false

/-- Two guards, the later one of the well-formedness tested first. -/
theorem answersIff_guard_guard (h : ∃ t, o = .next t) :
    AnswersIff (decide (P ∧ Q)) (if Q then if P then o else .fault .noSuchUnit else .fault .noSuchUnit) := by
  by_cases hQ : Q
  · simpa only [hQ, and_true, if_true] using answersIff_guard fun _ => h
  · simpa only [hQ, and_false, decide_false, if_false] using answersIff_false

theorem exists_next_ite : ∃ v, (if Q then .next t else .next u : Out) = .next v :=
  ⟨if Q then t else u, (apply_ite Host.Outcome.next Q t u).symm⟩

end

theorem exists_next_macReg {m : Nat} (h : m < 33) (a v : Nat) (s : State) : ∃ t, macReg m a v s = .next t :=
  ⟨_, if_pos h⟩

theorem exists_next_taskPlace (p inst task : Nat) (s : State) : ∃ t, execTaskPlace p inst task s = .next t := by
  unfold execTaskPlace
  split
  · exact ⟨_, rfl⟩
  · exact ⟨_, rfl⟩

/-- The guard of each meaning is the command's well-formedness, and behind it stands a next state. -/
theorem answersIff_exec (c : Instr) (s : State) : AnswersIff c.wf (exec c s) := by
  cases c with
  -- The command names no unit, or one whose absence its meaning answers itself.
  | registerWrite | rcRead | groupCaptureRead | ymEvent | ymAct | yardResponse | responseTimeout | yrdFence
  | yrdUnfence | barrierComplete | barrierTimeout | yrdCommit | yrdDrained | yrdDrainTmo | autoSwitchover | ctSnap
  | ppsOutEdge | synceRefSwitch | plPrepare | plSwitch | plRelease | plDrained | plFence | plUnfence | plRemove
  | plBarrierTimeout | plResponseTimeout | fgenInc | unitInfo | planLoad | hltFence | hltUnfence | timeSel
  | powerReq | fragmentTimeout | reqRingHead | tkCmdGo | tkRng | tkHash | tkExtend | tkVerify | tkLoad | tkSign
  | verifyPeer | tkAttest | ctrInc | kekSeal | kekLoad | sakDeliver | idGenerate | otpProgram | tkLockImem | tkBoot
  | ddrTrain | trainDone | ddrEnable | coreResetRelease | wakeN | standbyEnter | derateMeasure | shdBow
  | brownoutReset | shdSysrst | aonPowerOn | thermtrip | analogRailLoss | calAlarm | trimApply | vbatSample
  | vbatSwitch | oscFail | brownoutResetEnd | halterFirmwareReady | loftCoresInWfi | synceDpllLock | smbalert =>
    exact answersIff_true ⟨_, rfl⟩
  | sSlewDone => exact answersIff_true exists_next_ite
  | taskPlace => exact answersIff_true (exists_next_taskPlace ..)
  -- One guard on the unit, its own or that of the operation it shares (`inCore`, `kPage`, `brwCommand`, `brwEvent`,
  -- `engEvent`, `lbtCommand`, `macEvent`, `txqEvent`, `plEvent`, `plPortCmd`, `shedCmd`, `hltCoreRow`, `hltCellRow`).
  | tickEdge | trainEnable | trainDisable | ymTick | planCommit | planCheckDone | threadStop | preemptSwitch
  | dispatchOffer | kEnd | kYield | kArm | kBlock | kOutDone | kSignal | kTake | kernelBadCommand | bundle
  | interruptEntry | budgetExhaust | timerMatch | wfeWake | farLoadResponse | farStoreResponse | fenceComplete
  | vectorDatapathDone | vectorSwitchDone | vectorSwitchAbandon | vecFlush | vecReload | hitchStallEnd
  | postResponse | enginePost | engineConfirm | engineWithdraw | hitchCompletion | hsTimeout | ctxCharge | htcPost
  | htcFree | coreReset | coreRelease | coreHalt | coreHaltClear | coreStep | dbgDataRead | dbgDataWrite | kbSwi
  | clockPointChange | stableTickReceive | engineJobStart | engineJobComplete | chainHalfRequest | chainHalfRetry
  | chainedJobSend | chainStatusReport | chainSlotRequest | chainSlotReady | engineReset | engineResetClear
  | enginePause | lbtStart | lbtAbort | lbtRelease | cotEnd | nbChannelEnable | flitReceive | wakeTimeout
  | linkRetrain | scrubRead | eccInjectArm | brwStart | brwStop | brwResume | brwClear | brwMove | brwGather
  | brwLoop | brwWait | waitSatisfied | waitTmo | brwSignal | signalRetry | brwEnd | brwNop | errProg
  | beatResponse | programFetch | channelHalt | endComplete | beatGrant | hatchPost | hatchTake | hatchWithdraw
  | hatchTimeout | hatchClear | clientReset | resetWindowEnd | frameReceive | frameDeliver | pauseWd | txqWrite
  | txqHoldReject | frameLaunch | fallbackOrder | linkChange | qbvListTake | domainEnable | domainDisable
  | domainStep | domainSlew | domainSet | domainAbort | freqWrite | ppsPulse | todSentence | holdoverEntry
  | selWrite | txqEntryRead | laneFault | trainingTimeout | trainingDone | plRetrain | plAdmit | plUnadmit | plCal
  | calComplete | plQuiet | plCold | plWakeCmd | autoPmIdle | portWakeExit | plPacketReceive | plLctl | mgmtMessage
  | mgmtReassemblyTimeout | mtxSend | authOk | barrierAck | tmkSend | tmkReceive | holdTake | holdRelease
  | cellConfig | cellStart | cellStop | dlSlot | ulSlot | dlData | prachConfig | resultRead | resultAck | lbtParam
  | slotCommit | dataDeadline | hltBegin | tbDone | resultDone | msiSend | rasError | shedRequest | shedStepReady
  | stepFault | shedDescentDone | shedWake | plWake | calWrite | chainSlotRetry | scrubPeriodEnd | ppsPulseMissing
  | plPortEnable | gateIntervalEnd | pauseTimeEnd | preemptionVerify | gpioInputChange | uartReceive =>
    exact answersIff_guard fun _ => ⟨_, rfl⟩
  -- The guard of `yardRow`: the source is an endpoint of the Yard.
  | yardRd | yardWr | yardWrp | yardRmw | yardMsg => exact answersIff_boolGuard ⟨_, rfl⟩
  -- A choice between two next states behind the guard.
  | trainSlewEnd | domainSlewDone => exact answersIff_guard fun _ => exists_next_ite
  -- The queue is guarded here and the MAC in `macReg`; QBV_CHANGE, not for the management MAC, has the stricter guard.
  | qbvChange => exact answersIff_guard fun h => exists_next_macReg (Nat.lt_succ_of_lt h) ..
  | txqResync | txqFlush | queueDisable => exact answersIff_guard_guard ⟨_, rfl⟩

/-- Settles O58: the meaning of each command answers by the command's well-formedness alone. -/
theorem wellFormedCommandsRun : Obligations.WellFormedCommandsRun := answersIff_exec

end Sys2Proof.Machine
end

section
/-! PROOFS for the Yardmaster and the tick trains (02_slot_tick.md, 09_yardmaster.md): what writes of registers leave
and how such frames compose. -/

namespace Sys2Proof.Machine

variable {s t u : State} {l : List Nat}

/-- A counter read after a count: it saturates and every other register is as it was. -/
theorem State.rd_cnt (s : State) (a b n : Nat) :
    (s.cnt a n).rd b = if a = b then sat32 (s.rd a + n) else s.rd b := by
  rw [State.cnt, State.rd_wr]
  split
  · exact Nat.mod_eq_of_lt (Nat.lt_of_le_of_lt (Nat.min_le_right ..) (by decide))
  · rfl

theorem regsBut_of_regs (h : t.regs = s.regs) : RegsBut l s t := fun a _ => State.rd_of_regs h a

theorem RegsBut.trans (h1 : RegsBut l s t) (h2 : RegsBut l t u) : RegsBut l s u :=
  fun a ha => (h2 a ha).trans (h1 a ha)

/-- A write of a listed register keeps the frame. -/
theorem RegsBut.wr (h : RegsBut l s t) {a : Nat} (ha : a ∈ l) (v : Nat) : RegsBut l s (t.wr a v) :=
  h.trans fun _ hb => t.rd_wr_other v fun heq => hb (heq ▸ ha)

/-- A command that answers a state of which the property holds completes with it. -/
theorem completes_of_exec {c : Instr} {P : State → Prop} (h : exec c s = .next t) (hP : P t) : Completes c s P :=
  ⟨t, h, hP⟩

end Sys2Proof.Machine
end

section
/-! PROOF of the statement on plan commits (02_slot_tick.md R54-R56). -/

namespace Sys2Proof.Machine

variable {s : State} {p : Nat}

theorem exec_planCommit (hp : p < 256) : exec (.planCommit p) s = .next ((planCommit s p).answer rspOk 0) := if_pos hp

theorem exec_planCheckDone (hp : p < 256) : exec (.planCheckDone p) s = .next (planDone s p) := if_pos hp

theorem planA_zero_ne_four : planA p 0 ≠ planA p 4 := by simp [planA]

theorem rd_planCommit : (planCommit s p).rd (planA p 0) = setFld (s.rd (planA p 0)) 1 1 1 :=
  (s.rd_wb _ _ 1 true (by decide)).trans (if_pos rfl)

/-- R55: a commit sets COMMIT and no other bit. -/
theorem completes_planCommit (hp : p < 256) :
    Completes (.planCommit p) s fun t => t.rb (planA p 0) 1 = true ∧
      (∀ i, i < 64 → i ≠ 1 → (t.rd (planA p 0)).testBit i = (s.rd (planA p 0)).testBit i) ∧
      t = { s with regs := t.regs, bus := ⟨rspOk, 0⟩ } ∧ RegsBut [planA p 0] s t := by
  refine completes_of_exec (exec_planCommit hp) ⟨?commit, fun i _ hi => ?bit, rfl, regsBut_wr s _ _⟩
  case commit => exact s.rb_wb_same _ 1 true (by decide)
  case bit => rw [State.answer_rd, rd_planCommit, testBit_setFld _ _ _ _ _ (Nat.le_refl 1), if_neg (by omega)]

/-- What is left of a plan slot's registers by a check that ends with code `e`: COMMIT clear, OK by the code, CODE. -/
def endCheck (s : State) (p e : Nat) : State :=
  ((s.wb (planA p 0) 1 false).wb (planA p 0) 2 (decide (e = 0))).wf (planA p 0) 7 4 e

theorem planDone_of_pass (hc : s.rb (planA p 0) 1 = true) (h : planCheck s (s.rd (planA p 8)) = 0) :
    planDone s p = (endCheck s p 0).wr (planA p 4) (s.rd (planA p 8)) := by
  simp [planDone, endCheck, hc, h]

theorem planDone_of_fail {e : Nat} (hc : s.rb (planA p 0) 1 = true) (h : planCheck s (s.rd (planA p 8)) = e) (he : e ≠ 0) :
    planDone s p = endCheck s p e := by
  simp [planDone, endCheck, hc, h, he]

theorem planDone_of_no_commit (hc : s.rb (planA p 0) 1 = false) : planDone s p = s := by simp [planDone, hc]

theorem rd_endCheck (e : Nat) : (endCheck s p e).rd (planA p 0) =
    setFld (setFld (setFld (s.rd (planA p 0)) 1 1 0) 2 2 (b2n (decide (e = 0)))) 7 4 e := by
  simp [endCheck, State.rd_wf, State.rd_wb]

theorem regsBut_endCheck (e : Nat) {l : List Nat} (hl : planA p 0 ∈ l) : RegsBut l s (endCheck s p e) :=
  (((regsBut_of_regs rfl).wr hl _).wr hl _).wr hl _

/-- COMMIT, OK and CODE of a control word that a check with code `e` has left. -/
theorem ctrl_of_endCheck {e : Nat} {t : State} (h : t.rd (planA p 0) = (endCheck s p e).rd (planA p 0)) :
    t.rb (planA p 0) 1 = false ∧ t.rb (planA p 0) 2 = decide (e = 0) ∧ t.rf (planA p 0) 7 4 = e % 16 := by
  rw [rd_endCheck] at h
  refine ⟨?_, ?_, ?_⟩
  · simp [State.rb, tb, h, testBit_setFld]
  · cases hd : decide (e = 0) <;> simp [State.rb, tb, h, testBit_setFld, hd]
  · simp [State.rf, h, fld_setFld]

/-- Settles O21: a commit sets COMMIT alone; the check's end is `endCheck`, with the image activated when it passed. -/
theorem planCommits : Obligations.PlanCommits := by
  intro s p hp
  refine ⟨completes_planCommit hp, fun hc h => ?pass, fun e hc h he => ?fail, fun hc => ?idle⟩
  case pass =>
    have hctrl : ((endCheck s p 0).wr (planA p 4) (s.rd (planA p 8))).rd (planA p 0) = (endCheck s p 0).rd (planA p 0) :=
      State.rd_wr_other _ _ planA_zero_ne_four.symm
    obtain ⟨hcommit, hok, hcode⟩ := ctrl_of_endCheck hctrl
    refine completes_of_exec ((exec_planCheckDone hp).trans (congrArg _ (planDone_of_pass hc h)))
      ⟨?_, hcommit, hok, hcode, rfl, (regsBut_endCheck 0 (by simp)).wr (by simp) _⟩
    rw [State.rd_wr_same, Nat.mod_eq_of_lt (s.rd_lt _)]
  case fail =>
    obtain ⟨hcommit, hok, hcode⟩ := ctrl_of_endCheck (t := endCheck s p e) rfl
    exact completes_of_exec ((exec_planCheckDone hp).trans (congrArg _ (planDone_of_fail hc h he)))
      ⟨hcommit, hok.trans (decide_eq_false he), hcode, rfl, regsBut_endCheck e (by simp)⟩
  case idle => exact completes_of_exec ((exec_planCheckDone hp).trans (congrArg _ (planDone_of_no_commit hc))) rfl

end Sys2Proof.Machine
end

section
/-! PROOFS for the Yardmaster: threads after they are made ready or woken (R269, R277), and what images read as when
memory is as it was. -/

namespace Sys2Proof.Machine

variable {s t : State} {g k : Nat}

/-! ## Frames -/

/-- From `s` to `t` nothing has changed but the Yardmaster's own state. -/
abbrev YmFrame (s t : State) : Prop := t = { s with ym := t.ym }

/-- From `s` to `t` nothing has changed but the Yardmaster's own state and the cores. -/
abbrev CoreYmFrame (s t : State) : Prop := t = { s with ym := t.ym, cores := t.cores }

theorem YmFrame.trans {u : State} (h1 : YmFrame s t) (h2 : YmFrame t u) : YmFrame s u := by
  rw [YmFrame, h1] at h2
  exact h2

theorem CoreYmFrame.trans {u : State} (h1 : CoreYmFrame s t) (h2 : CoreYmFrame t u) : CoreYmFrame s u := by
  rw [CoreYmFrame, h1] at h2
  exact h2

theorem YmFrame.coreYmFrame (h : YmFrame s t) : CoreYmFrame s t := by
  rw [CoreYmFrame, h]

theorem YmFrame.modCore (h : YmFrame s t) (g : Nat) (f : Core → Core) : CoreYmFrame s (t.modCore g f) :=
  h.coreYmFrame.trans rfl

theorem State.ymFrame_setTh (s : State) (g : Nat) (x : Thread) : YmFrame s (s.setTh g x) := rfl
theorem State.ymFrame_setPlace (s : State) (l : List Place) : YmFrame s (s.setPlace l) := rfl
theorem State.ymFrame_setInsts (s : State) (l : List Inst) : YmFrame s (s.setInsts l) := rfl
theorem ymFrame_makeReady (s : State) (g : Nat) : YmFrame s (makeReady s g) := rfl

theorem CoreYmFrame.setInsts (h : CoreYmFrame s t) (l : List Inst) : CoreYmFrame s (t.setInsts l) := h.trans rfl

/-! ## What updates leave of the threads and the cores -/

@[simp] theorem th_wr (s : State) (a v k : Nat) : (s.wr a v).th k = s.th k := rfl
@[simp] theorem th_cnt (s : State) (a n k : Nat) : (s.cnt a n).th k = s.th k := rfl
@[simp] theorem th_answer (s : State) (c v k : Nat) : (s.answer c v).th k = s.th k := rfl
@[simp] theorem th_modCore (s : State) (g k : Nat) (f : Core → Core) : (s.modCore g f).th k = s.th k := rfl
@[simp] theorem th_setPlace (s : State) (l : List Place) (k : Nat) : (s.setPlace l).th k = s.th k := rfl
@[simp] theorem th_setInsts (s : State) (l : List Inst) (k : Nat) : (s.setInsts l).th k = s.th k := rfl
@[simp] theorem th_sweepInsts (s : State) (k : Nat) : (sweepInsts s).th k = s.th k := rfl
@[simp] theorem core_wr (s : State) (a v g : Nat) : (s.wr a v).core g = s.core g := rfl
@[simp] theorem core_cnt (s : State) (a n g : Nat) : (s.cnt a n).core g = s.core g := rfl
@[simp] theorem core_answer (s : State) (c v g : Nat) : (s.answer c v).core g = s.core g := rfl
@[simp] theorem core_setTh (s : State) (k g : Nat) (x : Thread) : (s.setTh k x).core g = s.core g := rfl
@[simp] theorem core_makeReady (s : State) (k g : Nat) : (makeReady s k).core g = s.core g := rfl
@[simp] theorem core_setPlace (s : State) (l : List Place) (g : Nat) : (s.setPlace l).core g = s.core g := rfl
@[simp] theorem core_sweepInsts (s : State) (g : Nat) : (sweepInsts s).core g = s.core g := rfl
@[simp] theorem sweepInsts_rd (s : State) (r : Nat) : (sweepInsts s).rd r = s.rd r := rfl
@[simp] theorem sweepInsts_byte (s : State) (b : Nat) : (sweepInsts s).byte b = s.byte b := rfl
@[simp] theorem sweepInsts_place (s : State) : (sweepInsts s).ym.place = s.ym.place := rfl

/-! ## Threads -/

theorem State.th_of_threads (h : t.ym.threads = s.ym.threads) (k : Nat) : t.th k = s.th k := by
  simp only [State.th, h]

theorem th_makeReady (s : State) (g k : Nat) :
    (makeReady s g).th k = if g = k then { s.th g with st := 2, stamp := s.ym.stamp } else s.th k :=
  s.th_setTh g k _

/-- State of a thread that is woken: a BLOCKED one becomes READY (R277). -/
def wokenSt (st : Nat) : Nat := if st = 4 then 2 else st

theorem wokenSt_wokenSt (st : Nat) : wokenSt (wokenSt st) = wokenSt st := by
  unfold wokenSt; split <;> simp [*]

theorem th_wake_other (h : g ≠ k) : (wake s g).th k = s.th k := by
  unfold wake
  dsimp only
  split
  · rw [th_makeReady, if_neg h, State.th_setTh, if_neg h]
  · rw [State.th_setTh, if_neg h]

theorem th_wake_same (s : State) (g : Nat) :
    ((wake s g).th g).woken = true ∧ ((wake s g).th g).st = wokenSt (s.th g).st := by
  unfold wake wokenSt
  dsimp only
  split
  · simp [th_makeReady, State.th_setTh]
  · simp [State.th_setTh]

theorem st_wake (s : State) (g k : Nat) : wokenSt ((wake s g).th k).st = wokenSt (s.th k).st := by
  by_cases h : g = k
  · subst h; rw [(th_wake_same s g).2, wokenSt_wokenSt]
  · rw [th_wake_other h]

theorem th_wakeAll_of_not_mem {l : List Nat} (h : k ∉ l) : (wakeAll s l).th k = s.th k := by
  induction l generalizing s with
  | nil => rfl
  | cons g l ih =>
    have hg := List.ne_of_not_mem_cons h
    exact (ih (List.not_mem_of_not_mem_cons h)).trans (th_wake_other (Ne.symm hg))

/-- A thread woken, once or more often, is woken, and READY if it was BLOCKED. -/
theorem th_wakeAll_of_mem {l : List Nat} (h : k ∈ l) :
    ((wakeAll s l).th k).woken = true ∧ ((wakeAll s l).th k).st = wokenSt (s.th k).st := by
  induction l generalizing s with
  | nil => cases h
  | cons g l ih =>
    change ((wakeAll (wake s g) l).th k).woken = true ∧ ((wakeAll (wake s g) l).th k).st = wokenSt (s.th k).st
    by_cases hl : k ∈ l
    · rw [← st_wake s g k]
      exact ih hl
    · obtain rfl : k = g := (List.mem_cons.mp h).resolve_right hl
      rw [th_wakeAll_of_not_mem hl]
      exact th_wake_same s k

/-- Waking touches the threads and the order in which they became READY. -/
theorem wake_eq (s : State) (g : Nat) : wake s g =
    { s with ym := { s.ym with threads := (wake s g).ym.threads, stamp := (wake s g).ym.stamp } } := by
  unfold wake
  dsimp only
  split <;> rfl

theorem wakeAll_eq (s : State) (l : List Nat) : wakeAll s l =
    { s with ym := { s.ym with threads := (wakeAll s l).ym.threads, stamp := (wakeAll s l).ym.stamp } } := by
  induction l generalizing s with
  | nil => rfl
  | cons g l ih =>
    change wakeAll (wake s g) l = { s with ym := { s.ym with threads := (wakeAll (wake s g) l).ym.threads, stamp := (wakeAll (wake s g) l).ym.stamp } }
    rw [ih (wake s g), wake_eq s g]

end Sys2Proof.Machine
end

section
/-! PROOFS for the Yardmaster: what a memory access logs and what a write over the network touches (R298, R304, R331-R335,
R339), and that what an image reads as depends on the stored bytes and check bits alone. -/

namespace Sys2Proof.Machine

variable {s t u : State}

/-! ## What a memory controller logs -/

/-- From `s` to `t` only registers from the sheds' up and interrupt messages have changed, as when a memory controller
logs what it finds. The cores', the Yardmaster's and the Clocktower's registers lie below. -/
structure Logged (s t : State) : Prop where
  frame : t = { s with regs := t.regs, msiRise := t.msiRise }
  low : ∀ a, a < shdRegs → t.rd a = s.rd a

theorem Logged.refl (s : State) : Logged s s := ⟨rfl, fun _ _ => rfl⟩

theorem Logged.trans (h1 : Logged s t) (h2 : Logged t u) : Logged s u := by
  refine ⟨?_, fun a ha => (h2.low a ha).trans (h1.low a ha)⟩
  have h := h2.frame
  rw [h1.frame] at h
  exact h

theorem Logged.wr (h : Logged s t) {a : Nat} (ha : shdRegs ≤ a) (v : Nat) : Logged s (t.wr a v) :=
  h.trans ⟨rfl, fun _ hb => t.rd_wr_other v (by omega)⟩

theorem Logged.rise (h : Logged s t) (src : Nat) (before after : Bool) : Logged s (t.rise src before after) := by
  refine h.trans ⟨?_, fun a _ => State.rd_of_regs (t.rise_regs ..) a⟩
  unfold State.rise
  split <;> rfl

theorem shdRegs_le_eccA (n o : Nat) : shdRegs ≤ eccA n o := by
  simp only [shdRegs, eccA, eccRegs, blockBase]; omega

theorem shdRegs_le_yrdA (o : Nat) : shdRegs ≤ yrdA o := by
  simp only [shdRegs, yrdA, yrdRegs, blockBase]; omega

theorem shdRegs_le_lgA (n e o : Nat) : shdRegs ≤ lgA n e + o := (shdRegs_le_eccA n _).trans (Nat.le_add_right ..)

theorem Logged.eccSet (h : Logged s t) (n i : Nat) : Logged s (eccSet t n i) :=
  (h.wr (shdRegs_le_eccA n 4) _).rise ..

theorem logged_eccLog (s : State) (n w pos syn : Nat) (scrub wrote : Bool) :
    Logged s (eccLog s n w pos syn scrub wrote) := by
  have hcount : Logged s (s.cnt (eccA n 8) 1) := (Logged.refl s).wr (shdRegs_le_eccA n 8) _
  unfold eccLog
  dsimp only
  generalize hthreshold : (if (s.cnt (eccA n 8) 1).rd (eccA n 0x3C) ≠ 0 ∧
    (s.cnt (eccA n 8) 1).rd (eccA n 8) = (s.cnt (eccA n 8) 1).rd (eccA n 0x3C) then eccSet (s.cnt (eccA n 8) 1) n 1
    else s.cnt (eccA n 8) 1) = s2
  have hs2 : Logged s s2 := by
    rw [← hthreshold]
    split
    · exact hcount.eccSet n 1
    · exact hcount
  split
  · next e _ => exact (hs2.wr (shdRegs_le_lgA n e 4) _).wr (shdRegs_le_lgA n e 8) _
  · split
    · next e _ => exact ((hs2.wr (shdRegs_le_lgA n e 0) _).wr (shdRegs_le_lgA n e 4) _).wr (shdRegs_le_lgA n e 8) _
    · exact (hs2.wr (shdRegs_le_eccA n 0x14) _).eccSet n 2

/-- An uncorrectable word is logged, then poisoned (R334). -/
theorem exists_logged_eccUe (s : State) (n w kind req : Nat) : ∃ t, Logged s t ∧ eccUe s n w kind req = t.poison w := by
  have hcount : Logged s (s.cnt (eccA n 0xC) 1) := (Logged.refl s).wr (shdRegs_le_eccA n 0xC) _
  unfold eccUe
  dsimp only
  split
  · exact ⟨_, hcount, rfl⟩
  · exact ⟨_, (((hcount.wr (shdRegs_le_eccA n 0x18) _).wr (shdRegs_le_eccA n 0x1C) _).wr (shdRegs_le_eccA n 0x20) _).eccSet n 0, rfl⟩

/-! ## What a read returns -/

/-- `s` and `t` hold the same bytes under the same check bits. -/
abbrev SameData (s t : State) : Prop := t.mem = s.mem ∧ t.ecc = s.ecc

theorem Logged.sameData (h : Logged s t) : SameData s t := by rw [h.frame]; exact ⟨rfl, rfl⟩

theorem SameData.poison (h : SameData s t) (w : Nat) : SameData (s.poison w) (t.poison w) :=
  ⟨h.1, congrArg (fun e => tset (fun _ => 0) e w _) h.2⟩

theorem SameData.of_logged {s' t' : State} (h : SameData s t) (hs : Logged s s') (ht : Logged t t') : SameData s' t' :=
  ⟨ht.sameData.1.trans (h.1.trans hs.sameData.1.symm), ht.sameData.2.trans (h.2.trans hs.sameData.2.symm)⟩

theorem readWord_congr (h : SameData s t) (w kind req : Nat) :
    (t.readWord w kind req).1 = (s.readWord w kind req).1 ∧ (t.readWord w kind req).2.1 = (s.readWord w kind req).2.1 ∧
      SameData (s.readWord w kind req).2.2 (t.readWord w kind req).2.2 := by
  have hst : t.wordSt w = s.wordSt w := by simp only [State.wordSt, State.eccOf, h.2]
  simp only [State.readWord, hst, State.ld_of_mem h.1]
  split
  · exact ⟨rfl, rfl, h⟩
  · exact ⟨rfl, rfl, h⟩
  · next n _ => exact ⟨rfl, rfl, h.of_logged (logged_eccLog ..) (logged_eccLog ..)⟩
  · exact ⟨rfl, rfl, h⟩
  · next n _ _ =>
    obtain ⟨s', hs, hs'⟩ := exists_logged_eccUe s n w kind req
    obtain ⟨t', ht, ht'⟩ := exists_logged_eccUe t n w kind req
    rw [hs', ht']
    exact ⟨rfl, rfl, (h.of_logged hs ht).poison w⟩

theorem readWords_congr (h : SameData s t) (w k kind req : Nat) :
    (t.readWords w k kind req).1 = (s.readWords w k kind req).1 := by
  induction k generalizing s t w with
  | zero => rfl
  | succ k ih =>
    obtain ⟨hval, -, hdata⟩ := readWord_congr h w kind req
    simp only [State.readWords, hval, ih hdata]

/-- What an image reads as depends on the stored bytes and check bits alone. -/
theorem peek_congr (h : SameData s t) (a n : Nat) : peek t a n = peek s a n := by
  simp only [peek, State.readMem, readWords_congr h]

/-! ## What a write over the network touches -/

/-- From `s` to `t` nothing has changed but memory, its check bits, what is logged and counted outside the cores, the
Yardmaster and the Clocktower, the endpoints' counts and the sheds' rises. -/
structure WriteKept (s t : State) : Prop where
  frame : t = { s with mem := t.mem, ecc := t.ecc, eps := t.eps, regs := t.regs, msiRise := t.msiRise, power := t.power }
  low : ∀ a, a < shdRegs → t.rd a = s.rd a

theorem WriteKept.trans (h1 : WriteKept s t) (h2 : WriteKept t u) : WriteKept s u := by
  refine ⟨?_, fun a ha => (h2.low a ha).trans (h1.low a ha)⟩
  have h := h2.frame
  rw [h1.frame] at h
  exact h

theorem Logged.writeKept (h : Logged s t) : WriteKept s t := by
  refine ⟨?_, h.low⟩
  have hf := h.frame
  rw [hf]

theorem WriteKept.refl (s : State) : WriteKept s s := ⟨rfl, fun _ _ => rfl⟩

theorem WriteKept.wr (h : WriteKept s t) {a : Nat} (ha : shdRegs ≤ a) (v : Nat) : WriteKept s (t.wr a v) :=
  h.trans ((Logged.refl t).wr ha v).writeKept

theorem WriteKept.store (h : WriteKept s t) (a : Nat) (l : List Byte) : WriteKept s (t.store a l) := h.trans ⟨rfl, fun _ _ => rfl⟩
theorem WriteKept.setEcc (h : WriteKept s t) (w d : Nat) : WriteKept s (t.setEcc w d) := h.trans ⟨rfl, fun _ _ => rfl⟩
theorem WriteKept.setEp (h : WriteKept s t) (e : Nat) (x : EpState) : WriteKept s (t.setEp e x) := h.trans ⟨rfl, fun _ _ => rfl⟩
theorem WriteKept.setShedTr (h : WriteKept s t) (k : Nat) (x : ShedTr) : WriteKept s (t.setShedTr k x) := h.trans ⟨rfl, fun _ _ => rfl⟩

theorem WriteKept.ym (h : WriteKept s t) : t.ym = s.ym := by rw [h.frame]
theorem WriteKept.cores (h : WriteKept s t) : t.cores = s.cores := by rw [h.frame]

/-- One flip of an injection (R339): a symbol of an SRAM word or a bit of an LPDDR5X word. -/
def flipAt (w : Nat) (s : State) (pos pat : Nat) : State :=
  if pat = 0 then s
  else if ddrBase ≤ w then
    if pos < 128 then (s.st w 16 (s.ld w 16 ^^^ 1 <<< pos)).setEcc w (s.eccOf w ^^^ ddrEncodeBit pos)
    else s.setEcc w (s.eccOf w ^^^ 1 <<< (pos - 128))
  else if pos < 32 then (s.st w 16 (s.ld w 16 ^^^ pat <<< (4 * pos))).setEcc w (s.eccOf w ^^^ encodeSym pos pat)
  else s.setEcc w (s.eccOf w ^^^ pat <<< (4 * (pos - 32)))

theorem WriteKept.flipAt (h : WriteKept s t) (w pos pat : Nat) : WriteKept s (flipAt w t pos pat) := by
  unfold Machine.flipAt
  split_ifs
  · exact h
  · exact (h.store ..).setEcc ..
  · exact h.setEcc ..
  · exact (h.store ..).setEcc ..
  · exact h.setEcc ..

/-- The injection of R339 in terms of its two flips. -/
theorem injectAt_eq (s : State) (n w : Nat) : injectAt s n w =
    (let c := s.rd (eccA n 0x30)
     if tb c 0 && (!tb c 1 || decide (s.rd (eccA n 0x34) + s.rd (eccA n 0x38) * 2 ^ 32 = w)) then
       let s2 := (flipAt w (flipAt w s (fld c 15 8) (fld c 19 16)) (fld c 27 20) (fld c 31 28)).wb (eccA n 0x30) 0 false
       eccSet (if tb c 1 then s2 else (s2.wr (eccA n 0x34) (w % 2 ^ 32)).wr (eccA n 0x38) (w / 2 ^ 32)) n 3
     else s) := rfl

theorem WriteKept.injectAt (h : WriteKept s t) (n w : Nat) : WriteKept s (injectAt t n w) := by
  rw [injectAt_eq]
  dsimp only
  split
  · refine WriteKept.trans ?_ ((Logged.refl _).eccSet n 3).writeKept
    have hflip := ((h.flipAt w (fld (t.rd (eccA n 0x30)) 15 8) (fld (t.rd (eccA n 0x30)) 19 16)).flipAt w
      (fld (t.rd (eccA n 0x30)) 27 20) (fld (t.rd (eccA n 0x30)) 31 28)).wr (shdRegs_le_eccA n 0x30)
    split
    · exact hflip _
    · exact ((hflip _).wr (shdRegs_le_eccA n 0x34) _).wr (shdRegs_le_eccA n 0x38) _
  · exact h

theorem writeKept_eccUe (s : State) (n w kind req : Nat) : WriteKept s (eccUe s n w kind req) := by
  obtain ⟨t, ht, heq⟩ := exists_logged_eccUe s n w kind req
  exact heq ▸ ht.writeKept.setEcc w _

theorem writeKept_writeWord (s : State) (near : Bool) (w a : Nat) (l : List Byte) (req : Nat) :
    WriteKept s (s.writeWord near w a l req).2 := by
  unfold State.writeWord
  split
  · exact (WriteKept.refl s).store a l
  · next n _ =>
    split
    · exact (((WriteKept.refl s).store a l).setEcc w 0).injectAt n w
    · split
      · exact ((WriteKept.refl s).store a l).injectAt n w
      · exact ((((logged_eccLog ..).writeKept.store w _).store a l).setEcc w 0).injectAt n w
      · have hcount (v x : Nat) := ((WriteKept.refl s).wr (shdRegs_le_eccA n 0x10) v).wr (shdRegs_le_eccA n 0x40) x
        dsimp only
        split
        · exact (((hcount ..).store a l).setEcc w 0).injectAt n w
        · exact hcount ..
      · have hcount (x : Nat) := (writeKept_eccUe s n w 3 req).wr (shdRegs_le_eccA n 0x40) x
        dsimp only
        split
        · exact (((hcount _).store a l).setEcc w 0).injectAt n w
        · exact hcount _

theorem writeKept_writeWords (s : State) (near : Bool) (req k a : Nat) (l : List Byte) :
    WriteKept s (s.writeWords near req k a l).2 := by
  induction k generalizing s a l with
  | zero => exact .refl s
  | succ k ih =>
    simp only [State.writeWords]
    split
    · exact .refl s
    · exact (writeKept_writeWord ..).trans (ih ..)

theorem shdRegs_le_shdStatus (k : Nat) : shdRegs ≤ shdStatus k := by simp only [shdStatus]; omega

theorem writeKept_wakeShed (s : State) (k : Nat) : WriteKept s (wakeShed s k) := by
  have hstatus {t : State} (h : WriteKept s t) (v : Nat) : WriteKept s (t.wr (shdStatus k) v) :=
    h.wr (shdRegs_le_shdStatus k) v
  have hwake := hstatus (.refl s)
  unfold wakeShed
  split_ifs
  · exact hwake _
  · exact .refl s
  · exact (WriteKept.refl s).wr (Nat.le_add_right ..) _
  · exact (hstatus (hstatus (hstatus (hwake _) _) _) _).setShedTr ..

theorem writeKept_ni (s : State) (src dst : Nat) : WriteKept s (s.ni src dst).2 := by
  unfold State.ni
  split_ifs
  · exact .refl s
  · exact (WriteKept.refl s).setEp ..
  · exact (WriteKept.refl s).wr (shdRegs_le_yrdA 0x58) _
  · exact (WriteKept.refl s).setEp ..
  · exact .refl s
  · exact (writeKept_wakeShed ..).wr (shdRegs_le_yrdA 0x50) _

theorem writeKept_back (s : State) (src dst code : Nat) : WriteKept s (s.back src dst code).2 := by
  unfold State.back
  split
  · exact (WriteKept.refl s).wr (shdRegs_le_yrdA 0x58) _
  · exact .refl s

theorem writeKept_put (s : State) (src a : Nat) (l : List Byte) : WriteKept s (s.put src a l).2 := by
  unfold State.put
  dsimp only
  split
  · exact writeKept_ni ..
  · split
    · exact writeKept_ni ..
    · exact ((writeKept_ni ..).trans (writeKept_writeWords ..)).trans (writeKept_back ..)

theorem writeKept_niPosted (s : State) (src dst : Nat) : WriteKept s (s.niPosted src dst).2 := by
  unfold State.niPosted
  split_ifs
  · exact (WriteKept.refl s).setEp ..
  · exact (WriteKept.refl s).wr (shdRegs_le_yrdA 0x58) _
  · exact (WriteKept.refl s).setEp ..
  · exact .refl s

end Sys2Proof.Machine
end

section
/-! PROOF of the statement on the placement of tasks (02_slot_tick.md R60-R62, 09_yardmaster.md R270). -/

namespace Sys2Proof.Machine

variable {s t : State} {pl : Place} {x : Inst} {a : Act} {g gt : Nat}

theorem exec_taskPlace (hpl : s.ym.place.find? (fun y => decide (y.p = pl.p ∧ y.inst = pl.inst ∧ y.task = pl.task)) = some pl)
    (hen : s.rb ymRegs 0 = true) :
    exec (.taskPlace pl.p pl.inst pl.task) s = .next (sweepInsts (placeOne s pl)) := by
  change execTaskPlace pl.p pl.inst pl.task s = _
  unfold execTaskPlace
  rw [hpl]
  exact congrArg Host.Outcome.next (if_pos hen)

/-! ## Admission -/

/-- What a thread holds once activation `a` is bound to it, before it starts (R270). -/
def boundThread (x : Thread) (gt : Nat) (a : Act) : Thread :=
  { x with cnt := (x.cnt + 1) % 65536, act := some { a with id := gt + (x.cnt + 1) % 65536 * 65536 }, armed := false,
           woken := false, wait := 0, stop := none }

/-- A task in no flow is READY as soon as it is bound; of its core only the admission accounts change (R274, R291). -/
theorem bindAct_of_no_flow (h : a.flow = none) : ∃ f : Core → Core, (∀ c, (f c).run = c.run) ∧ bindAct s gt a =
    (makeReady (s.setTh gt (boundThread (s.th gt) gt a)) gt).modCore (gt / 256) f := by
  have hstart (u : State) : startAct u gt a.flow = makeReady u gt := by rw [h]; rfl
  unfold bindAct
  dsimp only
  rw [hstart]
  refine ⟨_, ?_, rfl⟩
  exact fun _ => rfl

theorem th_bindAct_same (h : a.flow = none) :
    (bindAct s gt a).th gt = { boundThread (s.th gt) gt a with st := 2, stamp := s.ym.stamp } := by
  obtain ⟨f, hrun, heq⟩ := bindAct_of_no_flow (s := s) (gt := gt) h
  rw [heq, th_modCore, th_makeReady, if_pos rfl, State.th_setTh, if_pos rfl]
  rfl

theorem th_bindAct_other (h : a.flow = none) {k : Nat} (hk : k ≠ gt) : (bindAct s gt a).th k = s.th k := by
  obtain ⟨f, hrun, heq⟩ := bindAct_of_no_flow (s := s) (gt := gt) h
  rw [heq, th_modCore, th_makeReady, if_neg hk.symm, State.th_setTh, if_neg hk.symm]

theorem run_bindAct (h : a.flow = none) (k : Nat) : ((bindAct s gt a).core k).run = (s.core k).run := by
  obtain ⟨f, hrun, heq⟩ := bindAct_of_no_flow (s := s) (gt := gt) h
  rw [heq, State.core_modCore]
  split
  · next hk => rw [hrun, core_makeReady, core_setTh, hk]
  · rw [core_makeReady, core_setTh]

theorem bindAct_eq (h : a.flow = none) :
    CoreYmFrame s (bindAct s gt a) ∧
      (bindAct s gt a).ym.place = s.ym.place := by
  obtain ⟨f, hrun, heq⟩ := bindAct_of_no_flow (s := s) (gt := gt) h
  rw [heq]
  exact ⟨((s.ymFrame_setTh ..).trans (ymFrame_makeReady ..)).modCore _ f, rfl⟩

theorem tryCores_append {pre : List Nat} (post : List Nat) (hpre : ∀ h ∈ pre, eligible s h = false) :
    tryCores s a (pre ++ post) = tryCores s a post := by
  induction pre with
  | nil => rfl
  | cons h pre ih =>
    obtain ⟨hh, hpre⟩ := List.forall_mem_cons.mp hpre
    simp [tryCores, hh, ih hpre]

theorem tryCores_of_ineligible {l : List Nat} (h : ∀ g ∈ l, eligible s g = false) : tryCores s a l = (false, s) := by
  have happ := tryCores_append (a := a) [] h
  rwa [List.append_nil] at happ

theorem tryCores_of_admits {post : List Nat} (hel : eligible s g = true) (hidle : idlePool s g = some gt)
    (hadm : admits s g a.grant a.td = true) : tryCores s a (g :: post) = (true, bindAct s gt a) := by
  simp [tryCores, hel, hidle, hadm]

section
variable (hx : findInst s pl.p pl.inst = some x) (hflow : (planAct s x pl).flow = none)
include hx hflow

/-- A ready task in no flow leaves placement and is tried on the cores of its order (R61). -/
theorem placeOne_of_taken (h : tryCores (s.setPlace (s.ym.place.erase pl)) (planAct s x pl)
    (coreOrder s (taskA s x.base pl.task)) = (true, t)) : placeOne s pl = t := by
  unfold coreOrder at h
  unfold placeOne
  rw [hx]
  simp [hflow, h]

/-- One that no core takes is refused, if its mode is REFUSE (R62). -/
theorem placeOne_of_refused (h : tryCores (s.setPlace (s.ym.place.erase pl)) (planAct s x pl)
    (coreOrder s (taskA s x.base pl.task)) = (false, t)) (hmode : peek s (taskA s x.base pl.task + 22) 1 = 0) :
    placeOne s pl = (lateOuts t pl.p pl.inst (pl.task :: pl.rep.toList)).cnt (planA pl.p 0x14) 1 := by
  have hany : ¬ peek s (taskA s x.base pl.task + 22) 1 = 1 := by omega
  unfold coreOrder at h
  rw [if_neg hany] at h
  unfold placeOne
  rw [hx]
  simp [hflow, h, hmode]

end

/-! ## Outputs that become LATE -/

/-- From `s` to `t` the Yardmaster's threads, instances, placement and register `a` are as they were. -/
structure LateKept (a : Nat) (s t : State) : Prop where
  threads : t.ym.threads = s.ym.threads
  insts : t.ym.insts = s.ym.insts
  place : t.ym.place = s.ym.place
  count : t.rd a = s.rd a

theorem LateKept.refl (a : Nat) (s : State) : LateKept a s s := ⟨rfl, rfl, rfl, rfl⟩

theorem LateKept.trans {r : Nat} {u : State} (h1 : LateKept r s t) (h2 : LateKept r t u) : LateKept r s u :=
  ⟨h2.threads.trans h1.threads, h2.insts.trans h1.insts, h2.place.trans h1.place, h2.count.trans h1.count⟩

theorem WriteKept.lateKept (h : WriteKept s t) {r : Nat} (hr : r < shdRegs) : LateKept r s t :=
  ⟨by rw [h.ym], by rw [h.ym], by rw [h.ym], h.low r hr⟩

theorem LateKept.cnt {r : Nat} (h : LateKept r s t) {b : Nat} (hb : b ≠ r) (n : Nat) : LateKept r s (t.cnt b n) :=
  h.trans ⟨rfl, rfl, rfl, t.rd_wr_other _ hb⟩

theorem lateKept_orderFallback {r : Nat} (hr : r < shdRegs) (hctr : ymRegs + 0x40 ≠ r) (x : Inst) (o : Nat) :
    LateKept r s (orderFallback s x o) := by
  unfold orderFallback
  dsimp only
  generalize s.rd _ = e
  split
  · have hsent := (writeKept_niPosted s ymEp (macEp (fld e 4 0))).lateKept hr
    split
    · exact hsent.trans ⟨rfl, rfl, rfl, rfl⟩
    · exact hsent
  · exact (LateKept.refl r s).cnt hctr 1

/-- What marking an output LATE leaves, but for its plan slot's counter (R65). -/
theorem lateKept_markLate {r : Nat} (hr : r < shdRegs) (hctr : ymRegs + 0x40 ≠ r) {x : Inst} (hlate : planA x.p 0x10 ≠ r)
    (s : State) (o : Nat) : LateKept r s (markLate s x o) := by
  have hstatus : LateKept r s (if x.dropped then s else putStatus s x o 2) := by
    split
    · exact .refl ..
    · exact (writeKept_put ..).lateKept hr
  have hcount := hstatus.cnt hlate 1
  unfold markLate
  dsimp only
  split
  · exact (hcount.trans (lateKept_orderFallback hr hctr x o)).trans ⟨rfl, rfl, rfl, rfl⟩
  · exact hcount.trans ⟨rfl, rfl, rfl, rfl⟩

theorem tOuts_congr (h : SameData s t) (b i : Nat) : tOuts t b i = tOuts s b i := by
  simp only [tOuts, nOut, outA, peek_congr h]
  rfl

/-- The outputs of tasks `ks` that are neither DONE nor LATE. -/
def openOuts (s : State) (x : Inst) (ks : List Nat) : List Nat :=
  (ks.map (tOuts s x.base)).flatten.filter (fun o => !x.outDone.contains o && !x.outLate.contains o)

theorem lateOuts_of_inst {p i : Nat} (hx : findInst s p i = some x) (ks : List Nat) :
    lateOuts s p i ks = modInst ((openOuts s x ks).foldl (fun s o => markLate s x o) s) p i
      (fun y => { y with outLate := y.outLate ++ openOuts s x ks }) := by
  unfold lateOuts
  rw [hx]
  rfl

/-- What is left by marking the open outputs of an instance LATE. -/
theorem lateKept_lateOuts {p i : Nat} (hp : p < 256) (hx : findInst s p i = some x) (ks : List Nat) :
    (∀ k, (lateOuts s p i ks).th k = s.th k) ∧ (lateOuts s p i ks).ym.place = s.ym.place ∧
      (lateOuts s p i ks).rd (planA p 0x14) = s.rd (planA p 0x14) := by
  have hr : planA p 0x14 < shdRegs := by simp only [planA, ymRegs, shdRegs, blockBase]; omega
  have hctr : ymRegs + 0x40 ≠ planA p 0x14 := by simp only [planA, ymRegs, blockBase]; omega
  have hlate : planA x.p 0x10 ≠ planA p 0x14 := by simp only [planA, ymRegs, blockBase]; omega
  have hkept : LateKept (planA p 0x14) s ((openOuts s x ks).foldl (fun s o => markLate s x o) s) :=
    List.foldlRecOn (motive := LateKept (planA p 0x14) s) _ _ (.refl ..) fun t ht o _ =>
      ht.trans (lateKept_markLate hr hctr hlate t o)
  rw [lateOuts_of_inst hx]
  refine ⟨fun k => ?_, hkept.place, hkept.count⟩
  rw [modInst, th_setInsts]
  exact State.th_of_threads hkept.threads k

/-- Every instance of the index keeps the outputs now marked LATE. -/
theorem mem_outLate_lateOuts {p i : Nat} (hx : findInst s p i = some x) {ks : List Nat} {o : Nat} (ho : o ∈ openOuts s x ks) {y : Inst}
    (hy : y ∈ (lateOuts s p i ks).ym.insts) (hd : y.dropped = false) (hyp : y.p = p) (hyi : y.idx = i) : o ∈ y.outLate := by
  rw [lateOuts_of_inst hx] at hy
  obtain ⟨z, -, hz⟩ := List.mem_map.mp hy
  split at hz
  · subst hz
    exact List.mem_append_right _ ho
  · next hz' =>
    subst hz
    simp [hd, hyp, hyi] at hz'

/-! ## The statement -/

/-- R60, R61, R270: the first core of the order that is eligible and admits the task runs it. -/
theorem completes_taskPlace_of_admits
    (hpl : s.ym.place.find? (fun y => decide (y.p = pl.p ∧ y.inst = pl.inst ∧ y.task = pl.task)) = some pl)
    (hx : findInst s pl.p pl.inst = some x) (hen : s.rb ymRegs 0 = true) (hflow : (planAct s x pl).flow = none)
    {pre post : List Nat} (horder : coreOrder s (taskA s x.base pl.task) = pre ++ g :: post)
    (hpre : ∀ h ∈ pre, eligible s h = false) (hel : eligible s g = true) (hidle : idlePool s g = some gt)
    (hadm : admits s g (planAct s x pl).grant (planAct s x pl).td = true) :
    Completes (.taskPlace pl.p pl.inst pl.task) s fun t =>
      (t.th gt).act = some { planAct s x pl with id := gt + ((s.th gt).cnt + 1) % 65536 * 65536 } ∧
      (t.th gt).st = 2 ∧ (t.th gt).armed = false ∧ t.ym.place = s.ym.place.erase pl ∧
      (∀ k, k ≠ gt → t.th k = s.th k) ∧ (∀ h, (t.core h).run = (s.core h).run) ∧
      t = { s with ym := t.ym, cores := t.cores } := by
  set s1 := s.setPlace (s.ym.place.erase pl) with hs1
  have hplace : placeOne s pl = bindAct s1 gt (planAct s x pl) := by
    refine placeOne_of_taken hx hflow ?_
    rw [horder, tryCores_append (s := s1) (g :: post) hpre, tryCores_of_admits (s := s1) hel hidle hadm]
  refine completes_of_exec (exec_taskPlace hpl hen) ?_
  rw [hplace]
  obtain ⟨hframe, hplace'⟩ := bindAct_eq (s := s1) (gt := gt) hflow
  refine ⟨?act, ?st, ?armed, ?place, fun k hk => ?others, fun h => ?run, ?frame⟩
  case act => rw [th_sweepInsts, th_bindAct_same hflow]; rfl
  case st => rw [th_sweepInsts, th_bindAct_same hflow]
  case armed => rw [th_sweepInsts, th_bindAct_same hflow]; rfl
  case place => rw [sweepInsts_place, hplace']; rfl
  case others => rw [th_sweepInsts, th_bindAct_other hflow hk, th_setPlace]
  case run => rw [core_sweepInsts, run_bindAct hflow, core_setPlace]
  case frame =>
    have h : CoreYmFrame s (bindAct s1 gt (planAct s x pl)) := (s.ymFrame_setPlace _).coreYmFrame.trans hframe
    exact h.setInsts _

/-- R62: a task that no core takes is counted and its outputs are LATE, if it has no way to wait. -/
theorem completes_taskPlace_of_refused
    (hpl : s.ym.place.find? (fun y => decide (y.p = pl.p ∧ y.inst = pl.inst ∧ y.task = pl.task)) = some pl)
    (hx : findInst s pl.p pl.inst = some x) (hen : s.rb ymRegs 0 = true) (hflow : (planAct s x pl).flow = none)
    (hp : pl.p < 256) (hel : ∀ h ∈ coreOrder s (taskA s x.base pl.task), eligible s h = false)
    (hmode : peek s (taskA s x.base pl.task + 22) 1 = 0) :
    Completes (.taskPlace pl.p pl.inst pl.task) s fun t =>
      t.rd (planA pl.p 0x14) = sat32 (s.rd (planA pl.p 0x14) + 1) ∧ t.ym.place = s.ym.place.erase pl ∧
      (∀ k, t.th k = s.th k) ∧
      ∀ y ∈ t.ym.insts, y.dropped = false → y.p = pl.p → y.idx = pl.inst → ∀ o ∈ tOuts s x.base pl.task,
        o ∉ x.outDone → o ∉ x.outLate → o ∈ y.outLate := by
  set s1 := s.setPlace (s.ym.place.erase pl) with hs1
  have hplace : placeOne s pl =
      (lateOuts s1 pl.p pl.inst (pl.task :: pl.rep.toList)).cnt (planA pl.p 0x14) 1 :=
    placeOne_of_refused hx hflow (tryCores_of_ineligible (s := s1) hel) hmode
  have hx1 : findInst s1 pl.p pl.inst = some x := hx
  refine completes_of_exec (exec_taskPlace hpl hen) ?_
  rw [hplace]
  obtain ⟨hthreads, hplace', hcount⟩ := lateKept_lateOuts hp hx1 (pl.task :: pl.rep.toList)
  refine ⟨?count, ?place, fun k => ?threads, fun y hy hd hyp hyi o ho hdone hlate => ?late⟩
  case count => rw [sweepInsts_rd, State.rd_cnt, if_pos rfl, hcount, State.setPlace_rd]
  case place => rw [sweepInsts_place, State.cnt_ym, hplace']; rfl
  case threads => rw [th_sweepInsts, th_cnt, hthreads, th_setPlace]
  case late =>
    refine mem_outLate_lateOuts hx1 ?_ (List.mem_filter.mp hy).1 hd hyp hyi
    have hdata : SameData s s1 := ⟨rfl, rfl⟩
    have ho1 : o ∈ tOuts s1 x.base pl.task := by rwa [tOuts_congr hdata]
    simp [openOuts, ho1, hdone, hlate]

/-- Settles O22: the task at the front of placement is tried on the cores of its order; the first that admits it binds
it, and one that no core takes is counted and its outputs are LATE. -/
theorem tasksArePlaced : Obligations.TasksArePlaced := fun _ _ _ hpl hx hen hflow =>
  ⟨fun _ _ _ _ horder hpre hel hidle hadm => completes_taskPlace_of_admits hpl hx hen hflow horder hpre hel hidle hadm,
    fun hp hel hmode => completes_taskPlace_of_refused hpl hx hen hflow hp hel hmode⟩

end Sys2Proof.Machine
end

section
/-! PROOF of the statement on events and tick messages at the Yardmaster (02_slot_tick.md R57, 09_yardmaster.md R276, R277). -/

namespace Sys2Proof.Machine

variable {s t : State} {n : Nat} {x : Inst}

/-! ## Instances -/

/-- Making tasks ready keeps which instances there are and what they have recorded (R51, R61). -/
theorem insts_readyTasks (s : State) (p i : Nat) : ∃ f : Inst → Inst,
    (readyTasks s p i).ym.insts = s.ym.insts.map f ∧ ∀ y, (f y).p = y.p ∧ (f y).idx = y.idx ∧ (f y).evs = y.evs := by
  unfold readyTasks
  split
  · exact ⟨id, (List.map_id _).symm, fun _ => ⟨rfl, rfl, rfl⟩⟩
  · refine ⟨_, rfl, fun y => ?_⟩
    split <;> exact ⟨rfl, rfl, rfl⟩

theorem ymFrame_readyTasks (s : State) (p i : Nat) :
    YmFrame s (readyTasks s p i) ∧ (readyTasks s p i).ym.events = s.ym.events := by
  unfold readyTasks
  split
  · exact ⟨rfl, rfl⟩
  · exact ⟨(s.ymFrame_setInsts _).trans (State.ymFrame_setPlace ..), rfl⟩

/-! ## Recording an event (R276 step 1) -/

/-- The edges of instance `x` that wait for event `n`. -/
def waitsFor (s : State) (n : Nat) (x : Inst) : List Nat :=
  (List.range (nEdge s x.base)).filter (fun e =>
    decide (peek s (edgeA s x.base e + 4) 1 = 1) && decide (peek s (edgeA s x.base e + 6) 2 = n) && !x.evs.contains e)

/-- One plan slot's part in the recording of an event. -/
def recordAt (n : Nat) (r : Bool × State) (p : Nat) : Bool × State :=
  match r.2.ym.insts.find? (fun x => !x.dropped && decide (x.p = p) && !(waitsFor r.2 n x).isEmpty) with
  | none => r
  | some x => (true, readyTasks (modInst r.2 p x.idx (fun y => { y with evs := y.evs ++ waitsFor r.2 n x })) p x.idx)

theorem recordEvent_eq (s : State) (n : Nat) : recordEvent s n = (List.range 256).foldl (recordAt n) (false, s) := rfl

theorem recordAt_of_other {r : Bool × State} {p : Nat} (h : ∀ y ∈ r.2.ym.insts, y.p ≠ p) : recordAt n r p = r := by
  unfold recordAt
  rw [List.find?_eq_none.mpr fun y hy => by simp [h y hy]]

theorem foldl_recordAt_of_other {r : Bool × State} {l : List Nat} (h : ∀ p ∈ l, ∀ y ∈ r.2.ym.insts, y.p ≠ p) :
    l.foldl (recordAt n) r = r :=
  List.foldlRecOn (motive := (· = r)) l _ rfl fun r' hr p hp => by rw [hr]; exact recordAt_of_other (h p hp)

/-- A sole instance that waits for the event records it. -/
theorem recordAt_of_waits (hone : s.ym.insts = [x]) (hd : x.dropped = false) (hw : waitsFor s n x ≠ []) :
    ∃ u y, recordAt n (false, s) x.p = (true, u) ∧ u.ym.insts = [y] ∧ y.p = x.p ∧ y.idx = x.idx ∧
      (∀ e ∈ waitsFor s n x, e ∈ y.evs) ∧ YmFrame s u ∧ u.ym.events = s.ym.events := by
  have hfind : recordAt n (false, s) x.p =
      (true, readyTasks (modInst s x.p x.idx (fun y => { y with evs := y.evs ++ waitsFor s n x })) x.p x.idx) := by
    simp [recordAt, hone, hd, hw]
  set u0 := modInst s x.p x.idx (fun y => { y with evs := y.evs ++ waitsFor s n x }) with hu0
  have hinsts0 : u0.ym.insts = [{ x with evs := x.evs ++ waitsFor s n x }] := by
    simp [hu0, modInst, State.setInsts, hone, hd]
  obtain ⟨f, hinsts, hf⟩ := insts_readyTasks u0 x.p x.idx
  obtain ⟨hp, hidx, hevs⟩ := hf { x with evs := x.evs ++ waitsFor s n x }
  obtain ⟨hframe, hevents⟩ := ymFrame_readyTasks u0 x.p x.idx
  refine ⟨_, _, hfind, ?_, hp, hidx, fun e he => ?_, (State.ymFrame_setInsts s _).trans hframe, hevents⟩
  · rw [hinsts, hinsts0, List.map_singleton]
  · rw [hevs]
    exact List.mem_append_right _ he

theorem recordEvent_of_no_insts (h : s.ym.insts = []) : recordEvent s n = (false, s) := by
  rw [recordEvent_eq]
  exact foldl_recordAt_of_other (by simp [h])

theorem recordEvent_of_waits (hone : s.ym.insts = [x]) (hp : x.p < 256) (hd : x.dropped = false) (hw : waitsFor s n x ≠ []) :
    ∃ u y, recordEvent s n = (true, u) ∧ u.ym.insts = [y] ∧ y.p = x.p ∧ y.idx = x.idx ∧
      (∀ e ∈ waitsFor s n x, e ∈ y.evs) ∧ YmFrame s u ∧ u.ym.events = s.ym.events := by
  obtain ⟨u, y, hstep, hu, hyp, hrest⟩ := recordAt_of_waits hone hd hw
  obtain ⟨before, after, hrange⟩ := List.append_of_mem (List.mem_range.mpr hp)
  have hnodup : (before ++ x.p :: after).Nodup := hrange ▸ List.nodup_range
  obtain ⟨-, hafter, hdisjoint⟩ := List.nodup_append.mp hnodup
  have hfirst : before.foldl (recordAt n) (false, s) = (false, s) :=
    foldl_recordAt_of_other fun p hp' z hz => by
      rw [hone, List.mem_singleton] at hz
      exact hz ▸ (hdisjoint p hp' x.p List.mem_cons_self).symm
  have hlast : after.foldl (recordAt n) (true, u) = (true, u) :=
    foldl_recordAt_of_other fun p hp' z hz => by
      rw [hu, List.mem_singleton] at hz
      rw [hz, hyp]
      exact fun h => (List.nodup_cons.mp hafter).1 (h ▸ hp')
  refine ⟨u, y, ?_, hu, hyp, hrest⟩
  rw [recordEvent_eq, hrange, List.foldl_append, hfirst, List.foldl_cons, hstep, hlast]

/-! ## Events -/

/-- The state in which the oldest event has left its queue. -/
abbrev withEvents (s : State) (rest : List (Nat × Nat)) : State := { s with ym := { s.ym with events := rest } }

theorem exec_ymEvent {src : Nat} {rest : List (Nat × Nat)} (h : s.ym.events = (src, n) :: rest) :
    exec .ymEvent s = .next (applyEvent (withEvents s rest) n) := by
  change execYmEvent s = _
  unfold execYmEvent
  rw [h]

theorem ymFrame_wakeAll (s : State) (l : List Nat) : YmFrame s (wakeAll s l) ∧ (wakeAll s l).ym.events = s.ym.events ∧
    (wakeAll s l).ym.insts = s.ym.insts := by
  rw [wakeAll_eq]
  exact ⟨rfl, rfl, rfl⟩

section
variable {src : Nat} {rest : List (Nat × Nat)} (hev : s.ym.events = (src, n) :: rest)
include hev

/-- R276 step 3: an event nobody waits for is counted. -/
theorem completes_ymEvent_of_unclaimed (hinsts : s.ym.insts = []) (hwait : eventWaiters s n = []) :
    Completes .ymEvent s fun t => t.rd (ymRegs + 0x14) = sat32 (s.rd (ymRegs + 0x14) + 1) ∧
      t = { s with ym := { s.ym with events := rest }, regs := t.regs } ∧ RegsBut [ymRegs + 0x14] s t := by
  have happly : applyEvent (withEvents s rest) n = (withEvents s rest).cnt (ymRegs + 0x14) 1 := by
    have hwait' : eventWaiters (withEvents s rest) n = [] := hwait
    simp [applyEvent, recordEvent_of_no_insts (s := withEvents s rest) hinsts, hwait']
  refine completes_of_exec ((exec_ymEvent hev).trans (congrArg _ happly)) ⟨?count, rfl, regsBut_wr (withEvents s rest) _ _⟩
  case count => rw [State.rd_cnt, if_pos rfl]; rfl

/-- R276 step 2, R277: the threads armed for an event are woken, and the BLOCKED ones become READY. -/
theorem completes_ymEvent_of_waiters (hinsts : s.ym.insts = []) (hwait : eventWaiters s n ≠ []) :
    Completes .ymEvent s fun t => t.ym.events = rest ∧
      (∀ k ∈ eventWaiters s n, (t.th k).woken = true ∧ ((s.th k).st = 4 → (t.th k).st = 2) ∧
        ((s.th k).st ≠ 4 → (t.th k).st = (s.th k).st)) ∧
      (∀ k, k ∉ eventWaiters s n → t.th k = s.th k) ∧ t = { s with ym := t.ym } := by
  have happly : applyEvent (withEvents s rest) n = wakeAll (withEvents s rest) (eventWaiters s n) := by
    have hwait' : eventWaiters (withEvents s rest) n = eventWaiters s n := rfl
    simp [applyEvent, recordEvent_of_no_insts (s := withEvents s rest) hinsts, hwait', hwait]
  obtain ⟨hframe, hevents, -⟩ := ymFrame_wakeAll (withEvents s rest) (eventWaiters s n)
  have hqueue : YmFrame s (withEvents s rest) := rfl
  have hth (k : Nat) : (withEvents s rest).th k = s.th k := rfl
  refine completes_of_exec ((exec_ymEvent hev).trans (congrArg _ happly))
    ⟨hevents, fun k hk => ?woken, fun k hk => (th_wakeAll_of_not_mem hk).trans (hth k), hqueue.trans hframe⟩
  case woken =>
    obtain ⟨hwoken, hst⟩ := th_wakeAll_of_mem (s := withEvents s rest) hk
    rw [hth] at hst
    exact ⟨hwoken, fun h => by rw [hst, wokenSt, if_pos h], fun h => by rw [hst, wokenSt, if_neg h]⟩

/-- R276 step 1: a plan instance that waits for the event records it. -/
theorem completes_ymEvent_of_edge {e : Nat} (hone : s.ym.insts = [x]) (hp : x.p < 256) (hd : x.dropped = false)
    (he : e < nEdge s x.base) (hkind : peek s (edgeA s x.base e + 4) 1 = 1) (hnum : peek s (edgeA s x.base e + 6) 2 = n)
    (hnew : e ∉ x.evs) :
    Completes .ymEvent s fun t => t.ym.events = rest ∧ (∃ y ∈ t.ym.insts, y.p = x.p ∧ y.idx = x.idx ∧ e ∈ y.evs) ∧
      t = { s with ym := t.ym } := by
  have hdata : SameData s (withEvents s rest) := ⟨rfl, rfl⟩
  have hmem : e ∈ waitsFor (withEvents s rest) n x := by
    simp only [waitsFor, nEdge, edgeA, peek_congr hdata, List.mem_filter, List.mem_range]
    exact ⟨he, by simp [edgeA] at hkind hnum ⊢; simp [hkind, hnum, hnew]⟩
  obtain ⟨u, y, hrec, hu, hyp, hyi, hevs, hframe, hevents⟩ :=
    recordEvent_of_waits (s := withEvents s rest) hone hp hd (List.ne_nil_of_mem hmem)
  have happly : applyEvent (withEvents s rest) n = wakeAll u (eventWaiters u n) := by simp [applyEvent, hrec]
  obtain ⟨hwframe, hwevents, hwinsts⟩ := ymFrame_wakeAll u (eventWaiters u n)
  have hqueue : YmFrame s (withEvents s rest) := rfl
  refine completes_of_exec ((exec_ymEvent hev).trans (congrArg _ happly))
    ⟨hwevents.trans hevents, ⟨y, ?_, hyp, hyi, hevs e hmem⟩, (hqueue.trans hframe).trans hwframe⟩
  rw [hwinsts, hu]
  exact List.mem_singleton_self y

end

/-! ## Tick messages (R57) -/

theorem exec_ymTick {k : Nat} (hk : k < 16) : exec (.ymTick k) s = .next (hltSettle (ymStops (takeYmTick s k))) := if_pos hk

/-- One level's part in the count of the ticks a message brings. -/
def countLevel (m : Tick) (s : State) (l : Nat) : State :=
  if tb m.mask l then
    { s with ym := { s.ym with seen := tset (fun _ => 0) s.ym.seen (4 * m.train + l) (seen s m.train l + 1) } }
  else s

theorem countTicks_eq (s : State) (m : Tick) : countTicks s m = (List.range 4).foldl (countLevel m) s := rfl

theorem seen_countLevel (m : Tick) (s : State) (l tr j : Nat) (hl : l < 4) (hj : j < 4) :
    seen (countLevel m s l) tr j = seen s tr j + if m.train = tr ∧ l = j then b2n (tb m.mask l) else 0 := by
  have hkey : 4 * m.train + l = 4 * tr + j ↔ m.train = tr ∧ l = j := by omega
  unfold countLevel
  split
  · next h =>
    simp only [seen, tget_tset, hkey, h]
    split
    · next heq => obtain ⟨rfl, rfl⟩ := heq; rfl
    · rfl
  · next h => simp [Bool.not_eq_true _ ▸ h]

/-- A message counts each level it brings once, of its train alone. -/
theorem seen_countTicks (s : State) (m : Tick) (tr j : Nat) (hj : j < 4) :
    seen (countTicks s m) tr j = seen s tr j + if m.train = tr then b2n (tb m.mask j) else 0 := by
  simp only [countTicks_eq, List.range, List.range.loop, List.foldl_cons, List.foldl_nil, seen_countLevel, hj,
    Nat.reduceLT]
  obtain rfl | rfl | rfl | rfl : j = 0 ∨ j = 1 ∨ j = 2 ∨ j = 3 := by omega
  all_goals simp

theorem countTicks_frame (s : State) (m : Tick) :
    countTicks s m = { s with ym := { s.ym with seen := (countTicks s m).ym.seen } } := by
  refine List.foldlRecOn (motive := fun t : State => t = { s with ym := { s.ym with seen := t.ym.seen } })
    (List.range 4) (countLevel m) rfl fun t ht l _ => ?_
  unfold countLevel
  split
  · rw [ht]
  · exact ht

theorem sweepInsts_of_no_insts (h : s.ym.insts = []) : sweepInsts s = s := by
  have hself : s.setInsts s.ym.insts = s := rfl
  rw [sweepInsts, h, List.filter_nil, ← h, hself]

theorem stopChans_of_no_stops (h : s.ym.chanStops = []) (f : ChanStop → Bool) : stopChans s f = s := by
  have hself : ({ s with ym := { s.ym with chanStops := s.ym.chanStops } } : State) = s := rfl
  rw [stopChans, h, List.filter_nil, List.filter_nil, ← h, hself, h]
  rfl

theorem wakeTicks_of_no_threads (h : s.ym.threads = []) (t : Nat) : wakeTicks s t = s := by
  rw [wakeTicks, waiting, h]
  rfl

/-- Without plans, threads, channel stops and accounting, a tick only counts. -/
theorem ymTick_of_idle {m : Tick} (hen : s.rb ymRegs 0 = false) (hacc : s.rb (ymRegs + 8) 8 = false)
    (hinsts : s.ym.insts = []) (hthreads : s.ym.threads = []) (hstops : s.ym.chanStops = []) :
    ymTick s m = countTicks s m := by
  have hframe := countTicks_frame s m
  have hregs : (countTicks s m).regs = s.regs := by rw [hframe]
  rw [← State.rb_of_regs hregs] at hen hacc
  rw [← show (countTicks s m).ym.insts = s.ym.insts by rw [hframe]] at hinsts
  rw [← show (countTicks s m).ym.threads = s.ym.threads by rw [hframe]] at hthreads
  rw [← show (countTicks s m).ym.chanStops = s.ym.chanStops by rw [hframe]] at hstops
  have hdeadlines : softDeadlines (allDeadlines (countTicks s m)) = countTicks s m := by
    simp [allDeadlines, softDeadlines, hinsts, hthreads]
  unfold ymTick
  dsimp only
  rw [hen]
  simp [hinsts, hdeadlines, sweepInsts_of_no_insts hinsts, stopChans_of_no_stops hstops,
    wakeTicks_of_no_threads hthreads]
  intro h
  rw [State.rb, tb] at hacc
  simp [tb, hacc] at h

/-- The state in which the oldest tick of a train has left the Yardmaster's queue. -/
abbrev withoutTick (s : State) (m : Tick) : State :=
  { s with ticks := tset noTicks s.ticks 0 ((tget noTicks s.ticks 0).erase m) }

/-- R57: a tick message leaves its queue and counts each level it brings. -/
theorem completes_ymTick {k : Nat} {m : Tick} (hk : k < 16)
    (hm : (tget noTicks s.ticks 0).find? (fun (m : Tick) => decide (m.train = k)) = some m)
    (hready : s.shedReady shedYard = true) (hen : s.rb ymRegs 0 = false) (hacc : s.rb (ymRegs + 8) 8 = false)
    (hinsts : s.ym.insts = []) (hthreads : s.ym.threads = []) (hstops : s.ym.chanStops = []) :
    Completes (.ymTick k) s fun t => ∃ u, t = hltSettle (ymStops u) ∧
      tget noTicks u.ticks 0 = (tget noTicks s.ticks 0).erase m ∧
      (∀ l, l < 4 → seen u k l = seen s k l + b2n (tb m.mask l)) ∧
      (∀ l tr, tr ≠ k → l < 4 → seen u tr l = seen s tr l) ∧
      u = { s with ticks := u.ticks, ym := u.ym } ∧ u.ym.insts = [] ∧ u.ym.threads = [] := by
  have htrain : m.train = k := of_decide_eq_true (List.find?_some hm :)
  have htake : takeYmTick s k = countTicks (withoutTick s m) m := by
    have hready' : (withoutTick s m).shedReady shedYard = true := hready
    unfold takeYmTick
    rw [hm]
    dsimp only
    rw [if_pos hready']
    exact ymTick_of_idle hen hacc hinsts hthreads hstops
  have hframe := countTicks_frame (withoutTick s m) m
  refine completes_of_exec (exec_ymTick hk) ⟨_, rfl, ?_⟩
  rw [htake]
  refine ⟨?queue, fun l hl => ?counted, fun l tr htr hl => ?others, ?frame, ?insts, ?threads⟩
  case queue => rw [hframe, tget_tset_same]
  case counted => rw [seen_countTicks _ _ _ _ hl, if_pos htrain]; rfl
  case others => rw [seen_countTicks _ _ _ _ hl, if_neg (htrain ▸ htr.symm)]; rfl
  case frame => rw [hframe]
  case insts => rw [hframe]; exact hinsts
  case threads => rw [hframe]; exact hthreads

/-- Settles O23: the oldest event is counted, wakes the threads armed for it or is recorded by the instance that waits for
it; a tick message counts the levels it brings. -/
theorem eventsAndTicksArrive : Obligations.EventsAndTicksArrive := fun _ =>
  ⟨fun _ _ _ hev => ⟨completes_ymEvent_of_unclaimed hev, completes_ymEvent_of_waiters hev,
      fun _ _ hone hp hd he hkind hnum hnew => completes_ymEvent_of_edge hev hone hp hd he hkind hnum hnew⟩,
    fun _ _ hk hm hready hen hacc hinsts hthreads hstops =>
      completes_ymTick hk hm hready hen hacc hinsts hthreads hstops⟩

end Sys2Proof.Machine
end

section
/-! PROOF of the statement on thread stops, the hardware switch and the offer (02_slot_tick.md R65, 09_yardmaster.md
R279, R280, R282). -/

namespace Sys2Proof.Machine

variable {s t u : State} {g gt k : Nat} {a : Act}

/-! ## The end of an activation that did not run (R282) -/

/-- From `s` to `t` only the hitches have changed, and of a core neither the thread that runs nor its PC: the Yardmaster,
memory and every register from the Yardmaster's up are as they were. -/
structure HitchKept (s t : State) : Prop where
  ym : t.ym = s.ym
  mem : t.mem = s.mem
  high : ∀ a, ymRegs ≤ a → t.rd a = s.rd a
  core : ∀ g, (t.core g).run = (s.core g).run ∧ (t.core g).pc = (s.core g).pc

theorem HitchKept.refl (s : State) : HitchKept s s := ⟨rfl, rfl, fun _ _ => rfl, fun _ => ⟨rfl, rfl⟩⟩

theorem HitchKept.trans (h1 : HitchKept s t) (h2 : HitchKept t u) : HitchKept s u :=
  ⟨h2.ym.trans h1.ym, h2.mem.trans h1.mem, fun a ha => (h2.high a ha).trans (h1.high a ha),
    fun g => ⟨(h2.core g).1.trans (h1.core g).1, (h2.core g).2.trans (h1.core g).2⟩⟩

theorem HitchKept.wr (h : HitchKept s t) {r : Nat} (hr : r < ymRegs) (v : Nat) : HitchKept s (t.wr r v) :=
  h.trans ⟨rfl, rfl, fun _ hb => t.rd_wr_other v (by omega), fun _ => ⟨rfl, rfl⟩⟩

theorem HitchKept.setTag (h : HitchKept s t) (g k : Nat) (x : Tag) : HitchKept s (t.setTag g k x) :=
  h.trans ⟨rfl, rfl, fun _ _ => rfl, fun _ => ⟨rfl, rfl⟩⟩

theorem HitchKept.setGuard (h : HitchKept s t) (g i : Nat) (x : Guard) : HitchKept s (t.setGuard g i x) :=
  h.trans ⟨rfl, rfl, fun _ _ => rfl, fun _ => ⟨rfl, rfl⟩⟩

theorem HitchKept.hSend (h : HitchKept s t) (e : Nat) (m : HMsg) : HitchKept s (hSend t e m) :=
  h.trans ⟨rfl, rfl, fun _ _ => rfl, fun _ => ⟨rfl, rfl⟩⟩

theorem HitchKept.modCore (h : HitchKept s t) (g : Nat) {f : Core → Core} (hf : ∀ c, (f c).run = c.run ∧ (f c).pc = c.pc) :
    HitchKept s (t.modCore g f) := by
  refine h.trans ⟨rfl, rfl, fun _ _ => rfl, fun k => ?_⟩
  rw [State.core_modCore]
  split
  · next hk => rw [← hk]; exact hf _
  · exact ⟨rfl, rfl⟩

theorem HitchKept.freeTag (h : HitchKept s t) (g k : Nat) : HitchKept s (freeTag t g k) := by
  have hdisarm (u : State) : HitchKept u (disarm u g k) := by
    unfold disarm
    split
    · refine List.foldlRecOn (motive := HitchKept u) _ _ (.refl u) fun v hv i _ => ?_
      dsimp only
      split
      · exact hv.setGuard ..
      · exact hv
    · exact .refl u
  exact (h.setTag ..).trans (hdisarm _)

theorem kA_lt_ymRegs (hg : g < 256) {o : Nat} (ho : o < 0x1000) : kA g o < ymRegs := by
  simp only [kA, coreRegs, stableBase, ymRegs, blockBase]; omega

/-- The end of an activation's tags stays within the core's hitch (R160). -/
theorem hitchKept_endTags (hg : g < 256) (s : State) (mask : Nat) : HitchKept s (endTags s g mask) := by
  refine List.foldlRecOn (motive := HitchKept s) _ _ (.refl s) fun u hu k hk => ?_
  have hk64 : k < 64 := List.mem_range.mp hk
  dsimp only
  split
  · split
    · exact ((hu.hSend ..).freeTag g k).wr (kA_lt_ymRegs hg (by decide)) _
    · exact hu.setTag ..
    · have hnotify : (notifyAt g k).1 < ymRegs := by
        rw [notifyAt, if_pos hg]
        exact kA_lt_ymRegs hg (by omega)
      exact (hu.freeTag g k).wr hnotify _
    · exact hu
  · exact hu

/-- A thread whose activation has ended. -/
def endedThread (x : Thread) : Thread := { x with st := 1, act := none, armed := false, woken := false, wait := 0, stop := none }

/-- The end by a deadline of an activation in no flow that owes nobody a report: its tags and thread, and a count. -/
theorem endAct_of_deadline (hgt : gt / 256 < 256) (hact : (s.th gt).act = some a) (hflow : a.flow = none)
    (hsrc : ∀ v h, a.src ≠ .soft v (some h)) : ∃ u, HitchKept s u ∧
      endAct s gt 1 = sweepInsts ((u.setTh gt (endedThread (s.th gt))).cnt (ymCoreA (gt / 256) 0x28) 1) := by
  unfold endAct
  dsimp only
  rw [hact]
  dsimp only
  generalize (if (s.core (gt / 256)).run = gt % 256 ∧ !(s.core (gt / 256)).left then tmask s (gt / 256)
    else s.rd (tdA gt 0xC) + s.rd (tdA gt 0x10) * 2 ^ 32) = mask
  have htags := hitchKept_endTags hgt s mask
  generalize endTags s (gt / 256) mask = s1 at htags ⊢
  have howner : HitchKept s (if (s1.core (gt / 256)).owner = some (gt % 256) then
      s1.modCore (gt / 256) (fun c => { c with owner := none, dirty := 0 }) else s1) := by
    split
    · exact htags.modCore _ fun _ => ⟨rfl, rfl⟩
    · exact htags
  generalize (if (s1.core (gt / 256)).owner = some (gt % 256) then
      s1.modCore (gt / 256) (fun c => { c with owner := none, dirty := 0 }) else s1) = s2 at howner ⊢
  refine ⟨s2, howner, ?_⟩
  rw [hflow]
  split
  · rfl
  · next v h heq => exact absurd heq (hsrc v h)
  · rfl


/-! ## Thread stops (R65) -/

theorem exec_threadStop (hg : g < 256) (hk : k < 256) : exec (.threadStop g k) s = .next (stopThread s (256 * g + k)) :=
  if_pos ⟨hg, hk⟩

theorem threadId_parts (hk : k < 256) : (256 * g + k) / 256 = g ∧ (256 * g + k) % 256 = k := by omega

theorem stopThread_of_none (hk : k < 256) (hstop : (s.th (256 * g + k)).stop = none) (hrun : (s.core g).run ≠ k) :
    stopThread s (256 * g + k) = s := by
  obtain ⟨hdiv, hmod⟩ := threadId_parts (g := g) hk
  simp [stopThread, threadStop, hstop, hdiv, hmod, hrun]

/-- A stop of a thread that does not run ends its activation; a context still to be saved is forgotten. -/
theorem exists_stopThread_of_not_running (hk : k < 256) {c : Nat} (hstop : (s.th (256 * g + k)).stop = some c)
    (hst : (s.th (256 * g + k)).st ≠ 3) : ∃ t, stopThread s (256 * g + k) = t ∧
      (t = endAct s (256 * g + k) 1 ∨ t = (endAct s (256 * g + k) 1).modCore g (fun c => { c with saveOut := false })) := by
  obtain ⟨hdiv, hmod⟩ := threadId_parts (g := g) hk
  have hend : threadStop s (256 * g + k) = endAct s (256 * g + k) 1 := by simp [threadStop, hstop, hst]
  refine ⟨_, rfl, ?_⟩
  unfold stopThread
  dsimp only
  rw [hend, hdiv]
  split
  · exact .inr rfl
  · exact .inl rfl

/-- R65, R282: the activation of a thread that does not run ends and is counted. -/
theorem completes_threadStop_of_not_running {c : Nat} (hg : g < 256) (hk : k < 256)
    (hstop : (s.th (256 * g + k)).stop = some c) (hst : (s.th (256 * g + k)).st ≠ 3)
    (hact : (s.th (256 * g + k)).act = some a) (hflow : a.flow = none) (hsrc : ∀ v h, a.src ≠ .soft v (some h)) :
    Completes (.threadStop g k) s fun t =>
      t.th (256 * g + k) = { s.th (256 * g + k) with st := 1, act := none, armed := false, woken := false, wait := 0,
                                                     stop := none } ∧
      (∀ j, j ≠ 256 * g + k → t.th j = s.th j) ∧ (t.core g).run = (s.core g).run ∧ (t.core g).pc = (s.core g).pc ∧
      t.rd (ymCoreA g 0x28) = sat32 (s.rd (ymCoreA g 0x28) + 1) ∧ SameBytes s t := by
  obtain ⟨hdiv, -⟩ := threadId_parts (g := g) hk
  obtain ⟨u, hu, hend⟩ := endAct_of_deadline (by rwa [hdiv]) hact hflow hsrc
  rw [hdiv] at hend
  obtain ⟨t, ht, hform⟩ := exists_stopThread_of_not_running hk hstop hst
  refine completes_of_exec ((exec_threadStop hg hk).trans (congrArg _ ht)) ?_
  have hthreads (j : Nat) : u.th j = s.th j := State.th_of_threads (by rw [hu.ym]) j
  have hthis : t.th (256 * g + k) = endedThread (s.th (256 * g + k)) := by
    rcases hform with rfl | rfl <;> simp [hend, State.th_setTh]
  have hothers (j : Nat) (hj : j ≠ 256 * g + k) : t.th j = s.th j := by
    rcases hform with rfl | rfl <;> simp [hend, State.th_setTh, hj.symm, hthreads]
  have hcore : (t.core g).run = (s.core g).run ∧ (t.core g).pc = (s.core g).pc := by
    rcases hform with rfl | rfl <;> simp [hend, State.core_modCore, hu.core]
  have hcount : t.rd (ymCoreA g 0x28) = sat32 (s.rd (ymCoreA g 0x28) + 1) := by
    have hhigh : ymRegs ≤ ymCoreA g 0x28 := by simp only [ymCoreA]; omega
    rcases hform with rfl | rfl <;> simp [hend, State.rd_cnt, hu.high _ hhigh]
  have hbytes : SameBytes s t := fun b => by
    rcases hform with rfl | rfl <;> simp [hend, State.byte_of_mem hu.mem]
  exact ⟨hthis, hothers, hcore.1, hcore.2, hcount, hbytes⟩

/-! ## The hardware switch (R279, R280) -/

theorem eligible_modCore {f : Core → Core} (hf : ∀ c, (f c).halted = c.halted) (s : State) (g h : Nat) :
    eligible (s.modCore g f) h = eligible s h := by
  have hhalted : ((s.modCore g f).core h).halted = (s.core h).halted := by
    rw [State.core_modCore]
    split
    · next hk => rw [hf, hk]
    · rfl
  rw [eligible, hhalted]
  rfl

/-- Which activation a core is to run does not depend on the cores' own state, but for a halt. -/
theorem candidate_modCore {f : Core → Core} (hf : ∀ c, (f c).halted = c.halted) (s : State) (g h : Nat) :
    candidate (s.modCore g f) h = candidate s h := by
  rw [candidate, eligible_modCore hf]
  rfl

/-- The choice between the first so far of a ready list and a thread of the table (R278). -/
def firstReady (m : Option (Nat × Thread × Act)) (x : Nat × Thread × Act) : Option (Nat × Thread × Act) :=
  if x.2.1.st = 2 then
    match m with
    | none => some x
    | some y => if before x y then some x else some y
  else m

theorem candidate_eq (s : State) (g : Nat) :
    candidate s g = if !eligible s g then none else (coreThreads s g).foldl firstReady none := rfl

theorem firstReady_eq_some {m : Option (Nat × Thread × Act)} {x y : Nat × Thread × Act} (h : firstReady m x = some y) :
    y = x ∨ m = some y := by
  unfold firstReady at h
  split at h
  · split at h
    · exact .inl (Option.some.inj h).symm
    · split at h
      · exact .inl (Option.some.inj h).symm
      · exact .inr h
  · exact .inr h

theorem candidate_mem {y : Nat × Thread × Act} (h : candidate s g = some y) : y ∈ coreThreads s g := by
  rw [candidate_eq] at h
  split at h
  · cases h
  · have hmem : ∀ y, (coreThreads s g).foldl firstReady none = some y → y ∈ coreThreads s g :=
      List.foldlRecOn (motive := fun m => ∀ y, m = some y → y ∈ coreThreads s g) _ _
        (fun _ hnone => (Option.some_ne_none _ hnone.symm).elim)
        fun m hm x hx y hy => (firstReady_eq_some hy).elim (fun heq => by rwa [heq]) (hm y)
    exact hmem y h

theorem candidate_core {x : Thread} (h : candidate s g = some (gt, x, a)) : gt / 256 = g := by
  have hmem := candidate_mem h
  rw [coreThreads, List.mem_filterMap] at hmem
  obtain ⟨p, -, hp⟩ := hmem
  split at hp
  · next hg =>
    simp only [Option.map_eq_some_iff, Prod.mk.injEq] at hp
    obtain ⟨b, -, hgt, -⟩ := hp
    rw [← hgt, hg]
  · cases hp

/-- s0, s1 and s4 of a fresh activation (R280). -/
theorem gs_freshFor (c : Core) (a : Act) : (c.freshFor a).gs 0 = a.s0 % 2 ^ 32 ∧ (c.freshFor a).gs 1 = a.s1 % 2 ^ 32 ∧
    (c.freshFor a).gs 4 = a.id % 2 ^ 32 := by
  simp [Core.gs, Core.freshFor, tget_tset]

/-- The slice's first sample of the budget of the activation that has come in (R272). -/
def sampled (c : Core) : Core := { c with sample := c.budget.toNat }

/-- A fresh activation starts in thread mode with interrupts enabled (R280). -/
theorem sr_freshFor (c : Core) (a : Act) : (c.freshFor a).sr = 0x100#32 := rfl

theorem km_freshFor (c : Core) (a : Act) : (c.freshFor a).km = false := by
  rw [Core.km, Core.srb, sr_freshFor]; decide

theorem ie_freshFor (c : Core) (a : Act) : (c.freshFor a).ie = true := by
  rw [Core.ie, Core.srb, sr_freshFor]; decide

/-- The incoming side of a switch to a fresh activation: its tag grants are written, its thread is RUNNING and the core
starts as R280 says. -/
theorem switchIn_of_fresh (hfresh : a.fresh = true) (s : State) (g k : Nat) : ∃ (v w : Nat) (f : Core → Core),
    (∀ c, (f c).run = k ∧ (f c).left = false) ∧ switchIn s g k (some a) =
      (((((s.wr (kA g 0x68) v).wr (kA g 0x6C) w).modCore g f).setTh (256 * g + k)
        { s.th (256 * g + k) with st := 3, act := some { a with fresh := false } }).modCore g (·.freshFor a)).modCore g sampled := by
  unfold switchIn
  simp only [hfresh, th_modCore, th_wr]
  refine ⟨_, _, _, ?_, rfl⟩
  exact fun _ => ⟨rfl, rfl⟩

/-- The core while the 24 cycles of a hardware switch pass, charged to no activation (R100). -/
def switching (c : Core) : Core := { c.tick 24 with budget := c.budget, sample := c.sample, accSpent := c.accSpent }

theorem halted_switching (c : Core) : (switching c).halted = c.halted := by
  cases c
  dsimp only
  rfl

/-- Nothing is saved of an activation that has ended, and the candidate comes in. -/
theorem doSwitch_of_left {x : Thread} (hhold : (s.core g).hold = .none) (hwfe : (s.core g).wfe = false)
    (hleft : (s.core g).left = true) (hsave : (s.core g).saveOut = false) (hcand : candidate s g = some (gt, x, a)) :
    doSwitch s g = switchIn (s.modCore g switching) g (gt % 256) (some a) := by
  have hboundary : endWfe (releaseHold s g) g = s := by simp [releaseHold, endWfe, hhold, hwfe]
  have hout : switchOut s g = s := by simp [switchOut, hleft, hsave]
  have hcand' : candidate (s.modCore g switching) g = some (gt, x, a) := by
    rw [candidate_modCore halted_switching, hcand]
  unfold switching at hcand' ⊢
  unfold doSwitch
  dsimp only
  rw [hboundary, hout, hcand']

theorem exec_preemptSwitch (hg : g < 256) (hlive : coreLive s g = true) (hdue : preemptDue s g = true)
    (hasync : (s.core g).busAsync = []) (hbudget : budgetDue (s.core g) = false) (hline : dueLine s g = none)
    (hhold : (s.core g).hold = .none) : exec (.preemptSwitch g) s = .next (doSwitch s g) := by
  change execPreemptSwitch g s = _
  simp [execPreemptSwitch, inCore, hg, hlive, hdue, hasync, hbudget, hline, hhold]

/-- R279, R280: the hardware switch brings a fresh candidate onto a core whose last activation has ended. -/
theorem completes_preemptSwitch {x : Thread} (hg : g < 256) (hlive : coreLive s g = true) (hmode : preemptMode s g = true)
    (hdefer : deferred s g = false) (hhold : (s.core g).hold = .none) (hwfe : (s.core g).wfe = false)
    (hleft : (s.core g).left = true) (hsave : (s.core g).saveOut = false) (hasync : (s.core g).busAsync = [])
    (hbudget : budgetDue (s.core g) = false) (hline : dueLine s g = none) (hcand : candidate s g = some (gt, x, a))
    (hfresh : a.fresh = true) :
    Completes (.preemptSwitch g) s fun t => (t.core g).run = gt % 256 ∧ (t.core g).left = false ∧
      (t.core g).pc = fld a.entry 16 4 ∧ (t.core g).km = false ∧ (t.core g).ie = true ∧
      (t.core g).gs 0 = a.s0 % 2 ^ 32 ∧ (t.core g).gs 1 = a.s1 % 2 ^ 32 ∧ (t.core g).gs 4 = a.id % 2 ^ 32 ∧
      (t.core g).budget = BitVec.ofNat 32 a.budget ∧ (t.th gt).st = 3 ∧
      (t.th gt).act = some { a with fresh := false } ∧ (∀ k, k ≠ gt → t.th k = s.th k) ∧
      RegsBut [kA g 0x68, kA g 0x6C] s t ∧ SameBytes s t := by
  have hdue : preemptDue s g = true := by simp [preemptDue, switchDue, hmode, hdefer, hleft]
  have hgt : 256 * g + gt % 256 = gt := by have := candidate_core hcand; omega
  obtain ⟨v, w, f, hf, hin⟩ := switchIn_of_fresh hfresh (s.modCore g switching) g (gt % 256)
  rw [hgt] at hin
  refine completes_of_exec ((exec_preemptSwitch hg hlive hdue hasync hbudget hline hhold).trans
    (congrArg _ ((doSwitch_of_left hhold hwfe hleft hsave hcand).trans hin))) ?_
  generalize hc : f (switching (s.core g)) = c
  obtain ⟨hrun, hleft'⟩ := hf (switching (s.core g))
  rw [hc] at hrun hleft'
  obtain ⟨hs0, hs1, hs4⟩ := gs_freshFor c a
  generalize ht : State.modCore _ g sampled = t
  have hcore : t.core g = sampled (c.freshFor a) := by simp [← ht, State.core_modCore, hc]
  have hth (k : Nat) : t.th k = if gt = k then { s.th gt with st := 3, act := some { a with fresh := false } } else s.th k := by
    simp [← ht, State.th_setTh]
  rw [hcore, hth gt, if_pos rfl]
  refine ⟨hrun, hleft', rfl, km_freshFor c a, ie_freshFor c a, hs0, hs1, hs4, rfl, rfl, rfl, fun k hk => ?others, ?regs, ?bytes⟩
  case others => rw [hth, if_neg hk.symm]
  case regs =>
    have hrd (r : Nat) : t.rd r = ((s.wr (kA g 0x68) v).wr (kA g 0x6C) w).rd r := by simp [← ht, State.rd_wr]
    exact fun r hr => (hrd r).trans ((((regsBut_of_regs rfl).wr (by simp) v).wr (by simp) w : RegsBut _ s _) r hr)
  case bytes => exact fun b => by simp [← ht]

/-! ## The offer (R279) -/

/-- The core with an offer standing. -/
def offering (c : Core) : Core := { c with offer := true }

theorem exec_dispatchOffer (hg : g < 256) : exec (.dispatchOffer g) s =
    .next (if !preemptMode s g && switchDue s g && (candidate s g).isSome then s.modCore g offering else s) := if_pos hg

theorem core_modCore_same (s : State) (g : Nat) (f : Core → Core) : (s.modCore g f).core g = f (s.core g) := by
  rw [State.core_modCore, if_pos rfl]

theorem switchDue_offering (s : State) (g : Nat) : switchDue (s.modCore g offering) g = switchDue s g := by
  have hcand : candidate (s.modCore g offering) g = candidate s g := candidate_modCore (f := offering) (fun _ => rfl) ..
  have hleft (c : Core) : (offering c).left = c.left := rfl
  have hrun (c : Core) : (offering c).run = c.run := rfl
  simp only [switchDue, runThread, core_modCore_same, hcand, th_modCore, hleft, hrun]

/-- R279: a core in INTERRUPT mode that is due an activation is offered it. -/
theorem completes_dispatchOffer (hg : g < 256) (hmode : preemptMode s g = false) (hdue : switchDue s g = true)
    (hcand : (candidate s g).isSome = true) :
    Completes (.dispatchOffer g) s fun t => offerNow t g = true ∧ t = { s with cores := t.cores } ∧
      (∀ h, h ≠ g → t.core h = s.core h) ∧ t.core g = { s.core g with offer := true } := by
  have hmode' : preemptMode (s.modCore g offering) g = false := hmode
  refine completes_of_exec ((exec_dispatchOffer hg).trans (congrArg _ (if_pos (by simp [hmode, hdue, hcand]))))
    ⟨?offer, rfl, fun h hh => ?others, core_modCore_same s g offering⟩
  case offer => rw [offerNow, core_modCore_same, hmode', switchDue_offering, hdue]; rfl
  case others => rw [State.core_modCore, if_neg hh.symm]

theorem completes_dispatchOffer_of_not_due (hg : g < 256)
    (h : preemptMode s g = true ∨ switchDue s g = false ∨ candidate s g = none) :
    Completes (.dispatchOffer g) s fun t => t = s := by
  refine completes_of_exec ((exec_dispatchOffer hg).trans (congrArg _ (if_neg ?_))) rfl
  rcases h with h | h | h <;> simp [h]

/-- Settles O24: a stop of a thread that does not run is the end of its activation; the hardware switch and the offer go
by the candidate. -/
theorem stopsSwitchesAndOffers : Obligations.StopsSwitchesAndOffers := fun _ _ hg =>
  ⟨fun _ hk hstop hrun => completes_of_exec ((exec_threadStop hg hk).trans (congrArg _ (stopThread_of_none hk hstop hrun))) rfl,
    fun _ _ _ hk hstop hst hact hflow hsrc => completes_threadStop_of_not_running hg hk hstop hst hact hflow hsrc,
    fun _ _ _ hlive hmode hdefer hhold hwfe hleft hsave hasync hbudget hline hcand hfresh =>
      completes_preemptSwitch hg hlive hmode hdefer hhold hwfe hleft hsave hasync hbudget hline hcand hfresh,
    completes_dispatchOffer hg, completes_dispatchOffer_of_not_due hg⟩

end Sys2Proof.Machine
end

section
/-! PROOF of the statement on ARM, BLOCK, OUT_DONE and SIGNAL (02_slot_tick.md R64, 09_yardmaster.md R276, R277, R284, R286). -/

namespace Sys2Proof.Machine

variable {s t u : State} {g code : Nat}

/-! ## Commands and results of the kernel page (R285, R286) -/

theorem kPage_of_km (h : KernelRuns s g) (f : State → State) : kPage g f s = .next ((f s).answer rspOk 0) := by
  obtain ⟨hg, hkm, -⟩ := h
  rw [kPage, if_pos hkm]
  exact if_pos hg

/-- A command of the kernel page completes with what holds of its result. -/
theorem completes_of_kPage {c : Instr} {f : State → State} {P : State → Prop} (h : KernelRuns s g)
    (hexec : exec c s = kPage g f s) (hf : f s = u) (hP : P (u.answer rspOk 0)) : Completes c s P :=
  completes_of_exec (by rw [hexec, kPage_of_km h, hf]) hP

theorem kRunning_of_kernelRuns (h : KernelRuns s g) : kRunning s g = true := by
  obtain ⟨-, -, hrun, -, hleft⟩ := h
  simp [kRunning, hrun, hleft]

/-- The result of a kernel command and the RSP_OK that answers the write of its code. -/
theorem kernelAnswers_kResult (u : State) (g : Nat) (hcode : code < 2 ^ 16) :
    KernelAnswers ((kResult u g code 0 false).answer rspOk 0) g code := by
  refine ⟨?_, rfl⟩
  rw [State.answer_rd, kResult, State.rd_wr_same, Nat.zero_mul, Nat.add_zero, b2n_false, Nat.zero_mul, Nat.add_zero]
  exact Nat.mod_eq_of_lt (by omega)

theorem regsBut_kResult (h : RegsBut [ykA g 0x10] s u) (slot : Nat) (fresh : Bool) :
    RegsBut [ykA g 0x10] s ((kResult u g code slot fresh).answer rspOk 0) := fun r hr =>
  (State.answer_rd ..).trans (h.wr (a := ykA g 0x10) (by simp) _ r hr)

theorem frame_wr_answer (u : State) (a v code data : Nat) :
    (u.wr a v).answer code data = { u with regs := (u.wr a v).regs, bus := ⟨code, data⟩ } := rfl

theorem frame_kResult (u : State) (g code slot : Nat) (fresh : Bool) : (kResult u g code slot fresh).answer rspOk 0 =
    { u with regs := (kResult u g code slot fresh).regs, bus := ⟨rspOk, 0⟩ } := frame_wr_answer ..

/-- The frame of a result after a change of the Yardmaster's own state. -/
theorem YmFrame.kResult (h : YmFrame s u) (slot : Nat) (fresh : Bool)
    (ht : (kResult u g code slot fresh).answer rspOk 0 = t) : t = { s with ym := t.ym, regs := t.regs, bus := t.bus } := by
  rw [frame_kResult] at ht
  rw [← ht, h]

/-- The frame of a result after a change of the Yardmaster's own state and the cores. -/
theorem CoreYmFrame.kResult (h : CoreYmFrame s u) (slot : Nat) (fresh : Bool)
    (ht : (kResult u g code slot fresh).answer rspOk 0 = t) :
    t = { s with ym := t.ym, regs := t.regs, cores := t.cores, bus := t.bus } := by
  rw [frame_kResult] at ht
  rw [← ht, h]

/-- A command that is turned away leaves only its result. -/
theorem completes_of_kResult {c : Instr} {f : State → State} (h : KernelRuns s g) (hexec : exec c s = kPage g f s)
    (hf : f s = kResult s g code 0 false) (hcode : code < 2 ^ 16) :
    Completes c s fun t => KernelAnswers t g code ∧ t = { s with regs := t.regs, bus := t.bus } :=
  completes_of_kPage h hexec hf ⟨kernelAnswers_kResult s g hcode, rfl⟩

/-! ## ARM and BLOCK (R277, R284) -/

/-- The running thread once it is armed for the wait `w` (R277). -/
def armedThread (s : State) (g w : Nat) : Thread :=
  { s.th (runThread s g) with
    armed := true, woken := decide (fld w 1 0 = 1) && hatFull s (fld w 27 16), wait := w,
    tickAt := seen s (fld w 19 16) (fld w 21 20) + fld w 27 24 }

theorem kArm_of_ok (h : KernelRuns s g) (hok : waitOk s g (s.rd (ykA g 8) % 2 ^ 32) = true) :
    kArm s g = kResult (s.setTh (runThread s g) (armedThread s g (s.rd (ykA g 8) % 2 ^ 32))) g yrOk 0 false := by
  unfold kArm
  dsimp only
  rw [kRunning_of_kernelRuns h, hok]
  rfl

theorem kArm_of_bad (hok : waitOk s g (s.rd (ykA g 8) % 2 ^ 32) = false) : kArm s g = kResult s g yrBad 0 false := by
  unfold kArm
  dsimp only
  rw [hok, Bool.and_false]
  rfl

theorem completes_kArm (h : KernelRuns s g) (hok : waitOk s g (s.rd (ykA g 8) % 2 ^ 32) = true) :
    Completes (.kArm g) s fun t => KernelAnswers t g yrOk ∧
      t.th (runThread s g) = armedThread s g (s.rd (ykA g 8) % 2 ^ 32) ∧
      (∀ k, k ≠ runThread s g → t.th k = s.th k) ∧ t = { s with ym := t.ym, regs := t.regs, bus := t.bus } ∧
      RegsBut [ykA g 0x10] s t := by
  refine completes_of_kPage (f := fun s => kArm s g) h rfl (kArm_of_ok h hok) ?_
  refine ⟨kernelAnswers_kResult _ g (by decide), ?this, fun k hk => ?others, ?frame, regsBut_kResult (regsBut_of_regs rfl) _ _⟩
  case this => rw [th_answer, kResult, th_wr, State.th_setTh, if_pos rfl]
  case others => rw [th_answer, kResult, th_wr, State.th_setTh, if_neg hk.symm]
  case frame => exact (s.ymFrame_setTh ..).kResult 0 false rfl

theorem kBlock_of_unarmed (h : KernelRuns s g) (harmed : (s.th (runThread s g)).armed = false) :
    kBlock s g = kResult s g yrNoarm 0 false := by
  simp [kBlock, kRunning_of_kernelRuns h, harmed]

theorem kBlock_of_woken (h : KernelRuns s g) (harmed : (s.th (runThread s g)).armed = true)
    (hwoken : (s.th (runThread s g)).woken = true) : kBlock s g = kResult s g yrWoken 0 false := by
  simp [kBlock, kRunning_of_kernelRuns h, harmed, hwoken]

/-- BLOCK of an armed thread that has not been woken: it is BLOCKED with its unspent budget and leaves the core. -/
theorem kBlock_of_waiting (h : KernelRuns s g) (harmed : (s.th (runThread s g)).armed = true)
    (hwoken : (s.th (runThread s g)).woken = false) :
    kBlock s g = kResult (leaveCore ((recordUnspent s g (runThread s g)).setTh (runThread s g)
      { (recordUnspent s g (runThread s g)).th (runThread s g) with st := 4 }) g true) g yrOk 0 false := by
  simp [kBlock, kRunning_of_kernelRuns h, harmed, hwoken]

theorem core_leaveCore (u : State) (g : Nat) (save : Bool) (hleft : (u.core g).left = false) :
    ((leaveCore u g save).core g).run = (if preemptMode u g then (u.core g).run else 0) ∧
      ((leaveCore u g save).core g).left = preemptMode u g ∧
      ((leaveCore u g save).core g).saveOut = (if preemptMode u g then save else (u.core g).saveOut) := by
  rw [leaveCore, State.core_modCore, if_pos rfl]
  cases preemptMode u g
  · exact ⟨rfl, hleft, rfl⟩
  · exact ⟨rfl, rfl, rfl⟩

theorem th_leaveCore (u : State) (g : Nat) (save : Bool) (k : Nat) : (leaveCore u g save).th k = u.th k := th_modCore ..

theorem completes_kBlock (h : KernelRuns s g) (harmed : (s.th (runThread s g)).armed = true)
    (hwoken : (s.th (runThread s g)).woken = false) :
    Completes (.kBlock g) s fun t => KernelAnswers t g yrOk ∧
      t.th (runThread s g) = { s.th (runThread s g) with
        st := 4, act := (s.th (runThread s g)).act.map (fun a => { a with budget := (s.core g).budget.toNat }) } ∧
      (∀ k, k ≠ runThread s g → t.th k = s.th k) ∧
      (t.core g).run = (if preemptMode s g then (s.core g).run else 0) ∧ (t.core g).left = preemptMode s g ∧
      (t.core g).saveOut = (preemptMode s g || (s.core g).saveOut) ∧
      t = { s with ym := t.ym, regs := t.regs, cores := t.cores, bus := t.bus } ∧ RegsBut [ykA g 0x10] s t := by
  have hrecord (k : Nat) : (recordUnspent s g (runThread s g)).th k = if runThread s g = k then
      { s.th (runThread s g) with
        act := (s.th (runThread s g)).act.map (fun a => { a with budget := (s.core g).budget.toNat }) } else s.th k :=
    s.th_setTh _ _ _
  have hblock := kBlock_of_waiting h harmed hwoken
  have hframe : YmFrame s (recordUnspent s g (runThread s g)) := rfl
  generalize recordUnspent s g (runThread s g) = r at hrecord hblock hframe
  have hframe' := hframe.trans (r.ymFrame_setTh (runThread s g) { r.th (runThread s g) with st := 4 })
  have hth (k : Nat) : (r.setTh (runThread s g) { r.th (runThread s g) with st := 4 }).th k =
      if runThread s g = k then { r.th (runThread s g) with st := 4 } else r.th k := r.th_setTh _ _ _
  generalize r.setTh (runThread s g) { r.th (runThread s g) with st := 4 } = b at hth hblock hframe'
  have hcore (k : Nat) : b.core k = s.core k := by rw [hframe']; rfl
  have hmode : preemptMode b g = preemptMode s g := by rw [hframe']; rfl
  have hregs : b.regs = s.regs := by rw [hframe']
  have ⟨_, _, _, _, hleft⟩ := h
  obtain ⟨hrun, hleft', hsave⟩ := core_leaveCore b g true (by rw [hcore, hleft])
  refine completes_of_kPage (f := fun s => kBlock s g) h rfl hblock ?_
  refine ⟨kernelAnswers_kResult _ g (by decide), ?this, fun k hk => ?others, ?run, ?left, ?save, ?frame,
    regsBut_kResult (regsBut_of_regs hregs) _ _⟩
  case this => rw [th_answer, kResult, th_wr, th_leaveCore, hth, if_pos rfl, hrecord, if_pos rfl]
  case others => rw [th_answer, kResult, th_wr, th_leaveCore, hth, if_neg hk.symm, hrecord, if_neg hk.symm]
  case run => rw [core_answer, kResult, core_wr, hrun, hmode, hcore]
  case left => rw [core_answer, kResult, core_wr, hleft', hmode]
  case save =>
    rw [core_answer, kResult, core_wr, hsave, hmode, hcore]
    cases preemptMode s g <;> rfl
  case frame => exact (hframe'.modCore g _).kResult 0 false rfl

/-! ## OUT_DONE (R64) -/

theorem ctlOf_of_barn {a : Nat} (h : a < barnSize) : ∃ n, n < 64 ∧ ctlOf a = some n := by
  have hregion : regionOf a = .barn (a / 0x0C000000 * 16 + fld a 11 8) := if_pos h
  refine ⟨a / 0x0C000000 * 16 + fld a 11 8, ?_, by rw [ctlOf, hregion]⟩
  have hfld : fld a 11 8 < 16 := Nat.mod_lt _ (by decide)
  have hport : a / 0x0C000000 < 4 := Nat.div_lt_of_lt_mul h
  omega

/-- A write that stays within one word of clean memory stores its bytes and logs nothing (R331, R335). -/
theorem writeWord_of_clean (hclean : CleanMem s) {w a : Nat} (hw : w < barnSize) (near : Bool) {l : List Byte} (req : Nat)
    (hl : l.length ≠ 16) : s.writeWord near w a l req = (false, s.store a l) := by
  obtain ⟨hecc, hinj⟩ := hclean
  obtain ⟨n, hn, hctl⟩ := ctlOf_of_barn hw
  have hgood : s.wordSt w = .good := by
    have hbarn : ¬ ddrBase ≤ w := by simp only [ddrBase, barnSize] at hw ⊢; omega
    rw [State.wordSt, if_neg hbarn, State.eccOf, hecc]
    exact (by decide : sramDecode 0 = .good)
  have harmed : tb ((s.store a l).rd (eccA n 0x30)) 0 = false := hinj n (by omega)
  have hnone : injectAt (s.store a l) n w = s.store a l := by
    unfold injectAt
    dsimp only
    rw [harmed, Bool.false_and]
    rfl
  simp [State.writeWord, hctl, hl, hgood, hnone]

/-- A doubleword written to an aligned place in clean memory of the Barn. -/
theorem writeMem_doubleword (hclean : CleanMem s) {b : Nat} (halign : b % 8 = 0) (hb : b + 8 ≤ barnSize) {l : List Byte}
    (hl : l.length = 8) (req : Nat) : s.writeMem b l req = (false, s.store b l) := by
  have hone : l ≠ [] := List.ne_nil_of_length_pos (by omega)
  have htake : l.take (b / 16 * 16 + 16 - b) = l := List.take_of_length_le (by omega)
  have hdrop : l.drop (b / 16 * 16 + 16 - b) = [] := List.drop_of_length_le (by omega)
  have hword := writeWord_of_clean hclean (w := b / 16 * 16) (a := b) (by omega) false req (l := l) (by omega)
  rw [State.writeMem, hl]
  simp [State.writeWords, hone, htake, hdrop, hword]

theorem put_doubleword (hclean : CleanMem s) {src b : Nat} (hreach : Reaches s src (epOf b)) (halign : b % 8 = 0)
    (hb : b + 8 ≤ barnSize) {l : List Byte} (hl : l.length = 8) : s.put src b l = (rspOk, s.store b l) := by
  obtain ⟨hsrc, hdst, hback⟩ := wayBack_of_reaches hreach
  have hddr : ddrAnswer s src b l.length = rspOk :=
    if_pos (.inl (by simp only [ddrBase, barnSize] at hb ⊢; omega))
  have hback' : (s.store b l).cut (epOf b) src = false := (cut_of_regs hdst rfl rfl).trans hback
  simp [State.put, ni_of_reaches hreach, hddr, writeMem_doubleword hclean halign hb hl, back_of_not_cut hback']

/-- Output `o` of an instance is DONE, and the instances that are over are forgotten. -/
def markDone (s : State) (p i o : Nat) : State :=
  sweepInsts (modInst s p i (fun y => { y with outDone := if y.outDone.contains o then y.outDone else y.outDone ++ [o] }))

theorem byte_markDone (s : State) (p i o b : Nat) : (markDone s p i o).byte b = s.byte b := by
  rw [markDone, sweepInsts_byte, modInst, State.setInsts_byte]

theorem rd_markDone (s : State) (p i o r : Nat) : (markDone s p i o).rd r = s.rd r := by
  rw [markDone, sweepInsts_rd, modInst, State.setInsts_rd]

theorem mem_outDone_markDone {p i o : Nat} {y : Inst} (hy : y ∈ (markDone s p i o).ym.insts) (hd : y.dropped = false)
    (hyp : y.p = p) (hyi : y.idx = i) : o ∈ y.outDone := by
  obtain ⟨z, -, hz⟩ := List.mem_map.mp (List.mem_filter.mp hy).1
  split at hz
  · subst hz
    dsimp only
    split
    · next hc => exact List.contains_iff_mem.mp hc
    · exact List.mem_append_right _ (List.mem_singleton_self o)
  · next hz' =>
    subst hz
    simp [hd, hyp, hyi] at hz'

/-- The output of the running task that OUT_DONE names (R64). -/
abbrev namedOutput (s : State) (g k : Nat) (rep : Option Nat) (x : Inst) : Option Nat :=
  (List.range (nOut s x.base)).find? (fun o => decide (peek s (outA s x.base o) 2 = s.rf (ykA g 8) 15 0)
    && (k :: rep.toList).contains (peek s (outA s x.base o + 2) 2))

/-- Output `o` of instance `x` is LATE, or its task's deadline tick has been seen. -/
abbrev outputLate (s : State) (x : Inst) (o : Nat) : Bool :=
  x.outLate.contains o || x.past.contains (peek s (outA s x.base o + 2) 2)

section
variable {a : Act} {p i k o : Nat} {rep : Option Nat} {x : Inst} (h : KernelRuns s g)
  (hact : (s.th (runThread s g)).act = some a) (hsrc : a.src = .plan p i k rep) (hx : findInst s p i = some x)
  (ho : namedOutput s g k rep x = some o)
include h hact hsrc hx ho

theorem kOutDone_of_late (hlate : outputLate s x o = true) : kOutDone s g = kResult s g yrLate 0 false := by
  unfold namedOutput State.rf at ho
  unfold kOutDone
  dsimp only
  rw [kRunning_of_kernelRuns h, hact]
  dsimp only
  rw [hsrc]
  dsimp only
  rw [hx]
  dsimp only
  rw [ho]
  exact if_pos hlate

/-- What a granted OUT_DONE leaves before its result: the status word and the mark in the instance. -/
theorem kOutDone_of_granted (hlate : outputLate s x o = false) : kOutDone s g =
    kResult (markDone (putStatus s x o (1 + 4 * b2n rep.isSome + 8 * b2n (s.rb (ykA g 8) 16))) p i o) g yrOk 0 false := by
  unfold namedOutput State.rf at ho
  unfold kOutDone
  dsimp only
  rw [kRunning_of_kernelRuns h, hact]
  dsimp only
  rw [hsrc]
  dsimp only
  rw [hx]
  dsimp only
  rw [ho]
  exact if_neg (ne_true_of_eq_false hlate)

theorem completes_kOutDone_of_late (hlate : outputLate s x o = true) : Completes (.kOutDone g) s fun t =>
    KernelAnswers t g yrLate ∧ t = { s with regs := t.regs, bus := t.bus } :=
  completes_of_kResult (f := fun s => kOutDone s g) h rfl (kOutDone_of_late h hact hsrc hx ho hlate) (by decide)

/-- R64: a granted OUT_DONE writes the output's status word and marks the output DONE. -/
theorem completes_kOutDone_of_granted (hlate : outputLate s x o = false) {b : Nat}
    (hb : b = peek s (outA s x.base o + 8) 4 + 8 * x.idx) (halign : b % 8 = 0) (hbarn : b + 8 ≤ barnSize)
    (hclean : CleanMem s) (hreach : Reaches s ymEp (epOf b)) :
    Completes (.kOutDone g) s fun t => KernelAnswers t g yrOk ∧
      t.ld b 8 = (x.slot + (1 + 4 * b2n rep.isSome + 8 * b2n (s.rb (ykA g 8) 16)) * 2 ^ 32) % 2 ^ 64 ∧
      BytesBut b 8 s t ∧ RegsBut [ykA g 0x10] s t ∧
      ∀ y ∈ t.ym.insts, y.dropped = false → y.p = p → y.idx = i → o ∈ y.outDone := by
  have hdone := kOutDone_of_granted h hact hsrc hx ho hlate
  rw [putStatus, ← hb, put_doubleword hclean hreach halign hbarn (length_natLe ..)] at hdone
  generalize x.slot + (1 + 4 * b2n rep.isSome + 8 * b2n (s.rb (ykA g 8) 16)) * 2 ^ 32 = v at hdone ⊢
  refine completes_of_kPage (f := fun s => kOutDone s g) h rfl hdone ?_
  have hbyte (a : Nat) : ((kResult (markDone (s.store b (natLe 8 v)) p i o) g yrOk 0 false).answer rspOk 0).byte a =
      (s.st b 8 v).byte a := by
    rw [State.answer_byte, kResult, State.wr_byte, byte_markDone, State.st]
  refine ⟨kernelAnswers_kResult _ g (by decide), ?word, fun a ha => ?bytes, regsBut_kResult ?regs _ _,
    fun y hy hd hyp hyi => mem_outDone_markDone hy hd hyp hyi⟩
  case word =>
    rw [State.ld, State.bytes]
    simp only [hbyte]
    exact (s.ld_st b 8 v).trans rfl
  case bytes => exact (hbyte a).trans (s.byte_store_other (natLe 8 v) (by rwa [length_natLe]))
  case regs => exact fun r _ => by rw [rd_markDone, State.store_rd]

end

/-! ## SIGNAL (R276) -/

theorem signalEvent_of_open {src n : Nat} (hsrc : s.fenced src = false) (hdst : s.fenced ymEp = false)
    (hcut : s.cut src ymEp = false) : signalEvent s src n = { s with ym := { s.ym with events := s.ym.events ++ [(src, n)] } } := by
  have hsent : s.niPosted src ymEp = (true, s) := by simp [State.niPosted, hsrc, hdst, hcut]
  rw [signalEvent, hsent]
  rfl

theorem completes_kSignal (h : KernelRuns s g) (hsrc : s.fenced (sliceEp (g / 8)) = false) (hdst : s.fenced ymEp = false)
    (hcut : s.cut (sliceEp (g / 8)) ymEp = false) :
    Completes (.kSignal g) s fun t => KernelAnswers t g yrOk ∧
      t.ym.events = s.ym.events ++ [(sliceEp (g / 8), s.rf (ykA g 8) 15 0)] ∧
      t = { s with ym := { s.ym with events := t.ym.events }, regs := t.regs, bus := t.bus } ∧ RegsBut [ykA g 0x10] s t := by
  have hsignal : kSignal s g = kResult { s with ym := { s.ym with
      events := s.ym.events ++ [(sliceEp (g / 8), s.rf (ykA g 8) 15 0)] } } g yrOk 0 false := by
    rw [kSignal, signalEvent_of_open hsrc hdst hcut]
  refine completes_of_kPage (f := fun s => kSignal s g) h rfl hsignal ?_
  refine ⟨kernelAnswers_kResult _ g (by decide), rfl, ?_, regsBut_kResult (regsBut_of_regs rfl) _ _⟩
  rw [frame_kResult]

/-- Settles O20: each command by what it makes of the running thread, its outputs and the events on their way. -/
theorem kernelArmBlockDoneSignal : Obligations.KernelArmBlockDoneSignal := fun _ _ h =>
  ⟨completes_kArm h,
    fun hbad => completes_of_kResult (f := fun s => kArm s _) h rfl (kArm_of_bad hbad) (by decide),
    fun harmed => completes_of_kResult (f := fun s => kBlock s _) h rfl (kBlock_of_unarmed h harmed) (by decide),
    fun harmed hwoken => completes_of_kResult (f := fun s => kBlock s _) h rfl (kBlock_of_woken h harmed hwoken) (by decide),
    completes_kBlock h,
    fun _ _ _ _ _ _ _ hact hsrc hx ho => ⟨completes_kOutDone_of_late h hact hsrc hx ho,
      fun hlate _ hb halign hbarn hclean hreach =>
        completes_kOutDone_of_granted h hact hsrc hx ho hlate hb halign hbarn hclean hreach⟩,
    completes_kSignal h⟩

end Sys2Proof.Machine
end

section
/-! PROOFS on the tick grid (R39-R41): a symbol starts after every cycle of an earlier one, so the next edge of a level
lies strictly later. -/

namespace Sys2Proof.Machine

variable {f i l r p q en : Nat}

/-- The symbols of half a millisecond, the first one longer, fill it. -/
theorem fmtShape_fills (f : Nat) :
    0 < (fmtShape f).1 ∧ 0 < (fmtShape f).2.1 ∧ 0 < (fmtShape f).2.2.2 ∧
      (fmtShape f).2.2.1 + (fmtShape f).1 * (fmtShape f).2.1 = halfC := by
  by_cases h : f ≤ 6
  · interval_cases f <;> decide
  · unfold fmtShape
    rw [if_neg h]
    split
    · decide
    · split <;> decide

theorem symsPerSlot_pos (f : Nat) : 0 < symsPerSlot f := by
  obtain ⟨-, -, hsyms, -⟩ := fmtShape_fills f
  unfold symsPerSlot
  split
  · decide
  · exact hsyms

/-- A cycle of a half millisecond lies before the start of every later symbol of it. -/
theorem lt_start_of_sym_lt {len e j : Nat} (hlen : 0 < len) (h : (if q < e + len then 0 else (q - e) / len) < j) :
    q < e + len * j := by
  split at h
  case isTrue hq => exact Nat.lt_of_lt_of_le hq (Nat.add_le_add_left (Nat.le_mul_of_pos_right len h) e)
  case isFalse =>
    have hcycles := (Nat.div_lt_iff_lt_mul hlen).mp h
    rw [Nat.mul_comm len j]
    omega

/-- R40: a cycle lies before the start of every symbol later than its own. -/
theorem lt_symStart_of_symAt_lt (h : symAt f r < i) : r < symStart f i := by
  by_cases hf : f = 10
  · simp only [symAt, symStart, hf, if_true] at h ⊢
    omega
  · obtain ⟨hn, hlen, -, -⟩ := fmtShape_fills f
    simp only [symAt, symStart, hf, if_false] at h ⊢
    generalize (fmtShape f).1 = n at *
    have hr : r / halfC * halfC + r % halfC = r := Nat.div_add_mod' r halfC
    have hi : i / n * n + i % n = i := Nat.div_add_mod' i n
    rcases Nat.lt_or_ge (r / halfC) (i / n) with hlt | hge
    · calc r < (r / halfC + 1) * halfC := by rw [Nat.add_one_mul]; have := Nat.mod_lt r (show 0 < halfC by decide); omega
        _ ≤ i / n * halfC := Nat.mul_le_mul_right _ hlt
        _ ≤ _ := Nat.le_add_right ..
    · have heq : i / n = r / halfC := Nat.le_antisymm hge ((Nat.le_div_iff_mul_le hn).mpr (by omega))
      rw [heq] at hi ⊢
      have hsym := lt_start_of_sym_lt (e := (fmtShape f).2.2.1) (q := r % halfC) (j := i % n) hlen (by omega)
      rw [if_neg (by omega)]
      omega

/-- R41: a GSM timeslot starts after every cycle of an earlier one. -/
theorem lt_gsmStart_of_gsmAt_lt (h : gsmAt p < i) : p < gsmStart i := by
  simp only [gsmAt, gsmStart] at h ⊢
  omega

theorem lt_next_multiple {n k : Nat} (hk : 0 < k) : n < (n / k + 1) * k := Nat.lt_mul_of_div_lt (Nat.lt_succ_self _) hk

theorem lt_nextEdge (f l p : Nat) (hl : l < 4) : p < nextEdge f l p := by
  have hframe : p / frameC * frameC + p % frameC = p := Nat.div_add_mod' p frameC
  have hlt : p % frameC < frameC := Nat.mod_lt _ (by decide)
  unfold nextEdge
  split
  case isTrue =>
    have hk : 0 < [1, 8, 208, 408].getD l 1 := by interval_cases l <;> decide
    exact lt_gsmStart_of_gsmAt_lt (lt_next_multiple hk)
  case isFalse =>
    dsimp only
    split
    · have := lt_symStart_of_symAt_lt (Nat.lt_add_one (symAt f (p % frameC)))
      omega
    · have := lt_symStart_of_symAt_lt (lt_next_multiple (n := symAt f (p % frameC)) (symsPerSlot_pos f))
      omega
    · exact lt_next_multiple (by decide)
    · omega

theorem lt_of_nextTick (h : nextTick f en p = some q) : p < q := by
  refine List.foldlRecOn (motive := fun m : Option Nat => ∀ q, m = some q → p < q) (List.range 4) _ (by simp) ?_ q h
  intro m hm l hl q hq
  have hedge := lt_nextEdge f l p (List.mem_range.mp hl)
  dsimp only at hq
  split at hq
  · split at hq <;> cases hq
    · exact hedge
    · exact Nat.lt_min.mpr ⟨hedge, hm _ rfl⟩
  · exact hm q hq

/-- R42: a train's next edge lies after the last one counted. -/
theorem pos_lt_of_trainNext {s : State} {k : Nat} {x : Int} (h : trainNext s k = some x) : (s.train k).pos < x := by
  simp only [trainNext] at h
  cases hq : nextTick (trainFmt s k) (trainLvls s k) ((s.train k).pos % (fmtPeriod (trainFmt s k) : Nat)).toNat with
  | none => rw [hq] at h; cases h
  | some q =>
    rw [hq] at h
    have hx : (s.train k).pos - (s.train k).pos % (fmtPeriod (trainFmt s k) : Nat) + q = x := Option.some.inj h
    have hlt := lt_of_nextTick hq
    omega

end Sys2Proof.Machine
end

section
/-! PROOFS on the selected time S (R416): what it is read from, and what keeping it continuous leaves of the state. -/

namespace Sys2Proof.Machine

variable {s t u : State} {k : Nat}

/-! ## Trains and registers -/

theorem train_setTrain_same (s : State) (k : Nat) (m : Train) : (s.setTrain k m).train k = m := by
  simp only [State.train, State.setTrain, tget_tset, if_true]

/-- S is read from the registers, the domains, the time and the slew of S; not from the trains. -/
theorem sTime_congr (hregs : t.regs = s.regs) (hnow : t.now = s.now) (hdoms : t.ct.doms = s.ct.doms)
    (hrem : t.ct.sRem = s.ct.sRem) (hanchor : t.ct.sAnchor = s.ct.sAnchor) : sTime t = sTime s := by
  have hdom (d : Nat) : t.dom d = s.dom d := by rw [State.dom, hdoms, State.dom]
  have hrun (d : Nat) : domRun t d = domRun s d := by simp only [domRun, domFreq, State.rd_of_regs hregs, hdom, hnow]
  have hrem' (d : Nat) : domRem t d = domRem s d := by simp only [domRem, hdom, hnow]
  have htrain : anyTrain t = anyTrain s := by simp only [anyTrain, State.rb_of_regs hregs]
  unfold sTime sTarget sRemNow domTime domEn selDom maxPpb
  simp only [htrain, hrun, hrem', hdom, State.rb_of_regs hregs, State.rf_of_regs hregs, hnow, hrem, hanchor]

theorem trainOfs_of_regs (h : t.regs = s.regs) (k : Nat) : trainOfs t k = trainOfs s k := by
  simp only [trainOfs, State.rd_of_regs h, State.rf_of_regs h]

/-! ## Starting a slew of S -/

/-- From `s` to `t` at most trains have been marked SLEWING and their SLEW_START flags set. -/
structure SlewMarked (s t : State) : Prop where
  frame : t = { s with regs := t.regs, ct := { s.ct with trains := t.ct.trains } }
  regs : RegsBut [ctRegs + 0x40404] s t

theorem SlewMarked.refl (s : State) : SlewMarked s s := ⟨rfl, fun _ _ => rfl⟩

theorem SlewMarked.trans (h1 : SlewMarked s t) (h2 : SlewMarked t u) : SlewMarked s u := by
  refine ⟨?_, h1.regs.trans h2.regs⟩
  have hframe := h2.frame
  rw [h1.frame] at hframe
  exact hframe

theorem slewMarked_startSlewing (s : State) : SlewMarked s (startSlewing s) := by
  refine List.foldlRecOn (motive := SlewMarked s) (List.range 16) _ (SlewMarked.refl s) fun t h k _ => ?_
  split
  · exact h.trans ⟨rfl, (regsBut_of_regs rfl).wr (by simp) _⟩
  · exact h

/-- `f s` with a slew of S by `x` begun now. -/
def slewS (s : State) (x : Int) : State := { s with ct := { s.ct with sRem := x, sAnchor := s.now } }

theorem exists_withS (s : State) (f : State → State) : ∃ x, SlewMarked (slewS (f s) x) (withS s f) := by
  unfold withS
  dsimp only
  split
  · split
    · exact ⟨_, SlewMarked.refl _⟩
    · exact ⟨_, slewMarked_startSlewing _⟩
  · exact ⟨0, SlewMarked.refl _⟩

end Sys2Proof.Machine
end

section
/-! PROOFS on a train's start and stop (R45, R46): the write of its control register, and what follows from it. -/

namespace Sys2Proof.Machine

variable {s t u : State} {k : Nat}

/-- The row of the tick trains' control registers (R46). -/
def trainCtlRow : RegRow := ⟨"CT_TT_CTRL", 0x40000, [(16, 0x40)], 4, 0, 0xff1, 0, 0, 0, 0, 0, 0⟩

/-- The windows of the register blocks decode block by block (R24). -/
theorem regionOf_blockBase {b o : Nat} (hb : b < 13) (ho : o < 0x1000000) :
    regionOf (blockBase b + o) = blockRegion b o := by
  have hblock : (blockBase b + o - 0x03000000000) / 0x1000000 = b ∧ (blockBase b + o) % 0x1000000 = o := by
    simp only [blockBase]; omega
  unfold regionOf
  rw [if_neg, if_neg, if_neg, if_pos, hblock.1, hblock.2]
  all_goals simp only [blockBase, barnSize]; omega

/-- The row of a register of a block that is one register area. -/
theorem regRow_blockBase {b o : Nat} {rows : List RegRow} {row : RegRow} (hb : b < 13) (ho : o < 0x1000000)
    (hregion : blockRegion b o = .regs (blockBase b) rows) (hrow : findRow rows o = some row) :
    regRow (blockBase b + o) = some (blockBase b, row) := by
  rw [regRow, regionOf_blockBase hb ho, hregion]
  dsimp only
  rw [Nat.add_sub_cancel_left, hrow]
  rfl

theorem findRow_trainCtl (hk : k < 16) : findRow rowsCt (0x40000 + k * 0x40) = some trainCtlRow := by
  revert k
  decide

theorem regRow_trainCtl (hk : k < 16) : regRow (ttA k 0) = some (ctRegs, trainCtlRow) := by
  have haddr : ttA k 0 = blockBase 3 + (0x40000 + k * 0x40) := by simp only [ttA, ctRegs]; omega
  rw [haddr]
  exact regRow_blockBase (by decide) (by omega) rfl (findRow_trainCtl hk)

theorem dimIdx_trainCtl (k : Nat) : dimIdx trainCtlRow.dims (ttA k 0 - ctRegs - trainCtlRow.off) = [k] := by
  have hoff : ttA k 0 - ctRegs - trainCtlRow.off = k * 0x40 := by simp only [ttA, trainCtlRow]; omega
  rw [hoff]
  simp [trainCtlRow, dimIdx]

theorem fld_setBit_zero (v hi lo : Nat) (hlo : 0 < lo) : fld (setBit v 0) hi lo = fld v hi lo := by
  apply Nat.eq_of_testBit_eq
  intro i
  simp only [fld, Nat.testBit_mod_two_pow, Nat.testBit_shiftRight, testBit_setBit]
  simp [show 0 ≠ lo + i by omega]

theorem regWriteBy_trainCtl (hk : k < 16) {v code : Nat} (h : ∀ s1, ctWrite trainCtlRow.name [k] v s s1 = (code, t)) :
    s.regWriteBy ctWrite (ttA k 0) v = t.answer code 0 := by
  rw [State.regWriteBy, regRow_trainCtl hk]
  dsimp only
  rw [dimIdx_trainCtl, h]
  rfl

/-- A write of a train's control register whose EN is set starts a train that is off. -/
theorem ctWrite_starts {v : Nat} (s1 : State) (hoff : trainOn s k = false) (hfmt : fld v 7 4 < 12) (hen : tb v 0 = true) :
    ctWrite trainCtlRow.name [k] v s s1 = (rspOk, trainEnable (s.wf (ttA k 0) 11 4 (fld v 11 4)) k) := by
  simp only [ctWrite, trainCtlRow, List.getD_cons_zero, hoff, hen]
  rw [if_neg (by simp [hfmt])]

/-- A write of a train's control register whose EN is clear stops a train that is on. -/
theorem ctWrite_stops {v : Nat} (s1 : State) (hon : trainOn s k = true) (hfmt : trainFmt s k < 12)
    (hsame : fld v 7 4 = trainFmt s k) (hen : tb v 0 = false) :
    ctWrite trainCtlRow.name [k] v s s1 = (rspOk, trainDisable (s.wf (ttA k 0) 11 8 (fld v 11 8)) k) := by
  simp only [ctWrite, trainCtlRow, List.getD_cons_zero, hon, hen]
  rw [hsame, if_neg (by simp [hfmt])]

theorem exec_trainEnable (hk : k < 16) (hoff : trainOn s k = false) (hfmt : trainFmt s k < 12) :
    ∃ v, exec (.trainEnable k) s = .next ((trainEnable (s.wf (ttA k 0) 11 4 v) k).answer rspOk 0) := by
  have hf : fld (setBit (s.rd (ttA k 0)) 0) 7 4 < 12 := (fld_setBit_zero _ _ _ (by decide)).trans_lt hfmt
  have hen : tb (setBit (s.rd (ttA k 0)) 0) 0 = true := by rw [tb, testBit_setBit]; simp
  exact ⟨_, (if_pos hk).trans (congrArg Host.Outcome.next (regWriteBy_trainCtl hk fun s1 => ctWrite_starts s1 hoff hf hen))⟩

theorem exec_trainDisable (hk : k < 16) (hon : trainOn s k = true) (hfmt : trainFmt s k < 12) :
    ∃ v, exec (.trainDisable k) s =
      .next (hltSettle (ymStops ((trainDisable (s.wf (ttA k 0) 11 8 v) k).answer rspOk 0))) := by
  have hf : fld (clrBit (s.rd (ttA k 0)) 0) 7 4 = trainFmt s k :=
    fld_setFld_other _ 0 0 0 7 4 (by decide) (by decide) (by decide)
  have hen : tb (clrBit (s.rd (ttA k 0)) 0) 0 = false := by rw [tb, clrBit, testBit_setFld _ _ _ _ _ (Nat.le_refl 0)]; simp
  refine ⟨_, (if_pos hk).trans (congrArg (fun u => Host.Outcome.next (hltSettle (ymStops u)))
    (regWriteBy_trainCtl hk fun s1 => ctWrite_stops s1 hon hfmt hf hen))⟩

end Sys2Proof.Machine
end

section
/-! PROOFS of the tick trains' commands (R42, R43, R45, R46). -/

namespace Sys2Proof.Machine

variable {s t u : State} {k : Nat} {x : Int} {l : List Nat}

/-! ## Frames -/

/-- From `s` to `t` nothing has changed but registers and the Clocktower's own state. -/
abbrev ClockFrame (s t : State) : Prop := t = { s with regs := t.regs, ct := t.ct }

theorem ClockFrame.trans (h1 : ClockFrame s t) (h2 : ClockFrame t u) : ClockFrame s u := by
  rw [ClockFrame, h1] at h2
  exact h2

theorem ClockFrame.answer (h : ClockFrame s t) (code data : Nat) : CtFrame s (t.answer code data) := by
  rw [h]
  rfl

theorem SlewMarked.clockFrame (h : SlewMarked s t) : ClockFrame s t := by
  rw [h.frame]

theorem ClockFrame.withS {f : State → State} (h : ClockFrame s (f s)) : ClockFrame s (withS s f) := by
  obtain ⟨x, hmarked⟩ := exists_withS s f
  exact (h.trans rfl).trans (hmarked.clockFrame)

theorem rd_withS (f : State → State) {a : Nat} (ha : a ≠ ctRegs + 0x40404) : (withS s f).rd a = (f s).rd a := by
  obtain ⟨x, hmarked⟩ := exists_withS s f
  exact hmarked.regs a (by simp [ha])

theorem ttA_ne_slewStart {o : Nat} (hk : k < 16) (ho : o < 0x40) : ttA k o ≠ ctRegs + 0x40404 := by
  simp only [ttA]; omega

/-! ## Starting a train (R45) -/

/-- Turning EN of a train to `b`, with S kept continuous. -/
def switchTrain (s : State) (k : Nat) (b : Bool) : State := withS s fun s => s.wb (ttA k 0) 0 b

theorem clockFrame_switchTrain (s : State) (k : Nat) (b : Bool) : ClockFrame s (switchTrain s k b) :=
  ClockFrame.withS (f := fun s => s.wb (ttA k 0) 0 b) rfl

theorem trainOn_switchTrain (hk : k < 16) (s : State) (b : Bool) : trainOn (switchTrain s k b) k = b := by
  rw [trainOn, State.rb, switchTrain, rd_withS _ (ttA_ne_slewStart hk (by decide))]
  exact s.rb_wb_same _ 0 b (by decide)

theorem regsBut_switchTrain (s : State) (k : Nat) (b : Bool) : RegsBut (ttA k 0 :: ctSide) s (switchTrain s k b) := by
  intro a ha
  have hslew : a ≠ ctRegs + 0x40404 := fun heq => ha (by simp [heq, ctSide])
  have hctl : ttA k 0 ≠ a := fun heq => ha (by simp [heq])
  rw [switchTrain, rd_withS _ hslew]
  exact s.rd_wr_other _ hctl

/-- The last cycle of the train before S reaches `at'`. -/
def lastCycleBefore (s : State) (k : Nat) (at' : Int) : Int := (at' - trainOfs s k + cycU - 1) / cycU - 1

theorem le_edgeTime_of_lt {at' : Int} (h : lastCycleBefore s k at' < x) : at' ≤ edgeTime s k x := by
  have hcyc : 0 < cycU := by decide
  have hceil := Int.lt_mul_of_ediv_lt hcyc (show (at' - trainOfs s k + cycU - 1) / cycU < x + 1 by
    simp only [lastCycleBefore] at h; omega)
  rw [Int.add_mul, Int.one_mul] at hceil
  simp only [edgeTime]
  omega

theorem trainEnable_eq (s : State) (k : Nat) : ∃ b, trainEnable s k = (switchTrain s k true).setTrain k
    ⟨lastCycleBefore (switchTrain s k true) k (sTime ((switchTrain s k true).until ((switchTrain s k true).now + 2 * us))), b⟩ :=
  ⟨_, rfl⟩

/-- From `u` to `t` nothing that S or the offset of a train is read from has changed. -/
structure SameS (u t : State) : Prop where
  regs : t.regs = u.regs
  now : t.now = u.now
  doms : t.ct.doms = u.ct.doms
  rem : t.ct.sRem = u.ct.sRem
  anchor : t.ct.sAnchor = u.ct.sAnchor

theorem SameS.sTime_until (h : SameS u t) (n : Nat) : sTime (t.until n) = sTime (u.until n) :=
  sTime_congr h.regs (congrArg (max · n) h.now) h.doms h.rem h.anchor

theorem sameS_setTrain_answer (u : State) (k : Nat) (m : Train) (code data : Nat) :
    SameS u ((u.setTrain k m).answer code data) := ⟨rfl, rfl, rfl, rfl, rfl⟩

/-- R45: a train's next edge lies at least 2 us ahead when its last cycle counted is the last one before that time. -/
theorem sTime_le_edgeTime_of_pos (h : SameS u t) (hpos : (t.train k).pos = lastCycleBefore u k (sTime (u.until (u.now + 2 * us))))
    (hnext : trainNext t k = some x) : sTime (t.until (t.now + 2 * us)) ≤ edgeTime t k x := by
  have hlt := pos_lt_of_trainNext hnext
  rw [hpos] at hlt
  rw [h.now, h.sTime_until, edgeTime, trainOfs_of_regs h.regs]
  exact le_edgeTime_of_lt hlt

theorem completes_trainEnable (hk : k < 16) (hoff : trainOn s k = false) (hfmt : trainFmt s k < 12) :
    Completes (.trainEnable k) s fun t => trainOn t k = true ∧ t.bus = ⟨rspOk, 0⟩ ∧
      (∀ x, trainNext t k = some x → sTime (t.until (t.now + 2 * us)) ≤ edgeTime t k x) ∧
      CtFrame s t ∧ RegsBut (ttA k 0 :: ctSide) s t := by
  obtain ⟨v, hexec⟩ := exec_trainEnable hk hoff hfmt
  refine completes_of_exec hexec ⟨?on, State.answer_bus .., fun x => ?ahead, ?frame, ?regs⟩
  all_goals
    obtain ⟨b, heq⟩ := trainEnable_eq (s.wf (ttA k 0) 11 4 v) k
    rw [heq]
  case on => exact trainOn_switchTrain hk _ true
  case ahead =>
    exact sTime_le_edgeTime_of_pos (sameS_setTrain_answer ..) (congrArg Train.pos (train_setTrain_same _ k _))
  case frame =>
    have hwf : ClockFrame s (s.wf (ttA k 0) 11 4 v) := rfl
    exact ((hwf.trans (clockFrame_switchTrain _ k true)).trans rfl).answer _ _
  case regs =>
    have hwf : RegsBut (ttA k 0 :: ctSide) s (s.wf (ttA k 0) 11 4 v) := (regsBut_of_regs rfl).wr (by simp) _
    exact (hwf.trans (regsBut_switchTrain _ k true)).trans (regsBut_of_regs rfl)

end Sys2Proof.Machine
end

section
/-! PROOFS of a tick's emission and of the commands that emit ticks, end a train's slew or stop it (R42, R43, R46). -/

namespace Sys2Proof.Machine

variable {s t u : State} {k n : Nat} {x : Int} {m : Tick}

/-! ## A tick goes to its subscribers -/

/-- From `s` to `t` nothing has changed but the tick queues. -/
abbrev TicksFrame (s t : State) : Prop := t = { s with ticks := t.ticks }

theorem TicksFrame.trans (h1 : TicksFrame s t) (h2 : TicksFrame t u) : TicksFrame s u := by
  rw [TicksFrame, h1] at h2
  exact h2

theorem TicksFrame.regs (h : TicksFrame s t) : t.regs = s.regs := by rw [h]
theorem TicksFrame.ct (h : TicksFrame s t) : t.ct = s.ct := by rw [h]

/-- What pushing a tick to the stable window target `n` does, when its shed is ON. -/
def pushIfOn (m : Tick) (s : State) (n : Nat) : State := if s.shedCur n = 3 then pushTick s (1 + n) m else s

theorem ticksFrame_pushIfOn (m : Tick) (s : State) (n : Nat) : TicksFrame s (pushIfOn m s n) := by
  unfold pushIfOn
  split <;> rfl

theorem ticksFrame_foldl_pushIfOn (m : Tick) (s : State) (l : List Nat) : TicksFrame s (l.foldl (pushIfOn m) s) :=
  List.foldlRecOn (motive := TicksFrame s) l (pushIfOn m) (show TicksFrame s s from rfl)
    fun t h n _ => h.trans (ticksFrame_pushIfOn m t n)

theorem tget_pushTick (s : State) (k j : Nat) (m : Tick) : tget noTicks (pushTick s k m).ticks j =
    if k = j then tget noTicks s.ticks j ++ [m] else tget noTicks s.ticks j := by
  simp only [pushTick, tmod, tget_tset]
  split
  case isTrue h => rw [h]
  case isFalse => rfl

theorem tget_pushIfOn (s : State) (n j : Nat) (m : Tick) : tget noTicks (pushIfOn m s n).ticks j =
    if 1 + n = j ∧ s.shedCur n = 3 then tget noTicks s.ticks j ++ [m] else tget noTicks s.ticks j := by
  unfold pushIfOn
  by_cases h : s.shedCur n = 3
  · simp only [h, if_true, and_true, tget_pushTick]
  · simp only [h, and_false, if_false]

/-- A queue after a tick was pushed to each of different targets. -/
theorem tget_foldl_pushIfOn {l : List Nat} (hl : l.Nodup) (s : State) (j : Nat) :
    tget noTicks (l.foldl (pushIfOn m) s).ticks j =
      if ∃ n ∈ l, 1 + n = j ∧ s.shedCur n = 3 then tget noTicks s.ticks j ++ [m] else tget noTicks s.ticks j := by
  induction l generalizing s with
  | nil => simp
  | cons n l ih =>
    obtain ⟨hn, hl⟩ := List.nodup_cons.mp hl
    have hshed (i : Nat) : (pushIfOn m s n).shedCur i = s.shedCur i := State.rf_of_regs (ticksFrame_pushIfOn m s n).regs _ _ _
    simp only [List.foldl_cons, ih hl, hshed, tget_pushIfOn, List.exists_mem_cons_iff]
    by_cases hhere : 1 + n = j ∧ s.shedCur n = 3
    · have hlater : ¬ ∃ i ∈ l, 1 + i = j ∧ s.shedCur i = 3 := by
        rintro ⟨i, hi, hij, -⟩
        obtain rfl : i = n := by omega
        exact hn hi
      simp [hhere, hlater]
    · simp [hhere]

/-- The tick for the Yardmaster and for the stables that are ON. -/
def pushToAll (s : State) (m : Tick) : State := (List.range 32).foldl (pushIfOn m) (pushTick s 0 m)

theorem ticksFrame_pushToAll (s : State) (m : Tick) : TicksFrame s (pushToAll s m) :=
  TicksFrame.trans (t := pushTick s 0 m) rfl (ticksFrame_foldl_pushIfOn ..)

theorem tget_pushToAll_zero (s : State) (m : Tick) :
    tget noTicks (pushToAll s m).ticks 0 = tget noTicks s.ticks 0 ++ [m] := by
  have hnone : ¬ ∃ n ∈ List.range 32, 1 + n = 0 ∧ (pushTick s 0 m).shedCur n = 3 := by
    rintro ⟨n, -, hn, -⟩
    omega
  rw [pushToAll, tget_foldl_pushIfOn List.nodup_range, if_neg hnone, tget_pushTick, if_pos rfl]

theorem tget_pushToAll_stable (s : State) (m : Tick) (hn : n < 32) : tget noTicks (pushToAll s m).ticks (1 + n) =
    if s.shedCur n = 3 then tget noTicks s.ticks (1 + n) ++ [m] else tget noTicks s.ticks (1 + n) := by
  have hshed (i : Nat) : (pushTick s 0 m).shedCur i = s.shedCur i := State.rf_of_regs rfl _ _ _
  have hother : tget noTicks (pushTick s 0 m).ticks (1 + n) = tget noTicks s.ticks (1 + n) :=
    (tget_pushTick ..).trans (if_neg (by omega))
  have hiff : (∃ i ∈ List.range 32, 1 + i = 1 + n ∧ (pushTick s 0 m).shedCur i = 3) ↔ s.shedCur n = 3 := by
    simp only [hshed]
    constructor
    · rintro ⟨i, -, hi, h⟩
      obtain rfl : i = n := by omega
      exact h
    · exact fun h => ⟨n, List.mem_range.mpr hn, rfl, h⟩
  rw [pushToAll, tget_foldl_pushIfOn List.nodup_range, hother]
  simp only [hiff]

/-! ## Emitting a tick (R42) -/

/-- From `s` to `t` nothing has changed but what TICK_EDGE changes. -/
abbrev TickFrame (s t : State) : Prop :=
  t = { s with now := t.now, regs := t.regs, ct := t.ct, ticks := t.ticks, tickWaits := t.tickWaits,
               tickCount := t.tickCount }

theorem TickFrame.trans (h1 : TickFrame s t) (h2 : TickFrame t u) : TickFrame s u := by
  rw [TickFrame, h1] at h2
  exact h2

/-- From `s` to `t` nothing has changed but what a tick changes. -/
abbrev EdgeFrame (s t : State) : Prop :=
  t = { s with regs := t.regs, ct := t.ct, ticks := t.ticks, tickWaits := t.tickWaits, tickCount := t.tickCount }

theorem EdgeFrame.trans (h1 : EdgeFrame s t) (h2 : EdgeFrame t u) : EdgeFrame s u := by
  rw [EdgeFrame, h1] at h2
  exact h2

theorem EdgeFrame.now (h : EdgeFrame s t) : t.now = s.now := by rw [h]

theorem EdgeFrame.tickFrame (h : EdgeFrame s t) : TickFrame s t := by rw [TickFrame, h]

theorem ClockFrame.edgeFrame (h : ClockFrame s t) : EdgeFrame s t := by rw [h]

theorem TicksFrame.edgeFrame (h : TicksFrame s t) : EdgeFrame s t := by rw [h]

/-- The registers of train `k` that a tick writes. -/
def tickRegs (k : Nat) : List Nat := [ttA k 0x14, ttA k 0x18, ttA k 0x1C, ttA k 0x20, ttA k 0x24, ttA k 0x28]

/-- The counters and the edge time of a tick in the train's registers. -/
def showTick (s : State) (k : Nat) (m : Tick) (at' : Int) : State :=
  let s2 := (s.wr (ttA k 0x14) m.cntLo).wr (ttA k 0x18) m.cntHi
  if tb m.mask 1 then s2.wrTime (ttA k 0x1C) at' else s2

theorem clockFrame_wrTime (s : State) (a : Nat) (at' : Int) : ClockFrame s (s.wrTime a at') := by
  unfold State.wrTime
  generalize timeParts at' = p
  have hwr (u : State) (a v : Nat) : ClockFrame u (u.wr a v) := rfl
  exact (((hwr _ _ _).trans (hwr _ _ _)).trans (hwr _ _ _)).trans (hwr _ _ _)

theorem clockFrame_showTick (s : State) (k : Nat) (m : Tick) (at' : Int) : ClockFrame s (showTick s k m at') := by
  have hwr (u : State) (a v : Nat) : ClockFrame u (u.wr a v) := rfl
  unfold showTick
  dsimp only
  split
  · exact ((hwr _ _ _).trans (hwr _ _ _)).trans (clockFrame_wrTime ..)
  · exact (hwr _ _ _).trans (hwr _ _ _)

theorem regsBut_wrTime {l : List Nat} (s : State) (a : Nat) (at' : Int) (hl : ∀ j, j < 4 → a + 4 * j ∈ l) :
    RegsBut l s (s.wrTime a at') := by
  have hnone : RegsBut l s s := regsBut_of_regs rfl
  exact (((hnone.wr (hl 0 (by decide)) _).wr (hl 1 (by decide)) _).wr (hl 2 (by decide)) _).wr (hl 3 (by decide)) _

theorem regsBut_showTick (s : State) (k : Nat) (m : Tick) (at' : Int) : RegsBut (tickRegs k) s (showTick s k m at') := by
  have hcnt : RegsBut (tickRegs k) s ((s.wr (ttA k 0x14) m.cntLo).wr (ttA k 0x18) m.cntHi) :=
    ((regsBut_of_regs rfl).wr (by simp [tickRegs]) _).wr (by simp [tickRegs]) _
  unfold showTick
  dsimp only
  split
  · refine hcnt.trans (regsBut_wrTime _ _ _ fun j hj => ?_)
    interval_cases j <;> simp [tickRegs, ttA]
  · exact hcnt

theorem reg_eq_ofNat {a v : Nat} (h : s.rd a = v % 2 ^ 64) : s.reg a = BitVec.ofNat 64 v :=
  BitVec.eq_of_toNat_eq (h.trans (BitVec.toNat_ofNat v 64).symm)

/-- The counters of a tick that has been shown. -/
theorem rd_showTick_counters (s : State) (k : Nat) (m : Tick) (at' : Int) :
    (showTick s k m at').rd (ttA k 0x14) = m.cntLo % 2 ^ 64 ∧ (showTick s k m at').rd (ttA k 0x18) = m.cntHi % 2 ^ 64 := by
  have hlo : ((s.wr (ttA k 0x14) m.cntLo).wr (ttA k 0x18) m.cntHi).rd (ttA k 0x14) = m.cntLo % 2 ^ 64 :=
    (State.rd_wr_other _ _ (by simp only [ttA]; omega)).trans (State.rd_wr_same ..)
  have hhi : ((s.wr (ttA k 0x14) m.cntLo).wr (ttA k 0x18) m.cntHi).rd (ttA k 0x18) = m.cntHi % 2 ^ 64 := State.rd_wr_same ..
  unfold showTick
  dsimp only
  split
  · have htime (u : State) {o : Nat} (ho : o < 0x1C) : (u.wrTime (ttA k 0x1C) at').rd (ttA k o) = u.rd (ttA k o) := by
      refine regsBut_wrTime (l := [ttA k 0x1C, ttA k 0x20, ttA k 0x24, ttA k 0x28]) u _ at' (fun j hj => ?_) _ ?_
      · interval_cases j <;> simp [ttA]
      · simp only [ttA, List.mem_cons, List.not_mem_nil, or_false]; omega
    exact ⟨(htime _ (by decide)).trans hlo, (htime _ (by decide)).trans hhi⟩
  · exact ⟨hlo, hhi⟩

/-- The registers and the train's count of a tick at cycle `x`, before it goes to the subscribers. -/
def shownAt (s : State) (k : Nat) (x : Int) : State :=
  showTick (s.setTrain k { s.train k with pos := x }) k (tickAt s k x) (edgeTime s k x)

/-- `u` with the Barrow's waits and the tick counts moved on. -/
def withCounts (u : State) (w : List TickWait) (c : Tab Nat) : State := { u with tickWaits := w, tickCount := c }

theorem edgeFrame_withCounts (u : State) (w : List TickWait) (c : Tab Nat) : EdgeFrame u (withCounts u w c) := rfl

theorem regs_withCounts (u : State) (w : List TickWait) (c : Tab Nat) : (withCounts u w c).regs = u.regs := rfl
theorem ticks_withCounts (u : State) (w : List TickWait) (c : Tab Nat) : (withCounts u w c).ticks = u.ticks := rfl
theorem ct_withCounts (u : State) (w : List TickWait) (c : Tab Nat) : (withCounts u w c).ct = u.ct := rfl

theorem emitTick_eq (s : State) (k : Nat) (x : Int) :
    ∃ w c, emitTick s k x = withCounts (pushToAll (shownAt s k x) (tickAt s k x)) w c := ⟨_, _, rfl⟩

theorem clockFrame_shownAt (s : State) (k : Nat) (x : Int) : ClockFrame s (shownAt s k x) := by
  have htrain (m : Train) : ClockFrame s (s.setTrain k m) := rfl
  exact (htrain _).trans (clockFrame_showTick ..)

theorem regsBut_shownAt (s : State) (k : Nat) (x : Int) : RegsBut (tickRegs k) s (shownAt s k x) := by
  have htrain (m : Train) : RegsBut (tickRegs k) s (s.setTrain k m) := regsBut_of_regs rfl
  exact (htrain _).trans (regsBut_showTick _ _ _ _)

theorem edgeFrame_emitTick (s : State) (k : Nat) (x : Int) : EdgeFrame s (emitTick s k x) := by
  obtain ⟨w, c, heq⟩ := emitTick_eq s k x
  generalize emitTick s k x = t at heq ⊢
  subst heq
  exact ((clockFrame_shownAt s k x).edgeFrame.trans (ticksFrame_pushToAll _ _).edgeFrame).trans (edgeFrame_withCounts _ w c)

theorem regs_emitTick (s : State) (k : Nat) (x : Int) : (emitTick s k x).regs = (shownAt s k x).regs := by
  obtain ⟨w, c, heq⟩ := emitTick_eq s k x
  rw [heq, regs_withCounts, (ticksFrame_pushToAll _ _).regs]

theorem ticks_emitTick (s : State) (k : Nat) (x : Int) :
    (emitTick s k x).ticks = (pushToAll (shownAt s k x) (tickAt s k x)).ticks := by
  obtain ⟨w, c, heq⟩ := emitTick_eq s k x
  rw [heq, ticks_withCounts]

theorem regsBut_emitTick (s : State) (k : Nat) (x : Int) : RegsBut (tickRegs k) s (emitTick s k x) :=
  (regsBut_shownAt s k x).trans (regsBut_of_regs (regs_emitTick s k x))

theorem ct_showTick (s : State) (k : Nat) (m : Tick) (at' : Int) : (showTick s k m at').ct = s.ct := by
  unfold showTick
  dsimp only
  split <;> rfl

theorem ct_emitTick (s : State) (k : Nat) (x : Int) :
    (emitTick s k x).ct = (s.setTrain k { s.train k with pos := x }).ct := by
  obtain ⟨w, c, heq⟩ := emitTick_eq s k x
  rw [heq, ct_withCounts, (ticksFrame_pushToAll _ _).ct]
  exact ct_showTick ..

theorem pos_emitTick (s : State) (k : Nat) (x : Int) : ((emitTick s k x).train k).pos = x := by
  have htrain := congrArg Train.pos (train_setTrain_same s k { s.train k with pos := x })
  rw [State.train, ct_emitTick]
  exact htrain

/-! ## Waiting for an edge -/

/-- From `s` to `t` only time has passed. -/
structure Waited (s t : State) : Prop where
  frame : t = { s with now := t.now }
  later : s.now ≤ t.now

theorem Waited.refl (s : State) : Waited s s := ⟨rfl, Nat.le_refl _⟩

theorem Waited.trans (h1 : Waited s t) (h2 : Waited t u) : Waited s u := by
  refine ⟨?_, h1.later.trans h2.later⟩
  have hframe := h2.frame
  rw [h1.frame] at hframe
  exact hframe

theorem Waited.tickFrame (h : Waited s t) : TickFrame s t := by rw [TickFrame, h.frame]

theorem waited_until (s : State) (n : Nat) : Waited s (s.until n) := ⟨rfl, Nat.le_max_left ..⟩

theorem waited_untilS (x : Int) (n : Nat) (s : State) : Waited s (untilS x n s) := by
  induction n generalizing s with
  | zero => exact Waited.refl s
  | succ n ih =>
    unfold untilS
    split
    · exact Waited.refl s
    · exact (waited_until s _).trans (ih _)

theorem tickAt_of_regs (h : t.regs = s.regs) (k : Nat) (x : Int) : tickAt t k x = tickAt s k x := by
  simp only [tickAt, trainFmt, trainLvls, State.rf_of_regs h]

/-! ## The commands -/

theorem exec_tickEdge (hk : k < 16) (hon : trainOn s k = true) (hnext : trainNext s k = some x) :
    exec (.tickEdge k) s = .next (emitTick (untilS (edgeTime s k x) 64 s) k x) := by
  have hedge : tickEdge s k = emitTick (untilS (edgeTime s k x) 64 s) k x := by
    rw [tickEdge, if_pos hon, hnext]
  exact (if_pos hk).trans (congrArg Host.Outcome.next hedge)

theorem shedReg_not_mem_tickRegs (hk : k < 16) (n : Nat) : shdRegs + 0x200 + 4 * n ∉ tickRegs k := by
  simp only [tickRegs, ttA, shdRegs, ctRegs, blockBase, List.mem_cons, List.not_mem_nil, or_false]
  omega

theorem completes_tickEdge (hk : k < 16) (hon : trainOn s k = true) (hnext : trainNext s k = some x) :
    Completes (.tickEdge k) s fun t => (t.train k).pos = x ∧ s.now ≤ t.now ∧
      tget noTicks t.ticks 0 = tget noTicks s.ticks 0 ++ [tickAt s k x] ∧
      (∀ n, n < 32 → tget noTicks t.ticks (1 + n) =
        if s.shedCur n = 3 then tget noTicks s.ticks (1 + n) ++ [tickAt s k x] else tget noTicks s.ticks (1 + n)) ∧
      t.reg (ttA k 0x14) = BitVec.ofNat 64 (tickAt s k x).cntLo ∧
      t.reg (ttA k 0x18) = BitVec.ofNat 64 (tickAt s k x).cntHi ∧
      t = { s with now := t.now, regs := t.regs, ct := t.ct, ticks := t.ticks, tickWaits := t.tickWaits,
                   tickCount := t.tickCount } ∧
      RegsBut [ttA k 0x14, ttA k 0x18, ttA k 0x1C, ttA k 0x20, ttA k 0x24, ttA k 0x28] s t := by
  have hwait := waited_untilS (edgeTime s k x) 64 s
  refine completes_of_exec (exec_tickEdge hk hon hnext) ?_
  generalize untilS (edgeTime s k x) 64 s = u at hwait
  have hregs : u.regs = s.regs := by rw [hwait.frame]
  have hticks : (shownAt u k x).ticks = s.ticks := by rw [clockFrame_shownAt, hwait.frame]
  have htick : tickAt u k x = tickAt s k x := tickAt_of_regs hregs k x
  have hshed (n : Nat) : (shownAt u k x).shedCur n = s.shedCur n := by
    simp only [State.shedCur, State.rf, regsBut_shownAt u k x _ (shedReg_not_mem_tickRegs hk n), State.rd_of_regs hregs]
  obtain ⟨hlo, hhi⟩ := rd_showTick_counters (u.setTrain k { u.train k with pos := x }) k (tickAt u k x) (edgeTime u k x)
  have hframe := edgeFrame_emitTick u k x
  have hnow := hframe.now
  refine ⟨pos_emitTick u k x, hwait.later.trans_eq hnow.symm, ?yard, fun n hn => ?stable, ?lo, ?hi, ?frame,
    (regsBut_of_regs hregs).trans (regsBut_emitTick u k x)⟩
  case yard => rw [ticks_emitTick, tget_pushToAll_zero, hticks, htick]
  case stable => rw [ticks_emitTick, tget_pushToAll_stable _ _ hn, hticks, htick, hshed]
  case lo =>
    rw [← htick]
    exact reg_eq_ofNat ((State.rd_of_regs (regs_emitTick u k x) _).trans hlo)
  case hi =>
    rw [← htick]
    exact reg_eq_ofNat ((State.rd_of_regs (regs_emitTick u k x) _).trans hhi)
  case frame => exact hwait.tickFrame.trans hframe.tickFrame

end Sys2Proof.Machine
end

section
/-! PROOFS of the end of a train's slew and of its stop (R43, R46). -/

namespace Sys2Proof.Machine

variable {s t : State} {k : Nat} {x : Int}

/-! ## The end of a slew of S (R43, R416) -/

theorem le_cdiv_mul (a : Nat) {b : Nat} (hb : 0 < b) : a ≤ cdiv a b * b := by
  have h := Nat.lt_mul_of_div_lt (Nat.lt_add_one ((a + b - 1) / b)) hb
  rw [Nat.add_one_mul] at h
  rw [cdiv]
  omega

/-- A slew is done once its rate has covered its size. -/
theorem slewDone_of_covered {ppb c : Nat} (h : x.natAbs ≤ c * (3125 * 65536 * ppb)) : slewDone x ppb c = x := by
  have hcover : (x.natAbs : Int) ≤ c * 3125 * 65536 * ppb := by
    calc (x.natAbs : Int) ≤ (c * (3125 * 65536 * ppb) : Nat) := Int.ofNat_le.mpr h
      _ = c * 3125 * 65536 * ppb := by push_cast; ring
  simp only [slewDone]
  split <;> omega

/-- What is left of the slew of S from its end on. -/
theorem sRemNow_of_slewEnd_le (hppb : maxPpb s ≠ 0) (h : sSlewEnd s ≤ s.now) : sRemNow s = 0 := by
  have hrate : 0 < 3125 * 65536 * maxPpb s := by omega
  simp only [sSlewEnd, slewQuanta] at h
  have hcover := le_cdiv_mul s.ct.sRem.natAbs hrate
  generalize hn : cdiv s.ct.sRem.natAbs (3125 * 65536 * maxPpb s) = n at h hcover
  have hcycles : cyclesSince s.now s.ct.sAnchor = (s.now / 3125 - s.ct.sAnchor / 3125 : Nat) := by
    simp only [cyclesSince]
    omega
  have hle : n ≤ s.now / 3125 - s.ct.sAnchor / 3125 := by omega
  rw [sRemNow, hcycles, slewDone_of_covered (hcover.trans (Nat.mul_le_mul_right _ hle)), Int.sub_self]

theorem exec_trainSlewEnd (hk : k < 16) (hslew : (s.train k).slewing = true) : exec (.trainSlewEnd k) s =
    .next ((s.until (sSlewEnd s)).setTrain k { (s.until (sSlewEnd s)).train k with slewing := false }) :=
  (if_pos hk).trans (if_pos hslew)

theorem sRemNow_setTrain (s : State) (k : Nat) (m : Train) : sRemNow (s.setTrain k m) = sRemNow s := rfl

theorem completes_trainSlewEnd (hk : k < 16) (hslew : (s.train k).slewing = true) (hppb : maxPpb s ≠ 0) :
    Completes (.trainSlewEnd k) s fun t => (t.train k).slewing = false ∧ sRemNow t = 0 ∧ s.now ≤ t.now ∧
      t = { s with now := t.now, ct := t.ct } := by
  have hend : sSlewEnd s ≤ (s.until (sSlewEnd s)).now := Nat.le_max_right ..
  have hrem : sRemNow (s.until (sSlewEnd s)) = 0 := sRemNow_of_slewEnd_le (s := s.until (sSlewEnd s)) hppb hend
  exact completes_of_exec (exec_trainSlewEnd hk hslew)
    ⟨congrArg Train.slewing (train_setTrain_same ..), (sRemNow_setTrain ..).trans hrem, Nat.le_max_left .., rfl⟩

/-! ## Stopping a train (R46) -/

theorem EdgeFrame.mem (h : EdgeFrame s t) : t.mem = s.mem := by rw [h]

theorem sameBytes_of_mem (h : t.mem = s.mem) : SameBytes s t := fun a => by rw [State.byte, h, State.byte]

theorem edgeFrame_emitDue (n : Nat) (s : State) (k : Nat) : EdgeFrame s (emitDue n s k) := by
  induction n generalizing s with
  | zero => rfl
  | succ n ih =>
    unfold emitDue
    split
    · rfl
    · split
      · exact (edgeFrame_emitTick ..).trans (ih _)
      · rfl

/-- Train `k` cleared and reported to the Yardmaster as stopped. -/
def reportStopped (s : State) (k : Nat) : State :=
  { s.setTrain k Train.reset with ct := { (s.setTrain k Train.reset).ct with stopped := s.ct.stopped ++ [k] } }

theorem trainDisable_eq (s : State) (k : Nat) :
    trainDisable s k = reportStopped (switchTrain (emitDue 16 s k) k false) k := rfl

theorem edgeFrame_reportStopped (s : State) (k : Nat) : EdgeFrame s (reportStopped s k) := rfl

theorem train_reportStopped (s : State) (k : Nat) : (reportStopped s k).train k = Train.reset :=
  train_setTrain_same s k Train.reset

theorem mem_stopped_reportStopped (s : State) (k : Nat) : k ∈ (reportStopped s k).ct.stopped :=
  List.mem_append_right _ (List.mem_singleton_self k)

theorem edgeFrame_trainDisable (s : State) (k : Nat) : EdgeFrame s (trainDisable s k) := by
  rw [trainDisable_eq]
  exact ((edgeFrame_emitDue 16 s k).trans (clockFrame_switchTrain ..).edgeFrame).trans (edgeFrame_reportStopped _ k)

theorem completes_trainDisable (hk : k < 16) (hon : trainOn s k = true) (hfmt : trainFmt s k < 12) :
    Completes (.trainDisable k) s fun t => ∃ u, t = hltSettle (ymStops u) ∧ trainOn u k = false ∧
      u.train k = Train.reset ∧ k ∈ u.ct.stopped ∧ u.bus = ⟨rspOk, 0⟩ ∧ SameBytes s u := by
  obtain ⟨v, hexec⟩ := exec_trainDisable hk hon hfmt
  have hmem := (edgeFrame_trainDisable (s.wf (ttA k 0) 11 8 v) k).mem
  refine completes_of_exec hexec ⟨_, rfl, ?off, ?reset, ?stopped, State.answer_bus .., sameBytes_of_mem hmem⟩
  all_goals rw [trainDisable_eq]
  case off => exact trainOn_switchTrain hk _ false
  case reset => exact train_reportStopped _ k
  case stopped => exact mem_stopped_reportStopped _ k

/-- Settles O16: each of the four commands by its own lemma. -/
theorem trainCommands : Obligations.TrainCommands := fun _ _ hk =>
  ⟨completes_trainEnable hk, fun _ => completes_tickEdge hk, completes_trainSlewEnd hk, completes_trainDisable hk⟩

end Sys2Proof.Machine
end

section
/-! PROOFS on the registers' reset values (R12): a register reads what its row gives, but for the rows whose value
depends on the instance. -/

namespace Sys2Proof.Machine

variable {a base b o : Nat} {rows : List RegRow} {row : RegRow}

/-- The rows whose reset value is not the one in the table. -/
def instanceRows : List String :=
  ["YM_TD_CFG", "YM_TD_STATE", "YRD_RT_WORD", "YRD_RTR_LINK", "ECC_CTRL", "SHD_CTRL_s", "SHD_STATUS_s", "SHD_RST_CAUSE",
    "CAL_STATUS", "CAL_DATE"]

theorem regResetN_of_row (h : regRow a = some (base, row)) (hname : row.name ∉ instanceRows) : regResetN a = row.reset := by
  simp only [instanceRows, List.mem_cons, List.not_mem_nil, or_false, not_or] at hname
  obtain ⟨hcfg, hstate, hword, hlink, hecc, hctrl, hstatus, hcause, hcal, hdate⟩ := hname
  simp only [regResetN, h, hcfg, hstate, hword, hlink, hecc, hctrl, hstatus, hcause, hcal, hdate, if_false, or_self, ite_self]

theorem regResetN_of_none (h : regRow a = none) : regResetN a = 0 := by simp only [regResetN, h]

theorem rd_reset (a : Nat) : State.reset.rd a = regResetN a % 2 ^ 64 := BitVec.toNat_ofNat _ _

theorem rd_reset_of_row (h : regRow a = some (base, row)) (hname : row.name ∉ instanceRows) (hfits : row.reset < 2 ^ 64) :
    State.reset.rd a = row.reset := by
  rw [rd_reset, regResetN_of_row h hname, Nat.mod_eq_of_lt hfits]

/-- The register at offset `o` of an area reads `v` after reset, by its row. -/
def resetsTo (rows : List RegRow) (o v : Nat) : Bool :=
  (findRow rows o).any fun row => decide (row.name ∉ instanceRows) && decide (row.reset = v)

theorem rd_reset_of_resetsTo {v : Nat} (hregion : regionOf a = .regs base rows) (h : resetsTo rows (a - base) v = true)
    (hv : v < 2 ^ 64) : State.reset.rd a = v := by
  simp only [resetsTo, Option.any_eq_true, Bool.and_eq_true, decide_eq_true_eq] at h
  obtain ⟨row, hrow, hname, rfl⟩ := h
  have hreg : regRow a = some (base, row) := by
    rw [regRow, hregion]
    dsimp only
    rw [hrow]
    rfl
  exact rd_reset_of_row hreg hname hv

theorem rd_reset_blockBase {v : Nat} (hb : b < 13) (ho : o < 0x1000000) (hregion : blockRegion b o = .regs (blockBase b) rows)
    (h : resetsTo rows o v = true) (hv : v < 2 ^ 64) : State.reset.rd (blockBase b + o) = v :=
  rd_reset_of_resetsTo ((regionOf_blockBase hb ho).trans hregion) (by rwa [Nat.add_sub_cancel_left]) hv

/-! ## Hatches and channels (R352, R364, R368) -/

/-- A bit that no row of an area resets to 1 is 0 wherever in the area it is read. -/
theorem rb_reset_of_rows {i : Nat} (hb : b < 13) (ho : o < 0x1000000) (hregion : blockRegion b o = .regs (blockBase b) rows)
    (hrows : ∀ row ∈ rows, row.name ∉ instanceRows ∧ row.reset < 2 ^ 64 ∧ row.reset.testBit i = false) :
    State.reset.rb (blockBase b + o) i = false := by
  cases hrow : findRow rows o with
  | none =>
    have hreg : regRow (blockBase b + o) = none := by
      rw [regRow, regionOf_blockBase hb ho, hregion]
      dsimp only
      rw [Nat.add_sub_cancel_left, hrow]
      rfl
    have hzero : State.reset.rd (blockBase b + o) = 0 := by rw [rd_reset, regResetN_of_none hreg, Nat.zero_mod]
    rw [State.rb, hzero]
    exact Nat.zero_testBit i
  | some row =>
    obtain ⟨hname, hfits, hbit⟩ := hrows row (List.mem_of_find?_eq_some hrow)
    rw [State.rb, rd_reset_of_row (regRow_blockBase hb ho hregion hrow) hname hfits]
    exact hbit

theorem hatFull_reset {h : Nat} (hh : h < 4096) : hatFull State.reset h = false := by
  have haddr : hatA h 0x18 = blockBase 1 + (h * 0x20 + 0x18) := by simp only [hatA, hatRegs]; omega
  rw [hatFull, haddr]
  exact rb_reset_of_rows (rows := rowsHat) (by decide) (by omega) rfl (by decide)

theorem hatTmo_reset {h : Nat} (hh : h < 8) : State.reset.rf (hatC h 8) 19 0 = 100 := by
  have haddr : hatC h 8 = blockBase 1 + (0x20000 + h * 0x10 + 8) := by simp only [hatC, hatRegs]; omega
  have hrow : ∀ h, h < 8 → resetsTo rowsHat (0x20000 + h * 0x10 + 8) 100 = true := by decide
  rw [State.rf, haddr, rd_reset_blockBase (by decide) (by omega) rfl (hrow h hh) (by decide)]
  decide

/-- The stables' control windows hold the Barrow's channels of their groups (R21, R344). -/
theorem regionOf_stbRegs {n q : Nat} (hn : n < 32) (hlo : 0x8000 ≤ q) (hhi : q < 0x800000) :
    regionOf (stbRegs n + q) = .regs (stbRegs n) rowsStb := by
  have hwindow : (stbRegs n + q - 0x01000000000) / 0x1000000 = n ∧ (stbRegs n + q) % 0x1000000 = 0x800000 + q := by
    simp only [stbRegs, stableBase]; omega
  unfold regionOf
  rw [if_neg, if_pos, hwindow.1, hwindow.2, stableRegion, if_neg (by omega)]
  · dsimp only
    rw [Nat.add_sub_cancel_left, if_neg (by omega)]
  all_goals simp only [stbRegs, stableBase, barnSize]; omega

theorem chStatus_reset {ch : Nat} (h : ch < 576) : State.reset.rd (chA ch 0x10) = 0 := by
  by_cases hgroup : ch < 512
  · have haddr : chA ch 0x10 = stbRegs (ch / 16) + (0x10010 + ch % 16 * 0x100) := by
      simp only [chA, brwPage, if_pos hgroup]; omega
    have hrow : ∀ c, c < 16 → resetsTo rowsStb (0x10010 + c * 0x100) 0 = true := by decide
    rw [haddr]
    exact rd_reset_of_resetsTo (regionOf_stbRegs (by omega) (by omega) (by omega))
      (by rw [Nat.add_sub_cancel_left]; exact hrow _ (Nat.mod_lt _ (by decide))) (by decide)
  · have haddr : chA ch 0x10 = blockBase 2 + (0x10 + (ch - 512) * 0x100) := by
      simp only [chA, brwPage, if_neg hgroup]; omega
    have hrow : ∀ c, c < 64 → resetsTo rowsBrw (0x10 + c * 0x100) 0 = true := by decide
    rw [haddr]
    exact rd_reset_blockBase (by decide) (by omega) rfl (hrow _ (by omega)) (by decide)

theorem chSt_reset {ch : Nat} (h : ch < 576) : chSt State.reset ch = 0 := by
  rw [chSt, State.rf, chStatus_reset h]
  decide

end Sys2Proof.Machine
end

section
/-! PROOFS of the state after reset (R12): sheds, domains, trains, links and routes, and the statement on them. -/

namespace Sys2Proof.Machine

variable {k p d r t j o : Nat} {row : RegRow}

/-! ## Sheds (R546) -/

/-- The sheds that are ON after reset: the Yard, the Loft complex and the AON block. -/
abbrev OnAtReset (k : Nat) : Prop := k = shedYard ∨ k = shedLoft ∨ k = shedAon

/-- SHD_CTRL and SHD_STATUS of shed `k` after reset: the sheds that are ON have REQ ON, and stand ON at their last step. -/
theorem rd_reset_shedRow {v : Nat} (ho : o < 0x1000000) (hrow : findRow rowsShd o = some row)
    (hname : row.name = "SHD_CTRL_s" ∨ row.name = "SHD_STATUS_s") (hv : (if row.name = "SHD_CTRL_s" then 3 else 0x53) = v)
    (hindex : o % 0x100 / 4 = k) (hk : k < 50) : State.reset.rd (shdRegs + o) = if OnAtReset k then v else 0 := by
  have hreg : regRow (shdRegs + o) = some (shdRegs, row) := regRow_blockBase (b := 7) (by decide) ho rfl hrow
  have hblock : ¬ shdRegs < 0x02000000000 ∧ shdRegs ≠ yrdRegs ∧ shdRegs ≠ eccRegs := by decide
  obtain ⟨hlow, hyrd, hecc⟩ := hblock
  have hlast : ¬ (k = 62 ∧ row.name = "SHD_STATUS_s") := fun h => by omega
  have hvalue : regResetN (shdRegs + o) = if OnAtReset k then v else 0 := by
    simp only [regResetN, hreg, hlow, hyrd, hecc, if_false, if_true, Nat.add_sub_cancel_left, if_pos hname, hindex, hv, if_neg hlast]
    rfl
  have hfits : (if OnAtReset k then v else 0) < 2 ^ 64 := by rw [← hv]; split_ifs <;> decide
  rw [rd_reset, hvalue, Nat.mod_eq_of_lt hfits]

theorem rd_reset_shdCtrl (hk : k < 50) : State.reset.rd (shdCtrl k) = if OnAtReset k then 3 else 0 := by
  have hrow : ∀ k, k < 50 → findRow rowsShd (0x100 + 4 * k) =
      some ⟨"SHD_CTRL_s", 0x100, [(63, 4)], 4, 0, 3, 0, 0, 0, 0, 0, 0⟩ := by decide
  rw [shdCtrl, Nat.add_assoc]
  exact rd_reset_shedRow (by omega) (hrow k hk) (.inl rfl) rfl (by omega) hk

theorem rd_reset_shdStatus (hk : k < 50) : State.reset.rd (shdRegs + 0x200 + 4 * k) = if OnAtReset k then 0x53 else 0 := by
  have hrow : ∀ k, k < 50 → findRow rowsShd (0x200 + 4 * k) =
      some ⟨"SHD_STATUS_s", 0x200, [(63, 4)], 4, 0, 0, 0, 0, 0, 0, 0, 0⟩ := by decide
  rw [Nat.add_assoc]
  exact rd_reset_shedRow (by omega) (hrow k hk) (.inr rfl) (by decide) (by omega) hk

theorem sheds_reset (hk : k < 50) : State.reset.shedCur k = (if OnAtReset k then 3 else 0) ∧
    State.reset.shedBusy k = false ∧ State.reset.rf (shdCtrl k) 1 0 = (if OnAtReset k then 3 else 0) := by
  simp only [State.shedCur, State.shedBusy, State.rf, State.rb, rd_reset_shdCtrl hk, rd_reset_shdStatus hk]
  split <;> decide

theorem rd_reset_rstCause : State.reset.rd (shdA 0x14) = 1 := by
  have hreg : regRow (shdRegs + 0x14) = some (shdRegs, ⟨"SHD_RST_CAUSE", 0x14, [], 4, 0, 0, 0xf, 0, 0, 0, 0, 0⟩) :=
    regRow_blockBase (b := 7) (by decide) (by decide) rfl (by decide)
  rw [shdA, rd_reset, regResetN, hreg]
  decide

theorem rd_reset_calStatus : State.reset.rd (calA 0x20) = 2 := by
  have hreg : regRow (calRegs + 0x20) = some (calRegs, ⟨"CAL_STATUS", 0x20, [], 4, 0, 0, 0x13, 0, 0, 0, 0, 0⟩) :=
    regRow_blockBase (b := 8) (by decide) (by decide) rfl (by decide)
  rw [calA, rd_reset, regResetN, hreg]
  decide

theorem rd_reset_lftA : State.reset.rd (lftA 4) = 0xFFFE :=
  rd_reset_blockBase (b := 12) (o := 4) (rows := rowsLft) (by decide) (by decide) rfl (by decide) (by decide)

/-! ## The Clocktower and the Phinerlink (R46, R413, R434, R453) -/

theorem domains_reset (hd : d < 2) : domEn State.reset d = false ∧ domValid State.reset d = false ∧
    State.reset.rd (domA d 0x18) = 1000 := by
  have haddr (o : Nat) : domA d o = blockBase 3 + (0x1000 + d * 0x100 + o) := by simp only [domA, ctRegs]; omega
  have hcfg : ∀ d, d < 2 → resetsTo rowsCt (0x1000 + d * 0x100 + 0) 0xa00 = true := by decide
  have hstate : ∀ d, d < 2 → resetsTo rowsCt (0x1000 + d * 0x100 + 4) 0 = true := by decide
  have hslew : ∀ d, d < 2 → resetsTo rowsCt (0x1000 + d * 0x100 + 0x18) 1000 = true := by decide
  refine ⟨?_, ?_, ?_⟩
  · rw [domEn, State.rb, haddr, rd_reset_blockBase (by decide) (by omega) rfl (hcfg d hd) (by decide)]
    decide
  · rw [domValid, State.rb, haddr, rd_reset_blockBase (by decide) (by omega) rfl (hstate d hd) (by decide)]
    decide
  · rw [haddr, rd_reset_blockBase (by decide) (by omega) rfl (hslew d hd) (by decide)]

theorem trainOn_reset (ht : t < 16) : trainOn State.reset t = false := by
  rw [trainOn, State.rb, rd_reset_of_row (regRow_trainCtl ht) (by decide) (by decide)]
  decide

theorem plState_reset (hp : p < 8) : plState State.reset p = 0 := by
  have haddr : plP p 4 = blockBase 5 + (0x20004 + p * 0x1000) := by simp only [plP, plRegs]; omega
  have hrow : ∀ p, p < 8 → resetsTo rowsPl (0x20004 + p * 0x1000) 0 = true := by decide
  rw [plState, State.rf, haddr, rd_reset_blockBase (by decide) (by omega) rfl (hrow p hp) (by decide)]
  decide

theorem plFgen_reset : plFgen State.reset = 0 := by
  have hstatus : State.reset.rd (plA 8) = 0 :=
    rd_reset_blockBase (b := 5) (o := 8) (rows := rowsPl) (by decide) (by decide) rfl (by decide) (by decide)
  rw [plFgen, State.rf, hstatus]
  decide

/-! ## The Yard's routes (R319) -/

theorem xFirst_lt (r d : Nat) : xFirst r d < 8 := by
  unfold xFirst
  split_ifs <;> decide

theorem matchDims_routeWord (hr : r < 96) (ht : t < 2) (hd : d < 96) :
    matchDims routeWordRow.dims (r * 0x100 + t * 0x80 + d / 4 * 4) = true := by
  simp only [routeWordRow, matchDims, Bool.and_eq_true, decide_eq_true_eq, beq_iff_eq]
  omega

theorem exists_findRow {rows : List RegRow} (hmem : row ∈ rows) (hoff : row.off ≤ o)
    (hdims : matchDims row.dims (o - row.off) = true) : ∃ found, findRow rows o = some found :=
  Option.isSome_iff_exists.mp (List.find?_isSome.mpr ⟨row, hmem, by simp [hoff, hdims]⟩)

theorem findRow_routeWord (hr : r < 96) (ht : t < 2) (hd : d < 96) :
    findRow rowsYrd (0x20000 + r * 0x100 + t * 0x80 + d / 4 * 4) = some routeWordRow := by
  have hoff : 0x20000 + r * 0x100 + t * 0x80 + d / 4 * 4 - routeWordRow.off = r * 0x100 + t * 0x80 + d / 4 * 4 := by
    simp only [routeWordRow]; omega
  have hmem : routeWordRow ∈ rowsYrd := by decide
  obtain ⟨row, hrow⟩ := exists_findRow (o := 0x20000 + r * 0x100 + t * 0x80 + d / 4 * 4) hmem
    (by simp only [routeWordRow]; omega) (by rw [hoff]; exact matchDims_routeWord hr ht hd)
  rw [hrow, eq_routeWordRow_of_findRow hrow (by omega) (by omega)]

/-- The four ports of a word of router `r`'s table, from destination `d` on. -/
def xFirstWord (r d : Nat) : Nat := (List.range 4).foldl (fun v j => v + xFirst r (d + j) * 2 ^ (8 * j)) 0

theorem xFirstWord_eq (r d : Nat) : xFirstWord r d =
    xFirst r d + xFirst r (d + 1) * 0x100 + xFirst r (d + 2) * 0x10000 + xFirst r (d + 3) * 0x1000000 := by
  have hrange : List.range 4 = [0, 1, 2, 3] := by decide
  rw [xFirstWord, hrange, List.foldl_cons, List.foldl_cons, List.foldl_cons, List.foldl_cons, List.foldl_nil]
  simp only [Nat.zero_add, Nat.add_zero, Nat.mul_zero, Nat.pow_zero, Nat.mul_one, Nat.reduceMul,
    Nat.reducePow]

theorem xFirstWord_lt (r d : Nat) : xFirstWord r d < 2 ^ 64 := by
  have h0 := xFirst_lt r d
  have h1 := xFirst_lt r (d + 1)
  have h2 := xFirst_lt r (d + 2)
  have h3 := xFirst_lt r (d + 3)
  rw [xFirstWord_eq]
  omega

/-- A field of three bits in byte `j` of a word of four. -/
theorem fld_byte {a b c e : Nat} (ha : a < 8) (hb : b < 8) (hc : c < 8) (he : e < 8) :
    fld (a + b * 0x100 + c * 0x10000 + e * 0x1000000) 2 0 = a ∧ fld (a + b * 0x100 + c * 0x10000 + e * 0x1000000) 10 8 = b ∧
    fld (a + b * 0x100 + c * 0x10000 + e * 0x1000000) 18 16 = c ∧ fld (a + b * 0x100 + c * 0x10000 + e * 0x1000000) 26 24 = e := by
  simp only [fld, Nat.shiftRight_eq_div_pow]
  omega

theorem fld_xFirstWord (hj : j < 4) (r d : Nat) : fld (xFirstWord r d) (8 * j + 2) (8 * j) = xFirst r (d + j) := by
  obtain ⟨h0, h1, h2, h3⟩ := fld_byte (xFirst_lt r d) (xFirst_lt r (d + 1)) (xFirst_lt r (d + 2)) (xFirst_lt r (d + 3))
  rw [xFirstWord_eq]
  interval_cases j
  · exact h0
  · exact h1
  · exact h2
  · exact h3

theorem rd_reset_routeWord (hr : r < 96) (ht : t < 2) (hd : d < 96) :
    State.reset.rd (yrdA (0x20000 + r * 0x100 + t * 0x80 + d / 4 * 4)) = xFirstWord r (d / 4 * 4) := by
  have hreg : regRow (yrdRegs + (0x20000 + r * 0x100 + t * 0x80 + d / 4 * 4)) = some (yrdRegs, routeWordRow) :=
    regRow_blockBase (b := 10) (by decide) (by omega) rfl (findRow_routeWord hr ht hd)
  have hrouter : (0x20000 + r * 0x100 + t * 0x80 + d / 4 * 4 - 0x20000) / 0x100 = r := by omega
  have hdest : (0x20000 + r * 0x100 + t * 0x80 + d / 4 * 4 - 0x20000) % 0x80 = d / 4 * 4 := by omega
  have hlow : ¬ yrdRegs < 0x02000000000 := by decide
  have hvalue : regResetN (yrdRegs + (0x20000 + r * 0x100 + t * 0x80 + d / 4 * 4)) = xFirstWord r (d / 4 * 4) := by
    simp only [regResetN, hreg, hlow, if_false, if_true, routeWordRow, Nat.add_sub_cancel_left, hrouter, hdest, xFirstWord]
  rw [yrdA, rd_reset, hvalue, Nat.mod_eq_of_lt (xFirstWord_lt r _)]

theorem routePort_reset (hr : r < 96) (ht : t < 2) (hd : d < 96) : routePort State.reset t r d = xFirst r d := by
  have hdest : d / 4 * 4 + d % 4 = d := Nat.div_add_mod' d 4
  rw [routePort, State.rf, rd_reset_routeWord hr ht hd, fld_xFirstWord (Nat.mod_lt _ (by decide)), hdest]

/-- Settles O60: the tables are empty and each register named reads its row's reset value. -/
theorem resetHoldsTheSpecsValues : Obligations.ResetHoldsTheSpecsValues :=
  ⟨twf_nil _, rfl, fun _ => sheds_reset, rd_reset_rstCause, by decide, fun _ _ => rfl, fun _ => ⟨rfl, rfl⟩, fun _ => rfl,
    fun _ => plState_reset, plFgen_reset, fun _ => chSt_reset, fun _ => hatFull_reset, fun _ => hatTmo_reset,
    fun _ => domains_reset, fun _ => trainOn_reset,
    fun _ _ hr hd => ⟨routePort_reset hr (by decide) hd, routePort_reset hr (by decide) hd⟩, rd_reset_lftA, rd_reset_calStatus⟩

end Sys2Proof.Machine
end

section
/-! PROOFS for the Kubry cores (03_kubry_core.md): the registers of a core's page, the state after an update of one
core, and the registers and status bits of a core after it was written. -/

namespace Sys2Proof.Machine

variable {s t u : State} {g h o p : Nat} {l : List Nat} {c : Core}

/-! ## Addresses (R103) -/

theorem kA_ne (hop : o ≠ p) : kA g o ≠ kA g p := fun heq => hop (Nat.add_left_cancel heq)

theorem kA_ne_of_core (hgh : g ≠ h) (ho : o < 0x1000) (hp : p < 0x1000) : kA g o ≠ kA h p := by
  simp only [kA, coreRegs, stableBase]; omega

theorem kA_ne_stbRegs (g n : Nat) {o p : Nat} (ho : o < 0x1000) (hp : 0x8000 ≤ p) (hp' : p < 0x400000) :
    kA g o ≠ stbRegs n + p := by
  simp only [kA, coreRegs, stbRegs, stableBase]; omega

theorem kA_ne_of_high (hg : g < 256) (ho : o < 0x1000) {a : Nat} (ha : ymRegs ≤ a) : kA g o ≠ a :=
  Nat.ne_of_lt (Nat.lt_of_lt_of_le (kA_lt_ymRegs hg ho) ha)

theorem ymRegs_le_ymCoreA (g o : Nat) : ymRegs ≤ ymCoreA g o := by simp only [ymCoreA]; omega

theorem ymRegs_le_shdRegs : ymRegs ≤ shdRegs := by decide

/-! ## One core changes -/

/-- From `s` to `t` only core `g` and the listed registers have changed. -/
structure CoreKept (l : List Nat) (g : Nat) (s t : State) : Prop where
  frame : t = { s with cores := t.cores, regs := t.regs }
  regs : RegsBut l s t
  others : ∀ h, h ≠ g → t.core h = s.core h

theorem CoreKept.refl (l : List Nat) (g : Nat) (s : State) : CoreKept l g s s := ⟨rfl, fun _ _ => rfl, fun _ _ => rfl⟩

theorem CoreKept.trans (h1 : CoreKept l g s t) (h2 : CoreKept l g t u) : CoreKept l g s u := by
  refine ⟨?_, h1.regs.trans h2.regs, fun h hh => (h2.others h hh).trans (h1.others h hh)⟩
  have hu := h2.frame
  rw [h1.frame] at hu
  exact hu

theorem CoreKept.wr (hk : CoreKept l g s t) {a : Nat} (ha : a ∈ l) (v : Nat) : CoreKept l g s (t.wr a v) :=
  hk.trans ⟨rfl, fun _ hb => t.rd_wr_other v fun heq => hb (heq ▸ ha), fun _ _ => rfl⟩

theorem CoreKept.setCore (hk : CoreKept l g s t) (c : Core) : CoreKept l g s (t.setCore g c) :=
  hk.trans ⟨rfl, fun _ _ => rfl, fun h hh => by rw [State.core_setCore, if_neg hh.symm]⟩

theorem CoreKept.modCore (hk : CoreKept l g s t) (f : Core → Core) : CoreKept l g s (t.modCore g f) := hk.setCore _

theorem CoreKept.mono (hk : CoreKept l g s t) {l' : List Nat} (hl : l ⊆ l') : CoreKept l' g s t :=
  ⟨hk.frame, fun a ha => hk.regs a fun h => ha (hl h), hk.others⟩

theorem CoreKept.mem (hk : CoreKept l g s t) : t.mem = s.mem := by rw [hk.frame]
theorem CoreKept.ecc (hk : CoreKept l g s t) : t.ecc = s.ecc := by rw [hk.frame]
theorem CoreKept.now (hk : CoreKept l g s t) : t.now = s.now := by rw [hk.frame]
theorem CoreKept.ym (hk : CoreKept l g s t) : t.ym = s.ym := by rw [hk.frame]
theorem CoreKept.sameBytes (hk : CoreKept l g s t) : SameBytes s t := sameBytes_of_mem hk.mem
theorem CoreKept.sameData (hk : CoreKept l g s t) : SameData s t := ⟨hk.mem, hk.ecc⟩

theorem core_modCore_other (hgh : h ≠ g) (s : State) (f : Core → Core) : (s.modCore g f).core h = s.core h := by
  rw [State.core_modCore, if_neg hgh.symm]

theorem core_setCore_same (s : State) (g : Nat) (c : Core) : (s.setCore g c).core g = c := by
  rw [State.core_setCore, if_pos rfl]

/-- A command of one core, which exists. -/
theorem inCore_of_lt (hg : g < 256) (t : State) : inCore g t = .next t := if_pos hg

/-! ## Scalar registers and status bits of a core (R78, R93) -/

theorem gs_ss (c : Core) (i j v : Nat) : (c.ss i v).gs j = if i = j then v % 2 ^ 32 else c.gs j := by
  simp only [Core.gs, Core.ss, tget_tset]
  split
  · exact BitVec.toNat_ofNat v 32
  · rfl

theorem gs_lt (c : Core) (i : Nat) : c.gs i < 2 ^ 32 := (tget zw c.s i).isLt

theorem testBit_ofNat_sr (v : Nat) {i : Nat} (hi : i < 32) : (BitVec.ofNat 32 v).getLsbD i = v.testBit i := by
  rw [BitVec.getLsbD_ofNat, decide_eq_true hi, Bool.true_and]

theorem srb_setSr (c : Core) {i j : Nat} (b : Bool) (hj : j < 32) :
    (c.setSr i b).srb j = if i = j then b else c.srb j := by
  rw [Core.srb, Core.setSr, testBit_ofNat_sr _ hj, testBit_setFld _ _ _ _ _ (Nat.le_refl i)]
  by_cases hij : i = j
  · subst hij
    cases b <;> simp
  · rw [if_neg (by omega), if_neg hij]
    rfl

end Sys2Proof.Machine
end

section
/-! PROOF of the statement on debug access, clock points and tick messages (R99, R104, R106, R107). -/

namespace Sys2Proof.Machine

variable {s t : State} {g i n v point : Nat} {m : Tick}

/-! ## Debug access (R104) -/

section
variable (hsel : s.rf (kA g 0x10) 7 6 = 0) (hi : s.rf (kA g 0x10) 5 0 = i)
include hsel hi

theorem dbgAllowed_of_scalar (hlt : i < 32) (hstop : (s.core g).halted = true ∨ s.inReset g = true) :
    dbgAllowed s g = true := by
  have hok : dbgOk (s.rd (kA g 0x10)) = true := by
    unfold State.rf at hsel hi
    simp only [dbgOk, hsel, hi]
    exact decide_eq_true hlt
  rcases hstop with h | h <;> simp [dbgAllowed, h, hok]

theorem dbgRead_of_scalar : dbgRead s g = (s.core g).gs i := by
  unfold State.rf at hsel hi
  simp only [dbgRead, hsel, hi]

theorem dbgWrite_of_scalar (v : Nat) : dbgWrite s g v = s.modCore g (fun c => c.ss i v) := by
  unfold State.rf at hsel hi
  simp only [dbgWrite, hsel, hi]

end

theorem exec_dbgDataRead (hg : g < 256) : exec (.dbgDataRead g) s =
    .next (if dbgAllowed s g then s.answer rspOk (dbgRead s g) else s.answer rspTgt 0) := if_pos hg

theorem exec_dbgDataWrite (hg : g < 256) : exec (.dbgDataWrite g v) s =
    .next (if dbgAllowed s g then (dbgWrite s g v).answer rspOk 0 else s.answer rspTgt 0) := if_pos hg

theorem completes_dbgData_of_scalar (hg : g < 256) (hlt : i < 32)
    (hstop : (s.core g).halted = true ∨ s.inReset g = true) (hsel : s.rf (kA g 0x10) 7 6 = 0)
    (hi : s.rf (kA g 0x10) 5 0 = i) :
    Completes (.dbgDataRead g) s (fun t => t = { s with bus := ⟨rspOk, (s.core g).gs i⟩ }) ∧
    Completes (.dbgDataWrite g v) s (fun t => (t.core g).gs i = v % 2 ^ 32 ∧
      (∀ j, j ≠ i → (t.core g).gs j = (s.core g).gs j) ∧ t.core g = { s.core g with s := (t.core g).s } ∧
      (∀ h, h ≠ g → t.core h = s.core h) ∧ t = { s with cores := t.cores, bus := ⟨rspOk, 0⟩ }) := by
  have hallowed := dbgAllowed_of_scalar hsel hi hlt hstop
  constructor
  · refine completes_of_exec ((exec_dbgDataRead hg).trans (congrArg _ (if_pos hallowed))) ?_
    rw [dbgRead_of_scalar hsel hi]
    rfl
  · refine completes_of_exec ((exec_dbgDataWrite hg).trans (congrArg _ (if_pos hallowed))) ?_
    rw [dbgWrite_of_scalar hsel hi]
    have hcore : ((s.modCore g (fun c => c.ss i v)).answer rspOk 0).core g = (s.core g).ss i v :=
      (core_answer ..).trans (core_modCore_same s g _)
    refine ⟨?same, fun j hj => ?other, ?core, fun h hh => (core_answer ..).trans (core_modCore_other hh s _), rfl⟩
    case same => rw [hcore, gs_ss, if_pos rfl]
    case other => rw [hcore, gs_ss, if_neg hj.symm]
    case core => rw [hcore]; rfl

theorem completes_dbgData_of_running (hg : g < 256) (hhalted : (s.core g).halted = false) (hreset : s.inReset g = false) :
    Completes (.dbgDataRead g) s (fun t => t = { s with bus := ⟨rspTgt, 0⟩ }) ∧
    Completes (.dbgDataWrite g v) s (fun t => t = { s with bus := ⟨rspTgt, 0⟩ }) := by
  have hrefused : ¬ dbgAllowed s g = true := by simp [dbgAllowed, hhalted, hreset]
  exact ⟨completes_of_exec ((exec_dbgDataRead hg).trans (congrArg _ (if_neg hrefused))) rfl,
    completes_of_exec ((exec_dbgDataWrite hg).trans (congrArg _ (if_neg hrefused))) rfl⟩

/-! ## Clock points (R106, R107) -/

theorem exec_clockPointChange (hn : n < 32) : exec (.clockPointChange n point) s =
    .next (if point = clockDue s n ∧ s.shedCur n ≠ 0 then setPoint s n point else s) := if_pos hn

/-- No core of a stable waits or is halted, so a change of its point accounts for no wait. -/
abbrev NoneWaits (s : State) (n : Nat) : Prop :=
  ∀ k, k < 8 → (s.core (8 * n + k)).halted = false ∧ (s.core (8 * n + k)).wfe = false ∧ (s.core (8 * n + k)).hold = .none

theorem setPoint_of_noneWaits (h : NoneWaits s n) : setPoint s n point =
    (s.wf (stbRegs n + 0x8000) 1 0 point).wb (stbRegs n + 0x8000) 8 (decide (point < s.rf (stbRegs n + 0x8000) 5 4)) := by
  unfold setPoint
  dsimp only
  rw [List.foldlRecOn (motive := fun u => u = s) (List.range 8) _ rfl fun u hu k hk => ?step]
  case step =>
    subst hu
    obtain ⟨hhalted, hwfe, hhold⟩ := h k (List.mem_range.mp hk)
    simp [hhalted, hwfe, hhold]

theorem clockDue_lt (s : State) (n : Nat) : clockDue s n < 4 := by
  have hcap : clockCap s < 4 := by unfold clockCap; split <;> decide
  exact Nat.lt_of_le_of_lt (Nat.min_le_right ..) hcap

theorem completes_clockPointChange (hn : n < 32) (hpoint : point = clockDue s n) (hshed : s.shedCur n ≠ 0)
    (hwait : NoneWaits s n) :
    Completes (.clockPointChange n point) s fun t => t.rf (stbRegs n + 0x8000) 1 0 = point ∧
      t.rb (stbRegs n + 0x8000) 8 = decide (point < s.rf (stbRegs n + 0x8000) 5 4) ∧
      t = { s with regs := t.regs } ∧ RegsBut [stbRegs n + 0x8000] s t := by
  have hlt : point < 4 := hpoint ▸ clockDue_lt s n
  refine completes_of_exec ((exec_clockPointChange hn).trans (congrArg _ (if_pos ⟨hpoint, hshed⟩))) ?_
  rw [setPoint_of_noneWaits hwait]
  refine ⟨?point, State.rb_wb_same _ _ 8 _ (by decide), rfl, ?regs⟩
  case point =>
    rw [State.rf, State.rd_wb _ _ _ 8 _ (by decide), if_pos rfl, fld_setFld_other _ _ _ _ _ _ (by decide) (by decide) (by decide)]
    exact (s.rf_wf_same _ 1 0 point (by decide) (by decide)).trans (Nat.mod_eq_of_lt hlt)
  case regs =>
    exact (regsBut_wr s (stbRegs n + 0x8000) _).trans (regsBut_wr _ (stbRegs n + 0x8000) _)

theorem completes_clockPointChange_of_not_due (hn : n < 32) (hpoint : point ≠ clockDue s n) :
    Completes (.clockPointChange n point) s fun t => t = s :=
  completes_of_exec ((exec_clockPointChange hn).trans (congrArg _ (if_neg fun h => hpoint h.1))) rfl

/-! ## Tick messages (R99) -/

/-- What a tick message does at core `g`: its enabled bits are set, unless the core is in reset. -/
def tickCore (m : Tick) (s : State) (g : Nat) : State :=
  if s.inReset g then s
  else
    let o := if m.train < 8 then 0 else 4
    s.wr (kA g (0xE8 + o)) (s.rd (kA g (0xE8 + o)) |||
      (s.rd (kA g (0xE0 + o)) &&& ((m.mask % 16) <<< (4 * (m.train % 8)))))

theorem stableTick_eq (s : State) (n : Nat) (m : Tick) :
    stableTick s n m = (List.range 8).foldl (fun s k => tickCore m s (8 * n + k)) s := rfl

/-- The pending bits of core `g` after tick message `m`. -/
def tickBits (m : Tick) (s : State) (g o : Nat) : Nat :=
  if s.inReset g then s.rd (kA g (0xE8 + o))
  else s.rd (kA g (0xE8 + o)) ||| (s.rd (kA g (0xE0 + o)) &&& ((m.mask % 16) <<< (4 * (m.train % 8))))

section
variable {o : Nat} (ho : o = if m.train < 8 then 0 else 4)
include ho

theorem rd_tickCore (s : State) (g a : Nat) :
    (tickCore m s g).rd a = if kA g (0xE8 + o) = a then tickBits m s g o else s.rd a := by
  unfold tickCore tickBits
  rw [← ho]
  by_cases hreset : s.inReset g = true
  · rw [if_pos hreset, if_pos hreset]
    split
    · next heq => rw [heq]
    · rfl
  · rw [if_neg hreset, if_neg hreset, State.rd_wr]
    refine if_congr Iff.rfl (Nat.mod_eq_of_lt (Nat.or_lt_two_pow (s.rd_lt _) ?_)) rfl
    exact Nat.lt_of_le_of_lt Nat.and_le_left (s.rd_lt _)

/-- The message reaches one core without touching what another's bits depend on. -/
theorem tickBits_tickCore {g h : Nat} (hgh : g ≠ h) (s : State) : tickBits m (tickCore m s g) h o = tickBits m s h o := by
  have hother {p : Nat} (hp : p < 0x1000) : (tickCore m s g).rd (kA h p) = s.rd (kA h p) := by
    rw [rd_tickCore ho, if_neg (kA_ne_of_core hgh (by split at ho <;> omega) hp)]
  have ho' : o ≤ 4 := by split at ho <;> omega
  simp only [tickBits, State.inReset, State.rb, hother (p := 0) (by decide), hother (p := 0xE8 + o) (by omega),
    hother (p := 0xE0 + o) (by omega)]
  rfl

theorem rd_foldl_tickCore (n : Nat) {k : Nat} {l : List Nat} (hl : l.Nodup) (s : State) :
    (l.foldl (fun s k => tickCore m s (8 * n + k)) s).rd (kA (8 * n + k) (0xE8 + o)) =
      if k ∈ l then tickBits m s (8 * n + k) o else s.rd (kA (8 * n + k) (0xE8 + o)) := by
  have ho' : o ≤ 4 := by split at ho <;> omega
  induction l generalizing s with
  | nil => rfl
  | cons j l ih =>
    obtain ⟨hj, hl⟩ := List.nodup_cons.mp hl
    rw [List.foldl_cons, ih hl]
    by_cases hkj : k = j
    · subst hkj
      rw [if_neg hj, if_pos List.mem_cons_self, rd_tickCore ho, if_pos rfl]
    · have hne : 8 * n + j ≠ 8 * n + k := by omega
      rw [tickBits_tickCore ho hne, rd_tickCore ho, if_neg (kA_ne_of_core hne (by omega) (by omega))]
      simp only [List.mem_cons, hkj, false_or]

theorem regsBut_foldl_tickCore (n : Nat) (l : List Nat) (s : State) :
    RegsBut (l.map (fun k => kA (8 * n + k) (0xE8 + o))) s (l.foldl (fun s k => tickCore m s (8 * n + k)) s) :=
  List.foldlRecOn (motive := RegsBut _ s) l _ (fun _ _ => rfl) fun u hu k hk a ha => by
    rw [rd_tickCore ho, if_neg fun heq => ha (List.mem_map.mpr ⟨k, hk, heq⟩), hu a ha]

end

theorem frame_foldl_tickCore (m : Tick) (n : Nat) (l : List Nat) (s : State) :
    l.foldl (fun s k => tickCore m s (8 * n + k)) s =
      { s with regs := (l.foldl (fun s k => tickCore m s (8 * n + k)) s).regs } :=
  List.foldlRecOn (motive := fun (t : State) => t = { s with regs := t.regs }) l _ rfl fun u hu k _ => by
    unfold tickCore
    split
    · exact hu
    · rw [hu]; rfl

theorem exec_stableTickReceive {rest : List Tick} (hn : n < 32) (hticks : tget noTicks s.ticks (1 + n) = m :: rest)
    (hready : s.shedReady n = true) : exec (.stableTickReceive n) s =
      .next (stableTick { s with ticks := tset noTicks s.ticks (1 + n) rest } n m) := by
  refine (if_pos hn).trans (congrArg _ ?_)
  change (match tget noTicks s.ticks (1 + n) with
    | [] => s
    | m :: t =>
      let s1 := { s with ticks := tset noTicks s.ticks (1 + n) t }
      if s1.shedReady n then stableTick s1 n m else s1) = _
  rw [hticks]
  exact if_pos hready

theorem completes_stableTickReceive {rest : List Tick} {o : Nat} (hn : n < 32)
    (hticks : tget noTicks s.ticks (1 + n) = m :: rest) (hready : s.shedReady n = true)
    (ho : o = if m.train < 8 then 0 else 4) :
    Completes (.stableTickReceive n) s fun t => tget noTicks t.ticks (1 + n) = rest ∧
      (∀ k, k < 8 → t.rd (kA (8 * n + k) (0xE8 + o)) = tickBits m s (8 * n + k) o) ∧
      t = { s with regs := t.regs, ticks := t.ticks } ∧
      RegsBut ((List.range 8).map (fun k => kA (8 * n + k) (0xE8 + o))) s t := by
  refine completes_of_exec (exec_stableTickReceive hn hticks hready) ?_
  generalize hu : { s with ticks := tset noTicks s.ticks (1 + n) rest } = u
  have hregs : u.regs = s.regs := by rw [← hu]
  have hbits (g : Nat) : tickBits m u g o = tickBits m s g o := by
    simp only [tickBits, State.inReset, State.rb_of_regs hregs, State.rd_of_regs hregs]
    rfl
  have hframe := frame_foldl_tickCore m n (List.range 8) u
  rw [stableTick_eq]
  refine ⟨?ticks, fun k hk => ?bits, ?frame, (regsBut_of_regs hregs).trans (regsBut_foldl_tickCore ho n _ u)⟩
  case ticks =>
    rw [hframe, ← hu]
    exact tget_tset_same ..
  case bits => rw [rd_foldl_tickCore ho n List.nodup_range, if_pos (List.mem_range.mpr hk), hbits]
  case frame => rw [hframe, ← hu]

/-- Settles O30: debug access by the selection of a scalar register; a due clock point with no core to account for; a tick
message core by core. -/
theorem debugClocksAndTicks : Obligations.DebugClocksAndTicks := fun _ =>
  ⟨fun _ _ _ hg hlt hstop hsel hi => completes_dbgData_of_scalar hg hlt hstop hsel hi,
    fun _ _ hg hhalted hreset => completes_dbgData_of_running hg hhalted hreset,
    fun _ _ hn hpoint hshed hwait => completes_clockPointChange hn hpoint hshed hwait,
    fun _ _ hn hpoint => completes_clockPointChange_of_not_due hn hpoint,
    fun _ _ _ _ hn hticks hready ho => completes_stableTickReceive hn hticks hready ho⟩

end Sys2Proof.Machine
end

section
/-! PROOFS on the Kubry cores: a bundle as it is read from clean memory (R74, R76, R331). -/

namespace Sys2Proof.Machine

variable {s t : State} {a n w g : Nat}

/-! ## Bytes and numbers (R3) -/

theorem length_bytes (s : State) (a n : Nat) : (s.bytes a n).length = n := by simp [State.bytes]

theorem bytes_add (s : State) (a m n : Nat) : s.bytes a (m + n) = s.bytes a m ++ s.bytes (a + m) n := by
  simp only [State.bytes, List.range_add, List.map_append, List.map_map]
  congr 1
  exact List.map_congr_left fun i _ => congrArg s.byte (Nat.add_assoc a m i).symm

theorem leNat_append (x y : List Byte) : leNat (x ++ y) = leNat x + 256 ^ x.length * leNat y := by
  induction x with
  | nil => simp [leNat]
  | cons b x ih =>
    simp only [List.cons_append, leNat, ih, List.length_cons, Nat.pow_succ]
    ring

theorem leNat_lt (l : List Byte) : leNat l < 256 ^ l.length := by
  induction l with
  | nil => exact Nat.one_pos
  | cons b l ih =>
    have hb : b.toNat < 256 := b.isLt
    simp only [leNat, List.length_cons, Nat.pow_succ]
    omega

theorem natLe_leNat (l : List Byte) : natLe l.length (leNat l) = l := by
  induction l with
  | nil => rfl
  | cons b l ih =>
    have hb : b.toNat < 256 := b.isLt
    have hhead : BitVec.ofNat 8 (b.toNat + 256 * leNat l) = b := by
      apply BitVec.eq_of_toNat_eq
      rw [BitVec.toNat_ofNat]
      omega
    have htail : (b.toNat + 256 * leNat l) / 256 = leNat l := by omega
    rw [leNat, List.length_cons, natLe, hhead, htail, ih]

theorem natLe_ld (s : State) (a n : Nat) : natLe n (s.ld a n) = s.bytes a n := by
  have h := natLe_leNat (s.bytes a n)
  rwa [length_bytes] at h

theorem ld_lt (s : State) (a n : Nat) : s.ld a n < 256 ^ n := by
  have h := leNat_lt (s.bytes a n)
  rwa [length_bytes] at h

theorem ld_add (s : State) (a m n : Nat) : s.ld a (m + n) = s.ld a m + 256 ^ m * s.ld (a + m) n := by
  rw [State.ld, bytes_add, leNat_append, length_bytes]
  rfl

/-- A stretch of the bytes of a longer one. -/
theorem take_drop_bytes (s : State) (a : Nat) {k n m : Nat} (h : k + n ≤ m) :
    ((s.bytes a m).drop k).take n = s.bytes (a + k) n := by
  obtain ⟨r, rfl⟩ := Nat.exists_eq_add_of_le h
  rw [Nat.add_assoc, bytes_add, List.drop_left' (length_bytes s a k), bytes_add, List.take_left' (length_bytes s _ n)]

theorem le_bytes (s : State) (a : Nat) {k n m : Nat} (h : k + n ≤ m) : le (s.bytes a m) k n = s.ld (a + k) n := by
  rw [le, sub, take_drop_bytes s a h, length_bytes, Nat.sub_self, List.replicate_zero, List.append_nil]
  rfl

/-! ## A read within one clean word (R329, R331) -/

theorem readWord_of_noEcc (hecc : s.ecc = []) (hw : w < ddrBase) (kind req : Nat) :
    s.readWord w kind req = (s.ld w 16, false, s) := by
  have hgood : s.wordSt w = .good := by
    rw [State.wordSt, if_neg (Nat.not_le.mpr hw), State.eccOf, hecc]
    exact (by decide : sramDecode 0 = .good)
  simp only [State.readWord, hgood]

/-- A read that stays within one word of SRAM with no check difference: the bytes stored, and nothing logged. -/
theorem readMem_of_noEcc (hecc : s.ecc = []) (ha : a < ddrBase) (hn : 0 < n) (hfit : a % 16 + n ≤ 16) (kind req : Nat) :
    s.readMem a n kind req = (s.bytes a n, none, s) := by
  have hcount : (a + n + 15 - a / 16 * 16) / 16 = 1 := by omega
  have hword := readWord_of_noEcc hecc (w := a / 16 * 16) (by omega) kind req
  have hoff : a / 16 * 16 + (a - a / 16 * 16) = a := by omega
  simp only [State.readMem, hcount, State.readWords, hword, List.append_nil, natLe_ld,
    take_drop_bytes s (a / 16 * 16) (k := a - a / 16 * 16) (n := n) (m := 16) (by omega), hoff]
  rfl

theorem readMem_congr (h : SameData s t) (a n kind req : Nat) :
    (t.readMem a n kind req).1 = (s.readMem a n kind req).1 := by
  simp only [State.readMem, readWords_congr h]

/-! ## Bundles (R74) -/

/-- A bundle with nothing in slots 1 to 3. -/
abbrev slot0 (w : Nat) : Bundle := ⟨w, 0, 0, 0⟩

theorem ofBytes_bytes (s : State) (a : Nat) :
    Bundle.ofBytes (s.bytes a 16) = ⟨s.ld a 4, s.ld (a + 4) 4, s.ld (a + 8) 4, s.ld (a + 12) 4⟩ := by
  simp only [Bundle.ofBytes, le_bytes s a (k := 0) (n := 4) (m := 16) (by decide),
    le_bytes s a (k := 4) (n := 4) (m := 16) (by decide), le_bytes s a (k := 8) (n := 4) (m := 16) (by decide),
    le_bytes s a (k := 12) (n := 4) (m := 16) (by decide), Nat.add_zero]

theorem ofBytes_of_slot0 (h : s.ld a 16 = w) (hw : w < 2 ^ 32) : Bundle.ofBytes (s.bytes a 16) = slot0 w := by
  have h1 := ld_add s a 4 12
  have h2 := ld_add s (a + 4) 4 8
  have h3 := ld_add s (a + 8) 4 4
  simp only [Nat.add_assoc, Nat.reduceAdd, Nat.reducePow] at h1 h2 h3 hw
  obtain ⟨h4, h8, h12, h0⟩ : s.ld (a + 4) 4 = 0 ∧ s.ld (a + 8) 4 = 0 ∧ s.ld (a + 12) 4 = 0 ∧ s.ld a 4 = w := by omega
  rw [ofBytes_bytes, h0, h4, h8, h12]

theorem imem_place (hg : g < 256) {pc : Nat} (hpc : pc < 8192) :
    imemBase g + 16 * pc < ddrBase ∧ (imemBase g + 16 * pc) % 16 = 0 := by
  simp only [imemBase, stableBase, ddrBase]
  omega

theorem heldBundle_congr (h : SameData s t) (hpc : (t.core g).pc = (s.core g).pc) : heldBundle t g = heldBundle s g := by
  rw [heldBundle, heldBundle, hpc, readMem_congr h]

end Sys2Proof.Machine
end

section
/-! PROOFS on the Kubry cores: a plain slot 0 word, which acts on the scalar registers and the PC alone, from its decode
to its retirement (R71, R76, R84, R86, R97). -/

namespace Sys2Proof.Machine

variable {s t u : State} {g w w2 : Nat} {c c1 c2 : Core} {b : Bundle}

/-! ## Decode (R76 steps 2 to 4) -/

/-- A slot 0 word that is no Hitch, control-register, trap or kernel instruction and does not wait: arithmetic, logic,
loops and branches up to CALL, and FENCE (R84). -/
abbrev Plain (w : Nat) : Prop := zOp w < 0x28 ∨ zOp w = 0x30

theorem tb_zero (i : Nat) : tb 0 i = false := Nat.zero_testBit i
theorem fld_zero (hi lo : Nat) : fld 0 hi lo = 0 := by rw [fld, Nat.zero_shiftRight, Nat.zero_mod]

theorem isVec_zero : isVec 0 = false := tb_zero _
theorem mOp_zero : mOp 0 = 0 := fld_zero ..
theorem dOp_zero : dOp 0 = 0 := fld_zero ..

theorem isFtap_zero : isFtap 0 = false := by simp [isFtap, mOp_zero]
theorem isVmem_zero : isVmem 0 = false := by simp [isVmem, dOp_zero]
theorem isFar_zero : isFar 0 = false := by simp [isFar, dOp_zero]
theorem isFarLoad_zero : isFarLoad 0 = false := by simp [isFarLoad, dOp_zero]
theorem isFarStore_zero : isFarStore 0 = false := by simp [isFarStore, dOp_zero]
theorem isNear_zero : isNear 0 = false := by simp [isNear, dOp_zero]
theorem isNearStore_zero : isNearStore 0 = false := by simp [isNearStore, dOp_zero]
theorem isNearLoad_zero : isNearLoad 0 = false := by simp [isNearLoad, isNear_zero]

theorem meet_nil (l : List Nat) : meet l [] = false := by simp [meet]
theorem nil_meet (l : List Nat) : meet [] l = false := rfl

/-- An empty slot names no register. -/
theorem emptySlot : m1DestS 0 = [] ∧ m1DestAcc 0 = [] ∧ m1Pm 0 = [] ∧ d23DestS 0 = [] ∧ d23DestAcc 0 = [] ∧ d23Pm 0 = [] ∧
    v23Dest 0 = [] ∧ v23Src 0 = [] := by decide

theorem decodeExc_of_legal (hlegal : z0Legal w = true) (hkernel : z0Kernel w = false) : decodeExc c (slot0 w) = none := by
  obtain ⟨hs1, hacc1, hpm1, hs2, hacc2, hpm2, hv2, -⟩ := emptySlot
  have hm1 : m1Legal 0 = true := by decide
  have h2 : d23Legal 2 0 = true := by decide
  have h3 : d23Legal 3 0 = true := by decide
  have hv1 : v1Uses 0 = false := by simp [v1Uses, isVec_zero]
  simp [decodeExc, exIf, hlegal, hkernel, isVec_zero, hm1, h2, h3, hs1, hacc1, hpm1, hs2, hacc2, hpm2, hv2, hv1, isFtap_zero,
    isVmem_zero, meet_nil, nil_meet]

theorem decodeExc_of_illegal (hlegal : z0Legal w = false) : decodeExc c (slot0 w) = some (ecIllegal, 0) := by
  simp [decodeExc, exIf, hlegal]

theorem z0Kernel_of_plain (h : Plain w) : z0Kernel w = false := by
  unfold z0Kernel
  dsimp only
  rw [if_neg (by omega), if_neg (by omega), if_neg (by omega)]

theorem step3Exc_of_plain (h : Plain w) : step3Exc s g c w = none := by
  have hcause : hitchCause s g c w = 0 := by
    unfold hitchCause
    dsimp only
    rw [if_neg (by omega), if_neg (by omega), if_pos (by omega)]
  unfold step3Exc
  dsimp only
  rw [if_neg (by omega), hcause, if_neg (by decide), if_neg (by omega)]

theorem addrExc_slot0 : addrExc c (slot0 w) = none := by
  simp [addrExc, dExc, ftapExc, dOp_zero, isFtap_zero]

/-- The bundle at PC, fetched from clean memory. -/
theorem fetch_of_atWord (hg : g < 256) (hat : AtWord s g w) (hw : w < 2 ^ 32) :
    ∃ l, s.readMem (imemBase g + 16 * (s.core g).pc) 16 1 (coreEp g) = (l, none, s) ∧ Bundle.ofBytes l = slot0 w := by
  obtain ⟨⟨hecc, -⟩, hpc, hld, -⟩ := hat
  obtain ⟨hlow, halign⟩ := imem_place hg hpc
  exact ⟨_, readMem_of_noEcc hecc hlow (by decide) (by omega) .., ofBytes_of_slot0 hld hw⟩

/-- A legal plain word that stands at PC alone issues. -/
theorem issue_of_plain (hg : g < 256) (hat : AtWord s g w) (hw : w < 2 ^ 32) (hplain : Plain w) (hlegal : z0Legal w = true) :
    issue s g = daStage s g (slot0 w) := by
  obtain ⟨l, hread, hbundle⟩ := fetch_of_atWord hg hat hw
  have hpc : ¬ 8192 ≤ (s.core g).pc := Nat.not_le.mpr hat.2.1
  unfold issue
  dsimp only
  rw [if_neg hpc, hread]
  dsimp only
  rw [if_neg (by decide), hbundle, decodeExc_of_legal hlegal (z0Kernel_of_plain hplain)]
  dsimp only
  rw [step3Exc_of_plain hplain, addrExc_slot0]

theorem issue_of_illegal (hg : g < 256) (hat : AtWord s g w) (hw : w < 2 ^ 32) (hlegal : z0Legal w = false) :
    issue s g = raiseExc s g ecIllegal 0 0 none := by
  obtain ⟨l, hread, hbundle⟩ := fetch_of_atWord hg hat hw
  have hpc : ¬ 8192 ≤ (s.core g).pc := Nat.not_le.mpr hat.2.1
  unfold issue
  dsimp only
  rw [if_neg hpc, hread]
  dsimp only
  rw [if_neg (by decide), hbundle, decodeExc_of_illegal hlegal]

/-! ## DA (R71, R115) -/

/-- Nothing of a core has changed but its hold, its datapath and its vector state. -/
abbrev VecFrame (c c1 : Core) : Prop :=
  c1 = { c with hold := c1.hold, vreg := c1.vreg, vexp := c1.vexp, live := c1.live, dirty := c1.dirty, vcSr := c1.vcSr, dp := c1.dp }

theorem VecFrame.trans (h1 : VecFrame c c1) (h2 : VecFrame c1 c2) : VecFrame c c2 := by
  rw [h1] at h2
  exact h2

theorem vecFrame_dpDone (c : Core) : VecFrame c c.dpDone := by
  unfold Core.dpDone
  split
  · rfl
  · next d _ =>
    have hwrites : VecFrame c (d.writes.foldl (fun c p => c.setV p.1 p.2.1.toNat p.2.2.toInt) c) :=
      List.foldlRecOn (motive := VecFrame c) _ _ rfl fun c1 h p _ => h.trans rfl
    exact hwrites.trans rfl

theorem tick_zero (c : Core) : c.tick 0 = c := by
  have hbudget : (if c.km then c.budget.toNat else c.budget.toNat - 0) = c.budget.toNat := ite_self _
  unfold Core.tick
  dsimp only
  rw [hbudget, BitVec.ofNat_toNat, BitVec.setWidth_eq, Nat.add_zero, Nat.add_zero, ite_self, if_pos rfl,
    decide_eq_false (Nat.not_lt_zero _), if_neg Bool.false_ne_true]

/-- The core with no hold. -/
def unheld (c : Core) : Core := { c with hold := .none }

/-- The core in EX, its bundle issued without a stall: no hold, and the datapath left if its time has come. -/
def inEx (c : Core) : Core :=
  match c.dp with
  | some d => if d.doneAt ≤ c.cycle then (unheld c).dpDone else unheld c
  | none => unheld c

theorem inEx_of_idle (h : c.dp = none) : inEx c = unheld c := by simp only [inEx, h]

theorem inEx_of_done {d : DpOp} (h : c.dp = some d) (hdone : d.doneAt ≤ c.cycle) : inEx c = (unheld c).dpDone := by
  simp only [inEx, h, if_pos hdone]

theorem inEx_of_busy {d : DpOp} (h : c.dp = some d) (hbusy : ¬ d.doneAt ≤ c.cycle) : inEx c = unheld c := by
  simp only [inEx, h, if_neg hbusy]

theorem vecFrame_inEx (c : Core) : VecFrame c (inEx c) := by
  have hunheld : VecFrame c (unheld c) := rfl
  unfold inEx
  split
  · split
    · exact hunheld.trans (vecFrame_dpDone _)
    · exact hunheld
  · exact hunheld

theorem scoreboardStall_of_plain (h : Plain w) : scoreboardStall s g c (slot0 w) = false := by
  have h1 : zOp w ≠ 0x39 := by omega
  have h2 : zOp w ≠ 0x3B := by omega
  have h3 : zOp w ≠ 0x3C := by omega
  simp [scoreboardStall, h1, h2, h3, isNear_zero, isFtap_zero]

theorem resvStall_of_plain (h : Plain w) : resvStall s g c (slot0 w) = false := by
  have h1 : zOp w ≠ 0x38 := by omega
  simp [resvStall, h1, isFar_zero, isFarStore_zero]

theorem usesVec_slot0 : usesVec (slot0 w) = false := by simp [usesVec, v1Uses, isVec_zero, isVmem_zero]

theorem vecReady_slot0 (c : Core) : vecReady c (slot0 w) = 0 := by
  obtain ⟨-, -, -, -, -, -, hdest, hsrc⟩ := emptySlot
  unfold vecReady
  split
  · rfl
  · simp [isVec_zero, hdest, hsrc, nil_meet]

/-- The results a bundle needs are there, so that it does not stall (R71). -/
abbrev ResultsReady (c : Core) (b : Bundle) : Prop := ∀ k ∈ needKeys b, tget (fun _ => 0) c.ready k ≤ c.cycle

theorem foldl_max_of_le {l : List Nat} {f : Nat → Nat} {m : Nat} (h : ∀ k ∈ l, f k ≤ m) :
    l.foldl (fun m k => max m (f k)) 0 ≤ m :=
  List.foldlRecOn (motive := (· ≤ m)) l _ (Nat.zero_le m) fun _ hx k hk => Nat.max_le.mpr ⟨hx, h k hk⟩

theorem CoreKept.charge {l : List Nat} (hk : CoreKept l g s t) (hl : kA g 0x24 ∈ l) (n stall : Nat) :
    CoreKept l g s (t.charge g n stall) := (hk.modCore _).wr hl _

theorem core_charge (s : State) (g n stall : Nat) : (s.charge g n stall).core g = (s.core g).tick n :=
  (core_cnt ..).trans (core_modCore_same s g _)

/-- A plain word that finds its results ready goes on to EX in the cycle it stands in; a FENCE, with no store
outstanding (R84). -/
theorem exists_daStage_eq_exStage (hplain : Plain w) (hfence : zOp w = 0x30 → (s.core g).stores = [])
    (hready : ResultsReady (s.core g) (slot0 w)) :
    ∃ u, CoreKept [kA g 0x24] g s u ∧ u.core g = inEx (s.core g) ∧ daStage s g (slot0 w) = exStage u g (slot0 w) := by
  have hissue : max (max (s.core g).cycle (vecReady (s.core g) (slot0 w)))
      ((needKeys (slot0 w)).foldl (fun m k => max m (tget (fun _ => 0) (s.core g).ready k)) 0) = (s.core g).cycle := by
    rw [vecReady_slot0, Nat.max_zero]
    exact Nat.max_eq_left (foldl_max_of_le hready)
  have hkept : CoreKept [kA g 0x24] g s ((s.charge g 0 0).modCore g unheld) :=
    ((CoreKept.refl _ g s).charge List.mem_cons_self 0 0).modCore _
  have hcore : ((s.charge g 0 0).modCore g unheld).core g = unheld (s.core g) := by
    rw [core_modCore_same, core_charge, tick_zero]
  have hnofence : ¬ (zOp w = 0x30 ∧ (s.core g).stores ≠ []) := fun h => h.2 (hfence h.1)
  have hnovec : ¬ (usesVec (slot0 w) = true ∧ (s.core g).switchNeeded = true) := by simp [usesVec_slot0]
  unfold daStage
  dsimp only
  rw [scoreboardStall_of_plain hplain, if_neg Bool.false_ne_true, if_neg hnofence, resvStall_of_plain hplain,
    if_neg Bool.false_ne_true, if_neg hnovec, hissue, Nat.sub_self]
  cases hdp : (s.core g).dp with
  | none => exact ⟨_, hkept, hcore.trans (inEx_of_idle hdp).symm, rfl⟩
  | some d =>
    dsimp only
    by_cases hdone : d.doneAt ≤ (s.core g).cycle
    · rw [if_pos hdone]
      refine ⟨_, hkept.modCore Core.dpDone, ?_, rfl⟩
      rw [core_modCore_same, hcore, inEx_of_done hdp hdone]
    · rw [if_neg hdone]
      exact ⟨_, hkept, hcore.trans (inEx_of_busy hdp hdone).symm, rfl⟩

/-! ## EX and retirement (R76, R86, R97) -/

theorem nearRead_of_no_access (hload : isNearLoad w = false) (hvec : isVmem w = false) (slot : Nat) :
    nearRead s g slot c w = ([], none, s) := by
  simp [nearRead, hload, hvec]

theorem exStage_slot0 (hplain : Plain w) : exStage s g (slot0 w) = retire s g (slot0 w) [] [] := by
  have hpost : zOp w ≠ 0x38 := by omega
  simp only [exStage, exFinish, hpost, if_false, isFarLoad_zero, Bool.false_eq_true,
    nearRead_of_no_access isNearLoad_zero isVmem_zero, Option.map_none]

/-- What a slot 2 or 3 word leaves of the core: a load's result, a store's flags and the post-modify (R91). -/
def memSlot (c0 : Core) (w : Nat) (l : List Byte) (c : Core) : Core :=
  pmTo c0 w (storeFlags c0 w (if isNearLoad w ∨ isFarLoad w then loadTo c w l else c))

/-- What the slots of bundle `b` leave of the core, slot 0 having left `c`. -/
def slotsDone (c0 : Core) (b : Bundle) (l2 l3 : List Byte) (c : Core) : Core :=
  memSlot c0 b.w3 l3 (memSlot c0 b.w2 l2 (if isVec b.w1 then v1Exec c0 b.w1 c0.cycle c else m1Exec c0 b.w1 c))

/-- Where the core goes on after the bundle at `p`: at the target of a branch taken, else by its loops (R86). -/
def goesOn (tgt : Option Nat) (c : Core) (p : Nat) : Core × Nat :=
  match tgt with
  | some t => (c, t)
  | none => loopNext c p

/-- The core after bundle `b`, whose slots left `c` of the core `c0` and which goes on at `p` after `cost` cycles: the
cycles are charged in the mode the bundle ran in (R97), and its late results marked (R71). -/
def retiredCore (c0 c : Core) (b : Bundle) (p cost : Nat) : Core :=
  { c with
    pc := p
    hold := .none
    ready := (lateKeys b).foldl (fun t k => tset (fun _ => 0) t k (c0.cycle + 2)) c.ready
    bpSkip := if c0.bpSkip = some c0.pc then c0.bpSkip else none
    cycle := (c0.tick cost).cycle
    lines := c.lines ||| (if tb (c0.tick cost).lines 21 && !tb c0.lines 21 then 2 ^ 21 else 0)
    budget := if zOp b.w0 = 0x2C ∧ zI b.w0 = 0x0E ∧ c0.km then c.budget else (c0.tick cost).budget
    sample := (c0.tick cost).sample
    accSpent := (c0.tick cost).accSpent
    stores := c0.stores
    seq := c0.seq }

section
variable (c0 c : Core) (b : Bundle) (p cost i : Nat)

@[simp] theorem gs_retiredCore : (retiredCore c0 c b p cost).gs i = c.gs i := rfl
@[simp] theorem ga_retiredCore : (retiredCore c0 c b p cost).ga i = c.ga i := rfl
@[simp] theorem srb_retiredCore : (retiredCore c0 c b p cost).srb i = c.srb i := rfl
@[simp] theorem km_retiredCore : (retiredCore c0 c b p cost).km = c.km := rfl
@[simp] theorem ie_retiredCore : (retiredCore c0 c b p cost).ie = c.ie := rfl
@[simp] theorem pc_retiredCore : (retiredCore c0 c b p cost).pc = p := rfl
@[simp] theorem hold_retiredCore : (retiredCore c0 c b p cost).hold = .none := rfl
@[simp] theorem cycle_retiredCore : (retiredCore c0 c b p cost).cycle = c0.cycle + cost := rfl

end

/-- A STEP's bundle has retired: the core halts again (R103). -/
def stepEnds (s : State) (g : Nat) : State :=
  (s.wb (kA g 0) 2 false).modCore g (fun c => { c with stepping := false, halted := true, wfe := false, since := s.now })

/-- The bundle's stores, its Hitch instruction, its count, and the wait or halt that follows it. -/
def bundleDone (s : State) (g : Nat) (b : Bundle) (nx : Core × Nat) (cost : Nat) : State :=
  let c0 := s.core g
  let s1 := bundleStores (s.setCore g (retiredCore c0 nx.1 b nx.2 cost)) g c0 b
  let s2 := (z0Hitch s1 g c0 b.w0).cnt (kA g 0x20) 1
  let s3 := if zOp b.w0 = 0x2E ∧ ipend s2 g = 0 then s2.modCore g (fun c => { c with wfe := true, since := s2.now }) else s2
  if c0.stepping then stepEnds s3 g else s3

theorem retire_eq (s : State) (g : Nat) (b : Bundle) (l2 l3 : List Byte) : retire s g b l2 l3 =
    bundleDone s g b
      (goesOn (z0Exec s g (s.core g) b.w0 (s.core g)).2.1
        (slotsDone (s.core g) b l2 l3 (z0Exec s g (s.core g) b.w0 (s.core g)).1) (s.core g).pc)
      ((z0Exec s g (s.core g) b.w0 (s.core g)).2.2 + max (vLines (s.core g) b.w2) (vLines (s.core g) b.w3) - 1) := rfl

theorem memSlot_zero (c0 : Core) (l : List Byte) (c : Core) : memSlot c0 0 l c = c := by
  simp [memSlot, pmTo, storeFlags, dOp_zero, isNearLoad_zero, isFarLoad_zero]

/-- A bundle without slots 1 and 3. -/
theorem slotsDone_of_slot2 (c0 : Core) (w0 w2 : Nat) (l2 l3 : List Byte) (c : Core) :
    slotsDone c0 ⟨w0, 0, w2, 0⟩ l2 l3 c = memSlot c0 w2 l2 c := by
  simp [slotsDone, memSlot_zero, isVec_zero, m1Exec, mOp_zero]

theorem goesOn_of_no_loop (h0 : c.srb 13 = false) (h1 : c.srb 14 = false) (tgt : Option Nat) (p : Nat) :
    goesOn tgt c p = (c, tgt.getD (p + 1)) := by
  cases tgt
  · simp [goesOn, loopNext, h0, h1]
  · rfl

theorem z0Hitch_of_plain (h : Plain w) : z0Hitch s g c w = s := by
  unfold z0Hitch
  split
  · omega
  · omega
  · omega
  · rfl

/-- The state in which a bundle of core `g` has retired and left the core as `c`. -/
def retireTo (s : State) (g : Nat) (c : Core) : State := (s.setCore g c).cnt (kA g 0x20) 1

theorem bundleDone_of_plain {w0 : Nat} (hplain : Plain w0) (hstore : isNearStore w2 = false) (hfar : isFarStore w2 = false)
    (nx : Core × Nat) (cost : Nat) : bundleDone s g ⟨w0, 0, w2, 0⟩ nx cost =
      (let t := retireTo s g (retiredCore (s.core g) nx.1 ⟨w0, 0, w2, 0⟩ nx.2 cost)
       if (s.core g).stepping then stepEnds t g else t) := by
  have hwfe (u : State) : ¬ (zOp w0 = 0x2E ∧ ipend u g = 0) := fun h => by omega
  have hstores (u : State) : bundleStores u g (s.core g) ⟨w0, 0, w2, 0⟩ = u := by
    simp [bundleStores, isFtap_zero, hstore, isNearStore_zero, hfar]
  unfold bundleDone
  dsimp only
  rw [hstores, z0Hitch_of_plain hplain, if_neg (hwfe _)]
  rfl

/-- The retirement of a plain word, with a slot 2 word that stores nothing (R76, R86). -/
theorem retire_of_plain {w0 cost : Nat} {tgt : Option Nat} (l2 l3 : List Byte) (hplain : Plain w0)
    (hstore : isNearStore w2 = false) (hfar : isFarStore w2 = false) (hvec : isVmem w2 = false)
    (hz : z0Exec s g (s.core g) w0 (s.core g) = (c1, tgt, cost)) (hslot2 : memSlot (s.core g) w2 l2 c1 = c)
    (hloop0 : c.srb 13 = false) (hloop1 : c.srb 14 = false) :
    retire s g ⟨w0, 0, w2, 0⟩ l2 l3 =
      (let t := retireTo s g (retiredCore (s.core g) c ⟨w0, 0, w2, 0⟩ (tgt.getD ((s.core g).pc + 1)) cost)
       if (s.core g).stepping then stepEnds t g else t) := by
  have hlines : cost + max (vLines (s.core g) w2) (vLines (s.core g) 0) - 1 = cost := by
    simp [vLines, hvec, isVmem_zero]
  rw [retire_eq, bundleDone_of_plain hplain hstore hfar, slotsDone_of_slot2, hz]
  dsimp only
  rw [hslot2, goesOn_of_no_loop hloop0 hloop1, hlines]

end Sys2Proof.Machine
end

section
/-! PROOFS on the Kubry cores: the entry into the handler (R94 to R96). -/

namespace Sys2Proof.Machine

variable {s t u : State} {g cause code : Nat} {c c1 : Core}

/-- Core `c1` is `c` as it has entered its handler with `cause`; the exception's own registers may be set besides. -/
abbrev EnterFrame (c c1 : Core) (cause : Nat) : Prop :=
  c1 = { c.enter cause with eval := c1.eval, evalHi := c1.evalHi, lastCode := c1.lastCode, busAsync := c1.busAsync }

theorem testBit_fld_bit (v i : Nat) : (fld v i i).testBit 0 = v.testBit i := by
  rw [fld, Nat.testBit_mod_two_pow, Nat.testBit_shiftRight, decide_eq_true (by omega), Bool.true_and, Nat.add_zero]

/-- KB_SR on entry, bit by bit: kernel mode, interrupts off, EXL, and the mode and enable it came from. -/
theorem testBit_srEntry (sr : Nat) : (srEntry sr).testBit 9 = true ∧ (srEntry sr).testBit 8 = false ∧
    (srEntry sr).testBit 10 = true ∧ (srEntry sr).testBit 11 = sr.testBit 9 ∧ (srEntry sr).testBit 12 = sr.testBit 8 := by
  simp only [srEntry, testBit_setFld _ _ _ _ _ (Nat.le_refl _), Nat.reduceLeDiff, and_self, and_true, and_false, if_true,
    if_false, Nat.sub_self, testBit_fld_bit]
  decide

theorem entered_of_enterFrame (h : EnterFrame (s.core g) (t.core g) cause) : Entered s t g cause := by
  obtain ⟨hkm, hie, hexl, hpkm, hpie⟩ := testBit_srEntry (s.core g).sr.toNat
  have hsr {i : Nat} (hi : i < 32) : (t.core g).srb i = (srEntry (s.core g).sr.toNat).testBit i := by
    rw [h]; exact testBit_ofNat_sr _ hi
  refine ⟨?epc, ?ecause, ?pc, (hsr (by decide)).trans hkm, (hsr (by decide)).trans hie, (hsr (by decide)).trans hexl,
    (hsr (by decide)).trans hpkm, (hsr (by decide)).trans hpie, ?hold, ?wfe, fun i => ⟨?gs, ?ga⟩⟩
  all_goals rw [h]; rfl

/-! ## Exceptions (R94, R95) -/

/-- The core as exception `code` of slot `slot` takes it, with the response code and value the exception has. -/
def trapped (code slot rsp : Nat) (val : Option Nat) (c : Core) : Core :=
  let c1 := match val with
    | some v => { c with
        eval := BitVec.ofNat 32 v
        evalHi := if code = 9 ∨ code = 11 then c.evalHi else BitVec.ofNat 32 (v / 2 ^ 32 % 4096) }
    | none => c
  { c1.enter (code + slot * 256 + rsp * 1024) with lastCode := code }

theorem enterFrame_trapped (code slot rsp : Nat) (val : Option Nat) (c : Core) :
    EnterFrame c (trapped code slot rsp val c) (code + slot * 256 + rsp * 1024) := by
  cases val <;> rfl

theorem raiseExc_of_not_exl (h : (s.core g).exl = false) (code slot rsp : Nat) (val : Option Nat) :
    raiseExc s g code slot rsp val = (s.modCore g (trapped code slot rsp val)).cnt (kA g 0x28) 1 :=
  if_neg (by rw [h]; exact Bool.false_ne_true)

theorem core_raiseExc (h : (s.core g).exl = false) (code slot rsp : Nat) (val : Option Nat) :
    (raiseExc s g code slot rsp val).core g = trapped code slot rsp val (s.core g) := by
  rw [raiseExc_of_not_exl h, core_cnt, core_modCore_same]

theorem coreKept_raiseExc (h : (s.core g).exl = false) (code slot rsp : Nat) (val : Option Nat) :
    CoreKept [kA g 0x28] g s (raiseExc s g code slot rsp val) := by
  rw [raiseExc_of_not_exl h]
  exact ((CoreKept.refl _ g s).modCore _).wr List.mem_cons_self _

theorem rd_raiseExc (h : (s.core g).exl = false) (code slot rsp : Nat) (val : Option Nat) :
    (raiseExc s g code slot rsp val).rd (kA g 0x28) = sat32 (s.rd (kA g 0x28) + 1) := by
  rw [raiseExc_of_not_exl h, State.rd_cnt, if_pos rfl]
  rfl

/-- An exception with EXL set halts the core in a double fault (R96). -/
theorem raiseExc_of_exl (h : (s.core g).exl = true) (code slot rsp : Nat) (val : Option Nat) :
    raiseExc s g code slot rsp val = doubleFault s g code := if_pos h

end Sys2Proof.Machine
end

section
/-! PROOFS on the Kubry cores: what ADD, SUB, BEQ, NOP and FENCE do, and how a bundle of one of them retires (R76, R84 to
R86). -/

namespace Sys2Proof.Machine

variable {s t u : State} {g w d a b k op cost : Nat} {c c0 : Core}

/-! ## ADD, SUB and BEQ (R84, R85) -/

theorem encode_fields (hop : op < 64) (hd : d < 32) (ha : a < 32) (hk : k < 2 ^ 16) (hw : op * 2 ^ 26 + d * 2 ^ 21 + a * 2 ^ 16 + k = w) :
    zOp w = op ∧ zD w = d ∧ zA w = a ∧ zI w = k ∧ zB w = k / 2 ^ 11 ∧ fld w 10 0 = k % 2 ^ 11 ∧ w < 2 ^ 32 := by
  simp only [zOp, zD, zA, zI, zB, fld, Nat.shiftRight_eq_div_pow]
  omega

theorem z0Exec_add (hop : zOp w = 0x01) (s : State) (g : Nat) (c0 c : Core) : z0Exec s g c0 w c =
    (c.res (zD w) (add32 (c0.gs (zA w)) (c0.gs (zB w))).1 (some (add32 (c0.gs (zA w)) (c0.gs (zB w))).2.1)
      (some (add32 (c0.gs (zA w)) (c0.gs (zB w))).2.2), none, 1) := by
  simp only [z0Exec, hop]

theorem z0Exec_sub (hop : zOp w = 0x02) (s : State) (g : Nat) (c0 c : Core) : z0Exec s g c0 w c =
    (c.res (zD w) (sub32 (c0.gs (zA w)) (c0.gs (zB w))).1 (some (sub32 (c0.gs (zA w)) (c0.gs (zB w))).2.1)
      (some (sub32 (c0.gs (zA w)) (c0.gs (zB w))).2.2), none, 1) := by
  simp only [z0Exec, hop]

theorem z0Exec_beq (hop : zOp w = 0x20) (s : State) (g : Nat) (c0 c : Core) : z0Exec s g c0 w c =
    if c0.gs (zD w) = c0.gs (zA w) then (c, some (((c0.pc : Int) + sgn 16 w) % (2 ^ 32 : Nat)).toNat, 3) else (c, none, 1) := by
  simp [z0Exec, hop, branchTaken]

/-- NOP and FENCE act on no register. -/
theorem z0Exec_of_idle (hop : zOp w = 0x00 ∨ zOp w = 0x30) (s : State) (g : Nat) (c0 c : Core) :
    z0Exec s g c0 w c = (c, none, 1) := by
  rcases hop with hop | hop <;> simp [z0Exec, hop]

theorem z0Legal_add_sub (hop : zOp w = 0x01 ∨ zOp w = 0x02) (hrest : fld w 10 0 = 0) : z0Legal w = true := by
  rcases hop with hop | hop <;> simp [z0Legal, hop, hrest]

theorem z0Legal_beq (hop : zOp w = 0x20) : z0Legal w = true := by simp [z0Legal, hop]

theorem sr_flags (c : Core) (r : Nat) (cy v : Option Bool) : ∃ x, c.flags r cy v = { c with sr := x } := by
  cases cy <;> cases v <;> exact ⟨_, rfl⟩

theorem gs_res (c : Core) (d r : Nat) (cy v : Option Bool) (i : Nat) :
    (c.res d r cy v).gs i = if d = i then r % 2 ^ 32 else c.gs i := by
  obtain ⟨x, hx⟩ := sr_flags (c.ss d r) r cy v
  rw [Core.res, hx, ← gs_ss]
  rfl

theorem ga_res (c : Core) (d r : Nat) (cy v : Option Bool) (i : Nat) : (c.res d r cy v).ga i = c.ga i := by
  obtain ⟨x, hx⟩ := sr_flags (c.ss d r) r cy v
  rw [Core.res, hx]
  rfl

/-- Z, N, C and V of a result; the rest of KB_SR is as it was (R85). -/
theorem srb_res (c : Core) (d r : Nat) (cy v : Bool) {j : Nat} (hj : j < 32) :
    (c.res d r (some cy) (some v)).srb j = if 3 = j then v else if 2 = j then cy else if 1 = j then tb r 31
      else if 0 = j then decide (r = 0) else c.srb j := by
  simp only [Core.res, Core.flags, srb_setSr _ _ hj]
  rfl

theorem srb_res_of_no_flag (c : Core) (d r : Nat) (cy v : Bool) {j : Nat} (hj : j < 32) (hflag : 4 ≤ j) :
    (c.res d r (some cy) (some v)).srb j = c.srb j := by
  rw [srb_res _ _ _ _ _ hj, if_neg (by omega), if_neg (by omega), if_neg (by omega), if_neg (by omega)]

/-! ## A plain word that does not stall, from DA to retirement -/

@[simp] theorem pc_inEx (c : Core) : (inEx c).pc = c.pc := by rw [vecFrame_inEx c]
@[simp] theorem sr_inEx (c : Core) : (inEx c).sr = c.sr := by rw [vecFrame_inEx c]
@[simp] theorem cycle_inEx (c : Core) : (inEx c).cycle = c.cycle := by rw [vecFrame_inEx c]
@[simp] theorem budget_inEx (c : Core) : (inEx c).budget = c.budget := by rw [vecFrame_inEx c]
@[simp] theorem stepping_inEx (c : Core) : (inEx c).stepping = c.stepping := by rw [vecFrame_inEx c]
@[simp] theorem gs_inEx (c : Core) (i : Nat) : (inEx c).gs i = c.gs i := by rw [vecFrame_inEx c]; rfl
@[simp] theorem ga_inEx (c : Core) (i : Nat) : (inEx c).ga i = c.ga i := by rw [vecFrame_inEx c]; rfl
@[simp] theorem srb_inEx (c : Core) (i : Nat) : (inEx c).srb i = c.srb i := congrArg (fun x => x.getLsbD i) (sr_inEx c)

/-- From `s` to `t` core `g` has retired a bundle that left it as `c`. -/
structure RetiredAs (c : Core) (g : Nat) (s t : State) : Prop where
  kept : CoreKept [kA g 0x20, kA g 0x24] g s t
  core : t.core g = c
  count : t.rd (kA g 0x20) = sat32 (s.rd (kA g 0x20) + 1)

theorem retiredAs_retireTo (hk : CoreKept [kA g 0x24] g s u) (c : Core) : RetiredAs c g s (retireTo u g c) := by
  have hcount : kA g 0x20 ∉ [kA g 0x24] := List.mem_singleton.not.mpr (kA_ne (by decide))
  refine ⟨?kept, (core_cnt ..).trans (core_setCore_same ..), ?count⟩
  case kept => exact ((hk.mono (List.subset_cons_self _ _)).setCore c).wr List.mem_cons_self _
  case count => rw [retireTo, State.rd_cnt, if_pos rfl, State.setCore_rd, hk.regs _ hcount]

section
variable {c : Core} {tgt : Option Nat}
  (hplain : Plain w) (hfence : zOp w = 0x30 → (s.core g).stores = []) (hready : ResultsReady (s.core g) (slot0 w))
  (hz : ∀ u, z0Exec u g (inEx (s.core g)) w (inEx (s.core g)) = (c, tgt, cost))
  (hloop0 : c.srb 13 = false) (hloop1 : c.srb 14 = false)
include hplain hfence hready hz hloop0 hloop1

theorem exists_daStage_of_plain : ∃ t,
    RetiredAs (retiredCore (inEx (s.core g)) c (slot0 w) (tgt.getD ((s.core g).pc + 1)) cost) g s t ∧
      daStage s g (slot0 w) = if (s.core g).stepping then stepEnds t g else t := by
  obtain ⟨u, hkept, hcore, heq⟩ := exists_daStage_eq_exStage hplain hfence hready
  refine ⟨_, retiredAs_retireTo hkept _, ?_⟩
  rw [heq, exStage_slot0 hplain, retire_of_plain [] [] hplain isNearStore_zero isFarStore_zero isVmem_zero
    (by rw [hcore]; exact hz u) (memSlot_zero ..) hloop0 hloop1, hcore, pc_inEx, stepping_inEx]

/-- A plain word that does not stall retires, and no STEP ends with it. -/
theorem retiredAs_daStage (hstep : (s.core g).stepping = false) :
    RetiredAs (retiredCore (inEx (s.core g)) c (slot0 w) (tgt.getD ((s.core g).pc + 1)) cost) g s (daStage s g (slot0 w)) := by
  obtain ⟨t, hret, heq⟩ := exists_daStage_of_plain hplain hfence hready hz hloop0 hloop1
  rw [heq, hstep]
  exact hret

end

theorem resultsReady_of_none {b : Bundle} (h : c.ready = []) : ResultsReady c b := fun k _ => by
  rw [h]
  exact Nat.zero_le _

end Sys2Proof.Machine
end

section
/-! PROOF of the statement on a bundle's run (R76, R84 to R86, R94 to R97). -/

namespace Sys2Proof.Machine

variable {s t u : State} {g w d a b k op cost : Nat} {c c0 : Core} {tgt : Option Nat}

/-! ## The boundary (R94) -/

theorem chargeCtx_of_no_charge (h : ∀ k, k < 64 → (s.tag g k).charge = 0) : chargeCtx s g = s := by
  unfold chargeCtx
  refine List.foldlRecOn (motive := fun u => u = s) _ _ rfl fun u hu k hk => ?_
  subst hu
  exact if_neg fun hc => hc.1 (h k (List.mem_range.mp hk))

/-- Where nothing else is due at a boundary, the next bundle issues. -/
theorem boundary_eq_issue (hu : chargeCtx s g = u) (hstop : (u.th (runThread u g)).stop = none)
    (hframe : (u.core g).frameUe = none) (hasync : (u.core g).busAsync = []) (hbudget : budgetDue (u.core g) = false)
    (hline : dueLine u g = none) (hhalt : u.rb (kA g 0) 1 = true → (u.core g).stepping = true)
    (hbreak : atBreak u g = true → (u.core g).stepping = true) (hswitch : preemptDue u g = false) :
    boundary s g = issue u g := by
  unfold boundary
  dsimp only
  rw [hu, hstop, hframe, hasync, hbudget, hline, hswitch]
  have hhalt' : ¬ (u.rb (kA g 0) 1 = true ∧ (u.core g).stepping = false) := fun h => by simp [hhalt h.1] at h
  have hbreak' : ¬ (atBreak u g = true ∧ (u.core g).stepping = false) := fun h => by simp [hbreak h.1] at h
  simp [hhalt', hbreak']

theorem exec_bundle (hg : g < 256) : exec (.bundle g) s =
    .next (if coreLive s g && !(s.core g).wfe && decide ((s.core g).hold = .none) then boundary s g else s) := if_pos hg

theorem exec_bundle_of_quiet (hq : Quiet s g) : exec (.bundle g) s = .next (issue s g) := by
  obtain ⟨hg, hlive, hwfe, hhold, hframe, hasync, hbudget, hline, hstop, hhalt, hbreak, hswitch, -, hcharge⟩ := hq
  rw [exec_bundle hg, if_pos (by simp [hlive, hwfe, hhold])]
  exact congrArg Host.Outcome.next (boundary_eq_issue (chargeCtx_of_no_charge hcharge) hstop hframe hasync hbudget hline
    (fun h => by simp [hhalt] at h) (fun h => by simp [hbreak] at h) hswitch)

/-- A plain word other than FENCE at a quiet boundary retires. -/
theorem exists_bundle_of_plain (hq : Quiet s g) (hat : AtWord s g w) (hw : w < 2 ^ 32) (hplain : Plain w)
    (hfence : zOp w ≠ 0x30) (hlegal : z0Legal w = true)
    (hz : ∀ u, z0Exec u g (inEx (s.core g)) w (inEx (s.core g)) = (c, tgt, cost))
    (hloop0 : c.srb 13 = false) (hloop1 : c.srb 14 = false) : ∃ t, exec (.bundle g) s = .next t ∧
      RetiredAs (retiredCore (inEx (s.core g)) c (slot0 w) (tgt.getD ((s.core g).pc + 1)) cost) g s t := by
  have hexec := exec_bundle_of_quiet hq
  obtain ⟨hg, -, -, -, -, -, -, -, -, -, -, -, hstep, -⟩ := hq
  obtain ⟨-, -, -, -, -, hready⟩ := id hat
  exact ⟨_, hexec.trans (congrArg _ (issue_of_plain hg hat hw hplain hlegal)),
    retiredAs_daStage hplain (fun h => absurd h hfence) (resultsReady_of_none hready) hz hloop0 hloop1 hstep⟩

/-! ## The words -/

/-- The charge of a plain word (R97): a thread's budget pays, in kernel mode it stays. -/
theorem budget_retiredCore (hplain : Plain w) (c0 c : Core) (p cost : Nat) :
    (retiredCore c0 c (slot0 w) p cost).budget = BitVec.ofNat 32 (if c0.km then c0.budget.toNat else c0.budget.toNat - cost) :=
  if_neg fun h => by
    have hop : zOp w = 0x2C := h.1
    omega

theorem budget_retiredCore_thread (hplain : Plain w) (c0 c : Core) (p cost : Nat) (hkm : c0.km = false) :
    (retiredCore c0 c (slot0 w) p cost).budget.toNat = c0.budget.toNat - cost := by
  rw [budget_retiredCore hplain, hkm, BitVec.toNat_ofNat]
  exact Nat.mod_eq_of_lt (Nat.lt_of_le_of_lt (Nat.sub_le ..) c0.budget.isLt)

theorem budget_retiredCore_kernel (hplain : Plain w) (c0 c : Core) (p cost : Nat) (hkm : c0.km = true) :
    (retiredCore c0 c (slot0 w) p cost).budget = c0.budget := by
  rw [budget_retiredCore hplain, hkm, if_pos rfl, BitVec.ofNat_toNat, BitVec.setWidth_eq]

theorem tb_mod_31 (x : Nat) : tb (x % 2 ^ 32) 31 = tb x 31 := by
  rw [tb, tb, Nat.testBit_mod_two_pow]
  exact Bool.true_and _

theorem sgn_mod (x : Nat) : sgn 32 (x % 2 ^ 32) = sgn 32 x := by simp only [sgn, Nat.mod_mod]

/-- R84, R85, R97: ADD. -/
theorem completes_bundle_add (hq : Quiet s g) {sum : Nat} (hd : d < 32) (ha : a < 32) (hb : b < 32)
    (hsum : (s.core g).gs a + (s.core g).gs b = sum)
    (hat : AtWord s g (0x01 * 2 ^ 26 + d * 2 ^ 21 + a * 2 ^ 16 + b * 2 ^ 11)) :
    Completes (.bundle g) s fun t => (t.core g).gs d = sum % 2 ^ 32 ∧ (t.core g).srb 0 = decide (sum % 2 ^ 32 = 0) ∧
      (t.core g).srb 1 = tb sum 31 ∧ (t.core g).srb 2 = decide (2 ^ 32 ≤ sum) ∧
      (t.core g).srb 3 = decide (sgn 32 ((s.core g).gs a) + sgn 32 ((s.core g).gs b) ≠ sgn 32 sum) ∧
      (t.core g).pc = (s.core g).pc + 1 ∧ (t.core g).cycle = (s.core g).cycle + 1 ∧
      ((s.core g).km = false → (t.core g).budget.toNat = (s.core g).budget.toNat - 1) ∧
      ((s.core g).km = true → (t.core g).budget = (s.core g).budget) ∧
      (∀ i, i ≠ d → (t.core g).gs i = (s.core g).gs i) ∧ (∀ i, (t.core g).ga i = (s.core g).ga i) ∧
      (t.core g).km = (s.core g).km ∧ (t.core g).ie = (s.core g).ie ∧ (∀ h, h ≠ g → t.core h = s.core h) ∧
      t.rd (kA g 0x20) = sat32 (s.rd (kA g 0x20) + 1) ∧ SameBytes s t ∧ RegsBut [kA g 0x20, kA g 0x24] s t := by
  generalize hw : 0x01 * 2 ^ 26 + d * 2 ^ 21 + a * 2 ^ 16 + b * 2 ^ 11 = w at hat
  obtain ⟨hop, hzD, hzA, -, hzB, hrest, hlt⟩ := encode_fields (by decide) hd ha (by omega) hw
  have hzB' : zB w = b := by omega
  have hplain : Plain w := .inl (by omega)
  have hz (u : State) : z0Exec u g (inEx (s.core g)) w (inEx (s.core g)) =
      ((inEx (s.core g)).res d (sum % 2 ^ 32) (some (decide (2 ^ 32 ≤ sum)))
        (some (decide (sgn 32 ((s.core g).gs a) + sgn 32 ((s.core g).gs b) ≠ sgn 32 sum))), none, 1) := by
    rw [z0Exec_add hop, hzD, hzA, hzB', gs_inEx, gs_inEx]
    simp only [add32, hsum, sgn_mod]
  obtain ⟨-, -, -, hloop0, hloop1, -⟩ := id hat
  obtain ⟨t, hexec, hkept, hcore, hcount⟩ := exists_bundle_of_plain hq hat hlt hplain (by omega)
    (z0Legal_add_sub (.inl hop) (by omega)) hz ((srb_res_of_no_flag _ _ _ _ _ (by decide) (by decide)).trans ((srb_inEx ..).trans hloop0))
    ((srb_res_of_no_flag _ _ _ _ _ (by decide) (by decide)).trans ((srb_inEx ..).trans hloop1))
  have hsr {i : Nat} (hi : i < 32) := srb_res (inEx (s.core g)) d (sum % 2 ^ 32) (decide (2 ^ 32 ≤ sum))
    (decide (sgn 32 ((s.core g).gs a) + sgn 32 ((s.core g).gs b) ≠ sgn 32 sum)) hi
  refine completes_of_exec hexec ⟨?gsd, ?z, ?n, ?cy, ?v, ?pc, ?cycle, fun hkm => ?thread, fun hkm => ?kernel, fun i hi => ?gs,
    fun i => ?ga, ?km, ?ie, hkept.others, hcount, hkept.sameBytes, hkept.regs⟩
  all_goals rw [hcore]
  case gsd => rw [gs_retiredCore, gs_res, if_pos rfl, Nat.mod_mod]
  case z => exact (srb_retiredCore ..).trans (hsr (by decide))
  case n => exact (srb_retiredCore ..).trans ((hsr (by decide)).trans (tb_mod_31 sum))
  case cy => exact (srb_retiredCore ..).trans (hsr (by decide))
  case v => exact (srb_retiredCore ..).trans (hsr (by decide))
  case pc => rw [pc_retiredCore]; rfl
  case cycle => rw [cycle_retiredCore, cycle_inEx]
  case thread =>
    rw [budget_retiredCore_thread hplain _ _ _ _ ((srb_inEx ..).trans hkm), budget_inEx]
  case kernel =>
    rw [budget_retiredCore_kernel hplain _ _ _ _ ((srb_inEx ..).trans hkm), budget_inEx]
  case gs => rw [gs_retiredCore, gs_res, if_neg hi.symm, gs_inEx]
  case ga => rw [ga_retiredCore, ga_res, ga_inEx]
  case km => exact (km_retiredCore ..).trans ((hsr (by decide)).trans (srb_inEx ..))
  case ie => exact (ie_retiredCore ..).trans ((hsr (by decide)).trans (srb_inEx ..))

theorem fst_sub32 (x y : Nat) : (sub32 x y).1 = (x + 2 ^ 32 - y) % 2 ^ 32 := rfl
theorem carry_sub32 (x y : Nat) : (sub32 x y).2.1 = decide (y ≤ x) := rfl

/-- R84, R85: SUB. -/
theorem completes_bundle_sub (hq : Quiet s g) (hd : d < 32) (ha : a < 32) (hb : b < 32)
    (hat : AtWord s g (0x02 * 2 ^ 26 + d * 2 ^ 21 + a * 2 ^ 16 + b * 2 ^ 11)) :
    Completes (.bundle g) s fun t =>
      (t.core g).gs d = ((s.core g).gs a + 2 ^ 32 - (s.core g).gs b) % 2 ^ 32 ∧
      (t.core g).srb 2 = decide ((s.core g).gs b ≤ (s.core g).gs a) ∧ (t.core g).pc = (s.core g).pc + 1 ∧
      (∀ i, i ≠ d → (t.core g).gs i = (s.core g).gs i) ∧ SameBytes s t := by
  generalize hw : 0x02 * 2 ^ 26 + d * 2 ^ 21 + a * 2 ^ 16 + b * 2 ^ 11 = w at hat
  obtain ⟨hop, hzD, hzA, -, hzB, hrest, hlt⟩ := encode_fields (by decide) hd ha (by omega) hw
  have hzB' : zB w = b := by omega
  have hz (u : State) := z0Exec_sub hop u g (inEx (s.core g)) (inEx (s.core g))
  rw [hzD, hzA, hzB', gs_inEx, gs_inEx] at hz
  obtain ⟨-, -, -, hloop0, hloop1, -⟩ := id hat
  obtain ⟨t, hexec, hkept, hcore, -⟩ := exists_bundle_of_plain hq hat hlt (.inl (by omega)) (by omega)
    (z0Legal_add_sub (.inr hop) (by omega)) hz ((srb_res_of_no_flag _ _ _ _ _ (by decide) (by decide)).trans ((srb_inEx ..).trans hloop0))
    ((srb_res_of_no_flag _ _ _ _ _ (by decide) (by decide)).trans ((srb_inEx ..).trans hloop1))
  refine completes_of_exec hexec ⟨?gsd, ?cy, ?pc, fun i hi => ?gs, hkept.sameBytes⟩
  all_goals rw [hcore]
  case gsd => rw [gs_retiredCore, gs_res, if_pos rfl, fst_sub32, Nat.mod_mod]
  case cy => exact (srb_retiredCore ..).trans ((srb_res _ _ _ _ _ (by decide)).trans (carry_sub32 ..))
  case pc => rw [pc_retiredCore]; rfl
  case gs => rw [gs_retiredCore, gs_res, if_neg hi.symm, gs_inEx]

/-- A forward branch goes to its target. -/
theorem branchTarget (p : Nat) (hw : zI w = k) (hk : k < 2 ^ 15) :
    (((p : Int) + sgn 16 w) % (2 ^ 32 : Nat)).toNat = (p + k) % 2 ^ 32 := by
  have hmod : w % 2 ^ 16 = k := by simpa [zI, fld] using hw
  have hsgn : sgn 16 w = (k : Int) := by rw [sgn, hmod, if_pos hk]
  rw [hsgn, ← Int.natCast_add, ← Int.natCast_mod, Int.toNat_natCast]

/-- R84: BEQ, taken or not. -/
theorem completes_bundle_beq (hq : Quiet s g) (hd : d < 32) (ha : a < 32) (hk : k < 2 ^ 15)
    (hat : AtWord s g (0x20 * 2 ^ 26 + d * 2 ^ 21 + a * 2 ^ 16 + k)) :
    Completes (.bundle g) s fun t =>
      (t.core g).pc = (if (s.core g).gs d = (s.core g).gs a then ((s.core g).pc + k) % 2 ^ 32 else (s.core g).pc + 1) ∧
      (∀ i, (t.core g).gs i = (s.core g).gs i) ∧ SameBytes s t ∧ RegsBut [kA g 0x20, kA g 0x24] s t := by
  generalize hw : 0x20 * 2 ^ 26 + d * 2 ^ 21 + a * 2 ^ 16 + k = w at hat
  obtain ⟨hop, hzD, hzA, hzI, -, -, hlt⟩ := encode_fields (by decide) hd ha (by omega) hw
  have hz (u : State) := z0Exec_beq hop u g (inEx (s.core g)) (inEx (s.core g))
  simp only [hzD, hzA, gs_inEx, pc_inEx, branchTarget _ hzI hk] at hz
  obtain ⟨-, -, -, hloop0, hloop1, -⟩ := id hat
  have hretired {tgt : Option Nat} {cost : Nat}
      (hz : ∀ u, z0Exec u g (inEx (s.core g)) w (inEx (s.core g)) = (inEx (s.core g), tgt, cost)) :=
    exists_bundle_of_plain hq hat hlt (.inl (by omega)) (by omega) (z0Legal_beq hop) hz ((srb_inEx ..).trans hloop0)
      ((srb_inEx ..).trans hloop1)
  by_cases htaken : (s.core g).gs d = (s.core g).gs a
  · obtain ⟨t, hexec, hkept, hcore, -⟩ := hretired fun u => (hz u).trans (if_pos htaken)
    refine completes_of_exec hexec ⟨?_, fun i => ?_, hkept.sameBytes, hkept.regs⟩
    · rw [hcore, if_pos htaken, pc_retiredCore]; rfl
    · rw [hcore, gs_retiredCore, gs_inEx]
  · obtain ⟨t, hexec, hkept, hcore, -⟩ := hretired fun u => (hz u).trans (if_neg htaken)
    refine completes_of_exec hexec ⟨?_, fun i => ?_, hkept.sameBytes, hkept.regs⟩
    · rw [hcore, if_neg htaken, pc_retiredCore]; rfl
    · rw [hcore, gs_retiredCore, gs_inEx]

/-! ## A reserved word (R76, R95, R96) -/

theorem z0Legal_reserved : z0Legal (0x31 * 2 ^ 26) = false := by decide

theorem exec_bundle_reserved (hq : Quiet s g) (hat : AtWord s g (0x31 * 2 ^ 26)) :
    exec (.bundle g) s = .next (raiseExc s g ecIllegal 0 0 none) :=
  (exec_bundle_of_quiet hq).trans (congrArg _ (issue_of_illegal hq.1 hat (by decide) z0Legal_reserved))

theorem completes_bundle_reserved (hq : Quiet s g) (hat : AtWord s g (0x31 * 2 ^ 26)) (hexl : (s.core g).exl = false) :
    Completes (.bundle g) s fun t => Entered s t g ecIllegal ∧ t.rd (kA g 0x28) = sat32 (s.rd (kA g 0x28) + 1) ∧
      SameBytes s t ∧ RegsBut [kA g 0x28] s t := by
  have hkept := coreKept_raiseExc hexl ecIllegal 0 0 none
  refine completes_of_exec (exec_bundle_reserved hq hat)
    ⟨entered_of_enterFrame ?_, rd_raiseExc hexl .., hkept.sameBytes, hkept.regs⟩
  rw [core_raiseExc hexl]
  exact enterFrame_trapped ..

/-- The core as a double fault halts it (R96). -/
def doubleFaulted (now code : Nat) (c : Core) : Core :=
  { c with halted := true, dfault := true, wfe := false, hold := .none, stepping := false, lastCode := code, since := now }

/-- A double fault halts the core, sets its bit of KB_STB_FAULT and may raise the message. -/
theorem exists_doubleFault_eq (s : State) (g code : Nat) : ∃ m, doubleFault s g code =
    { (s.modCore g (doubleFaulted s.now code)).wb (stbRegs (g / 8) + 0x8004) (g % 8) true with msiRise := m } := by
  unfold doubleFault State.rise
  dsimp only
  split
  · exact ⟨_, rfl⟩
  · exact ⟨_, rfl⟩

theorem completes_bundle_reserved_of_exl (hq : Quiet s g) (hat : AtWord s g (0x31 * 2 ^ 26)) (hexl : (s.core g).exl = true) :
    Completes (.bundle g) s fun t => (t.core g).halted = true ∧ (t.core g).dfault = true ∧
      (t.core g).pc = (s.core g).pc ∧ (t.core g).lastCode = ecIllegal ∧
      t.rb (stbRegs (g / 8) + 0x8004) (g % 8) = true ∧ SameBytes s t ∧ RegsBut [stbRegs (g / 8) + 0x8004] s t := by
  refine completes_of_exec ((exec_bundle_reserved hq hat).trans (congrArg _ (raiseExc_of_exl hexl ..))) ?_
  obtain ⟨m, hm⟩ := exists_doubleFault_eq s g ecIllegal
  generalize hu : (s.modCore g (doubleFaulted s.now ecIllegal)).wb (stbRegs (g / 8) + 0x8004) (g % 8) true = u at hm
  have hcore : (doubleFault s g ecIllegal).core g = doubleFaulted s.now ecIllegal (s.core g) := by
    rw [hm]
    change u.core g = _
    rw [← hu]
    exact core_modCore_same ..
  have hregs : (doubleFault s g ecIllegal).regs = u.regs := by rw [hm]
  have hmem : (doubleFault s g ecIllegal).mem = s.mem := by rw [hm, ← hu]; rfl
  refine ⟨?halted, ?dfault, ?pc, ?code, ?fault, sameBytes_of_mem hmem, ?regs⟩
  case halted => rw [hcore]; rfl
  case dfault => rw [hcore]; rfl
  case pc => rw [hcore]; rfl
  case code => rw [hcore]; rfl
  case fault =>
    rw [State.rb_of_regs hregs, ← hu]
    exact State.rb_wb_same _ _ _ true (by omega)
  case regs =>
    intro r hr
    rw [State.rd_of_regs hregs, ← hu]
    exact regsBut_wr _ (stbRegs (g / 8) + 0x8004) _ r hr

/-- Settles O26: each word by its own lemma; all but the reserved one retire the same way. -/
theorem bundlesRun : Obligations.BundlesRun := fun _ _ hq =>
  ⟨fun _ _ _ _ hd ha hb hsum hat => completes_bundle_add hq hd ha hb hsum hat,
    fun _ _ _ hd ha hb hat => completes_bundle_sub hq hd ha hb hat,
    fun _ _ _ hd ha hk hat => completes_bundle_beq hq hd ha hk hat,
    completes_bundle_reserved hq, completes_bundle_reserved_of_exl hq⟩

end Sys2Proof.Machine
end

section
/-! PROOF of the statement on the entries of a Kubry core, its timer, WFE and the software interrupt (R94, R97, R98, R103,
R283). -/

namespace Sys2Proof.Machine

variable {s t u : State} {g n code : Nat} {c : Core}

/-! ## Waits (R73, R98) -/

theorem CoreKept.endWait {l : List Nat} (hk : CoreKept l g s t) (hl : kA g 0x24 ∈ l) (stall : Bool) :
    CoreKept l g s (Machine.endWait t g stall) := by
  unfold Machine.endWait
  exact (hk.charge hl _ _).modCore _

/-- The core after `n` cycles of waiting, which goes on at `at'`. -/
def waited (n at' : Nat) (c : Core) : Core := { c.tick n with since := at' }

theorem core_endWait (s : State) (g : Nat) (stall : Bool) :
    (endWait s g stall).core g = waited (waitedCycles s g) s.now (s.core g) := by
  rw [endWait, core_modCore_same, core_charge]
  rfl

section
variable (n at' : Nat) (c : Core)

@[simp] theorem pc_waited : (waited n at' c).pc = c.pc := by cases c; rfl
@[simp] theorem sr_waited : (waited n at' c).sr = c.sr := by cases c; rfl
@[simp] theorem wfe_waited : (waited n at' c).wfe = c.wfe := by cases c; rfl
@[simp] theorem hold_waited : (waited n at' c).hold = c.hold := by cases c; rfl
@[simp] theorem s_waited : (waited n at' c).s = c.s := by cases c; rfl
@[simp] theorem a_waited : (waited n at' c).a = c.a := by cases c; rfl
@[simp] theorem gs_waited (i : Nat) : (waited n at' c).gs i = c.gs i := by rw [Core.gs, Core.gs, s_waited]
@[simp] theorem ga_waited (i : Nat) : (waited n at' c).ga i = c.ga i := by rw [Core.ga, Core.ga, a_waited]
@[simp] theorem stepping_waited : (waited n at' c).stepping = c.stepping := by cases c; rfl
@[simp] theorem stores_waited : (waited n at' c).stores = c.stores := by cases c; rfl
@[simp] theorem cycle_waited : (waited n at' c).cycle = c.cycle + n := rfl
@[simp] theorem lines_waited : (waited n at' c).lines = (c.tick n).lines := rfl
@[simp] theorem srb_waited (i : Nat) : (waited n at' c).srb i = c.srb i := by rw [Core.srb, Core.srb, sr_waited]

end

theorem corePeriod_pos (s : State) (g : Nat) : 0 < corePeriod s g := by
  unfold corePeriod
  split <;> decide

theorem releaseHold_of_none (h : (s.core g).hold = .none) : releaseHold s g = s := by
  unfold releaseHold
  rw [h]

theorem endWfe_of_awake (h : (s.core g).wfe = false) : endWfe s g = s := if_neg (by rw [h]; exact Bool.false_ne_true)

/-! ## Interrupt entry (R94) -/

theorem exec_interruptEntry (hg : g < 256) : exec (.interruptEntry g) s =
    .next (if !coreLive s g ∨ !atEntry (s.core g) then s
      else if (s.core g).busAsync ≠ [] then busAsync (endWfe (releaseHold s g) g) g
      else if budgetDue (s.core g) then s
      else match dueLine s g with
        | some n => takeLine (endWfe (releaseHold s g) g) g n
        | none => s) := (if_pos hg).trans (congrArg _ rfl)

section
variable (hg : g < 256) (hlive : coreLive s g = true) (hhold : (s.core g).hold = .none) (hwfe : (s.core g).wfe = false)
include hg hlive hhold hwfe

theorem exec_interruptEntry_of_line (hasync : (s.core g).busAsync = []) (hbudget : budgetDue (s.core g) = false)
    (hline : dueLine s g = some n) : exec (.interruptEntry g) s = .next (takeLine s g n) := by
  rw [exec_interruptEntry hg, if_neg (by simp [hlive, atEntry, hhold]), if_neg (by simp [hasync]),
    if_neg (by simp [hbudget]), hline, releaseHold_of_none hhold, endWfe_of_awake hwfe]

theorem completes_interruptEntry_of_line (hasync : (s.core g).busAsync = []) (hbudget : budgetDue (s.core g) = false)
    (hline : dueLine s g = some n) :
    Completes (.interruptEntry g) s fun t => Entered s t g (n * 2 ^ 24 + 2 ^ 31) ∧ t = { s with cores := t.cores } ∧
      (∀ h, h ≠ g → t.core h = s.core h) := by
  refine completes_of_exec (exec_interruptEntry_of_line hg hlive hhold hwfe hasync hbudget hline)
    ⟨entered_of_enterFrame ?_, rfl, fun h hh => core_modCore_other hh s _⟩
  rw [takeLine, core_modCore_same]

/-- The core without the oldest store error, which it takes. -/
def popAsync (rest : List (Nat × Nat)) (c : Core) : Core := { c with busAsync := rest }

theorem exec_interruptEntry_of_async {a : Nat} {rest : List (Nat × Nat)} (hasync : (s.core g).busAsync = (code, a) :: rest) :
    exec (.interruptEntry g) s = .next (raiseExc (s.modCore g (popAsync rest)) g ecBusAsync 0 code (some a)) := by
  rw [exec_interruptEntry hg, if_neg (by simp [hlive, atEntry, hhold]), if_pos (by simp [hasync]),
    releaseHold_of_none hhold, endWfe_of_awake hwfe]
  unfold busAsync
  rw [hasync]
  rfl

theorem completes_interruptEntry_of_async {a : Nat} {rest : List (Nat × Nat)}
    (hasync : (s.core g).busAsync = (code, a) :: rest) (hexl : (s.core g).exl = false) :
    Completes (.interruptEntry g) s fun t => Entered s t g (ecBusAsync + code * 1024) ∧
      (t.core g).eval = BitVec.ofNat 32 a ∧ (t.core g).evalHi = BitVec.ofNat 32 (a / 2 ^ 32 % 4096) ∧
      (t.core g).busAsync = rest ∧ t = { s with cores := t.cores, regs := t.regs } ∧ RegsBut [kA g 0x28] s t := by
  have hpop : (s.modCore g (popAsync rest)).core g = popAsync rest (s.core g) := core_modCore_same ..
  have hexl' : ((s.modCore g (popAsync rest)).core g).exl = false := by rw [hpop]; exact hexl
  have hcore : (raiseExc (s.modCore g (popAsync rest)) g ecBusAsync 0 code (some a)).core g =
      trapped ecBusAsync 0 code (some a) (popAsync rest (s.core g)) := by rw [core_raiseExc hexl', hpop]
  have hkept : CoreKept [kA g 0x28] g s (raiseExc (s.modCore g (popAsync rest)) g ecBusAsync 0 code (some a)) :=
    ((CoreKept.refl _ g s).modCore _).trans (coreKept_raiseExc hexl' ..)
  refine completes_of_exec (exec_interruptEntry_of_async hg hlive hhold hwfe hasync)
    ⟨entered_of_enterFrame ?entered, ?eval, ?evalHi, ?rest, hkept.frame, hkept.regs⟩
  all_goals rw [hcore]
  all_goals rfl

end

/-! ## The budget's end (R97, R283) -/

theorem exec_budgetExhaust (hg : g < 256) (hlive : coreLive s g = true) (hhold : (s.core g).hold = .none)
    (hkm : (s.core g).km = false) (hbudget : (s.core g).budget = 0) (hasync : (s.core g).busAsync = []) :
    exec (.budgetExhaust g) s = .next (takeBudget s g) := by
  have hdue : budgetDue (s.core g) = true := by simp [budgetDue, hkm, hbudget]
  refine (if_pos hg).trans (congrArg _ ?_)
  dsimp only
  rw [if_neg (by simp [hlive, atEntry, hhold, hkm]), if_pos hhold, if_pos ⟨hdue, hasync⟩]

/-- The slice of a thread that software activated with no reply hatch, in PREEMPT mode, counts the exhaustion and orders
the stop. -/
theorem exhausted_of_soft {a : Act} {v : Nat} (hact : (s.th (runThread s g)).act = some a)
    (hstop : (s.th (runThread s g)).stop = none) (hleft : (s.core g).left = false) (hsrc : a.src = .soft v none)
    (hmode : preemptMode s g = true) : exhausted s g =
      (s.cnt (ymCoreA g 0x24) 1).setTh (runThread s g) { s.th (runThread s g) with stop := some 2 } := by
  unfold exhausted
  dsimp only
  rw [hact]
  dsimp only
  rw [if_neg (by simp [hstop, hleft]), if_pos hmode, hsrc]
  rw [← hact]
  rfl

theorem completes_budgetExhaust {a : Act} {v : Nat} (hg : g < 256) (hlive : coreLive s g = true)
    (hhold : (s.core g).hold = .none) (hkm : (s.core g).km = false) (hbudget : (s.core g).budget = 0)
    (hasync : (s.core g).busAsync = []) (hexl : (s.core g).exl = false) (hleft : (s.core g).left = false)
    (hmode : preemptMode s g = true) (hact : (s.th (runThread s g)).act = some a)
    (hstop : (s.th (runThread s g)).stop = none) (hsrc : a.src = .soft v none) :
    Completes (.budgetExhaust g) s fun t => Entered s t g ecBudget ∧ (t.th (runThread s g)).stop = some 2 ∧
      t.rd (ymCoreA g 0x24) = sat32 (s.rd (ymCoreA g 0x24) + 1) ∧
      t = { s with cores := t.cores, ym := t.ym, regs := t.regs } ∧ RegsBut [kA g 0x28, ymCoreA g 0x24] s t := by
  have hcore := core_raiseExc hexl ecBudget 0 0 none
  have hkept := coreKept_raiseExc hexl ecBudget 0 0 none
  generalize hu : raiseExc s g ecBudget 0 0 none = u at hcore hkept
  have hth (k : Nat) : u.th k = s.th k := State.th_of_threads (by rw [hkept.ym]) k
  have hrun : runThread u g = runThread s g := by rw [runThread, hcore]; rfl
  have hhigh {a : Nat} (ha : ymRegs ≤ a) : u.rd a = s.rd a :=
    hkept.regs a (List.mem_singleton.not.mpr (kA_ne_of_high hg (by decide) ha).symm)
  have hmode' : preemptMode u g = true := by
    rw [preemptMode, State.rb, hhigh (ymRegs_le_ymCoreA ..)]; exact hmode
  have hexh : takeBudget s g =
      (u.cnt (ymCoreA g 0x24) 1).setTh (runThread s g) { s.th (runThread s g) with stop := some 2 } := by
    rw [takeBudget, hu, exhausted_of_soft (by rw [hrun, hth]; exact hact) (by rw [hrun, hth]; exact hstop)
      (by rw [hcore]; exact hleft) hsrc hmode', hrun, hth]
  refine completes_of_exec ((exec_budgetExhaust hg hlive hhold hkm hbudget hasync).trans (congrArg _ hexh))
    ⟨entered_of_enterFrame ?entered, ?stop, ?count, ?frame, fun r hr => ?regs⟩
  case entered => rw [core_setTh, core_cnt, hcore]; exact enterFrame_trapped ..
  case stop => rw [State.th_setTh, if_pos rfl]
  case count => rw [State.setTh_rd, State.rd_cnt, if_pos rfl, hhigh (ymRegs_le_ymCoreA ..)]
  case frame => rw [hkept.frame]; rfl
  case regs =>
    simp only [List.mem_cons, List.not_mem_nil, or_false, not_or] at hr
    rw [State.setTh_rd, State.rd_cnt, if_neg (Ne.symm hr.2), hkept.regs r (List.mem_singleton.not.mpr hr.1)]

/-! ## The timer (R98) -/

/-- Core cycles to the match of KB_TIMER. -/
def cyclesToTimer (c : Core) : Nat := (c.timer.toNat + 2 ^ 32 - c.cycle % 2 ^ 32) % 2 ^ 32

theorem cyclesToTimer_ne_zero (h : c.timer.toNat ≠ c.cycle % 2 ^ 32) : cyclesToTimer c ≠ 0 := by
  have ht : c.timer.toNat < 2 ^ 32 := c.timer.isLt
  unfold cyclesToTimer
  omega

/-- The timer's line rises once its cycles have passed. -/
theorem tb_lines_tick (h : c.timer.toNat ≠ c.cycle % 2 ^ 32) (hn : cyclesToTimer c ≤ n) : tb (c.tick n).lines 21 = true := by
  have ht : c.timer.toNat < 2 ^ 32 := c.timer.isLt
  have hhit : (c.timer.toNat + 2 ^ 32 - 1 - c.cycle % 2 ^ 32) % 2 ^ 32 < n := by
    unfold cyclesToTimer at hn
    omega
  have hlines : (c.tick n).lines = setBit c.lines 21 := if_pos (decide_eq_true hhit)
  rw [hlines, tb, testBit_setBit]
  simp

/-- What passes until the timer's cycles are over is at least those cycles. -/
theorem cyclesToTimer_le_waited (s : State) (g n : Nat) :
    n ≤ waitedCycles (s.until ((s.core g).since + n * corePeriod s g)) g := by
  have hpos := corePeriod_pos s g
  have hperiod : corePeriod (s.until ((s.core g).since + n * corePeriod s g)) g = corePeriod s g := rfl
  have hsince : ((s.until ((s.core g).since + n * corePeriod s g)).core g).since = (s.core g).since := rfl
  rw [waitedCycles, hperiod, hsince, State.until_now, Nat.le_div_iff_mul_le hpos]
  omega

theorem exec_timerMatch_of_wfe (hg : g < 256) (hreset : s.inReset g = false) (hshed : s.shedCur (g / 8) = 3)
    (hhalted : (s.core g).halted = false) (hwfe : (s.core g).wfe = true)
    (htimer : (s.core g).timer.toNat ≠ (s.core g).cycle % 2 ^ 32) : exec (.timerMatch g) s =
      .next (endWait (s.until ((s.core g).since + cyclesToTimer (s.core g) * corePeriod s g)) g false) := by
  have hd := cyclesToTimer_ne_zero htimer
  refine (if_pos hg).trans (congrArg _ ?_)
  dsimp only
  have hdue : ¬ (s.inReset g ∨ s.shedCur (g / 8) ≠ 3 ∨ cyclesToTimer (s.core g) = 0) := by simp [hreset, hshed, hd]
  refine (if_neg hdue).trans ?_
  rw [hhalted, hwfe]
  rfl

theorem completes_timerMatch (hg : g < 256) (hreset : s.inReset g = false) (hshed : s.shedCur (g / 8) = 3)
    (hhalted : (s.core g).halted = false) (hwfe : (s.core g).wfe = true)
    (htimer : (s.core g).timer.toNat ≠ (s.core g).cycle % 2 ^ 32) :
    Completes (.timerMatch g) s fun t => tb (t.core g).lines 21 = true ∧ (t.core g).wfe = true ∧
      (s.core g).cycle + cyclesToTimer (s.core g) ≤ (t.core g).cycle ∧ s.now ≤ t.now ∧
      (∀ h, h ≠ g → t.core h = s.core h) ∧ t = { s with now := t.now, cores := t.cores, regs := t.regs } ∧
      RegsBut [kA g 0x24] s t := by
  refine completes_of_exec (exec_timerMatch_of_wfe hg hreset hshed hhalted hwfe htimer) ?_
  have hn := cyclesToTimer_le_waited s g (cyclesToTimer (s.core g))
  generalize hu : s.until ((s.core g).since + cyclesToTimer (s.core g) * corePeriod s g) = u at hn
  have hframe : u = { s with now := u.now } := by rw [← hu]; rfl
  have hnow : s.now ≤ u.now := by rw [← hu]; exact Nat.le_max_left ..
  have hcores (h : Nat) : u.core h = s.core h := by rw [hframe]; rfl
  have hcore := core_endWait u g false
  rw [hcores] at hcore
  have hkept := (CoreKept.refl [kA g 0x24] g u).endWait List.mem_cons_self false
  generalize endWait u g false = t at hcore hkept
  refine ⟨?line, ?wfe, ?cycle, ?now, fun h hh => (hkept.others h hh).trans (hcores h), ?frame, fun r hr => ?regs⟩
  case line => rw [hcore, lines_waited]; exact tb_lines_tick htimer hn
  case wfe => rw [hcore, wfe_waited]; exact hwfe
  case cycle => rw [hcore, cycle_waited]; exact Nat.add_le_add_left hn _
  case now => rw [hkept.now]; exact hnow
  case frame =>
    calc t = { u with cores := t.cores, regs := t.regs } := hkept.frame
      _ = { s with now := u.now, cores := t.cores, regs := t.regs } := by rw [hframe]
      _ = _ := by rw [hkept.now]
  case regs => rw [hkept.regs r hr, hframe]; rfl

/-! ## WFE (R98) -/

theorem exec_wfeWake (hg : g < 256) : exec (.wfeWake g) s =
    .next (if coreLive s g ∧ (s.core g).wfe ∧ ipend s g ≠ 0 then endWfe s g else s) := if_pos hg

/-- The core without its wait for an interrupt. -/
def awake (c : Core) : Core := { c with wfe := false }

theorem pc_awake (c : Core) : (awake c).pc = c.pc := by cases c; rfl
theorem sr_awake (c : Core) : (awake c).sr = c.sr := by cases c; rfl

theorem completes_wfeWake (hg : g < 256) (hlive : coreLive s g = true) (hwfe : (s.core g).wfe = true)
    (hline : ipend s g ≠ 0) : Completes (.wfeWake g) s fun t =>
      (t.core g).wfe = false ∧ (t.core g).pc = (s.core g).pc ∧ (t.core g).sr = (s.core g).sr ∧
      t = { s with cores := t.cores, regs := t.regs } ∧ RegsBut [kA g 0x24] s t := by
  have hend : endWfe s g = (endWait s g false).modCore g awake := if_pos hwfe
  have hkept := ((CoreKept.refl [kA g 0x24] g s).endWait List.mem_cons_self false).modCore awake
  have hcore : ((endWait s g false).modCore g awake).core g = awake (waited (waitedCycles s g) s.now (s.core g)) := by
    rw [core_modCore_same, core_endWait]
  refine completes_of_exec ((exec_wfeWake hg).trans (congrArg _ ((if_pos ⟨hlive, hwfe, hline⟩).trans hend)))
    ⟨?wfe, ?pc, ?sr, hkept.frame, hkept.regs⟩
  case wfe => rw [hcore]; rfl
  case pc => rw [hcore, pc_awake, pc_waited]
  case sr => rw [hcore, sr_awake, sr_waited]

theorem completes_wfeWake_of_awake (hg : g < 256) (hwfe : (s.core g).wfe = false) :
    Completes (.wfeWake g) s fun t => t = s :=
  completes_of_exec ((exec_wfeWake hg).trans (congrArg _ (if_neg fun h => by simp [hwfe] at h))) rfl

/-! ## The software interrupt (R103) -/

theorem exec_kbSwi (hg : g < 256) : exec (.kbSwi g) s = .next ((setLine s g 22 true).answer rspOk 0) := if_pos hg

theorem completes_kbSwi (hg : g < 256) : Completes (.kbSwi g) s (fun t => tb (t.core g).lines 22 = true ∧
    (∀ i, i ≠ 22 → tb (t.core g).lines i = tb (s.core g).lines i) ∧
    t.core g = { s.core g with lines := (t.core g).lines } ∧ (∀ h, h ≠ g → t.core h = s.core h) ∧
    t = { s with cores := t.cores, bus := ⟨rspOk, 0⟩ }) := by
  have hcore : ((setLine s g 22 true).answer rspOk 0).core g =
      { s.core g with lines := setFld (s.core g).lines 22 22 1 } := (core_answer ..).trans (core_modCore_same s g _)
  refine completes_of_exec (exec_kbSwi hg)
    ⟨?_, fun i hi => ?_, ?_, fun h hh => (core_answer ..).trans (core_modCore_other hh s _), rfl⟩
  · rw [hcore, tb, testBit_setFld _ _ _ _ _ (Nat.le_refl 22), if_pos (by decide)]
    rfl
  · rw [hcore, tb, testBit_setFld _ _ _ _ _ (Nat.le_refl 22), if_neg (by omega)]
    rfl
  · rw [hcore]

/-- Settles O27: each entry by what is due; the timer by the cycles that pass to it. -/
theorem kubryEntries : Obligations.KubryEntries := fun _ _ hg =>
  ⟨fun hlive hhold hwfe =>
    ⟨fun _ hasync hbudget hline => completes_interruptEntry_of_line hg hlive hhold hwfe hasync hbudget hline,
      fun _ _ _ hasync hexl _ => completes_interruptEntry_of_async hg hlive hhold hwfe hasync hexl,
      fun _ _ hkm hbudget hasync hexl hleft hmode hact hstop hsrc =>
        completes_budgetExhaust hg hlive hhold hkm hbudget hasync hexl hleft hmode hact hstop hsrc⟩,
    fun hreset hshed hhalted hwfe htimer => completes_timerMatch hg hreset hshed hhalted hwfe htimer,
    completes_wfeWake hg, completes_wfeWake_of_awake hg, completes_kbSwi hg⟩

end Sys2Proof.Machine
end

section
/-! PROOF of the statement on the answers to far accesses and the end of a held bundle (R84, R92, R148). -/

namespace Sys2Proof.Machine

variable {s t u : State} {g a n r src dst : Nat} {l : List Nat} {c : Core}

/-! ## A way through the network does not depend on the cores (R298) -/

section
variable (hk : CoreKept l g s t) (hl : ∀ a ∈ l, a < ymRegs)
include hk hl

theorem CoreKept.rd_high (ha : ymRegs ≤ a) : t.rd a = s.rd a :=
  hk.regs a fun hmem => Nat.not_lt.mpr ha (hl a hmem)

theorem CoreKept.reaches (h : Reaches s src dst) : Reaches t src dst := by
  obtain ⟨hdst, hsrcEp, hdstEp, hsrcOpen, hdstOpen, hcut, hback, hready⟩ := h
  have heps : t.eps = s.eps := by rw [hk.frame]
  have hdown : t.down = s.down := by rw [hk.frame]
  have hyrd (o : Nat) : t.rd (yrdA o) = s.rd (yrdA o) :=
    hk.rd_high hl (Nat.le_trans (by decide : ymRegs ≤ yrdRegs) (Nat.le_add_right ..))
  have hshd (o : Nat) : t.rd (shdRegs + 0x200 + o) = s.rd (shdRegs + 0x200 + o) :=
    hk.rd_high hl (Nat.le_trans (by decide : ymRegs ≤ shdRegs + 0x200) (Nat.le_add_right ..))
  have hcutEq {e f : Nat} (he : epExists e = true) : t.cut e f = s.cut e f :=
    cut_congr (router_lt_of_epExists he) hdown (by simp only [yrdEpoch, State.rf, hyrd]) fun _ _ => by
      simp only [routePort, State.rf, hyrd]
  have hfenced (e : Nat) : t.fenced e = s.fenced e := by
    unfold State.fenced State.epSt
    rw [heps]
  refine ⟨hdst, hsrcEp, hdstEp, (hfenced src).trans hsrcOpen, (hfenced dst).trans hdstOpen, (hcutEq hsrcEp).trans hcut,
    (hcutEq hdstEp).trans hback, ?_⟩
  simp only [State.shedReady, State.shedCur, State.shedBusy, State.rf, State.rb, hshd] at hready ⊢
  exact hready

end

theorem kA_of_mem_singleton_lt (hg : g < 256) {o : Nat} (ho : o < 0x1000) : ∀ a ∈ [kA g o], a < ymRegs := fun a ha => by
  rw [List.mem_singleton.mp ha]
  exact kA_lt_ymRegs hg ho

/-! ## Accesses to Barn memory (R298, R325) -/

theorem regionOf_of_barn (h : a < barnSize) : regionOf a = .barn (a / 0x0C000000 * 16 + fld a 11 8) := if_pos h

theorem ddrAnswer_of_barn (h : a < barnSize) (s : State) (src n : Nat) : ddrAnswer s src a n = rspOk :=
  if_pos (.inl (by simp only [ddrBase, barnSize] at h ⊢; omega))

theorem localize_of_barn (h : a < barnSize) : localize s a = a := by simp only [localize, regionOf_of_barn h]
theorem isRemote_of_barn (h : a < barnSize) : isRemote a = false := by simp only [isRemote, regionOf_of_barn h]
theorem busDst_of_barn (h : a < barnSize) : busDst src a = epOf a := by simp [busDst, isRemote_of_barn h]

/-- Memory of the Barn is no shed's that HELD could close. -/
theorem not_shedOf_lt_of_barn (h : a < barnSize) : ¬ shedOf a < 40 := by
  have hshed : shedOf a = 40 + a / 0x0C000000 := if_pos h
  omega

theorem tgtRead_of_barn (hecc : s.ecc = []) (h : a < barnSize) (hn : 0 < n) (hfit : a % 16 + n ≤ 16) (src : Nat) :
    tgtRead s src a n = (rspOk, s.bytes a n, s) := by
  have hread := readMem_of_noEcc hecc (Nat.lt_trans h (by decide : barnSize < ddrBase)) hn hfit 0 src
  simp [tgtRead, regionOf_of_barn h, ddrAnswer_of_barn h, hread]

theorem busRead_of_barn (hecc : s.ecc = []) (h : a < barnSize) (hn : 0 < n) (hfit : a % 16 + n ≤ 16)
    (hreach : Reaches s src (epOf a)) : busRead s src a n = (rspOk, s.bytes a n, s) := by
  obtain ⟨-, -, hback⟩ := wayBack_of_reaches hreach
  simp [busRead, localize_of_barn h, busDst_of_barn h, ni_of_reaches hreach, isRemote_of_barn h,
    tgtRead_of_barn hecc h hn hfit, back_of_not_cut hback]

/-- A write that stays within one word of clean memory of the Barn, and does not fill it. -/
theorem writeMem_within_word (hclean : CleanMem s) (h : a < barnSize) {d : List Byte} (hd : d ≠ []) (hlen : d.length < 16)
    (hfit : a % 16 + d.length ≤ 16) (req : Nat) : s.writeMem a d req = (false, s.store a d) := by
  have htake : d.take (a / 16 * 16 + 16 - a) = d := List.take_of_length_le (by omega)
  have hdrop : d.drop (a / 16 * 16 + 16 - a) = [] := List.drop_of_length_le (by omega)
  have hword := writeWord_of_clean hclean (w := a / 16 * 16) (a := a) (by omega) false req (l := d) (by omega)
  rw [State.writeMem, Nat.div_eq_of_lt hlen]
  simp [State.writeWords, hd, htake, hdrop, hword]

theorem tgtWrite_of_barn (hclean : CleanMem s) (h : a < barnSize) {d : List Byte} (hd : d ≠ []) (hlen : d.length < 16)
    (hfit : a % 16 + d.length ≤ 16) (src : Nat) (km : Bool) : tgtWrite s src km a d = (rspOk, s.store a d) := by
  have hwritable : memWritable s src a d.length = true := by simp only [memWritable, regionOf_of_barn h]
  simp [tgtWrite, regionOf_of_barn h, ddrAnswer_of_barn h, hwritable, not_shedOf_lt_of_barn h,
    writeMem_within_word hclean h hd hlen hfit]

theorem busWrite_of_barn (hclean : CleanMem s) (h : a < barnSize) {d : List Byte} (hd : d ≠ []) (hlen : d.length < 16)
    (hfit : a % 16 + d.length ≤ 16) (hreach : Reaches s src (epOf a)) (km : Bool) :
    busWrite s src km a d = (rspOk, s.store a d) := by
  obtain ⟨-, hdst, hback⟩ := wayBack_of_reaches hreach
  have hback' : (s.store a d).cut (epOf a) src = false := (cut_of_regs hdst rfl rfl).trans hback
  simp [busWrite, localize_of_barn h, busDst_of_barn h, ni_of_reaches hreach, isRemote_of_barn h,
    tgtWrite_of_barn hclean h hd hlen hfit, back_of_not_cut hback']

/-! ## A far load's answer (R92) -/

section
variable (c : Core) (i : Nat)

@[simp] theorem hold_unheld : (unheld c).hold = .none := rfl
@[simp] theorem pc_unheld : (unheld c).pc = c.pc := by cases c; rfl
@[simp] theorem stores_unheld : (unheld c).stores = c.stores := by cases c; rfl
@[simp] theorem stepping_unheld : (unheld c).stepping = c.stepping := by cases c; rfl
@[simp] theorem gs_unheld : (unheld c).gs i = c.gs i := by cases c; rfl
@[simp] theorem srb_unheld : (unheld c).srb i = c.srb i := by cases c; rfl

end

/-- The state in which core `g` goes on with its held bundle. -/
def wakes (s : State) (g : Nat) (stall : Bool) : State := (endWait s g stall).modCore g unheld

theorem coreKept_wakes (s : State) (g : Nat) (stall : Bool) : CoreKept [kA g 0x24] g s (wakes s g stall) :=
  ((CoreKept.refl _ g s).endWait List.mem_cons_self stall).modCore _

theorem core_wakes (s : State) (g : Nat) (stall : Bool) :
    (wakes s g stall).core g = unheld (waited (waitedCycles s g) s.now (s.core g)) := by
  rw [wakes, core_modCore_same, core_endWait]

section
variable (s : State) (g : Nat) (stall : Bool) (i : Nat)

@[simp] theorem pc_wakes : ((wakes s g stall).core g).pc = (s.core g).pc := by rw [core_wakes, pc_unheld, pc_waited]
@[simp] theorem stores_wakes : ((wakes s g stall).core g).stores = (s.core g).stores := by
  rw [core_wakes, stores_unheld, stores_waited]
@[simp] theorem stepping_wakes : ((wakes s g stall).core g).stepping = (s.core g).stepping := by
  rw [core_wakes, stepping_unheld, stepping_waited]
@[simp] theorem gs_wakes : ((wakes s g stall).core g).gs i = (s.core g).gs i := by rw [core_wakes, gs_unheld, gs_waited]
@[simp] theorem srb_wakes : ((wakes s g stall).core g).srb i = (s.core g).srb i := by rw [core_wakes, srb_unheld, srb_waited]

end

theorem exec_farLoadResponse (hg : g < 256) : exec (.farLoadResponse g) s = .next (farLoad s g) := inCore_of_lt hg _

theorem farLoad_of_answer {q : Nat} {d : List Byte} (hlive : coreLive s g = true) (hhold : (s.core g).hold = .far q a n)
    (hread : busRead (endWait s g true) (coreEp g) a n = (rspOk, d, endWait s g true)) :
    farLoad s g = exFinish (wakes s g true) g (heldBundle (endWait s g true) g) (some (rspOk, d)) := by
  unfold farLoad
  rw [hhold]
  dsimp only
  rw [if_pos hlive, hread]
  rfl

theorem farLoad_of_no_hold (hhold : (s.core g).hold = .none) : farLoad s g = s := by
  unfold farLoad
  rw [hhold]

/-- The slot 2 word of a far load of a word to register `r`. -/
abbrev farLoadWord (r : Nat) : Nat := 0x10 * 2 ^ 27 + r * 2 ^ 22

section
variable (hr : r < 32)
include hr

theorem farLoadWord_fields : dOp (farLoadWord r) = 0x10 ∧ dReg (farLoadWord r) = r ∧ dPm (farLoadWord r) = false := by
  refine ⟨?op, ?reg, ?pm⟩
  case op => simp only [farLoadWord, dOp, fld, Nat.shiftRight_eq_div_pow]; omega
  case reg => simp only [farLoadWord, dReg, fld, Nat.shiftRight_eq_div_pow]; omega
  case pm =>
    rw [dPm, tb, Nat.testBit_eq_decide_div_mod_eq]
    exact decide_eq_false (by unfold farLoadWord; omega)

theorem memSlot_farLoad (c0 c : Core) (d : List Byte) : memSlot c0 (farLoadWord r) d c = c.ss r (leNat d) := by
  obtain ⟨hop, hreg, hpm⟩ := farLoadWord_fields hr
  simp [memSlot, pmTo, storeFlags, loadTo, isFarLoad, hop, hreg, hpm]

theorem exFinish_farLoad (d : List Byte) :
    exFinish s g ⟨0, 0, farLoadWord r, 0⟩ (some (rspOk, d)) = retire s g ⟨0, 0, farLoadWord r, 0⟩ d [] := by
  obtain ⟨hop, -, -⟩ := farLoadWord_fields hr
  have hnear : isNearLoad (farLoadWord r) = false := by simp [isNearLoad, isNear, isFar, hop]
  have hvec : isVmem (farLoadWord r) = false := by simp [isVmem, hop]
  simp only [exFinish, nearRead_of_no_access hnear hvec, nearRead_of_no_access isNearLoad_zero isVmem_zero, if_true]

theorem retire_farLoad (d : List Byte) (hloop0 : (s.core g).srb 13 = false) (hloop1 : (s.core g).srb 14 = false)
    (hstep : (s.core g).stepping = false) : retire s g ⟨0, 0, farLoadWord r, 0⟩ d [] =
      retireTo s g (retiredCore (s.core g) ((s.core g).ss r (leNat d)) ⟨0, 0, farLoadWord r, 0⟩ ((s.core g).pc + 1) 1) := by
  obtain ⟨hop, -, -⟩ := farLoadWord_fields hr
  have hz0 : zOp 0 = 0 := by decide
  have hplain : Plain 0 := by decide
  rw [retire_of_plain d [] hplain (by simp [isNearStore, hop]) (by simp [isFarStore, hop]) (by simp [isVmem, hop])
    (z0Exec_of_idle (.inl hz0) ..) (memSlot_farLoad hr ..) hloop0 hloop1, hstep]
  rfl

end

theorem completes_farLoadResponse {q : Nat} (hg : g < 256) (hlive : coreLive s g = true)
    (hhold : (s.core g).hold = .far q a 4) (halign : a % 4 = 0) (hbarn : a + 4 ≤ barnSize) (hclean : CleanMem s)
    (hreach : Reaches s (coreEp g) (epOf a)) (hr : r < 32) (hbundle : heldBundle s g = ⟨0, 0, farLoadWord r, 0⟩)
    (hloop0 : (s.core g).srb 13 = false) (hloop1 : (s.core g).srb 14 = false) (hstep : (s.core g).stepping = false) :
    Completes (.farLoadResponse g) s fun t => (t.core g).gs r = s.ld a 4 ∧ (t.core g).hold = .none ∧
      (t.core g).pc = (s.core g).pc + 1 ∧ (∀ i, i ≠ r → (t.core g).gs i = (s.core g).gs i) ∧ SameBytes s t ∧
      RegsBut [kA g 0x20, kA g 0x24] s t := by
  have hwait := (CoreKept.refl [kA g 0x24] g s).endWait List.mem_cons_self true
  have hread := busRead_of_barn (hwait.ecc.trans hclean.1) (n := 4) (by omega) (by decide) (by omega)
    (hwait.reaches (kA_of_mem_singleton_lt hg (by decide)) hreach)
  rw [State.bytes_of_mem hwait.mem] at hread
  have hheld : heldBundle (endWait s g true) g = heldBundle s g :=
    heldBundle_congr hwait.sameData (by rw [core_endWait, pc_waited])
  have hload : farLoad s g = retireTo (wakes s g true) g (retiredCore ((wakes s g true).core g)
      (((wakes s g true).core g).ss r (s.ld a 4)) ⟨0, 0, farLoadWord r, 0⟩ ((s.core g).pc + 1) 1) := by
    rw [farLoad_of_answer hlive hhold hread, hheld, hbundle, exFinish_farLoad hr, retire_farLoad hr _
      ((srb_wakes ..).trans hloop0) ((srb_wakes ..).trans hloop1) ((stepping_wakes ..).trans hstep), pc_wakes]
    rfl
  obtain ⟨hkept, hcore, -⟩ := retiredAs_retireTo (coreKept_wakes s g true)
    (retiredCore ((wakes s g true).core g) (((wakes s g true).core g).ss r (s.ld a 4)) ⟨0, 0, farLoadWord r, 0⟩
      ((s.core g).pc + 1) 1)
  refine completes_of_exec ((exec_farLoadResponse hg).trans (congrArg _ hload))
    ⟨?loaded, ?hold, ?pc, fun i hi => ?other, hkept.sameBytes, hkept.regs⟩
  all_goals rw [hcore]
  case loaded => rw [gs_retiredCore, gs_ss, if_pos rfl, Nat.mod_eq_of_lt (lt_of_lt_of_eq (ld_lt s a 4) (by decide))]
  case hold => rw [hold_retiredCore]
  case pc => rw [pc_retiredCore]
  case other => rw [gs_retiredCore, gs_ss, if_neg hi.symm, gs_wakes]

/-! ## A far store's answer (R92) -/

/-- The core without its oldest far store. -/
def dropStore (rest : List FarStore) (c : Core) : Core := { c with stores := rest }

theorem exec_farStoreResponse (hg : g < 256) : exec (.farStoreResponse g) s = .next (farStore s g) := inCore_of_lt hg _

theorem farStore_of_answer {x : FarStore} {rest : List FarStore} (hstores : (s.core g).stores = x :: rest)
    (hhold : (s.core g).hold ≠ .resv) (hwrite : busWrite (s.modCore g (dropStore rest)) (coreEp g) x.km x.addr x.data =
      (rspOk, (s.modCore g (dropStore rest)).store x.addr x.data)) :
    farStore s g = (s.modCore g (dropStore rest)).store x.addr x.data := by
  have hheld : ¬ (coreLive ((s.modCore g (dropStore rest)).store x.addr x.data) g = true ∧
      (((s.modCore g (dropStore rest)).store x.addr x.data).core g).hold = .resv) := fun h => hhold (by
    have hcore : ((s.modCore g (dropStore rest)).store x.addr x.data).core g = dropStore rest (s.core g) :=
      core_modCore_same s g _
    rw [hcore] at h
    exact h.2)
  unfold farStore
  rw [hstores]
  dsimp only
  rw [show s.modCore g (fun c => { c with stores := rest }) = s.modCore g (dropStore rest) from rfl, hwrite]
  dsimp only
  rw [if_pos (.inl rfl)]
  exact if_neg hheld

theorem completes_farStoreResponse {x : FarStore} {rest : List FarStore} (hg : g < 256)
    (hstores : (s.core g).stores = x :: rest) (hhold : (s.core g).hold ≠ .resv)
    (hlen : x.data.length = 4 ∨ x.data.length = 8) (halign : x.addr % x.data.length = 0)
    (hbarn : x.addr + x.data.length ≤ barnSize) (hclean : CleanMem s) (hreach : Reaches s (coreEp g) (epOf x.addr)) :
    Completes (.farStoreResponse g) s fun t => t.bytes x.addr x.data.length = x.data ∧
      BytesBut x.addr x.data.length s t ∧ t.core g = { s.core g with stores := rest } ∧
      t = { s with cores := t.cores, mem := t.mem } ∧ (∀ h, h ≠ g → t.core h = s.core h) := by
  have hkept : CoreKept [] g s (s.modCore g (dropStore rest)) := (CoreKept.refl _ g s).modCore _
  have hfit : x.addr % 16 + x.data.length ≤ 16 := by
    rcases hlen with h | h <;> rw [h] at halign ⊢ <;> omega
  have hwrite := busWrite_of_barn (s := s.modCore g (dropStore rest)) hclean (by omega)
    (List.ne_nil_of_length_pos (by omega)) (by omega) hfit (hkept.reaches (fun _ h => absurd h List.not_mem_nil) hreach) x.km
  refine completes_of_exec ((exec_farStoreResponse hg).trans (congrArg _ (farStore_of_answer hstores hhold hwrite)))
    ⟨State.bytes_store _ _ _, fun b hb => State.byte_store_other _ _ hb, core_modCore_same s g _, rfl,
      fun h hh => core_modCore_other hh s _⟩

theorem completes_farStoreResponse_of_none (hg : g < 256) (hstores : (s.core g).stores = []) :
    Completes (.farStoreResponse g) s fun t => t = s := by
  refine completes_of_exec (exec_farStoreResponse hg) ?_
  unfold farStore
  rw [hstores]

/-! ## FENCE (R84) -/

theorem exec_fenceComplete (hg : g < 256) : exec (.fenceComplete g) s =
    .next (if (s.core g).hold = .fence ∧ (s.core g).stores = [] then
      daStage (wakes s g true) g (heldBundle (wakes s g true) g) else s) := inCore_of_lt hg _

theorem completes_fenceComplete (hg : g < 256) (hhold : (s.core g).hold = .fence) (hstores : (s.core g).stores = [])
    (hbundle : heldBundle s g = slot0 (0x30 * 2 ^ 26)) (hloop0 : (s.core g).srb 13 = false)
    (hloop1 : (s.core g).srb 14 = false) (hstep : (s.core g).stepping = false) :
    Completes (.fenceComplete g) s fun t => (t.core g).hold = .none ∧ (t.core g).pc = (s.core g).pc + 1 ∧
      (∀ i, (t.core g).gs i = (s.core g).gs i) ∧ SameBytes s t ∧ RegsBut [kA g 0x20, kA g 0x24] s t := by
  have hwakes := coreKept_wakes s g true
  have hheld : heldBundle (wakes s g true) g = slot0 (0x30 * 2 ^ 26) :=
    (heldBundle_congr hwakes.sameData (pc_wakes s g true)).trans hbundle
  have hready : ResultsReady ((wakes s g true).core g) (slot0 (0x30 * 2 ^ 26)) := fun k hk => by
    have hnone : needKeys (slot0 (0x30 * 2 ^ 26)) = [] := by decide
    rw [hnone] at hk
    exact absurd hk List.not_mem_nil
  obtain ⟨hkept, hcore, -⟩ := retiredAs_daStage (by decide) (fun _ => (stores_wakes s g true).trans hstores) hready
    (fun u => z0Exec_of_idle (.inr (by decide)) u g _ _) (by rw [srb_inEx, srb_wakes, hloop0])
    (by rw [srb_inEx, srb_wakes, hloop1]) ((stepping_wakes s g true).trans hstep)
  have hall := (hwakes.mono (List.subset_cons_self _ _)).trans hkept
  have hexec := (exec_fenceComplete (s := s) hg).trans (congrArg _ (if_pos ⟨hhold, hstores⟩))
  rw [hheld] at hexec
  refine completes_of_exec hexec ⟨?hold, ?pc, fun i => ?gs, hall.sameBytes, hall.regs⟩
  all_goals rw [hcore]
  case hold => rw [hold_retiredCore]
  case pc => rw [pc_retiredCore, Option.getD_none, pc_wakes]
  case gs => rw [gs_retiredCore, gs_inEx, gs_wakes]

/-! ## The end of a hitch stall (R148) -/

/-- The state in which core `g` goes on after a hitch stall, its cycles counted. -/
def stallEnds (s : State) (g : Nat) : State :=
  ((endWait s g false).cnt (kA g 0x90) (waitedCycles s g)).modCore g unheld

theorem exec_hitchStallEnd (hg : g < 256) : exec (.hitchStallEnd g) s =
    .next (if (s.core g).hold = .scoreboard ∧ !scoreboardStall s g (s.core g) (heldBundle s g) then
      daStage (stallEnds s g) g (heldBundle s g) else s) := inCore_of_lt hg _

theorem completes_hitchStallEnd (hg : g < 256) (hhold : (s.core g).hold = .scoreboard)
    (hstall : scoreboardStall s g (s.core g) (heldBundle s g) = false) :
    Completes (.hitchStallEnd g) s fun t => ∃ u, t = daStage u g (heldBundle s g) ∧ (u.core g).hold = .none ∧
      (u.core g).pc = (s.core g).pc ∧ u.rd (kA g 0x90) = sat32 (s.rd (kA g 0x90) + waitedCycles s g) ∧
      u = { s with cores := u.cores, regs := u.regs } ∧ RegsBut [kA g 0x24, kA g 0x90] s u := by
  have hwait := (CoreKept.refl [kA g 0x24] g s).endWait List.mem_cons_self false
  have hkept : CoreKept [kA g 0x24, kA g 0x90] g s (stallEnds s g) :=
    ((hwait.mono (List.cons_subset_cons _ (List.nil_subset _))).wr (List.mem_cons_of_mem _ List.mem_cons_self) _).modCore _
  have hcore : (stallEnds s g).core g = unheld (waited (waitedCycles s g) s.now (s.core g)) := by
    rw [stallEnds, core_modCore_same, core_cnt, core_endWait]
  have hcount : (stallEnds s g).rd (kA g 0x90) = sat32 (s.rd (kA g 0x90) + waitedCycles s g) := by
    rw [stallEnds, State.modCore_rd, State.rd_cnt, if_pos rfl,
      hwait.regs _ (List.mem_singleton.not.mpr (kA_ne (by decide)))]
  refine completes_of_exec ((exec_hitchStallEnd hg).trans (congrArg _ (if_pos ⟨hhold, by rw [hstall]; rfl⟩)))
    ⟨stallEnds s g, rfl, ?hold, ?pc, hcount, hkept.frame, hkept.regs⟩
  case hold => rw [hcore, hold_unheld]
  case pc => rw [hcore, pc_unheld, pc_waited]

/-! ## A core that holds nothing -/

theorem completes_of_no_hold (hg : g < 256) (hhold : (s.core g).hold = .none) :
    Completes (.hitchStallEnd g) s (fun t => t = s) ∧ Completes (.fenceComplete g) s (fun t => t = s) ∧
      Completes (.farLoadResponse g) s (fun t => t = s) :=
  ⟨completes_of_exec ((exec_hitchStallEnd hg).trans (congrArg _ (if_neg fun h => by simp [hhold] at h))) rfl,
    completes_of_exec ((exec_fenceComplete hg).trans (congrArg _ (if_neg fun h => by simp [hhold] at h))) rfl,
    completes_of_exec ((exec_farLoadResponse hg).trans (congrArg _ (farLoad_of_no_hold hhold))) rfl⟩

/-- Settles O28: the answer crosses clean memory of the Barn, and the held bundle then retires. -/
theorem farAccessesAndHolds : Obligations.FarAccessesAndHolds := fun _ _ hg hlive =>
  ⟨fun _ _ _ hhold halign hbarn hclean hreach hr hbundle hloop0 hloop1 hstep =>
      completes_farLoadResponse hg hlive hhold halign hbarn hclean hreach hr hbundle hloop0 hloop1 hstep,
    fun _ _ hstores hhold hlen halign hbarn hclean hreach =>
      completes_farStoreResponse hg hstores hhold hlen halign hbarn hclean hreach,
    completes_farStoreResponse_of_none hg,
    fun hhold hstores hbundle hloop0 hloop1 hstep =>
      completes_fenceComplete hg hhold hstores hbundle hloop0 hloop1 hstep,
    completes_hitchStallEnd hg, completes_of_no_hold hg⟩

end Sys2Proof.Machine
end

section
/-! PROOFS on the Kubry cores: what a reset does to the hitch and to the hatches of a core (R104, R164, R289). -/

namespace Sys2Proof.Machine

variable {s t u : State} {g i j k : Nat} {l : List Nat}

/-! ## The tags and guards of a core (R160, R164) -/

/-- From `s` to `t` only tags, guards, their messages and the listed registers have changed. -/
structure TagsKept (l : List Nat) (s t : State) : Prop where
  frame : t = { s with tags := t.tags, guards := t.guards, hmsgs := t.hmsgs, regs := t.regs }
  regs : RegsBut l s t

theorem TagsKept.refl (l : List Nat) (s : State) : TagsKept l s s := ⟨rfl, fun _ _ => rfl⟩

theorem TagsKept.trans (h1 : TagsKept l s t) (h2 : TagsKept l t u) : TagsKept l s u := by
  refine ⟨?_, h1.regs.trans h2.regs⟩
  have hu := h2.frame
  rw [h1.frame] at hu
  exact hu

theorem TagsKept.setGuard (h : TagsKept l s t) (g i : Nat) (x : Guard) : TagsKept l s (t.setGuard g i x) :=
  h.trans ⟨rfl, fun _ _ => rfl⟩

theorem tagsKept_disarm (l : List Nat) (s : State) (g k : Nat) : TagsKept l s (disarm s g k) := by
  unfold disarm
  split
  · refine List.foldlRecOn (motive := TagsKept l s) _ _ (.refl l s) fun u hu i _ => ?_
    dsimp only
    split
    · exact hu.setGuard ..
    · exact hu
  · exact .refl l s

theorem tags_disarm (s : State) (g k : Nat) : (disarm s g k).tags = s.tags := by
  unfold disarm
  split
  · refine List.foldlRecOn (motive := fun u : State => u.tags = s.tags) _ _ rfl fun u hu i _ => ?_
    dsimp only
    split
    · exact hu
    · exact hu
  · rfl

theorem tagsKept_freeTag (l : List Nat) (s : State) (g k : Nat) : TagsKept l s (freeTag s g k) :=
  (⟨rfl, fun _ _ => rfl⟩ : TagsKept l s (s.setTag g k { s.tag g k with st := 0, charge := 0 })).trans (tagsKept_disarm ..)

theorem tag_setTag (s : State) (g k j : Nat) (x : Tag) : (s.setTag g k x).tag g j = if j = k then x else s.tag g j := by
  rw [State.tag, State.setTag, tget_tset]
  exact if_congr (by omega) rfl rfl

theorem st_freeTag (s : State) (g k j : Nat) : ((freeTag s g k).tag g j).st = if j = k then 0 else (s.tag g j).st := by
  rw [freeTag, State.tag, tags_disarm, ← State.tag, tag_setTag]
  split <;> rfl

/-- What a reset does to one tag: it is withdrawn while its command is queued, and freed. -/
def resetTag (s : State) (g k : Nat) : State :=
  match (s.tag g k).st with
  | 0 => s
  | 1 => withdrawTag s g k
  | _ => freeTag s g k

theorem resetTags_eq (s : State) (g : Nat) : resetTags s g =
    (List.range 8).foldl (fun s i => s.setGuard g i Guard.reset) ((List.range 64).foldl (fun s k => resetTag s g k) s) := rfl

theorem tagsKept_resetTag (s : State) (g k : Nat) : TagsKept [kA g 0x84] s (resetTag s g k) := by
  unfold resetTag
  split
  · exact .refl ..
  · have hsent (e : Nat) (m : HMsg) : TagsKept [kA g 0x84] s (hSend s e m) := ⟨rfl, fun _ _ => rfl⟩
    exact ((hsent ..).trans (tagsKept_freeTag ..)).trans ⟨rfl, regsBut_wr _ (kA g 0x84) _⟩
  · exact tagsKept_freeTag ..

theorem st_resetTag (s : State) (g k j : Nat) : ((resetTag s g k).tag g j).st = if j = k then 0 else (s.tag g j).st := by
  unfold resetTag
  split
  · next hfree =>
    split
    · next hjk => rw [hjk, hfree]
    · rfl
  · exact st_freeTag (hSend ..) g k j
  · exact st_freeTag ..

theorem st_foldl_resetTag (ks : List Nat) (s : State) (g j : Nat) :
    ((ks.foldl (fun s k => resetTag s g k) s).tag g j).st = if j ∈ ks then 0 else (s.tag g j).st := by
  induction ks generalizing s with
  | nil => rfl
  | cons k ks ih =>
    rw [List.foldl_cons, ih, st_resetTag, ← ite_or]
    exact if_congr (or_comm.trans List.mem_cons.symm) rfl rfl

theorem guard_setGuard (s : State) (g i j : Nat) (x : Guard) :
    (s.setGuard g i x).guard g j = if j = i then x else s.guard g j := by
  rw [State.guard, State.setGuard, tget_tset]
  exact if_congr (by omega) rfl rfl

theorem guard_foldl_reset (is : List Nat) (s : State) (g j : Nat) :
    (is.foldl (fun s i => s.setGuard g i Guard.reset) s).guard g j = if j ∈ is then Guard.reset else s.guard g j := by
  induction is generalizing s with
  | nil => rfl
  | cons i is ih =>
    rw [List.foldl_cons, ih, guard_setGuard, ← ite_or]
    exact if_congr (or_comm.trans List.mem_cons.symm) rfl rfl

theorem tags_foldl_setGuard (is : List Nat) (s : State) (g : Nat) (x : Guard) :
    (is.foldl (fun s i => s.setGuard g i x) s).tags = s.tags :=
  List.foldlRecOn (motive := fun u : State => u.tags = s.tags) is _ rfl fun _ hu _ _ => hu

theorem tagsKept_resetTags (s : State) (g : Nat) : TagsKept [kA g 0x84] s (resetTags s g) := by
  have htags : TagsKept [kA g 0x84] s ((List.range 64).foldl (fun s k => resetTag s g k) s) :=
    List.foldlRecOn (motive := TagsKept _ s) _ _ (.refl _ s) fun u hu k _ => hu.trans (tagsKept_resetTag u g k)
  rw [resetTags_eq]
  exact List.foldlRecOn (motive := TagsKept _ s) _ _ htags fun u hu i _ => hu.setGuard ..

/-- Every tag of the core is free. -/
theorem st_resetTags (s : State) (g : Nat) (hk : k < 64) : ((resetTags s g).tag g k).st = 0 := by
  rw [resetTags_eq, State.tag, tags_foldl_setGuard, ← State.tag, st_foldl_resetTag, if_pos (List.mem_range.mpr hk)]

/-- Every guard of the core is disarmed. -/
theorem armed_resetTags (s : State) (g : Nat) (hi : i < 8) : ((resetTags s g).guard g i).armed = false := by
  rw [resetTags_eq, guard_foldl_reset, if_pos (List.mem_range.mpr hi)]
  rfl

/-! ## The hatches of a core that goes into reset (R289) -/

/-- The clients in their reset window, with one more. -/
def windowWith (l : List Nat) (i : Nat) : List Nat := if l.contains i then l else l ++ [i]

theorem mem_windowWith (l : List Nat) (i : Nat) : i ∈ windowWith l i := by
  unfold windowWith
  split
  · next h => exact List.contains_iff_mem.mp h
  · exact List.mem_append_right _ List.mem_cons_self

/-- A client that goes into reset while no hatch is full. -/
theorem clientEnter_of_empty (h : ∀ h, h < 4096 → hatFull s h = false) (i : Nat) :
    clientEnter s i = { s with hatWin := windowWith s.hatWin i } := by
  have hwindow : (if s.hatWin.contains i then s else { s with hatWin := s.hatWin ++ [i] }) =
      { s with hatWin := windowWith s.hatWin i } := by
    unfold windowWith
    split <;> rfl
  unfold clientEnter
  dsimp only
  rw [hwindow]
  refine List.foldlRecOn (motive := fun u => u = { s with hatWin := windowWith s.hatWin i }) _ _ rfl fun u hu k hk => ?_
  have hfull : hatFull u k = false := by
    rw [hu]
    exact h k (List.mem_range.mp hk)
  rw [hfull]
  exact hu

end Sys2Proof.Machine
end

section
/-! PROOF of the statement on reset, release, halt, its end and a single step (R96, R103 to R105, R164). -/

namespace Sys2Proof.Machine

variable {s t u : State} {g i k n at' : Nat} {c c1 c2 : Core}

theorem core_wb (s : State) (a i : Nat) (x : Bool) (h : Nat) : (s.wb a i x).core h = s.core h := rfl

theorem CoreKept.wb {l : List Nat} (hk : CoreKept l g s t) {a : Nat} (ha : a ∈ l) (i : Nat) (x : Bool) :
    CoreKept l g s (t.wb a i x) := hk.wr ha _

theorem regsBut_answer {l : List Nat} (h : RegsBut l s t) (code data : Nat) : RegsBut l s (t.answer code data) := h

theorem rb_answer (s : State) (code data a i : Nat) : (s.answer code data).rb a i = s.rb a i := rfl

/-! ## Reset and release (R104) -/

theorem exec_coreReset (hg : g < 256) : exec (.coreReset g) s =
    .next (if s.inReset g then s.answer rspOk 0 else (coreReset s g).answer rspOk 0) := inCore_of_lt hg _

theorem exec_coreRelease (hg : g < 256) : exec (.coreRelease g) s =
    .next (if s.inReset g then (coreRelease s g).answer rspOk 0 else s.answer rspOk 0) := inCore_of_lt hg _

/-- The state of a core in reset, but for the far stores it has sent. -/
def resetCore (c : Core) : Core := { Core.reset with stores := c.stores, seq := c.seq }

/-- A reset of a core that runs no thread, while no hatch is full. -/
theorem coreReset_of_idle (hg : g < 256) (hu : resetTags (s.wb (kA g 0) 0 true) g = u) (hthreads : coreThreads s g = [])
    (hhatch : ∀ h, h < 4096 → hatFull s h = false) : coreReset s g =
      { u.setCore g (resetCore (u.core g)) with hatWin := windowWith s.hatWin g } := by
  obtain ⟨hframe, hregs⟩ := hu ▸ tagsKept_resetTags (s.wb (kA g 0) 0 true) g
  have hnone : coreThreads u g = [] := by
    rw [hframe]
    exact hthreads
  have hwindow : u.hatWin = s.hatWin := by rw [hframe]; rfl
  have hempty (h : Nat) (hh : h < 4096) : hatFull (u.setCore g (resetCore (u.core g))) h = false := by
    have hhigh : ymRegs ≤ hatA h 0x18 := by
      simp only [hatA, Nat.add_assoc]
      exact Nat.le_trans (by decide : ymRegs ≤ hatRegs) (Nat.le_add_right ..)
    have hrd : u.rd (hatA h 0x18) = s.rd (hatA h 0x18) :=
      (hregs _ (List.mem_singleton.not.mpr (kA_ne_of_high hg (by decide) hhigh).symm)).trans
        (s.rd_wr_other _ (kA_ne_of_high hg (by decide) hhigh))
    rw [← hhatch h hh, hatFull, hatFull, State.rb, State.rb, State.setCore_rd, hrd]
  unfold coreReset
  dsimp only
  rw [hu, hnone]
  exact (clientEnter_of_empty hempty g).trans (by rw [State.setCore_hatWin, hwindow])

theorem completes_coreReset (hg : g < 256) (hreset : s.inReset g = false) (hthreads : coreThreads s g = [])
    (hhatch : ∀ h, h < 4096 → hatFull s h = false) :
    Completes (.coreReset g) s fun t => t.inReset g = true ∧
      t.core g = { Core.reset with stores := (s.core g).stores, seq := (s.core g).seq } ∧
      (∀ k, k < 64 → (t.tag g k).st = 0) ∧ (∀ i, i < 8 → (t.guard g i).armed = false) ∧
      (∀ h, h ≠ g → t.core h = s.core h) ∧ g ∈ t.hatWin ∧
      t = { s with cores := t.cores, regs := t.regs, tags := t.tags, guards := t.guards, hmsgs := t.hmsgs,
                   hatWin := t.hatWin, bus := ⟨rspOk, 0⟩ } ∧ RegsBut [kA g 0, kA g 0x84] s t := by
  have htags {k : Nat} (hk : k < 64) := st_resetTags (s.wb (kA g 0) 0 true) g hk
  have hguards {i : Nat} (hi : i < 8) := armed_resetTags (s.wb (kA g 0) 0 true) g hi
  obtain ⟨hframe, hregs⟩ := tagsKept_resetTags (s.wb (kA g 0) 0 true) g
  have hcoreReset := coreReset_of_idle hg rfl hthreads hhatch
  generalize resetTags (s.wb (kA g 0) 0 true) g = u at *
  have hcores (h : Nat) : u.core h = s.core h := by rw [hframe]; rfl
  have hctrl : u.inReset g = true := by
    rw [State.inReset, State.rb, hregs _ (List.mem_singleton.not.mpr (kA_ne (by decide)))]
    exact State.rb_wb_same _ _ 0 true (by decide)
  refine completes_of_exec ((exec_coreReset hg).trans (congrArg _ ((if_neg (by simp [hreset])).trans
    (congrArg (fun u => State.answer u rspOk 0) hcoreReset))))
    ⟨hctrl, ?core, fun k hk => htags hk, fun i hi => hguards hi, fun h hh => ?others, mem_windowWith .., ?frame, ?regs⟩
  case core =>
    refine (core_setCore_same u g _).trans ?_
    rw [hcores]
    rfl
  case others =>
    refine Eq.trans ?_ (hcores h)
    exact (State.core_setCore u g h _).trans (if_neg hh.symm)
  case frame => rw [hframe]; rfl
  case regs =>
    intro a ha
    simp only [List.mem_cons, List.not_mem_nil, or_false, not_or] at ha
    exact (hregs a (List.mem_singleton.not.mpr ha.2)).trans (s.rd_wr_other _ (Ne.symm ha.1))

theorem completes_coreReset_again (hg : g < 256) (hreset : s.inReset g = true) :
    Completes (.coreReset g) s fun t => t = { s with bus := ⟨rspOk, 0⟩ } :=
  completes_of_exec ((exec_coreReset hg).trans (congrArg _ (if_pos hreset))) rfl

/-- The core as it starts at `pc` (R104), halted there if HALT stands. -/
def released (pc : Nat) (halt : Bool) (now : Nat) (c : Core) : Core :=
  { c with pc := pc, sr := 0x200#32, halted := halt, since := now }

theorem coreRelease_eq (s : State) (g : Nat) : coreRelease s g =
    { (s.wb (kA g 0) 0 false).modCore g (released (s.rf (kA g 8) 12 0) (s.rb (kA g 0) 1) s.now) with
      hatWin := windowWith s.hatWin g } := rfl

theorem completes_coreRelease (hg : g < 256) (hreset : s.inReset g = true) :
    Completes (.coreRelease g) s fun t => t.inReset g = false ∧
      t.core g = { s.core g with pc := s.rf (kA g 8) 12 0, sr := 0x200#32, halted := s.rb (kA g 0) 1, since := s.now } ∧
      (∀ h, h ≠ g → t.core h = s.core h) ∧ g ∈ t.hatWin ∧
      t = { s with cores := t.cores, regs := t.regs, hatWin := t.hatWin, bus := ⟨rspOk, 0⟩ } ∧ RegsBut [kA g 0] s t :=
  completes_of_exec ((exec_coreRelease hg).trans (congrArg _ ((if_pos hreset).trans
    (congrArg (fun u => State.answer u rspOk 0) (coreRelease_eq s g)))))
    ⟨State.rb_wb_same s (kA g 0) 0 false (by decide), core_modCore_same (s.wb (kA g 0) 0 false) g (released _ _ _),
      fun _ hh => core_modCore_other hh (s.wb (kA g 0) 0 false) (released _ _ _), mem_windowWith .., rfl, regsBut_wr s (kA g 0) _⟩

/-! ## HALT (R105) -/

/-- A bit of KB_CORE_CTRL other than RESET is written. -/
theorem inReset_wb (hi : i ≠ 0) (hlt : i < 64) (x : Bool) (s : State) (g : Nat) : (s.wb (kA g 0) i x).inReset g = s.inReset g :=
  State.rb_wb_other _ _ _ _ _ hlt hi

section
variable (hg : g < 256)
include hg

theorem rd_wb_ctrl_high {a : Nat} (ha : ymRegs ≤ a) (i : Nat) (x : Bool) (s : State) : (s.wb (kA g 0) i x).rd a = s.rd a :=
  s.rd_wr_other _ (kA_ne_of_high hg (by decide) ha)

theorem shedReady_wb_ctrl (i k : Nat) (x : Bool) (s : State) : (s.wb (kA g 0) i x).shedReady k = s.shedReady k := by
  have hrd := rd_wb_ctrl_high hg (a := shdRegs + 0x200 + 4 * k)
    (Nat.le_trans (by decide : ymRegs ≤ shdRegs + 0x200) (Nat.le_add_right ..)) i x s
  unfold State.shedReady State.shedCur State.shedBusy State.rf State.rb
  rw [hrd]

theorem coreLive_wb_ctrl (hi : i ≠ 0) (hlt : i < 64) (x : Bool) (s : State) :
    coreLive (s.wb (kA g 0) i x) g = coreLive s g := by
  rw [coreLive, shedReady_wb_ctrl hg, inReset_wb hi hlt]
  rfl

/-- Which line a core is due does not depend on its HALT and STEP. -/
theorem dueLine_wb_ctrl (hi : i ≠ 0) (hlt : i < 64) (x : Bool) (s : State) : dueLine (s.wb (kA g 0) i x) g = dueLine s g := by
  have hslice : ymRegs ≤ ymCoreA g 0 := ymRegs_le_ymCoreA ..
  have hmode : preemptMode (s.wb (kA g 0) i x) g = preemptMode s g := by
    rw [preemptMode, State.rb, rd_wb_ctrl_high hg hslice]
    rfl
  have heligible : eligible (s.wb (kA g 0) i x) g = eligible s g := by
    rw [eligible, State.rb, rd_wb_ctrl_high hg hslice, inReset_wb hi hlt, shedReady_wb_ctrl hg]
    rfl
  have hcand : candidate (s.wb (kA g 0) i x) g = candidate s g := by
    rw [candidate, heligible]
    rfl
  have hswitch : switchDue (s.wb (kA g 0) i x) g = switchDue s g := by
    unfold switchDue
    dsimp only
    rw [hcand]
    rfl
  have hrd {o : Nat} (ho : 0 ≠ o) : (s.wb (kA g 0) i x).rd (kA g o) = s.rd (kA g o) := s.rd_wr_other _ (kA_ne ho)
  have hlines : linesNow (s.wb (kA g 0) i x) g = linesNow s g := by
    unfold linesNow
    dsimp only
    rw [hrd (by decide), hrd (by decide), hrd (by decide), hrd (by decide)]
    rfl
  have hpending : ipend (s.wb (kA g 0) i x) g = ipend s g := by
    rw [ipend, hlines, offerNow, hmode, hswitch]
    rfl
  unfold dueLine
  rw [hpending]
  rfl

end

theorem exec_coreHalt (hg : g < 256) : exec (.coreHalt g) s = .next ((setHalt s g).answer rspOk 0) := inCore_of_lt hg _

/-- A core at its boundary, with nothing due, halts there. -/
theorem setHalt_of_quiet (hg : g < 256) (hlive : coreLive s g = true) (hhold : (s.core g).hold = .none)
    (hwfe : (s.core g).wfe = false) (hframe : (s.core g).frameUe = none) (hasync : (s.core g).busAsync = [])
    (hbudget : budgetDue (s.core g) = false) (hline : dueLine s g = none) :
    setHalt s g = haltHere (s.wb (kA g 0) 1 true) g := by
  have hlive' := (coreLive_wb_ctrl hg (by decide : 1 ≠ 0) (by decide) true s).trans hlive
  have hline' := (dueLine_wb_ctrl hg (by decide : 1 ≠ 0) (by decide) true s).trans hline
  unfold setHalt
  dsimp only
  rw [core_wb, hlive', hline', hhold, hframe, hasync, hbudget, endWfe_of_awake (by rw [core_wb]; exact hwfe)]
  simp

theorem completes_coreHalt (hg : g < 256) (hlive : coreLive s g = true) (hhold : (s.core g).hold = .none)
    (hwfe : (s.core g).wfe = false) (hframe : (s.core g).frameUe = none) (hasync : (s.core g).busAsync = [])
    (hbudget : budgetDue (s.core g) = false) (hline : dueLine s g = none) :
    Completes (.coreHalt g) s fun t => t.core g = { s.core g with halted := true, stepping := false, since := s.now } ∧
      t.rb (kA g 0) 1 = true ∧ t.inReset g = false ∧ t = { s with cores := t.cores, regs := t.regs, bus := ⟨rspOk, 0⟩ } ∧
      RegsBut [kA g 0] s t := by
  have hreset : s.inReset g = false := by
    simp only [coreLive, Bool.and_eq_true, Bool.not_eq_true'] at hlive
    exact hlive.1.2
  refine completes_of_exec ((exec_coreHalt hg).trans (congrArg _ (congrArg (fun u => State.answer u rspOk 0)
    (setHalt_of_quiet hg hlive hhold hwfe hframe hasync hbudget hline)))) ⟨?core, ?halt, ?reset, rfl, regsBut_wr s (kA g 0) _⟩
  case core => rw [core_answer, haltHere, core_modCore_same]; rfl
  case halt => exact State.rb_wb_same s (kA g 0) 1 true (by decide)
  case reset => exact (inReset_wb (by decide : 1 ≠ 0) (by decide) true s g).trans hreset

/-! ## The end of a halt (R96, R103) -/

/-- What a core runs its next bundle from is in `c1` as in `c`; time, budget and halt aside. -/
structure SameContext (c c1 : Core) : Prop where
  pc : c1.pc = c.pc
  regs : c1.s = c.s
  sr : c1.sr = c.sr
  hold : c1.hold = c.hold
  frameUe : c1.frameUe = c.frameUe
  busAsync : c1.busAsync = c.busAsync
  ready : c1.ready = c.ready
  run : c1.run = c.run

theorem SameContext.trans (h1 : SameContext c c1) (h2 : SameContext c1 c2) : SameContext c c2 :=
  ⟨h2.pc.trans h1.pc, h2.regs.trans h1.regs, h2.sr.trans h1.sr, h2.hold.trans h1.hold, h2.frameUe.trans h1.frameUe,
    h2.busAsync.trans h1.busAsync, h2.ready.trans h1.ready, h2.run.trans h1.run⟩

theorem SameContext.srb (h : SameContext c c1) (i : Nat) : c1.srb i = c.srb i := congrArg (fun v => v.getLsbD i) h.sr

theorem SameContext.gs (h : SameContext c c1) (i : Nat) : c1.gs i = c.gs i := by rw [Core.gs, Core.gs, h.regs]

/-- The core as it goes on after `n` cycles of a halt, past the breakpoint it stands at. -/
def ranOn (n at' : Nat) (c : Core) : Core :=
  { c.tick n with
    budget := c.budget, accSpent := c.accSpent, halted := false, since := at', bpSkip := some (c.tick n).pc }

theorem core_resume (s : State) (g : Nat) : (resume s g).core g = ranOn (waitedCycles s g) s.now (s.core g) := by
  rw [resume, core_modCore_same, endHalt, core_modCore_same]
  rfl

theorem coreKept_resume (s : State) (g : Nat) : CoreKept [] g s (resume s g) := by
  unfold resume endHalt
  exact ((CoreKept.refl [] g s).modCore _).modCore _

theorem sameContext_ranOn (n at' : Nat) (c : Core) : SameContext c (ranOn n at' c) := by
  cases c
  exact ⟨rfl, rfl, rfl, rfl, rfl, rfl, rfl, rfl⟩

theorem budget_ranOn (n at' : Nat) (c : Core) : (ranOn n at' c).budget = c.budget := by cases c; rfl
theorem halted_ranOn (n at' : Nat) (c : Core) : (ranOn n at' c).halted = false := rfl
theorem bpSkip_ranOn (n at' : Nat) (c : Core) : (ranOn n at' c).bpSkip = some c.pc := by cases c; rfl

theorem exec_coreHaltClear (hg : g < 256) : exec (.coreHaltClear g) s = .next ((clearHalt s g).answer rspOk 0) :=
  inCore_of_lt hg _

theorem clearHalt_of_halted (hhalted : (s.core g).halted = true) (hdfault : (s.core g).dfault = false)
    (hreset : s.inReset g = false) : clearHalt s g = resume (s.wb (kA g 0) 1 false) g :=
  if_pos ⟨hhalted, by rw [core_wb, hdfault]; rfl, by rw [hreset]; rfl⟩

theorem clearHalt_of_dfault (hdfault : (s.core g).dfault = true) : clearHalt s g = s.wb (kA g 0) 1 false :=
  if_neg fun h => by
    rw [core_wb, hdfault] at h
    exact Bool.noConfusion h.2.1

theorem completes_coreHaltClear (hg : g < 256) (hhalted : (s.core g).halted = true) (hdfault : (s.core g).dfault = false)
    (hreset : s.inReset g = false) :
    Completes (.coreHaltClear g) s fun t => (t.core g).halted = false ∧ (t.core g).pc = (s.core g).pc ∧
      (t.core g).bpSkip = some (s.core g).pc ∧ (t.core g).budget = (s.core g).budget ∧ t.rb (kA g 0) 1 = false ∧
      t = { s with cores := t.cores, regs := t.regs, bus := ⟨rspOk, 0⟩ } ∧ RegsBut [kA g 0] s t := by
  have hresume := coreKept_resume (s.wb (kA g 0) 1 false) g
  have hkept := ((CoreKept.refl [kA g 0] g s).wb List.mem_cons_self 1 false).trans (hresume.mono (List.nil_subset _))
  have hcore := core_resume (s.wb (kA g 0) 1 false) g
  rw [core_wb] at hcore
  have hexec := (exec_coreHaltClear hg).trans (congrArg (fun u => Host.Outcome.next (State.answer u rspOk 0))
    (clearHalt_of_halted hhalted hdfault hreset))
  generalize resume (s.wb (kA g 0) 1 false) g = u at *
  refine completes_of_exec hexec
    ⟨?halted, ?pc, ?skip, ?budget, ?halt, congrArg (fun u => State.answer u rspOk 0) hkept.frame, regsBut_answer hkept.regs _ _⟩
  case halted => rw [core_answer, hcore, halted_ranOn]
  case pc => rw [core_answer, hcore, (sameContext_ranOn ..).pc]
  case skip => rw [core_answer, hcore, bpSkip_ranOn]
  case budget => rw [core_answer, hcore, budget_ranOn]
  case halt =>
    rw [rb_answer, State.rb, hresume.regs _ List.not_mem_nil]
    exact State.rb_wb_same s (kA g 0) 1 false (by decide)

theorem completes_coreHaltClear_of_dfault (hg : g < 256) (hdfault : (s.core g).dfault = true) :
    Completes (.coreHaltClear g) s fun t => t.core g = s.core g ∧ t.rb (kA g 0) 1 = false ∧ RegsBut [kA g 0] s t :=
  completes_of_exec ((exec_coreHaltClear hg).trans (congrArg (fun u => Host.Outcome.next (State.answer u rspOk 0))
    (clearHalt_of_dfault hdfault))) ⟨rfl, State.rb_wb_same s (kA g 0) 1 false (by decide), regsBut_wr s (kA g 0) _⟩

/-! ## STEP (R103) -/

/-- The core with another budget. -/
def withBudget (b : BitVec 32) (c : Core) : Core := { c with budget := b }

/-- The core as `n` cycles of finished commands are charged to it. -/
def paid (n : Nat) (c : Core) : Core := withBudget (BitVec.ofNat 32 (c.budget.toNat - n)) c

theorem paid_withBudget (n : Nat) (b : BitVec 32) (c : Core) :
    paid n (withBudget b c) = withBudget (BitVec.ofNat 32 (b.toNat - n)) c := rfl

/-- The charge of finished commands changes the budget of one core, and tags. -/
structure Charged (g : Nat) (s t : State) : Prop where
  frame : t = { s with cores := t.cores, tags := t.tags }
  core : ∃ b, t.core g = withBudget b (s.core g)

theorem charged_chargeCtx (s : State) (g : Nat) : Charged g s (chargeCtx s g) := by
  refine List.foldlRecOn (motive := Charged g s) _ _ ⟨rfl, _, rfl⟩ fun u hu k _ => ?_
  obtain ⟨hframe, b, hcore⟩ := hu
  dsimp only
  split
  · refine ⟨?_, _, (core_modCore_same u g (paid _)).trans ((congrArg (paid _) hcore).trans (paid_withBudget ..))⟩
    rw [hframe]
    rfl
  · exact ⟨hframe, b, hcore⟩

theorem sameContext_withBudget (b : BitVec 32) (c : Core) : SameContext c (withBudget b c) := by
  cases c
  exact ⟨rfl, rfl, rfl, rfl, rfl, rfl, rfl, rfl⟩

/-- The core as it sets out on one bundle. -/
def steppingCore (c : Core) : Core := { c with stepping := true }

theorem sameContext_steppingCore (c : Core) : SameContext c (steppingCore c) := by
  cases c
  exact ⟨rfl, rfl, rfl, rfl, rfl, rfl, rfl, rfl⟩

theorem halted_steppingCore (c : Core) : (steppingCore c).halted = c.halted := by cases c; rfl

/-- The state in which core `g` sets out on a step. -/
def stepBegins (s : State) (g : Nat) : State := ((resume s g).wb (kA g 0) 2 true).modCore g steppingCore

theorem coreKept_stepBegins (s : State) (g : Nat) : CoreKept [kA g 0] g s (stepBegins s g) :=
  (((coreKept_resume s g).mono (List.nil_subset _)).wb List.mem_cons_self 2 true).modCore _

theorem core_stepBegins (s : State) (g : Nat) :
    (stepBegins s g).core g = steppingCore (ranOn (waitedCycles s g) s.now (s.core g)) := by
  rw [stepBegins, core_modCore_same, core_wb, core_resume]

/-- One turn of a step: a boundary, while the step is not over. -/
def stepTurn (s : State) (g : Nat) : State :=
  if (s.core g).stepping && !(s.core g).halted && decide ((s.core g).hold = .none) then boundary s g else s

theorem stepTurn_of_over (h : (s.core g).stepping = false) : stepTurn s g = s := if_neg (by simp [h])

theorem coreStep_eq (hhalted : (s.core g).halted = true) (hdfault : (s.core g).dfault = false)
    (hreset : s.inReset g = false) (hshed : s.shedReady (g / 8) = true) : coreStep s g =
      if (stepTurn (stepBegins s g) g).rd (kA g 0x20) ≠ (stepBegins s g).rd (kA g 0x20) then stepTurn (stepBegins s g) g
      else stepTurn (stepTurn (stepBegins s g) g) g := by
  have hon : s.shedCur (g / 8) = 3 := by
    simp only [State.shedReady, Bool.and_eq_true, decide_eq_true_eq] at hshed
    exact hshed.1
  refine (if_neg (by simp [hhalted, hdfault, hreset, hon])).trans ?_
  rfl

theorem exec_coreStep (hg : g < 256) : exec (.coreStep g) s = .next ((coreStep s g).answer rspOk 0) := inCore_of_lt hg _

/-- The core as its step is over. -/
def stepped (now : Nat) (c : Core) : Core := { c with stepping := false, halted := true, wfe := false, since := now }

theorem core_stepEnds (s : State) (g : Nat) : (stepEnds s g).core g = stepped s.now (s.core g) :=
  core_modCore_same (s.wb (kA g 0) 2 false) g (stepped s.now)

theorem stepping_stepped (n : Nat) (c : Core) : (stepped n c).stepping = false := rfl
theorem halted_stepped (n : Nat) (c : Core) : (stepped n c).halted = true := rfl
theorem pc_stepped (n : Nat) (c : Core) : (stepped n c).pc = c.pc := by cases c; rfl
theorem gs_stepped (n : Nat) (c : Core) (i : Nat) : (stepped n c).gs i = c.gs i := by cases c; rfl

theorem coreKept_stepEnds (s : State) (g : Nat) : CoreKept [kA g 0] g s (stepEnds s g) :=
  ((CoreKept.refl _ g s).wb List.mem_cons_self 2 false).modCore _

/-- A step over an empty bundle in kernel mode with interrupts off: the bundle retires, and the step is over. -/
theorem exists_stepTurn_of_nop (hg : g < 256) (hat : AtWord s g 0) (hkm : (s.core g).km = true)
    (hie : (s.core g).ie = false) (hhold : (s.core g).hold = .none) (hframe : (s.core g).frameUe = none)
    (hasync : (s.core g).busAsync = []) (hstop : (s.th (runThread s g)).stop = none)
    (hstep : (s.core g).stepping = true) (hhalted : (s.core g).halted = false) : ∃ u t c,
      Charged g s u ∧ SameContext (s.core g) c ∧ RetiredAs (retiredCore (inEx c) (inEx c) (slot0 0) (c.pc + 1) 1) g u t ∧
        stepTurn s g = stepEnds t g := by
  have hcharged := charged_chargeCtx s g
  generalize hu : chargeCtx s g = u at hcharged
  obtain ⟨huframe, b, hcore⟩ := id hcharged
  have hctx : SameContext (s.core g) (u.core g) := hcore ▸ sameContext_withBudget b (s.core g)
  have hstepU : (u.core g).stepping = true := by rw [hcore]; exact hstep
  have hlineU : dueLine u g = none := if_neg (by rw [Core.ie, hctx.srb]; exact Bool.eq_false_iff.mp hie)
  have hatU : AtWord u g 0 := by
    obtain ⟨hclean, hpc, hword, hloop0, hloop1, hready⟩ := hat
    refine ⟨?_, hctx.pc ▸ hpc, ?_, (hctx.srb 13).trans hloop0, (hctx.srb 14).trans hloop1, hctx.ready.trans hready⟩
    · rw [huframe]; exact hclean
    · rw [hctx.pc, State.ld_of_mem (by rw [huframe])]; exact hword
  have hthread : (u.th (runThread u g)).stop = none := by
    rw [runThread, hctx.run, State.th_of_threads (s := s) (by rw [huframe])]
    exact hstop
  have hbudgetU : budgetDue (u.core g) = false := by
    have hkmU : (u.core g).km = true := (hctx.srb 9).trans hkm
    simp [budgetDue, hkmU]
  have hswitchU : preemptDue u g = false := by
    have hieU : (u.core g).ie = false := (hctx.srb 8).trans hie
    simp [preemptDue, deferred, hieU]
  have hissue : boundary s g = issue u g :=
    boundary_eq_issue hu hthread (hctx.frameUe.trans hframe) (hctx.busAsync.trans hasync) hbudgetU hlineU
      (fun _ => hstepU) (fun _ => hstepU) hswitchU
  have hplain : Plain 0 := by decide
  obtain ⟨-, -, -, hloop0, hloop1, hready⟩ := id hatU
  obtain ⟨t, hret, hda⟩ := exists_daStage_of_plain (s := u) (g := g) hplain (fun h => absurd h (by decide))
    (resultsReady_of_none hready) (fun v => z0Exec_of_idle (.inl (by decide)) v g _ _) ((srb_inEx ..).trans hloop0)
    ((srb_inEx ..).trans hloop1)
  refine ⟨u, t, u.core g, hcharged, hctx, hret, ?_⟩
  refine (if_pos (by simp [hstep, hhalted, hhold])).trans ?_
  rw [hissue, issue_of_plain hg hatU (by decide) hplain (by decide), hda, if_pos hstepU]

theorem completes_coreStep (hg : g < 256) (hhalted : (s.core g).halted = true) (hdfault : (s.core g).dfault = false)
    (hreset : s.inReset g = false) (hshed : s.shedReady (g / 8) = true) (hat : AtWord s g 0)
    (hkm : (s.core g).km = true) (hie : (s.core g).ie = false) (hhold : (s.core g).hold = .none)
    (hframe : (s.core g).frameUe = none) (hasync : (s.core g).busAsync = [])
    (hstop : (s.th (runThread s g)).stop = none) :
    Completes (.coreStep g) s fun t => (t.core g).pc = (s.core g).pc + 1 ∧ (t.core g).halted = true ∧
      t.rb (kA g 0) 2 = false ∧ t.rd (kA g 0x20) = sat32 (s.rd (kA g 0x20) + 1) ∧
      (∀ i, (t.core g).gs i = (s.core g).gs i) ∧ SameBytes s t ∧ RegsBut [kA g 0, kA g 0x20, kA g 0x24] s t := by
  have hkept := coreKept_stepBegins s g
  have hcore := core_stepBegins s g
  have hstep : ((stepBegins s g).core g).stepping = true := by rw [hcore]; rfl
  have hrunning : ((stepBegins s g).core g).halted = false := by rw [hcore, halted_steppingCore, halted_ranOn]
  have heq := coreStep_eq hhalted hdfault hreset hshed
  have hctx : SameContext (s.core g) ((stepBegins s g).core g) := by
    rw [hcore]
    exact (sameContext_ranOn ..).trans (sameContext_steppingCore _)
  generalize stepBegins s g = u at *
  have hatU : AtWord u g 0 := by
    obtain ⟨⟨hecc, hinj⟩, hpc, hword, hloop0, hloop1, hready⟩ := hat
    have hinject (n : Nat) : u.rb (eccA n 0x30) 0 = s.rb (eccA n 0x30) 0 := by
      rw [State.rb, hkept.regs _ (List.mem_singleton.not.mpr (kA_ne_of_high hg (by decide) (ymRegs_le_shdRegs.trans (shdRegs_le_eccA ..))).symm)]
      rfl
    refine ⟨⟨hkept.ecc.trans hecc, fun n hn => (hinject n).trans (hinj n hn)⟩, hctx.pc ▸ hpc, ?_,
      (hctx.srb 13).trans hloop0, (hctx.srb 14).trans hloop1, hctx.ready.trans hready⟩
    rw [hctx.pc, State.ld_of_mem hkept.mem]
    exact hword
  have hthread : (u.th (runThread u g)).stop = none := by
    rw [runThread, hctx.run, State.th_of_threads (s := s) (by rw [hkept.ym])]
    exact hstop
  obtain ⟨v, t, c, hcharged, hctxC, hret, hturn⟩ := exists_stepTurn_of_nop hg hatU ((hctx.srb 9).trans hkm)
    ((hctx.srb 8).trans hie) (hctx.hold.trans hhold) (hctx.frameUe.trans hframe) (hctx.busAsync.trans hasync) hthread
    hstep hrunning
  have hover : coreStep s g = stepEnds t g := by
    have hidle : stepTurn (stepEnds t g) g = stepEnds t g := stepTurn_of_over (by rw [core_stepEnds, stepping_stepped])
    rw [heq, hturn, hidle, ite_self]
  have hends := coreKept_stepEnds t g
  have hendCore := core_stepEnds t g
  have hall := hctx.trans hctxC
  have hvregs : v.regs = u.regs := by rw [hcharged.frame]
  have hvmem : v.mem = u.mem := by rw [hcharged.frame]
  refine completes_of_exec ((exec_coreStep hg).trans (congrArg (fun u => Host.Outcome.next (State.answer u rspOk 0)) hover))
    ⟨?pc, ?halted, ?step, ?count, fun i => ?gs, ?bytes, fun a ha => ?regs⟩
  case pc => rw [core_answer, hendCore, hret.core, pc_stepped, pc_retiredCore, hall.pc]
  case halted => rw [core_answer, hendCore, halted_stepped]
  case step => exact State.rb_wb_same t (kA g 0) 2 false (by decide)
  case count =>
    have hcount : kA g 0x20 ∉ [kA g 0] := List.mem_singleton.not.mpr (kA_ne (by decide))
    refine (hends.regs _ hcount).trans ?_
    rw [hret.count, State.rd_of_regs hvregs, hkept.regs _ hcount]
  case gs => rw [core_answer, hendCore, hret.core, gs_stepped, gs_retiredCore, gs_inEx, hall.gs]
  case bytes => exact sameBytes_of_mem (hends.mem.trans (hret.kept.mem.trans (hvmem.trans hkept.mem)))
  case regs =>
    simp only [List.mem_cons, List.not_mem_nil, or_false, not_or] at ha
    obtain ⟨hctrl, hdone, hstall⟩ := ha
    have hone : a ∉ [kA g 0] := List.mem_singleton.not.mpr hctrl
    refine (hends.regs a hone).trans ((hret.kept.regs a ?_).trans ((State.rd_of_regs hvregs a).trans (hkept.regs a hone)))
    simp [hdone, hstall]

theorem completes_coreStep_of_running (hg : g < 256) (hhalted : (s.core g).halted = false) :
    Completes (.coreStep g) s fun t => t = { s with bus := ⟨rspOk, 0⟩ } := by
  have hnone : coreStep s g = s := if_pos (.inl (by rw [hhalted]; rfl))
  exact completes_of_exec ((exec_coreStep hg).trans (congrArg (fun u => Host.Outcome.next (State.answer u rspOk 0)) hnone)) rfl

/-- Settles O29: each command by its own lemma; a step retires its bundle as a bundle's run does, and halts. -/
theorem coreControl : Obligations.CoreControl := fun _ _ hg =>
  ⟨completes_coreReset hg, completes_coreReset_again hg, completes_coreRelease hg, completes_coreHalt hg,
    completes_coreHaltClear hg, fun _ hdfault _ => completes_coreHaltClear_of_dfault hg hdfault, completes_coreStep hg,
    completes_coreStep_of_running hg⟩

end Sys2Proof.Machine
end

section
/-! PROOFS on the Kubry cores: reads and writes of any length in clean SRAM, and the save areas of vector state in X or Y
memory (R133, R137, R331, R335). -/

namespace Sys2Proof.Machine

variable {s t : State} {a b g k n o v w : Nat} {l : List Byte}

/-! ## Stores (R3) -/

theorem store_nil (s : State) (a : Nat) : s.store a [] = s := rfl

/-- A store made in two parts. -/
theorem memStore_take_drop (c : List Host.Cell) (a m : Nat) (l : List Byte) :
    memStore (memStore c a (l.take m)) (a + m) (l.drop m) = memStore c a l := by
  induction l generalizing c a m with
  | nil => simp [memStore]
  | cons x l ih =>
    cases m with
    | zero => rfl
    | succ m =>
      rw [List.take_succ_cons, List.drop_succ_cons, memStore, memStore, Nat.add_comm m 1, ← Nat.add_assoc]
      exact ih ..

theorem store_take_drop (s : State) (a m : Nat) (l : List Byte) :
    (s.store a (l.take m)).store (a + m) (l.drop m) = s.store a l :=
  congrArg (fun c => { s with mem := c }) (memStore_take_drop s.mem a m l)

theorem store_append (s : State) (a : Nat) (x y : List Byte) : s.store a (x ++ y) = (s.store a x).store (a + x.length) y := by
  rw [← store_take_drop s a x.length, List.take_left, List.drop_left]

theorem ld_of_sameBytes (h : ∀ i, i < n → t.byte (a + i) = s.byte (a + i)) : t.ld a n = s.ld a n :=
  congrArg leNat (List.map_congr_left fun i hi => h i (List.mem_range.mp hi))

/-- A number that a store does not meet. -/
theorem ld_store_other (s : State) (h : a + n ≤ b ∨ b + l.length ≤ a) : (s.store b l).ld a n = s.ld a n :=
  ld_of_sameBytes fun i hi => s.byte_store_other l (by omega)

/-! ## Clean memory below the engines' windows (R324, R329) -/

/-- Where the windows of the engines begin. Below are the Barn and the stables. -/
abbrev sramEnd : Nat := engBase 0 0

/-- The core whose memory a place in a stable's window is, if it is memory. -/
theorem stableRegion_cases (n q : Nat) : (∃ i, i < 8 ∧ (stableRegion n q = .imem (8 * n + i) ∨
    stableRegion n q = .xmem (8 * n + i) ∨ stableRegion n q = .ymem (8 * n + i))) ∨ stableRegion n q = .hole ∨
    ∃ base rows, stableRegion n q = .regs base rows := by
  unfold stableRegion
  dsimp only
  by_cases hmem : q < 0x800000
  · rw [if_pos hmem]
    have hcore : q / 0x100000 < 8 := Nat.div_lt_of_lt_mul hmem
    split
    · exact .inl ⟨_, hcore, .inl rfl⟩
    split
    · exact .inr (.inl rfl)
    split
    · exact .inl ⟨_, hcore, .inr (.inl rfl)⟩
    split
    · exact .inl ⟨_, hcore, .inr (.inr rfl)⟩
    · exact .inr (.inl rfl)
  · rw [if_neg hmem]
    split
    · exact .inr (.inr ⟨_, _, rfl⟩)
    · exact .inr (.inr ⟨_, _, rfl⟩)

theorem regionOf_of_sram (hw : w < sramEnd) (hbarn : ¬ w < barnSize) :
    regionOf w = .unassigned ∨ ∃ n q, n < 32 ∧ regionOf w = stableRegion n q := by
  have hsram : w < 0x02000000000 := hw
  have hddr : ¬ (ddrBase ≤ w ∧ w < 0x10800000000) := by simp only [ddrBase]; omega
  rw [regionOf, if_neg hbarn, if_neg (by omega : ¬ (0x02000000000 ≤ w ∧ w < 0x0200B000000)),
    if_neg (by omega : ¬ (0x03000000000 ≤ w ∧ w < 0x0300D000000)), if_neg hddr,
    if_neg (by omega : ¬ (0x80000000000 ≤ w ∧ w < 0x100000000000))]
  split
  · exact .inr ⟨_, _, by omega, rfl⟩
  · exact .inl rfl

theorem ctlOf_lt (hw : w < sramEnd) (hctl : ctlOf w = some n) : n < 96 := by
  by_cases hbarn : w < barnSize
  · obtain ⟨k, hk, hport⟩ := ctlOf_of_barn hbarn
    rw [hport] at hctl
    cases hctl
    omega
  · obtain hnone | ⟨b, q, hb, hstable⟩ := regionOf_of_sram hw hbarn
    · rw [ctlOf, hnone] at hctl
      cases hctl
    · rw [ctlOf, hstable] at hctl
      obtain ⟨i, hi, hmem⟩ | hhole | ⟨_, _, hregs⟩ := stableRegion_cases b q
      · have hstable : 64 + (8 * b + i) / 8 = n := by
          rcases hmem with hmem | hmem | hmem <;> rw [hmem] at hctl <;> exact Option.some.inj hctl
        omega
      · rw [hhole] at hctl
        cases hctl
      · rw [hregs] at hctl
        cases hctl

theorem wordSt_of_noEcc (hecc : s.ecc = []) (hw : w < ddrBase) : s.wordSt w = .good := by
  rw [State.wordSt, if_neg (Nat.not_le.mpr hw), State.eccOf, hecc]
  exact (by decide : sramDecode 0 = .good)

theorem sramEnd_le_ddrBase : sramEnd ≤ ddrBase := by decide

theorem cleanMem_store (h : CleanMem s) (a : Nat) (l : List Byte) : CleanMem (s.store a l) := h

theorem cleanMem_modCore (h : CleanMem s) (g : Nat) (f : Core → Core) : CleanMem (s.modCore g f) := h

theorem injectAt_of_clean (h : CleanMem s) (hn : n < 327) (w : Nat) : injectAt s n w = s :=
  if_neg (by rw [show tb (s.rd (eccA n 0x30)) 0 = false from h.2 n hn, Bool.false_and]; exact Bool.false_ne_true)

/-- A write within one word, which it may fill. -/
theorem writeWord_of_cleanMem (h : CleanMem s) (hw : w < sramEnd) (near : Bool) (a : Nat) (l : List Byte) (req : Nat) :
    s.writeWord near w a l req = (false, s.store a l) := by
  have hvalid : (s.store a l).setEcc w 0 = s.store a l :=
    congrArg (fun e => { s.store a l with ecc := e })
      ((congrArg (fun e => tset (fun _ => 0) e w 0) h.1).trans h.1.symm : tset (fun _ => 0) s.ecc w 0 = s.ecc)
  cases hctl : ctlOf w with
  | none => simp only [State.writeWord, hctl]
  | some n =>
    have hnone := injectAt_of_clean (cleanMem_store h a l) (Nat.lt_trans (ctlOf_lt hw hctl) (by decide)) w
    simp only [State.writeWord, hctl, wordSt_of_noEcc h.1 (Nat.lt_of_lt_of_le hw sramEnd_le_ddrBase), hvalid, hnone, ite_self]

/-- A write of any length that `k` words can hold. -/
theorem writeWords_of_cleanMem (near : Bool) (req : Nat) (h : CleanMem s) (hend : a + l.length ≤ sramEnd)
    (hk : a % 16 + l.length ≤ 16 * k) : s.writeWords near req k a l = (false, s.store a l) := by
  induction k generalizing s a l with
  | zero =>
    have hl : l = [] := List.eq_nil_of_length_eq_zero (by omega)
    rw [hl]
    rfl
  | succ k ih =>
    by_cases hl : l = []
    · rw [hl]
      rfl
    · have hpos : 0 < l.length := List.length_pos_of_ne_nil hl
      have halign : sramEnd % 16 = 0 := by decide
      have hword := writeWord_of_cleanMem h (w := a / 16 * 16) (by omega) near a (l.take (a / 16 * 16 + 16 - a)) req
      have hstep := ih (cleanMem_store h a (l.take (a / 16 * 16 + 16 - a))) (a := a + (a / 16 * 16 + 16 - a))
        (l := l.drop (a / 16 * 16 + 16 - a)) (by rw [List.length_drop]; omega) (by rw [List.length_drop]; omega)
      simp only [State.writeWords, if_neg hl, hword, hstep, store_take_drop, Bool.or_false]

theorem writeNear_of_cleanMem (h : CleanMem s) (hend : a + l.length ≤ sramEnd) (req : Nat) :
    s.writeNear a l req = s.store a l :=
  congrArg Prod.snd (writeWords_of_cleanMem true req h hend (by omega))

theorem readWords_of_noEcc (hecc : s.ecc = []) (hend : w + 16 * k ≤ ddrBase) (kind req : Nat) :
    s.readWords w k kind req = (s.bytes w (16 * k), none, s) := by
  induction k generalizing w with
  | zero => rfl
  | succ k ih =>
    have hword := readWord_of_noEcc hecc (w := w) (by omega) kind req
    have hrest := ih (w := w + 16) (by omega)
    have hbytes : s.bytes w 16 ++ s.bytes (w + 16) (16 * k) = s.bytes w (16 * (k + 1)) := by
      rw [← bytes_add, Nat.mul_add, Nat.add_comm (16 * k)]
    simp only [State.readWords, hword, hrest, natLe_ld, hbytes, Bool.false_eq_true, if_false]

/-- A read of any length: the bytes stored, and nothing logged. -/
theorem readMem_of_sram (hecc : s.ecc = []) (hend : a + n + 16 ≤ ddrBase) (kind req : Nat) :
    s.readMem a n kind req = (s.bytes a n, none, s) := by
  have hwords := readWords_of_noEcc hecc (w := a / 16 * 16) (k := (a + n + 15 - a / 16 * 16) / 16) (by omega) kind req
  have hpart := take_drop_bytes s (a / 16 * 16) (k := a - a / 16 * 16) (n := n)
    (m := 16 * ((a + n + 15 - a / 16 * 16) / 16)) (by omega)
  rw [(by omega : a / 16 * 16 + (a - a / 16 * 16) = a)] at hpart
  simp only [State.readMem, hwords, hpart]

/-! ## Save areas in X or Y memory (R133, R137) -/

/-- The bytes of a save area: its header and 32 registers. -/
abbrev saveSize : Nat := 0x40 + 512 * 32

theorem areaAt_le (g v : Nat) : areaAt g v ≤ ymemBase g + fld v 29 6 * 64 := by
  unfold areaAt
  dsimp only
  split
  · exact Nat.add_le_add_right (Nat.add_le_add_left (by decide) _) _
  · exact Nat.le_refl _
  · exact Nat.le_add_left ..

theorem areaAt_add_saveSize_le (hg : g < 256) (v : Nat) : areaAt g v + saveSize ≤ sramEnd := by
  have hoff : fld v 29 6 < 2 ^ 24 := Nat.mod_lt _ (by decide)
  have hplace := areaAt_le g v
  simp only [sramEnd, saveSize, engBase, ymemBase, imemBase, stableBase] at hplace ⊢
  omega

section
variable (hg : g < 256) (hnear : areaBarn v = false)
include hg hnear

theorem areaPut_of_near (h : CleanMem s) (ho : o + l.length ≤ saveSize) :
    areaPut s g v o l = (rspOk, s.store (areaAt g v + o) l) := by
  have hplace := areaAt_add_saveSize_le hg v
  rw [areaPut, hnear, if_neg Bool.false_ne_true, writeNear_of_cleanMem h (by omega)]

theorem areaGet_of_near (h : s.ecc = []) (ho : o + n ≤ saveSize) :
    areaGet s g v o n = (rspOk, s.bytes (areaAt g v + o) n, s) := by
  have hplace := areaAt_add_saveSize_le hg v
  have hend : sramEnd + 16 ≤ ddrBase := by decide
  rw [areaGet, hnear, if_neg Bool.false_ne_true, readMem_of_sram h (by omega)]
  rfl

end

end Sys2Proof.Machine
end

section
/-! PROOFS on the Kubry cores: FLUSH and RELOAD with the owner's save area in X or Y memory (R135, R137, R142). -/

namespace Sys2Proof.Machine

variable {s t u : State} {g r v w x : Nat} {l : List Nat} {c : Core} {d : List Byte}

/-- The place of register `r` in the save area that `v` names (R137). -/
abbrev regPlace (g v r : Nat) : Nat := areaAt g v + 0x40 + 512 * r

/-- A word of `n` bytes fits `n` bytes, and what fits them is such a word. -/
theorem toNat_lt_of_bytes {n : Nat} (hw : w = 8 * n) (y : BitVec w) : y.toNat < 256 ^ n := by
  subst hw
  exact Nat.lt_of_lt_of_eq y.isLt (pow_mul 2 8 n)

theorem toNat_ofNat_of_bytes {n : Nat} (hw : w = 8 * n) (hx : x < 256 ^ n) : (BitVec.ofNat w x).toNat = x := by
  subst hw
  exact (BitVec.toNat_ofNat ..).trans (Nat.mod_eq_of_lt (Nat.lt_of_lt_of_eq hx (pow_mul 2 8 n).symm))

theorem mem_dirtyList : r ∈ dirtyList c ↔ r < 32 ∧ c.dirty.getLsbD r = true := by
  rw [dirtyList, List.mem_filter, List.mem_range]
  rfl

theorem lt_of_mem_liveList (h : r ∈ liveList c) : r < 32 := List.mem_range.mp (List.mem_filter.mp h).1

theorem dpDone_of_idle (h : c.dp = none) : c.dpDone = c := by rw [Core.dpDone, h]

@[simp] theorem ld_modCore (s : State) (g : Nat) (f : Core → Core) (a n : Nat) : (s.modCore g f).ld a n = s.ld a n := rfl
@[simp] theorem ld_answer (s : State) (code data a n : Nat) : (s.answer code data).ld a n = s.ld a n := rfl

/-! ## Saving registers (R135) -/

/-- The core with register `r` no longer DIRTY. -/
def cleaned (r : Nat) (c : Core) : Core := { c with dirty := c.dirty &&& BitVec.ofNat 32 (2 ^ 32 - 1 - 2 ^ r) }

theorem dirty_cleaned (hr : r < 32) (c : Core) (i : Nat) :
    (cleaned r c).dirty.getLsbD i = (c.dirty.getLsbD i && decide (i ≠ r)) := by
  have hmask : 2 ^ 32 - 1 - 2 ^ r = 2 ^ 32 - (2 ^ r + 1) := by omega
  by_cases hi : i < 32
  · have hbit := testBit_ofNat_sr (2 ^ 32 - 1 - 2 ^ r) hi
    rw [hmask, Nat.testBit_two_pow_sub_succ (Nat.pow_lt_pow_right (by decide) hr), Nat.testBit_two_pow, decide_eq_true hi,
      Bool.true_and] at hbit
    rw [cleaned, BitVec.getLsbD_and, hmask, hbit]
    simp [eq_comm]
  · rw [BitVec.getLsbD_of_ge _ _ (Nat.not_lt.mp hi), BitVec.getLsbD_of_ge _ _ (Nat.not_lt.mp hi), Bool.false_and]

/-- From `s` to `t` the registers `l` of core `g` went to their owner's save area. -/
structure RegsSaved (g : Nat) (l : List Nat) (s t : State) : Prop where
  frame : t = { s with mem := t.mem, cores := t.cores }
  core : t.core g = { s.core g with dirty := (t.core g).dirty }
  dirty : ∀ i, (t.core g).dirty.getLsbD i = ((s.core g).dirty.getLsbD i && decide (i ∉ l))
  place : ∀ r, t.ld (regPlace g (s.core g).saveOwn.toNat r) 512 =
    if r ∈ l then (s.core g).gv r else s.ld (regPlace g (s.core g).saveOwn.toNat r) 512

theorem gv_lt (c : Core) (r : Nat) : c.gv r < 256 ^ 512 := toNat_lt_of_bytes (n := 512) rfl (tget zv c.vreg r)

/-- The state after register `r` was saved. -/
def savedReg (s : State) (g r : Nat) : State :=
  (s.store (regPlace g (s.core g).saveOwn.toNat r) (natLe 512 ((s.core g).gv r))).modCore g (cleaned r)

theorem core_store (s : State) (a : Nat) (d : List Byte) (g : Nat) : (s.store a d).core g = s.core g := rfl

theorem core_savedReg (s : State) (g r : Nat) : (savedReg s g r).core g = cleaned r (s.core g) := by
  rw [savedReg, core_modCore_same, core_store]

theorem cleanMem_savedReg (h : CleanMem s) (g r : Nat) : CleanMem (savedReg s g r) :=
  cleanMem_modCore (cleanMem_store h _ _) g (cleaned r)

theorem store_modCore_frame (s : State) (a : Nat) (d : List Byte) (g : Nat) (f : Core → Core) : (s.store a d).modCore g f =
    { s with mem := ((s.store a d).modCore g f).mem, cores := ((s.store a d).modCore g f).cores } := rfl

theorem saveAnswer_ok (s : State) (g : Nat) : saveAnswer s g rspOk = s := if_pos rfl

theorem regsSaved_savedReg (hr : r < 32) (s : State) (g : Nat) : RegsSaved g [r] s (savedReg s g r) := by
  refine ⟨store_modCore_frame .., by rw [core_savedReg]; rfl, fun i => ?dirty, fun j => ?place⟩
  case dirty => rw [core_savedReg, dirty_cleaned hr]; simp
  case place =>
    rw [savedReg, ld_modCore]
    by_cases hj : j = r
    · rw [if_pos (List.mem_singleton.mpr hj), hj, ← State.st, State.ld_st, Nat.mod_eq_of_lt (gv_lt _ r)]
    · rw [if_neg (List.mem_singleton.not.mpr hj), ld_store_other s (by simp only [length_natLe, regPlace]; omega)]

theorem RegsSaved.trans {l' : List Nat} (h1 : RegsSaved g l s t) (h2 : RegsSaved g l' t u) : RegsSaved g (l ++ l') s u := by
  have hown : (t.core g).saveOwn = (s.core g).saveOwn := by rw [h1.core]
  have hgv (r : Nat) : (t.core g).gv r = (s.core g).gv r := by rw [h1.core]; rfl
  refine ⟨?frame, ?core, fun i => ?dirty, fun r => ?place⟩
  case frame =>
    have hu := h2.frame
    rw [h1.frame] at hu
    exact hu
  case core =>
    have hu := h2.core
    rw [h1.core] at hu
    exact hu
  case dirty => rw [h2.dirty, h1.dirty]; simp [Bool.and_assoc]
  case place =>
    have hplace := h2.place r
    rw [hown, hgv, h1.place] at hplace
    rw [hplace]
    by_cases hl : r ∈ l <;> simp [hl]

theorem saveRegs_cons (hg : g < 256) (hnear : areaBarn (s.core g).saveOwn.toNat = false) (hclean : CleanMem s) (hr : r < 32)
    (l : List Nat) : saveRegs s g (r :: l) = saveRegs (savedReg s g r) g l := by
  have hput := areaPut_of_near hg hnear hclean (o := 0x40 + 512 * r) (l := natLe 512 ((s.core g).gv r))
    (by rw [length_natLe, saveSize]; omega)
  rw [← Nat.add_assoc] at hput
  unfold saveRegs savedReg
  rw [List.foldl_cons]
  dsimp only
  rw [hput, saveAnswer_ok]
  rfl

theorem regsSaved_saveRegs (hg : g < 256) (hnear : areaBarn (s.core g).saveOwn.toNat = false) (hclean : CleanMem s)
    (hl : ∀ r ∈ l, r < 32) : RegsSaved g l s (saveRegs s g l) := by
  induction l generalizing s with
  | nil => exact ⟨rfl, rfl, fun i => by simp [saveRegs], fun r => (if_neg List.not_mem_nil).symm⟩
  | cons r l ih =>
    have hr := hl r List.mem_cons_self
    rw [saveRegs_cons hg hnear hclean hr]
    exact (regsSaved_savedReg hr s g).trans
      (ih (by rw [core_savedReg]; exact hnear) (cleanMem_savedReg hclean g r) fun k hk => hl k (List.mem_cons_of_mem _ hk))

/-! ## FLUSH (R142) -/

theorem length_vecHeader (c : Core) : (vecHeader c).length = 64 := by simp [vecHeader]

theorem saveHeader_of_near (hg : g < 256) (hnear : areaBarn (s.core g).saveOwn.toNat = false) (hclean : CleanMem s) :
    saveHeader s g = s.store (areaAt g (s.core g).saveOwn.toNat) (vecHeader (s.core g)) := by
  have hput := areaPut_of_near hg hnear hclean (o := 0) (l := vecHeader (s.core g))
    (by rw [length_vecHeader]; decide)
  rw [saveHeader, hput]
  rfl

/-- The header's first word is LIVE (R137). -/
theorem ld_store_vecHeader (s : State) (a : Nat) (c : Core) : (s.store a (vecHeader c)).ld a 4 = c.live.toNat := by
  simp only [vecHeader, List.append_assoc]
  rw [store_append, ld_store_other _ (.inl (by rw [length_natLe]))]
  exact (State.ld_st ..).trans (Nat.mod_eq_of_lt c.live.isLt)

theorem dirty_eq_zero_of_saved (h : RegsSaved g (dirtyList (s.core g)) s t) : (t.core g).dirty = 0 := by
  refine BitVec.eq_of_getLsbD_eq fun i hi => Eq.trans ?_ BitVec.getLsbD_zero.symm
  rw [h.dirty]
  cases hbit : (s.core g).dirty.getLsbD i <;> simp [mem_dirtyList, hi, hbit]

theorem exec_vecFlush (hg : g < 256) : exec (.vecFlush g) s =
    .next (if vecDbgOk s g then (vecFlush s g).answer rspOk 0 else s.answer rspTgt 0) := inCore_of_lt hg _

theorem exec_vecReload (hg : g < 256) : exec (.vecReload g) s =
    .next (if vecDbgOk s g then (vecReload s g).answer rspOk 0 else s.answer rspTgt 0) := inCore_of_lt hg _

theorem core_modCore_dpDone (hidle : (s.core g).dp = none) : (s.modCore g Core.dpDone).core g = s.core g :=
  (core_modCore_same s g _).trans (dpDone_of_idle hidle)

theorem vecFlush_of_idle (hidle : (s.core g).dp = none) :
    vecFlush s g = saveHeader (saveRegs (s.modCore g Core.dpDone) g (dirtyList (s.core g))) g := by
  unfold vecFlush
  dsimp only
  rw [core_modCore_dpDone hidle]

theorem store_answer_frame (h : u = { s with mem := u.mem, cores := u.cores }) (a : Nat) (d : List Byte) (code data : Nat) :
    (u.store a d).answer code data = { s with mem := ((u.store a d).answer code data).mem,
                                              cores := ((u.store a d).answer code data).cores, bus := ⟨code, data⟩ } := by
  rw [h]
  rfl

theorem completes_vecFlush (hg : g < 256) (hok : vecDbgOk s g = true) (hidle : (s.core g).dp = none) (hclean : CleanMem s)
    (hnear : areaBarn (s.core g).saveOwn.toNat = false) :
    Completes (.vecFlush g) s fun t => (∀ r, r ∈ dirtyList (s.core g) →
        t.ld (areaAt g (s.core g).saveOwn.toNat + 0x40 + 512 * r) 512 = (s.core g).gv r) ∧
      t.ld (areaAt g (s.core g).saveOwn.toNat) 4 = (s.core g).live.toNat ∧ (t.core g).dirty = 0 ∧
      (t.core g).owner = (s.core g).owner ∧ (t.core g).live = (s.core g).live ∧
      t = { s with mem := t.mem, cores := t.cores, bus := ⟨rspOk, 0⟩ } := by
  have hflush := vecFlush_of_idle hidle
  have hcore := core_modCore_dpDone hidle
  have hframe : s.modCore g Core.dpDone = { s with cores := (s.modCore g Core.dpDone).cores } := rfl
  generalize s.modCore g Core.dpDone = s1 at hflush hcore hframe
  have hclean1 : CleanMem s1 := by rw [hframe]; exact hclean
  have hsaved := regsSaved_saveRegs hg (hcore.symm ▸ hnear) hclean1 (l := dirtyList (s.core g))
    fun r hr => (mem_dirtyList.mp hr).1
  generalize saveRegs s1 g (dirtyList (s.core g)) = u at hflush hsaved
  have hclean2 : CleanMem u := by rw [hsaved.frame]; exact hclean1
  have hown : (u.core g).saveOwn = (s.core g).saveOwn := by rw [hsaved.core, hcore]
  rw [saveHeader_of_near hg (hown.symm ▸ hnear) hclean2, hown] at hflush
  refine completes_of_exec ((exec_vecFlush hg).trans (congrArg _ ((if_pos hok).trans
    (congrArg (State.answer · rspOk 0) hflush))))
    ⟨fun r hr => ?regs, ?live, ?dirty, ?owner, ?live', ?frame⟩
  case regs =>
    have hplace := hsaved.place r
    rw [if_pos hr, hcore] at hplace
    rw [ld_answer, ld_store_other u (.inr (by rw [length_vecHeader]; omega)), hplace]
  case live =>
    rw [ld_answer, ld_store_vecHeader, hsaved.core, hcore]
  case dirty => rw [core_answer, core_store, dirty_eq_zero_of_saved (s := s1) (hcore.symm ▸ hsaved)]
  case owner => rw [core_answer, core_store, hsaved.core, hcore]
  case live' => rw [core_answer, core_store, hsaved.core, hcore]
  case frame => exact store_answer_frame (by rw [hsaved.frame, hframe]) ..

/-! ## RELOAD (R142) -/

/-- The core with the header `d` of a save area read into its empty vector file (R137). -/
def headerRead (d : List Byte) (c : Core) : Core :=
  { c.vEmpty with
    live := BitVec.ofNat 32 (le d 0 4)
    vcSr := BitVec.ofNat 32 (le d 4 4 &&& 0x3F)
    vcNarrow := BitVec.ofNat 32 (le d 8 4 &&& 0xFF)
    vcBxp := BitVec.ofNat 32 (le d 12 4 &&& 0x31F)
    vexp := (List.range 32).foldl (fun t i =>
      if tb (le d 0 4) i then tset ze t i (BitVec.ofNat 8 (le d (16 + i) 1)) else t) [] }

/-- The core with register `r` read as `x`. -/
def loaded (r x : Nat) (c : Core) : Core := { c with vreg := tset zv c.vreg r (BitVec.ofNat 4096 x) }

theorem gv_loaded (hx : x < 256 ^ 512) (r : Nat) (c : Core) (i : Nat) :
    (loaded r x c).gv i = if r = i then x else c.gv i := by
  rw [Core.gv, loaded, tget_tset]
  split
  · exact toNat_ofNat_of_bytes rfl hx
  · rfl

theorem frame_of_modCore {f : Core → Core} (h : u = { s.modCore g f with cores := u.cores }) :
    u = { s with cores := u.cores } := h

theorem core_of_loaded {c1 : Core} (h : c1 = { loaded r x c with vreg := c1.vreg }) : c1 = { c with vreg := c1.vreg } := h

section
variable (hg : g < 256) (hnear : areaBarn v = false)
include hg hnear

theorem restoreReg_of_near (hecc : s.ecc = []) (hr : r < 32) :
    restoreReg g v (rspOk, s) r = (rspOk, s.modCore g (loaded r (s.ld (regPlace g v r) 512))) := by
  have hget := areaGet_of_near hg hnear hecc (o := 0x40 + 512 * r) (n := 512) (by rw [saveSize]; omega)
  rw [← Nat.add_assoc] at hget
  simp only [restoreReg, hget]
  rfl

theorem exists_foldl_restoreReg (hecc : s.ecc = []) (hl : ∀ r ∈ l, r < 32) : ∃ u,
    l.foldl (restoreReg g v) (rspOk, s) = (rspOk, u) ∧ u = { s with cores := u.cores } ∧
      u.core g = { s.core g with vreg := (u.core g).vreg } ∧
      ∀ r, (u.core g).gv r = if r ∈ l then s.ld (regPlace g v r) 512 else (s.core g).gv r := by
  induction l generalizing s with
  | nil => exact ⟨s, rfl, rfl, rfl, fun r => (if_neg List.not_mem_nil).symm⟩
  | cons k l ih =>
    have hstep := restoreReg_of_near hg hnear hecc (hl k List.mem_cons_self)
    have hcore := core_modCore_same s g (loaded k (s.ld (regPlace g v k) 512))
    obtain ⟨u, hfold, hframe, hu, hgv⟩ := ih (s := s.modCore g (loaded k (s.ld (regPlace g v k) 512))) hecc
      fun r hr => hl r (List.mem_cons_of_mem _ hr)
    rw [hcore] at hu
    refine ⟨u, by rw [List.foldl_cons, hstep, hfold], frame_of_modCore hframe, core_of_loaded hu, fun r => ?_⟩
    rw [hgv, hcore, gv_loaded (ld_lt s _ 512), ld_modCore]
    by_cases hrk : k = r
    · simp [hrk]
    · simp [hrk, Ne.symm hrk]

theorem restoreFrom_of_near (hecc : s.ecc = []) : restoreFrom s g v =
    (liveList (headerRead (s.bytes (areaAt g v) 64) (s.core g))).foldl (restoreReg g v)
      (rspOk, s.modCore g (headerRead (s.bytes (areaAt g v) 64))) := by
  have hget := areaGet_of_near hg hnear hecc (o := 0) (n := 64) (by decide)
  rw [Nat.add_zero] at hget
  rw [← core_modCore_same s g (headerRead _)]
  simp only [restoreFrom, hget]
  rfl

end

/-- The core with no register DIRTY. -/
def undirtied (c : Core) : Core := { c with dirty := 0 }

theorem vecReload_of_restored (h : restoreFrom (s.modCore g Core.dpDone) g (s.core g).saveOwn.toNat = (rspOk, u)) :
    vecReload s g = u.modCore g undirtied := by
  simp only [vecReload, h]
  rfl

theorem completes_vecReload (hg : g < 256) (hok : vecDbgOk s g = true) (hidle : (s.core g).dp = none) (hclean : CleanMem s)
    (hnear : areaBarn (s.core g).saveOwn.toNat = false) :
    Completes (.vecReload g) s fun t =>
      (t.core g).live = BitVec.ofNat 32 (s.ld (areaAt g (s.core g).saveOwn.toNat) 4) ∧
      (∀ r, r ∈ liveList (t.core g) →
        (t.core g).gv r = s.ld (areaAt g (s.core g).saveOwn.toNat + 0x40 + 512 * r) 512) ∧ (t.core g).dirty = 0 ∧
      (t.core g).owner = (s.core g).owner ∧ t = { s with cores := t.cores, bus := ⟨rspOk, 0⟩ } := by
  have hcore := core_modCore_dpDone hidle
  have hrestore := restoreFrom_of_near hg hnear (s := s.modCore g Core.dpDone) hclean.1
  rw [hcore, State.bytes_of_mem (s := s) (t := s.modCore g Core.dpDone) rfl] at hrestore
  generalize hc : headerRead (s.bytes (areaAt g (s.core g).saveOwn.toNat) 64) (s.core g) = c at hrestore
  generalize hs1 : (s.modCore g Core.dpDone).modCore g (headerRead (s.bytes (areaAt g (s.core g).saveOwn.toNat) 64)) = s1
    at hrestore
  have hcore1 : s1.core g = c := by rw [← hs1, core_modCore_same, hcore, hc]
  have hframe1 : s1 = { s with cores := s1.cores } := by rw [← hs1]; rfl
  have hecc : s1.ecc = [] := by rw [hframe1]; exact hclean.1
  have hmem : s1.mem = s.mem := by rw [hframe1]
  obtain ⟨u, hfold, hframe, hu, hgv⟩ := exists_foldl_restoreReg hg hnear hecc (l := liveList c)
    fun r => lt_of_mem_liveList
  rw [hcore1] at hu
  have hend := core_modCore_same u g undirtied
  have hlive : (undirtied (u.core g)).live = c.live := by rw [hu]; rfl
  refine completes_of_exec ((exec_vecReload hg).trans (congrArg _ ((if_pos hok).trans
    (congrArg (State.answer · rspOk 0) (vecReload_of_restored (hrestore.trans hfold))))))
    ⟨?live, fun r hr => ?regs, ?dirty, ?owner, ?frame⟩
  case live =>
    rw [core_answer, hend, hlive, ← hc, headerRead, le_bytes s _ (by decide), Nat.add_zero]
  case regs =>
    rw [core_answer, hend] at hr ⊢
    have hlist : r ∈ liveList c := by rwa [liveList, hlive] at hr
    exact (hgv r).trans ((if_pos hlist).trans (State.ld_of_mem hmem _ 512))
  case dirty => rw [core_answer, hend]; rfl
  case owner => rw [core_answer, hend, hu, ← hc]; rfl
  case frame => rw [hframe, hframe1]; rfl

theorem completes_vecDebug_refused (hg : g < 256) (hok : vecDbgOk s g = false) :
    Completes (.vecFlush g) s (fun t => t = { s with bus := ⟨rspTgt, 0⟩ }) ∧
      Completes (.vecReload g) s (fun t => t = { s with bus := ⟨rspTgt, 0⟩ }) :=
  have hrefused : ¬ vecDbgOk s g = true := by rw [hok]; exact Bool.false_ne_true
  ⟨completes_of_exec ((exec_vecFlush hg).trans (congrArg _ (if_neg hrefused))) rfl,
    completes_of_exec ((exec_vecReload hg).trans (congrArg _ (if_neg hrefused))) rfl⟩

end Sys2Proof.Machine
end

section
/-! PROOF of the statement on results that leave the datapath, the lazy switch of vector state, FLUSH and RELOAD (R116,
R133 to R142). -/

namespace Sys2Proof.Machine

variable {s u : State} {g r n : Nat} {v : BitVec 4096} {e : BitVec 8} {c : Core} {d : DpOp}

/-! ## The datapath (R116) -/

theorem exec_vectorDatapathDone (hg : g < 256) : exec (.vectorDatapathDone g) s = .next (s.modCore g Core.dpDone) :=
  inCore_of_lt hg _

theorem completes_vectorDatapathDone_of_idle (hg : g < 256) (hidle : (s.core g).dp = none) :
    Completes (.vectorDatapathDone g) s fun t => t.core g = s.core g ∧ t = { s with cores := t.cores } :=
  completes_of_exec (exec_vectorDatapathDone hg) ⟨core_modCore_dpDone hidle, rfl⟩

/-- The core once an instruction that wrote `v` and `e` to register `r` has left its datapath. -/
def resultLeft (r : Nat) (v : BitVec 4096) (e : BitVec 8) (flags : Nat) (c : Core) : Core :=
  { (c.setV r v.toNat e.toInt).orVc flags with dp := none }

theorem dpDone_of_write (h : c.dp = some d) (hw : d.writes = [(r, v, e)]) : c.dpDone = resultLeft r v e d.flags c := by
  rw [Core.dpDone, h]
  dsimp only
  rw [hw]
  rfl

section
variable (r : Nat) (v : BitVec 4096) (e : BitVec 8) (flags : Nat) (c : Core)

theorem vreg_resultLeft (j : Nat) : tget zv (resultLeft r v e flags c).vreg j = if r = j then v else tget zv c.vreg j := by
  refine (tget_tset ..).trans ?_
  rw [BitVec.ofNat_toNat, BitVec.setWidth_eq]

theorem vexp_resultLeft : tget ze (resultLeft r v e flags c).vexp r = e :=
  (tget_tset_same ..).trans BitVec.ofInt_toInt

theorem getLsbD_or_two_pow (x : Word) (hr : r < 32) : (x ||| BitVec.ofNat 32 (2 ^ r)).getLsbD r = true := by
  rw [BitVec.getLsbD_or, testBit_ofNat_sr _ hr, Nat.testBit_two_pow_self, Bool.or_true]

end

theorem completes_vectorDatapathDone_of_write (hg : g < 256) (hd : (s.core g).dp = some d) (hw : d.writes = [(r, v, e)])
    (hr : r < 32) :
    Completes (.vectorDatapathDone g) s fun t => tget zv (t.core g).vreg r = v ∧ tget ze (t.core g).vexp r = e ∧
      (∀ j, j ≠ r → tget zv (t.core g).vreg j = tget zv (s.core g).vreg j) ∧ (t.core g).live.getLsbD r = true ∧
      (t.core g).dirty.getLsbD r = true ∧ (t.core g).vcSr = (s.core g).vcSr ||| BitVec.ofNat 32 d.flags ∧
      (t.core g).dp = none ∧ (∀ i, (t.core g).gs i = (s.core g).gs i) ∧ (t.core g).pc = (s.core g).pc ∧
      (∀ h, h ≠ g → t.core h = s.core h) ∧ t = { s with cores := t.cores } := by
  have hcore := (core_modCore_same s g Core.dpDone).trans (dpDone_of_write hd hw)
  refine completes_of_exec (exec_vectorDatapathDone hg) ⟨?value, ?exp, fun j hj => ?other, ?live, ?dirty, ?sr, ?dp,
    fun i => ?gs, ?pc, fun _ hh => core_modCore_other hh s _, rfl⟩
  all_goals rw [hcore]
  case value => rw [vreg_resultLeft, if_pos rfl]
  case exp => exact vexp_resultLeft ..
  case other => rw [vreg_resultLeft, if_neg hj.symm]
  case live => exact getLsbD_or_two_pow r (s.core g).live hr
  case dirty => exact getLsbD_or_two_pow r (s.core g).dirty hr
  all_goals rfl

/-! ## The switch (R134 to R136) -/

/-- The state in which core `g` goes on after a switch, its cycles counted (R136). -/
def switchEnds (s : State) (g : Nat) : State :=
  ((endWait s g false).cnt (kA g 0x3C) (waitedCycles s g)).modCore g unheld

theorem coreKept_switchEnds (s : State) (g : Nat) : CoreKept [kA g 0x24, kA g 0x3C] g s (switchEnds s g) :=
  (((CoreKept.refl _ g s).endWait List.mem_cons_self false).wr (List.mem_cons_of_mem _ List.mem_cons_self) _).modCore _

/-- The core that goes on at `now` after `n` cycles of a switch. -/
def switched (n now : Nat) (c : Core) : Core := unheld (waited n now c)

theorem core_switchEnds (s : State) (g : Nat) : (switchEnds s g).core g = switched (waitedCycles s g) s.now (s.core g) := by
  rw [switchEnds, core_modCore_same, core_cnt, core_endWait]
  rfl

section
variable (n now : Nat) (c : Core)

theorem hold_switched : (switched n now c).hold = .none := hold_unheld _
theorem pc_switched : (switched n now c).pc = c.pc := (pc_unheld _).trans (pc_waited ..)
theorem dp_switched : (switched n now c).dp = c.dp := by cases c; rfl
theorem owner_switched : (switched n now c).owner = c.owner := by cases c; rfl
theorem live_switched : (switched n now c).live = c.live := by cases c; rfl
theorem vcCur_switched : (switched n now c).vcCur = c.vcCur := by cases c; rfl
theorem saveCur_switched : (switched n now c).saveCur = c.saveCur := by cases c; rfl
theorem curFresh_switched : (switched n now c).curFresh = c.curFresh := by rw [Core.curFresh, Core.curFresh, vcCur_switched]
theorem curThread_switched : (switched n now c).curThread = c.curThread := by
  rw [Core.curThread, Core.curThread, vcCur_switched]

end

/-- The core whose vector state none owns. -/
def unowned (c : Core) : Core := { c with owner := none }

/-- The core with the empty file that a fresh thread starts with (R135). -/
def freshFile (c : Core) : Core := { c.vEmpty with vcSr := 0, vcNarrow := 0xAF#32, vcBxp := 0x1F#32 }

/-- Thread `n` owns the vector state, no longer FRESH (R135). -/
def ownedBy (n : Nat) (c : Core) : Core :=
  { c with owner := some n, saveOwn := c.saveCur, dirty := 0, vcCur := BitVec.ofNat 32 (clrBit c.vcCur.toNat 9) }

theorem curFresh_ownedBy (n : Nat) (c : Core) : (ownedBy n c).curFresh = false := by
  refine (testBit_ofNat_sr (clrBit c.vcCur.toNat 9) (by decide : 9 < 32)).trans ?_
  rw [clrBit, testBit_setFld _ _ _ _ _ (Nat.le_refl 9), if_pos (by decide)]
  rfl

theorem hold_ownedBy_freshFile (n : Nat) (c : Core) : (ownedBy n (freshFile (unowned c))).hold = c.hold := by cases c; rfl
theorem saveOwn_ownedBy_freshFile (n : Nat) (c : Core) : (ownedBy n (freshFile (unowned c))).saveOwn = c.saveCur := by
  cases c; rfl
theorem pc_ownedBy_freshFile (n : Nat) (c : Core) : (ownedBy n (freshFile (unowned c))).pc = c.pc := by cases c; rfl

theorem switchCycles_of_fresh (hfresh : (s.core g).curFresh = true) (howner : (s.core g).owner = none)
    (hidle : (s.core g).dp = none) : switchCycles s g = some 2 := by
  simp [switchCycles, Core.savesOwner, saveCycles, Core.dpWait, hfresh, howner, hidle]

/-- A switch to a fresh thread while none owns the vector state saves and restores nothing. -/
theorem exists_runSwitch_of_fresh (hfresh : (s.core g).curFresh = true) (howner : (s.core g).owner = none)
    (hidle : (s.core g).dp = none) : ∃ u, runSwitch s g = (none, u) ∧ CoreKept [] g s u ∧
      u.core g = ownedBy (s.core g).curThread (freshFile (unowned (s.core g))) := by
  have hcore := core_modCore_dpDone hidle
  have hsaves : (s.core g).savesOwner = false := by simp [Core.savesOwner, howner]
  have hkept := (CoreKept.refl [] g s).modCore Core.dpDone
  generalize hs1 : s.modCore g Core.dpDone = s1 at hcore hkept
  have hrun : runSwitch s g = takeOwnership s1 g := by
    unfold runSwitch
    dsimp only
    rw [hs1, hcore, hsaves, if_neg Bool.false_ne_true]
  have htake : takeOwnership s1 g =
      (none, ((s1.modCore g unowned).modCore g freshFile).modCore g (ownedBy (s1.core g).curThread)) := by
    unfold takeOwnership
    dsimp only
    rw [hcore, hfresh, if_pos rfl]
    rfl
  refine ⟨_, hrun.trans htake, ((hkept.modCore _).modCore _).modCore _, ?_⟩
  rw [core_modCore_same, core_modCore_same, core_modCore_same, hcore]

/-- The time at which a switch is over, where the spec fixes it (R136). -/
def switchTime (s : State) (g : Nat) : State :=
  match switchCycles s g with
  | some n => s.until ((s.core g).since + n * corePeriod s g)
  | none => s

theorem core_until (s : State) (n g : Nat) : (s.until n).core g = s.core g := rfl

/-- What follows a switch: the held bundle goes on, or the restore that failed raises its exception (R140). -/
def afterSwitch (g : Nat) (r : Option (Nat × Bool) × State) : State :=
  match r.1 with
  | some (code, lost) => switchFailed r.2 g code lost
  | none => daStage r.2 g (heldBundle r.2 g)

theorem afterSwitch_none (g : Nat) (u : State) : afterSwitch g (none, u) = daStage u g (heldBundle u g) := rfl

theorem frame_of_until (h : u = { s.until n with cores := u.cores, regs := u.regs }) :
    u = { s with now := u.now, cores := u.cores, regs := u.regs } := by
  rw [h]
  rfl

theorem exec_vectorSwitchDone (hg : g < 256) : exec (.vectorSwitchDone g) s =
    .next (if (s.core g).hold = .vswitch then afterSwitch g (runSwitch (switchEnds (switchTime s g) g) g) else s) :=
  inCore_of_lt hg _

section
variable (hg : g < 256) (hhold : (s.core g).hold = .vswitch) (hfresh : (s.core g).curFresh = true)
  (howner : (s.core g).owner = none) (hidle : (s.core g).dp = none)
include hfresh howner hidle

theorem switchTime_of_fresh : switchTime s g = s.until ((s.core g).since + 2 * corePeriod s g) := by
  rw [switchTime, switchCycles_of_fresh hfresh howner hidle]

/-- After the cycles of a switch the core's file is the fresh one of its running thread. -/
theorem exists_switched_of_fresh : ∃ n now u, runSwitch (switchEnds (switchTime s g) g) g = (none, u) ∧
    u.core g = ownedBy (s.core g).curThread (freshFile (unowned (switched n now (s.core g)))) ∧
    u = { s with now := u.now, cores := u.cores, regs := u.regs } ∧ RegsBut [kA g 0x24, kA g 0x3C] s u := by
  rw [switchTime_of_fresh hfresh howner hidle]
  generalize (s.core g).since + 2 * corePeriod s g = stop
  have hends := coreKept_switchEnds (s.until stop) g
  have hcore := core_switchEnds (s.until stop) g
  rw [core_until] at hcore
  obtain ⟨u, hrun, hkept, hu⟩ := exists_runSwitch_of_fresh (s := switchEnds (s.until stop) g) (g := g)
    (by rw [hcore, curFresh_switched, hfresh]) (by rw [hcore, owner_switched, howner]) (by rw [hcore, dp_switched, hidle])
  rw [hcore, curThread_switched] at hu
  have hall := hends.trans (hkept.mono (List.nil_subset _))
  exact ⟨_, _, u, hrun, hu, frame_of_until hall.frame, fun a ha => (hall.regs a ha).trans (s.until_rd stop a)⟩

include hg hhold

theorem completes_vectorSwitchDone :
    Completes (.vectorSwitchDone g) s fun t => ∃ u, t = daStage u g (heldBundle u g) ∧
      (u.core g).owner = some (s.core g).curThread ∧ (u.core g).curFresh = false ∧ (u.core g).live = 0 ∧
      (u.core g).dirty = 0 ∧ (∀ r, tget zv (u.core g).vreg r = 0) ∧ (u.core g).vcNarrow = 0xAF#32 ∧
      (u.core g).saveOwn = (s.core g).saveCur ∧ (u.core g).hold = .none ∧ (u.core g).pc = (s.core g).pc ∧
      u = { s with now := u.now, cores := u.cores, regs := u.regs } ∧ RegsBut [kA g 0x24, kA g 0x3C] s u := by
  obtain ⟨n, now, u, hrun, hcore, hframe, hregs⟩ := exists_switched_of_fresh hfresh howner hidle
  have hexec := (exec_vectorSwitchDone (s := s) hg).trans (congrArg _ (if_pos hhold))
  rw [hrun, afterSwitch_none] at hexec
  refine completes_of_exec hexec ⟨u, rfl, ?owner, ?fresh, ?live, ?dirty, fun r => ?vreg, ?narrow, ?save, ?hold, ?pc, hframe,
    hregs⟩
  all_goals rw [hcore]
  case fresh => exact curFresh_ownedBy ..
  case save => rw [saveOwn_ownedBy_freshFile, saveCur_switched]
  case hold => rw [hold_ownedBy_freshFile, hold_switched]
  case pc => rw [pc_ownedBy_freshFile, pc_switched]
  all_goals rfl

end

/-! ## An abandoned switch (R139) -/

theorem exec_vectorSwitchAbandon (hg : g < 256) : exec (.vectorSwitchAbandon g) s = .next (abandonSwitch s g) :=
  inCore_of_lt hg _

theorem abandonSwitch_of_waiting (hhold : (s.core g).hold = .vswitch) (hwait : waitedCycles s g < (s.core g).dpWait) :
    abandonSwitch s g = switchEnds s g :=
  (if_pos hhold).trans (if_pos hwait)

theorem completes_vectorSwitchAbandon_of_none (hg : g < 256) (hhold : (s.core g).hold ≠ .vswitch) :
    Completes (.vectorSwitchAbandon g) s fun t => t = s :=
  completes_of_exec (exec_vectorSwitchAbandon hg) (if_neg hhold)

/-- Abandoned before the datapath was idle, a switch has moved nothing. -/
theorem completes_vectorSwitchAbandon (hg : g < 256) (hhold : (s.core g).hold = .vswitch)
    (hwait : waitedCycles s g < (s.core g).dpWait) :
    Completes (.vectorSwitchAbandon g) s fun t => (t.core g).hold = .none ∧ (t.core g).dp = (s.core g).dp ∧
      (t.core g).owner = (s.core g).owner ∧ (t.core g).live = (s.core g).live ∧
      t = { s with cores := t.cores, regs := t.regs } ∧ RegsBut [kA g 0x24, kA g 0x3C] s t := by
  have hkept := coreKept_switchEnds s g
  have hcore := core_switchEnds s g
  refine completes_of_exec ((exec_vectorSwitchAbandon hg).trans (congrArg _ (abandonSwitch_of_waiting hhold hwait)))
    ⟨?hold, ?dp, ?owner, ?live, hkept.frame, hkept.regs⟩
  case hold => rw [hcore, hold_switched]
  case dp => rw [hcore, dp_switched]
  case owner => rw [hcore, owner_switched]
  case live => rw [hcore, live_switched]

/-- Settles O31: each event by its own lemma; FLUSH and RELOAD move the registers one by one. -/
theorem vectorStateMoves : Obligations.VectorStateMoves := fun _ _ hg =>
  ⟨completes_vectorDatapathDone_of_idle hg, fun _ _ _ _ => completes_vectorDatapathDone_of_write hg,
    completes_vectorSwitchDone hg, completes_vectorSwitchAbandon_of_none hg, completes_vectorSwitchAbandon hg,
    fun hok hidle hclean hnear =>
      ⟨completes_vecFlush hg hok hidle hclean hnear, completes_vecReload hg hok hidle hclean hnear⟩,
    completes_vecDebug_refused hg⟩

end Sys2Proof.Machine
end

section
/-! PROOFS on the hitches: messages and tags, how a command becomes DONE, and how a tag is freed (05_hitch.md). -/

namespace Sys2Proof.Machine

variable {s t : State} {h k gen status cyc : Nat} {x : Tag}

/-! ## Registers and tags that an update leaves -/

theorem regsBut_cnt (s : State) (a n : Nat) : RegsBut [a] s (s.cnt a n) := regsBut_wr s a _

theorem rd_cnt_of_regs (hregs : t.regs = s.regs) (a n : Nat) : (t.cnt a n).rd a = sat32 (s.rd a + n) := by
  rw [State.rd_cnt, if_pos rfl, State.rd_of_regs hregs]

theorem State.tag_of_tags (htags : t.tags = s.tags) (h k : Nat) : t.tag h k = s.tag h k := by
  simp only [State.tag, htags]

/-! ## Messages (R161) -/

/-- What a table holds at the key that was changed. -/
theorem tget_tmod_same {α : Type} [DecidableEq α] (d : Nat → α) (t : Tab α) (k : Nat) (f : α → α) :
    tget d (tmod d t k f) k = f (tget d t k) := tget_tset_same ..

theorem hmsgs_hSend (s : State) (e : Nat) (m : HMsg) :
    tget noMsgs (hSend s e m).hmsgs e = tget noMsgs s.hmsgs e ++ [m] :=
  tget_tmod_same noMsgs s.hmsgs e (· ++ [m])

/-! ## A command that is DONE (R151) -/

/-- No event of the tag's command of that generation is still to be signalled. -/
abbrev Tag.NoEventDue (x : Tag) (gen : Nat) : Prop := x.evDue.find? (fun p => p.1 = gen) = none

theorem tagEvent_of_noEventDue (hx : s.tag h k = x) (hev : x.NoEventDue gen) : tagEvent s h k gen = s := by
  simp only [tagEvent, hx, hev]

/-- A tag whose command has ended. -/
def doneTag (h status cyc : Nat) (x : Tag) : Tag :=
  { x with st := 3, status := status, charge := if h < 256 then cyc else 0 }

/-- What becomes of a confirmed command's tag without an event: DONE, and then the notification. -/
theorem completeTag_of_confirmed (hx : s.tag h k = x) (hst : x.st = 2) (hev : x.NoEventDue x.gen)
    (hnotify : tb x.ctrl 10 = true → h < 256) : completeTag s h k status cyc =
      if tb x.ctrl 10 then (s.setTag h k (doneTag h status cyc x)).wb (kA h (0x70 + k / 32 * 4)) (k % 32) true
      else s.setTag h k (doneTag h status cyc x) := by
  have hevent : tagEvent (s.setTag h k (doneTag h status cyc x)) h k x.gen = s.setTag h k (doneTag h status cyc x) :=
    tagEvent_of_noEventDue (s.tag_setTag_same h k _) hev
  rw [doneTag] at hevent ⊢
  simp only [completeTag, hx, hst, hevent, if_true]
  split
  · next hbit => simp only [notifyAt, if_pos (hnotify hbit)]
  · rfl

theorem completeTag_of_quiet (hx : s.tag h k = x) (hst : x.st = 2) (hev : x.NoEventDue x.gen)
    (hquiet : tb x.ctrl 10 = false) : completeTag s h k status cyc = s.setTag h k (doneTag h status cyc x) := by
  rw [completeTag_of_confirmed hx hst hev (by rw [hquiet]; exact nofun), hquiet]
  rfl

/-- An orphan is freed when its command ends. -/
theorem completeTag_of_orphan (hx : s.tag h k = x) (hst : x.st = 4) (hev : x.NoEventDue x.gen) :
    completeTag s h k status cyc = freeTag s h k := by
  simp [completeTag, hx, hst, tagEvent_of_noEventDue hx hev]

/-! ## Freed tags (R152) -/

theorem frame_disarm (s : State) (h k : Nat) : disarm s h k = { s with guards := (disarm s h k).guards } := by
  unfold disarm
  split
  · refine List.foldlRecOn (motive := fun u : State => u = { s with guards := u.guards }) _ _ rfl fun u hu i _ => ?_
    dsimp only
    split
    · exact (congrArg (fun v : State => v.setGuard h i { u.guard h i with armed := false }) hu).trans rfl
    · exact hu
  · rfl

/-- Freeing a tag changes tags and guards alone. -/
theorem exists_freeTag (s : State) (h k : Nat) : ∃ tags guards, freeTag s h k = { s with tags := tags, guards := guards } :=
  ⟨_, _, frame_disarm (s.setTag h k { s.tag h k with st := 0, charge := 0 }) h k⟩

/-- The Loft's hitches have no guards. -/
theorem disarm_of_loft (hh : 256 ≤ h) (s : State) (k : Nat) : disarm s h k = s := if_neg (Nat.not_lt.mpr hh)

/-! ## Posted and confirmed commands (R149) -/

/-- A tag that has been posted, with the next generation. -/
def postedTag (ctrl : Nat) (x : Tag) : Tag :=
  { x with st := 1, gen := (x.gen + 1) % 16, ctrl := ctrl, answer := none, own := none, charge := 0 }

/-- A tag that has been confirmed, with its command's event due. -/
def confirmedTag (now : Nat) (x : Tag) : Tag :=
  { x with st := 2, conf := now, evDue := if tb x.ctrl 11 then (x.gen, fld x.ctrl 31 16) :: x.evDue else x.evDue }

theorem confirmTag_of_unanswered (hx : s.tag h k = x) (hans : x.answer = none) :
    confirmTag s h k = hSend (s.setTag h k (confirmedTag s.now x)) (ctrlEng x.ctrl) (.confirm h k x.gen) := by
  subst hx
  unfold confirmTag
  dsimp only
  split
  · next code hcode => cases hans.symm.trans hcode
  · rfl

/-- From `s` to `t` nothing has changed but tags and the messages to engines. -/
abbrev PostFrame (s t : State) : Prop := t = { s with tags := t.tags, hmsgs := t.hmsgs }

theorem PostFrame.trans {u : State} (h1 : PostFrame s t) (h2 : PostFrame t u) : PostFrame s u := by
  rw [PostFrame, h1] at h2
  exact h2

theorem postFrame_setTag (s : State) (h k : Nat) (x : Tag) : PostFrame s (s.setTag h k x) := rfl
theorem postFrame_hSend (s : State) (e : Nat) (m : HMsg) : PostFrame s (hSend s e m) := rfl

/-- The hitch posts a command and confirms it at once. -/
def postConfirmed (s : State) (h k ctrl desc ctx : Nat) : State := confirmTag (postTag s h k ctrl desc ctx) h k

section
variable (s : State) (h k ctrl desc ctx : Nat)

theorem tag_postTag : (postTag s h k ctrl desc ctx).tag h k = postedTag ctrl (s.tag h k) :=
  s.tag_setTag_same h k (postedTag ctrl (s.tag h k))

theorem hmsgs_postTag : tget noMsgs (postTag s h k ctrl desc ctx).hmsgs (ctrlEng ctrl) =
    tget noMsgs s.hmsgs (ctrlEng ctrl) ++ [.post h k (((s.tag h k).gen + 1) % 16) ctrl desc ctx] :=
  hmsgs_hSend (s.setTag h k (postedTag ctrl (s.tag h k))) (ctrlEng ctrl) _

theorem postConfirmed_eq : postConfirmed s h k ctrl desc ctx =
    hSend ((postTag s h k ctrl desc ctx).setTag h k (confirmedTag s.now (postedTag ctrl (s.tag h k)))) (ctrlEng ctrl)
      (.confirm h k (((s.tag h k).gen + 1) % 16)) :=
  confirmTag_of_unanswered (tag_postTag s h k ctrl desc ctx) rfl

theorem tag_postConfirmed :
    (postConfirmed s h k ctrl desc ctx).tag h k = confirmedTag s.now (postedTag ctrl (s.tag h k)) := by
  rw [postConfirmed_eq]
  exact (postTag s h k ctrl desc ctx).tag_setTag_same h k (confirmedTag s.now (postedTag ctrl (s.tag h k)))

/-- Both messages are on their way. -/
theorem hmsgs_postConfirmed : tget noMsgs (postConfirmed s h k ctrl desc ctx).hmsgs (ctrlEng ctrl) =
    tget noMsgs s.hmsgs (ctrlEng ctrl) ++
      [.post h k (((s.tag h k).gen + 1) % 16) ctrl desc ctx, .confirm h k (((s.tag h k).gen + 1) % 16)] := by
  rw [postConfirmed_eq, hmsgs_hSend, State.setTag_hmsgs, hmsgs_postTag, List.append_assoc]
  rfl

theorem postFrame_postTag : PostFrame s (postTag s h k ctrl desc ctx) := (postFrame_setTag ..).trans (postFrame_hSend ..)

theorem postFrame_postConfirmed : PostFrame s (postConfirmed s h k ctrl desc ctx) := by
  rw [postConfirmed_eq]
  exact (postFrame_postTag s h k ctrl desc ctx).trans ((postFrame_setTag ..).trans (postFrame_hSend ..))

end

end Sys2Proof.Machine
end

section
/-! PROOF of the statement on what becomes of a hitch tag: answers to posts, completions, timeouts, context cycles and the
Loft's hitches (R145, R151, R156, R158, R159, R162). -/

namespace Sys2Proof.Machine

variable {s t : State} {g h k c : Nat} {x : Tag}

/-! ## The answer to a post (R158) -/

section
variable {m : PostAns} {rest : List PostAns}

theorem retryResv_of_not_waiting (hhold : (s.core g).hold ≠ .resv) : retryResv s g = s :=
  if_neg fun hwait => hhold hwait.2

/-- The hitch takes up the oldest answer, and no bundle of the core waits to issue again. -/
theorem exec_postResponse (hh : h < 272) (hans : tget noAns s.postAns h = m :: rest)
    (hhold : h < 256 → (s.core h).hold ≠ .resv) (ht : postAnswer { s with postAns := tset noAns s.postAns h rest } h m = t)
    (hcores : t.cores = s.cores) : exec (.postResponse h) s = .next t := by
  have hretry : (if h < 256 then retryResv t h else t) = t := by
    split
    · next hlt =>
      refine retryResv_of_not_waiting ?_
      rw [State.core, hcores]
      exact hhold hlt
    · rfl
  show execPostResponse h s = _
  rw [execPostResponse, if_pos hh, hans]
  dsimp only
  rw [ht, hretry]

theorem tag_answerTaken (s : State) (h : Nat) (rest : List PostAns) (k : Nat) :
    ({ s with postAns := tset noAns s.postAns h rest } : State).tag h k = s.tag h k := State.tag_of_tags rfl h k

/-- A tag whose post has been answered. -/
def answeredTag (code : Nat) (x : Tag) : Tag := { x with answer := some code }

theorem postAnswer_of_recorded (hx : s.tag h m.tag = x) (hgen : x.gen = m.gen)
    (hst : x.st = 1 ∨ m.code = rspOk ∧ x.st = 2) : postAnswer s h m = s.setTag h m.tag (answeredTag m.code x) := by
  subst hx
  have hmatch : (s.tag h m.tag).gen = m.gen ∧
      ((s.tag h m.tag).st = 1 ∨ (s.tag h m.tag).st = 2 ∨ (s.tag h m.tag).st = 4) :=
    ⟨hgen, hst.imp_right fun hok => .inl hok.2⟩
  have haccepted : ¬ ((s.tag h m.tag).st ≠ 1 ∧ m.code ≠ rspOk) := fun ⟨hposted, hrefused⟩ =>
    hst.elim hposted fun hok => hrefused hok.1
  exact (if_pos hmatch).trans (if_neg haccepted)

theorem postAnswer_of_other_gen (hx : s.tag h m.tag = x) (hgen : x.gen ≠ m.gen) : postAnswer s h m = s :=
  if_neg fun hmatch => hgen (hx ▸ hmatch.1)

theorem postAnswer_of_refused (hx : s.tag h m.tag = x) (hgen : x.gen = m.gen) (hst : x.st = 2) (hcode : m.code ≠ rspOk) :
    postAnswer s h m = completeTag (s.setTag h m.tag (answeredTag m.code x)) h m.tag (answerStatus m.code) 0 := by
  subst hx
  exact (if_pos ⟨hgen, .inr (.inl hst)⟩).trans (if_pos ⟨by rw [hst]; decide, hcode⟩)

section
variable (hh : h < 272) (hans : tget noAns s.postAns h = m :: rest) (hhold : h < 256 → (s.core h).hold ≠ .resv)
include hh hans hhold

theorem completes_postResponse_of_recorded (hgen : (s.tag h m.tag).gen = m.gen)
    (hst : (s.tag h m.tag).st = 1 ∨ m.code = rspOk ∧ (s.tag h m.tag).st = 2) :
    Completes (.postResponse h) s fun t => t.tag h m.tag = { s.tag h m.tag with answer := some m.code } ∧
      tget noAns t.postAns h = rest ∧ t = { s with postAns := t.postAns, tags := t.tags } :=
  completes_of_exec (exec_postResponse hh hans hhold (postAnswer_of_recorded (tag_answerTaken ..) hgen hst) rfl)
    ⟨State.tag_setTag_same .., tget_tset_same .., rfl⟩

theorem completes_postResponse_of_other_gen (hgen : (s.tag h m.tag).gen ≠ m.gen) :
    Completes (.postResponse h) s fun t => tget noAns t.postAns h = rest ∧ t = { s with postAns := t.postAns } :=
  completes_of_exec (exec_postResponse hh hans hhold (postAnswer_of_other_gen (tag_answerTaken ..) hgen) rfl)
    ⟨tget_tset_same .., rfl⟩

/-- A refused command that is confirmed fails. -/
theorem completes_postResponse_of_refused (hgen : (s.tag h m.tag).gen = m.gen) (hst : (s.tag h m.tag).st = 2)
    (hcode : m.code ≠ rspOk) (hev : (s.tag h m.tag).NoEventDue m.gen) (hquiet : tb (s.tag h m.tag).ctrl 10 = false) :
    Completes (.postResponse h) s fun t => (t.tag h m.tag).st = 3 ∧
      (t.tag h m.tag).status = (if m.code = rspFull then 0x08 else 0x04 + m.code * 256) ∧
      t = { s with postAns := t.postAns, tags := t.tags } := by
  have hdue : (answeredTag m.code (s.tag h m.tag)).NoEventDue (s.tag h m.tag).gen := hgen ▸ hev
  have hanswered := (postAnswer_of_refused (tag_answerTaken s h rest m.tag) hgen hst hcode).trans
    (completeTag_of_quiet (State.tag_setTag_same ..) hst hdue hquiet)
  refine completes_of_exec (exec_postResponse hh hans hhold hanswered rfl) ⟨?st, ?status, rfl⟩
  all_goals rw [State.tag_setTag_same]; rfl

end

end

/-! ## Completions (R145, R151) -/

section
variable {m : Comp} {rest : List Comp}

theorem exec_hitchCompletion (hh : h < 256) (hcomp : tget noComps s.comps h = m :: rest)
    (ht : hitchComp { s with comps := tset noComps s.comps h rest } h m = t) :
    exec (.hitchCompletion h) s = .next t := by
  show execHitchCompletion h s = _
  rw [execHitchCompletion, if_pos (Nat.lt_trans hh (by decide)), hcomp, ← ht]

theorem tag_compTaken (s : State) (h : Nat) (rest : List Comp) (k : Nat) :
    ({ s with comps := tset noComps s.comps h rest } : State).tag h k = s.tag h k := State.tag_of_tags rfl h k

theorem hitchComp_of_gen (hx : s.tag h m.tag = x) (hgen : x.gen = m.gen) (hst : x.st = 2 ∨ x.st = 4) :
    hitchComp s h m = completeTag s h m.tag m.status m.ctxCyc := by
  subst hx
  exact if_pos ⟨hgen, hst⟩

/-- A completion of an earlier command that has not timed out and has no event is counted at a core's hitch. -/
theorem hitchComp_of_stale (hh : h < 256) (hx : s.tag h m.tag = x) (hgen : x.gen ≠ m.gen)
    (htimed : x.timedOut.contains m.gen = false) (hev : x.NoEventDue m.gen) : hitchComp s h m = s.cnt (kA h 0x88) 1 := by
  have hevent : tagEvent (s.cnt (kA h 0x88) 1) h m.tag m.gen = s.cnt (kA h 0x88) 1 :=
    tagEvent_of_noEventDue ((State.tag_of_tags rfl ..).trans hx) hev
  have hother : ¬ (x.gen = m.gen ∧ (x.st = 2 ∨ x.st = 4)) := fun hmatch => hgen hmatch.1
  simp only [hitchComp, staleComp, hx, if_neg hother, htimed, if_pos hh, hevent, if_false, Bool.false_eq_true]

section
variable (hh : h < 256) (hcomp : tget noComps s.comps h = m :: rest) (hev : (s.tag h m.tag).NoEventDue m.gen)
include hh hcomp hev

theorem completes_hitchCompletion_of_confirmed (hgen : (s.tag h m.tag).gen = m.gen) (hst : (s.tag h m.tag).st = 2) :
    Completes (.hitchCompletion h) s fun t =>
      (t.tag h m.tag).st = 3 ∧ (t.tag h m.tag).status = m.status ∧ (t.tag h m.tag).charge = m.ctxCyc ∧
      (tb (s.tag h m.tag).ctrl 10 = true → t.rb (kA h (0x70 + m.tag / 32 * 4)) (m.tag % 32) = true) ∧
      (tb (s.tag h m.tag).ctrl 10 = false → t.regs = s.regs) ∧
      t = { s with comps := t.comps, tags := t.tags, regs := t.regs } ∧
      RegsBut [kA h (0x70 + m.tag / 32 * 4)] s t := by
  have htag := tag_compTaken s h rest m.tag
  have hcomplete := (hitchComp_of_gen htag hgen (.inl hst)).trans
    (completeTag_of_confirmed htag hst (hgen ▸ hev) fun _ => hh)
  have hdone := State.tag_setTag_same { s with comps := tset noComps s.comps h rest } h m.tag
    (doneTag h m.status m.ctxCyc (s.tag h m.tag))
  have hcharge : (if h < 256 then m.ctxCyc else 0) = m.ctxCyc := if_pos hh
  cases hnotify : tb (s.tag h m.tag).ctrl 10
  case false =>
    rw [hnotify, if_neg Bool.false_ne_true] at hcomplete
    exact completes_of_exec (exec_hitchCompletion hh hcomp hcomplete)
      ⟨congrArg Tag.st hdone, congrArg Tag.status hdone, (congrArg Tag.charge hdone).trans hcharge, nofun, fun _ => rfl, rfl,
        regsBut_of_regs rfl⟩
  case true =>
    have hbit : m.tag % 32 < 64 := Nat.lt_trans (Nat.mod_lt _ (by decide)) (by decide)
    rw [hnotify, if_pos rfl] at hcomplete
    exact completes_of_exec (exec_hitchCompletion hh hcomp hcomplete)
      ⟨congrArg Tag.st hdone, congrArg Tag.status hdone, (congrArg Tag.charge hdone).trans hcharge,
        fun _ => State.rb_wb_same _ _ _ _ hbit, nofun, rfl, (regsBut_of_regs rfl).wr (List.mem_singleton_self _) _⟩

theorem completes_hitchCompletion_of_orphan (hgen : (s.tag h m.tag).gen = m.gen) (hst : (s.tag h m.tag).st = 4) :
    Completes (.hitchCompletion h) s fun t =>
      (t.tag h m.tag).st = 0 ∧ t = { s with comps := t.comps, tags := t.tags, guards := t.guards } := by
  have htag := tag_compTaken s h rest m.tag
  have hcomplete := (hitchComp_of_gen htag hgen (.inr hst)).trans (completeTag_of_orphan htag hst (hgen ▸ hev))
  obtain ⟨tags, guards, hfree⟩ := exists_freeTag { s with comps := tset noComps s.comps h rest } h m.tag
  refine completes_of_exec (exec_hitchCompletion hh hcomp hcomplete) ⟨?st, ?frame⟩
  case st => rw [st_freeTag, if_pos rfl]
  case frame => rw [hfree]

theorem completes_hitchCompletion_of_stale (hgen : (s.tag h m.tag).gen ≠ m.gen)
    (htimed : (s.tag h m.tag).timedOut.contains m.gen = false) :
    Completes (.hitchCompletion h) s fun t => t.rd (kA h 0x88) = sat32 (s.rd (kA h 0x88) + 1) ∧
      (∀ k, t.tag h k = s.tag h k) ∧ t = { s with comps := t.comps, regs := t.regs } ∧ RegsBut [kA h 0x88] s t := by
  exact completes_of_exec (exec_hitchCompletion hh hcomp (hitchComp_of_stale hh (tag_compTaken ..) hgen htimed hev))
    ⟨rd_cnt_of_regs rfl .., State.tag_of_tags rfl h, rfl, (regsBut_of_regs rfl).wr (List.mem_singleton_self _) _⟩

end

end

/-! ## Timeouts (R159) -/

theorem exec_hsTimeout (hh : h < 272) (hk : k < 64) : exec (.hsTimeout h k) s = .next (hitchTimeout s h k) :=
  if_pos ⟨hh, hk⟩

/-- The time of the timeout has come, and the core's hitch has counted it. -/
def atTimeout (s : State) (h k : Nat) : State := (s.until ((s.tag h k).conf + tmoUs s h * us)).cnt (kA h 0x8C) 1

/-- A tag whose command has timed out, of the generation that has. -/
def timedOutTag (h : Nat) (x : Tag) : Tag := { doneTag h 7 0 x with timedOut := x.gen :: x.timedOut }

theorem hitchTimeout_of_quiet (hh : h < 256) (hst : (s.tag h k).st = 2) (hev : (s.tag h k).NoEventDue (s.tag h k).gen)
    (hquiet : tb (s.tag h k).ctrl 10 = false) : hitchTimeout s h k =
      ((atTimeout s h k).setTag h k (doneTag h 7 0 (s.tag h k))).setTag h k (timedOutTag h (s.tag h k)) := by
  have hdone : completeTag (atTimeout s h k) h k 7 0 = (atTimeout s h k).setTag h k (doneTag h 7 0 (s.tag h k)) :=
    completeTag_of_quiet (State.tag_of_tags rfl ..) hst hev hquiet
  rw [atTimeout] at hdone ⊢
  simp only [hitchTimeout, hst, true_or, if_true, if_pos hh, hdone, State.tag_setTag_same]
  rfl

theorem completes_hsTimeout (hh : h < 256) (hk : k < 64) (hst : (s.tag h k).st = 2)
    (hev : (s.tag h k).NoEventDue (s.tag h k).gen) (hquiet : tb (s.tag h k).ctrl 10 = false) :
    Completes (.hsTimeout h k) s fun t => (t.tag h k).st = 3 ∧ (t.tag h k).status = 7 ∧
      (s.tag h k).gen ∈ (t.tag h k).timedOut ∧ (s.tag h k).conf + tmoUs s h * us ≤ t.now ∧
      t.rd (kA h 0x8C) = sat32 (s.rd (kA h 0x8C) + 1) ∧
      t = { s with now := t.now, tags := t.tags, regs := t.regs } ∧ RegsBut [kA h 0x8C] s t := by
  have hexec := (exec_hsTimeout (Nat.lt_trans hh (by decide)) hk).trans
    (congrArg _ (hitchTimeout_of_quiet hh hst hev hquiet))
  have hcount : (atTimeout s h k).rd (kA h 0x8C) = sat32 (s.rd (kA h 0x8C) + 1) := rd_cnt_of_regs rfl ..
  have hregs : RegsBut [kA h 0x8C] s (atTimeout s h k) := regsBut_cnt (s.until ((s.tag h k).conf + tmoUs s h * us)) _ 1
  refine completes_of_exec hexec ⟨?st, ?status, ?gen, Nat.le_max_right .., hcount, rfl,
    hregs.trans (regsBut_of_regs rfl)⟩
  all_goals rw [State.tag_setTag_same]
  case gen => exact List.mem_cons_self
  all_goals rfl

/-! ## Context cycles (R156) -/

/-- A core from whose budget `n` cycles are deducted. -/
def budgetCharged (n : Nat) (c : Core) : Core := { c with budget := BitVec.ofNat 32 (c.budget.toNat - n) }

/-- The context cycles of one tag are charged to the budget, where the running thread was granted the tag. -/
def chargeTag (s : State) (g k : Nat) : State :=
  if (s.tag g k).charge ≠ 0 ∧ tb (tmask s g) k then
    (s.modCore g (budgetCharged (cdiv ((s.tag g k).charge * coreMhz s g) 1200))).setTag g k { s.tag g k with charge := 0 }
  else s

theorem chargeCtx_eq (s : State) (g : Nat) : chargeCtx s g = (List.range 64).foldl (fun s k => chargeTag s g k) s := rfl

theorem chargeTag_of_uncharged (hk : (s.tag g k).charge = 0) : chargeTag s g k = s := if_neg fun hdue => hdue.1 hk

theorem foldl_chargeTag_of_uncharged {ks : List Nat} (hks : ∀ k ∈ ks, (s.tag g k).charge = 0) :
    ks.foldl (fun s k => chargeTag s g k) s = s :=
  List.foldlRecOn (motive := fun u => u = s) ks _ rfl fun u hu k hk => by rw [hu, chargeTag_of_uncharged (hks k hk)]

theorem tag_chargeTag_of_ne (s : State) {j : Nat} (hjk : j ≠ k) : (chargeTag s g k).tag g j = s.tag g j := by
  unfold chargeTag
  split
  · rw [tag_setTag, if_neg hjk]
    rfl
  · rfl

/-- Of the tags of a core only one has cycles to be charged. -/
theorem chargeCtx_of_one (hk : k < 64) (hothers : ∀ j, j < 64 → j ≠ k → (s.tag g j).charge = 0) :
    chargeCtx s g = chargeTag s g k := by
  obtain ⟨before, after, hsplit⟩ := List.append_of_mem (List.mem_range.mpr hk)
  have hnodup := List.nodup_range (n := 64)
  rw [hsplit, List.nodup_middle, List.nodup_cons] at hnodup
  have hzero (j : Nat) (hj : j ∈ before ++ after) : j ≠ k ∧ (s.tag g j).charge = 0 := by
    have hjk : j ≠ k := fun heq => hnodup.1 (heq ▸ hj)
    have hmem : j ∈ List.range 64 := by
      rw [hsplit]
      exact List.mem_append.mpr ((List.mem_append.mp hj).imp_right (List.mem_cons_of_mem k))
    exact ⟨hjk, hothers j (List.mem_range.mp hmem) hjk⟩
  rw [chargeCtx_eq, hsplit, List.foldl_append, List.foldl_cons,
    foldl_chargeTag_of_uncharged fun j hj => (hzero j (List.mem_append_left _ hj)).2, foldl_chargeTag_of_uncharged]
  intro j hj
  obtain ⟨hjk, hcharge⟩ := hzero j (List.mem_append_right _ hj)
  rw [tag_chargeTag_of_ne s hjk, hcharge]

theorem exec_ctxCharge (hg : g < 256) (hlive : coreLive s g = true) : exec (.ctxCharge g) s = .next (chargeCtx s g) :=
  (inCore_of_lt hg _).trans (congrArg _ (if_pos hlive))

theorem completes_ctxCharge (hg : g < 256) (hk : k < 64) (hlive : coreLive s g = true) (hcharge : (s.tag g k).charge ≠ 0)
    (hgranted : tb (tmask s g) k = true) (hothers : ∀ j, j < 64 → j ≠ k → (s.tag g j).charge = 0) :
    Completes (.ctxCharge g) s fun t => (t.tag g k).charge = 0 ∧
      (t.core g).budget.toNat = (s.core g).budget.toNat - cdiv ((s.tag g k).charge * coreMhz s g) 1200 ∧
      t = { s with tags := t.tags, cores := t.cores } ∧ (∀ h, h ≠ g → t.core h = s.core h) := by
  have hexec := (exec_ctxCharge hg hlive).trans (congrArg _ (chargeCtx_of_one hk hothers))
  rw [chargeTag, if_pos ⟨hcharge, hgranted⟩] at hexec
  have hcore (h : Nat) : ((s.modCore g (budgetCharged (cdiv ((s.tag g k).charge * coreMhz s g) 1200))).setTag g k
      { s.tag g k with charge := 0 }).core h = _ := State.core_modCore s g h _
  refine completes_of_exec hexec ⟨congrArg Tag.charge (State.tag_setTag_same ..), ?budget, rfl, fun h hh => ?others⟩
  case budget =>
    rw [hcore, if_pos rfl]
    exact (BitVec.toNat_ofNat ..).trans (Nat.mod_eq_of_lt (Nat.lt_of_le_of_lt (Nat.sub_le ..) (s.core g).budget.isLt))
  case others => rw [hcore, if_neg hh.symm]

/-! ## The Loft's hitches (R162) -/

section
variable {ctrl desc ctx code : Nat}

theorem exec_htcPost (hc : c < 16) (hk : k < 64) (hpost : htcPost s c k = (code, t)) :
    exec (.htcPost c k) s = .next (t.answer code 0) :=
  (if_pos ⟨hc, hk⟩).trans (congrArg (fun r : Nat × State => Host.Outcome.next (r.2.answer r.1 0)) hpost)

theorem htcPost_of_busy (hst : (s.tag (256 + c) k).st ≠ 0) : htcPost s c k = (rspTgt, s) := if_pos (.inl hst)

/-- An area in Barn memory that starts a 64-byte block, as DESC and CTX of a Loft hitch must. -/
abbrev LoftArea (w : Nat) : Prop := fld w 31 30 = 2 ∧ fld w 5 0 = 0

/-- A CTRL word that names an engine and sets no reserved bit. -/
abbrev LoftCtrl (w : Nat) : Prop := fld w 3 0 ≤ 10 ∧ fld w 15 12 = 0 ∧ fld w 9 4 < classCount (fld w 3 0)

/-- Words that are in order are posted, and confirmed at once. -/
theorem htcPost_of_free (hst : (s.tag (256 + c) k).st = 0) (hctrl : LoftCtrl (s.rd (htcA c 0)))
    (hdesc : LoftArea (s.rd (htcA c 4))) (hctx : s.rd (htcA c 8) = 0 ∨ LoftArea (s.rd (htcA c 8))) :
    htcPost s c k =
      (rspOk, postConfirmed s (256 + c) k (s.rd (htcA c 0)) (s.rd (htcA c 4)) (s.rd (htcA c 8))) := by
  obtain ⟨hclass, hflags, hinst⟩ := hctrl
  have haccepted : ¬ ((s.tag (256 + c) k).st ≠ 0 ∨ 10 < fld (s.rd (htcA c 0)) 3 0 ∨ fld (s.rd (htcA c 0)) 15 12 ≠ 0 ∨
      classCount (fld (s.rd (htcA c 0)) 3 0) ≤ fld (s.rd (htcA c 0)) 9 4) := by omega
  have hctxOk : ¬ (s.rd (htcA c 8) ≠ 0 ∧ (fld (s.rd (htcA c 8)) 31 30 ≠ 2 ∨ fld (s.rd (htcA c 8)) 5 0 ≠ 0)) := by omega
  rw [htcPost, postConfirmed]
  simp only [if_neg haccepted, hdesc, decide_eq_true_eq, if_neg hctxOk, ne_eq, not_true_eq_false, or_self, if_false]

theorem completes_htcPost_of_busy (hc : c < 16) (hk : k < 64) (hst : (s.tag (256 + c) k).st ≠ 0) :
    Completes (.htcPost c k) s fun t => t = { s with bus := ⟨rspTgt, 0⟩ } :=
  completes_of_exec (exec_htcPost hc hk (htcPost_of_busy hst)) rfl

theorem completes_htcPost_of_free (hc : c < 16) (hk : k < 64) (hctrlEq : ctrl = s.rd (htcA c 0))
    (hdescEq : desc = s.rd (htcA c 4)) (hctxEq : ctx = s.rd (htcA c 8)) (hst : (s.tag (256 + c) k).st = 0)
    (hctrl : LoftCtrl ctrl) (hdesc : LoftArea desc) (hctx : ctx = 0 ∨ LoftArea ctx) :
    Completes (.htcPost c k) s fun t => (t.tag (256 + c) k).st = 2 ∧
      (t.tag (256 + c) k).gen = ((s.tag (256 + c) k).gen + 1) % 16 ∧ (t.tag (256 + c) k).ctrl = ctrl ∧
      tget noMsgs t.hmsgs (ctrlEng ctrl) = tget noMsgs s.hmsgs (ctrlEng ctrl) ++
        [.post (256 + c) k (((s.tag (256 + c) k).gen + 1) % 16) ctrl desc ctx,
         .confirm (256 + c) k (((s.tag (256 + c) k).gen + 1) % 16)] ∧
      t = { s with tags := t.tags, hmsgs := t.hmsgs, bus := ⟨rspOk, 0⟩ } := by
  subst hctrlEq hdescEq hctxEq
  have htag := tag_postConfirmed s (256 + c) k (s.rd (htcA c 0)) (s.rd (htcA c 4)) (s.rd (htcA c 8))
  refine completes_of_exec (exec_htcPost hc hk (htcPost_of_free hst hctrl hdesc hctx))
    ⟨congrArg Tag.st htag, congrArg Tag.gen htag, congrArg Tag.ctrl htag, hmsgs_postConfirmed .., ?_⟩
  exact congrArg (fun u : State => u.answer rspOk 0) (postFrame_postConfirmed ..)

theorem exec_htcFree (hc : c < 16) (hk : k < 64) (hfree : htcFree s c k = (code, t)) :
    exec (.htcFree c k) s = .next (t.answer code 0) :=
  (if_pos ⟨hc, hk⟩).trans (congrArg (fun r : Nat × State => Host.Outcome.next (r.2.answer r.1 0)) hfree)

theorem completes_htcFree_of_done (hc : c < 16) (hk : k < 64) (hst : (s.tag (256 + c) k).st = 3) :
    Completes (.htcFree c k) s fun t => (t.tag (256 + c) k).st = 0 ∧ t = { s with tags := t.tags, bus := ⟨rspOk, 0⟩ } := by
  have hfree : htcFree s c k = (rspOk, s.setTag (256 + c) k { s.tag (256 + c) k with st := 0, charge := 0 }) := by
    rw [htcFree, hst, ← disarm_of_loft (Nat.le_add_right 256 c) (State.setTag ..) k]
    rfl
  exact completes_of_exec (exec_htcFree hc hk hfree) ⟨congrArg Tag.st (State.tag_setTag_same ..), rfl⟩

theorem completes_htcFree_of_outstanding (hc : c < 16) (hk : k < 64)
    (hst : (s.tag (256 + c) k).st = 1 ∨ (s.tag (256 + c) k).st = 2 ∨ (s.tag (256 + c) k).st = 4) :
    Completes (.htcFree c k) s fun t => t = { s with bus := ⟨rspTgt, 0⟩ } := by
  have hrefused : htcFree s c k = (rspTgt, s) := by
    obtain hst | hst | hst := hst <;> simp only [htcFree, hst]
  exact completes_of_exec (exec_htcFree hc hk hrefused) rfl

end

/-- Settles O32: each clause by the lemma of its command and its tag's state. -/
theorem hitchTags : Obligations.HitchTags := fun _ =>
  ⟨fun _ _ _ hh _ hans hhold =>
      ⟨completes_postResponse_of_recorded hh hans hhold, completes_postResponse_of_other_gen hh hans hhold,
        completes_postResponse_of_refused hh hans hhold⟩,
    fun _ _ _ hh _ hcomp hev =>
      ⟨completes_hitchCompletion_of_confirmed hh hcomp hev, completes_hitchCompletion_of_orphan hh hcomp hev,
        completes_hitchCompletion_of_stale hh hcomp hev⟩,
    fun _ _ => completes_hsTimeout,
    fun _ _ => completes_ctxCharge,
    fun _ _ _ _ _ hc hk hctrl hdesc hctx =>
      ⟨completes_htcPost_of_busy hc hk, fun hst hclass hflags hinst hbarn hblock =>
        completes_htcPost_of_free hc hk hctrl hdesc hctx hst ⟨hclass, hflags, hinst⟩ ⟨hbarn, hblock⟩⟩,
    fun _ _ hc hk => ⟨completes_htcFree_of_done hc hk, completes_htcFree_of_outstanding hc hk⟩⟩

end Sys2Proof.Machine
end

section
/-! PROOFS on the engines: what an update of one engine leaves, the network between a hitch and its engine, and the
completions and counters of finished jobs (05_hitch.md, 06_transform_matrix.md). -/

namespace Sys2Proof.Machine

variable {s t : State} {e h o p src dst : Nat} {j : EJob}

/-! ## Registers and engines -/

theorem RegsBut.mono {l l' : List Nat} (h : RegsBut l s t) (hl : l ⊆ l') : RegsBut l' s t :=
  fun a ha => h a fun hmem => ha (hl hmem)

theorem eA_ne (hop : o ≠ p) : eA e o ≠ eA e p := fun heq => hop (Nat.add_left_cancel heq)

theorem State.eng_of_engines (hengines : t.engines = s.engines) (e : Nat) : t.eng e = s.eng e := by
  simp only [State.eng, hengines]

theorem eng_setEng_same (s : State) (e : Nat) (x : Engine) : (s.setEng e x).eng e = x := by
  rw [State.eng_setEng, if_pos rfl]

theorem eng_setEng_other {f : Nat} (hf : f ≠ e) (s : State) (x : Engine) : (s.setEng e x).eng f = s.eng f := by
  rw [State.eng_setEng, if_neg hf.symm]

theorem eHeld_of_regs (hregs : t.regs = s.regs) (e : Nat) : eHeld t e = eHeld s e := by
  simp only [eHeld, State.shedHeld, State.shedReady, State.shedCur, State.shedBusy, State.shedStep, State.rb_of_regs hregs,
    State.rf_of_regs hregs]
  rfl

/-- From `s` to `t` nothing has changed but registers. -/
abbrev RegFrame (s t : State) : Prop := t = { s with regs := t.regs }

theorem RegFrame.trans {u : State} (h1 : RegFrame s t) (h2 : RegFrame t u) : RegFrame s u := by
  rw [RegFrame, h1] at h2
  exact h2

theorem RegFrame.wr (h : RegFrame s t) (a v : Nat) : RegFrame s (t.wr a v) := h.trans rfl

/-! ## The way between a hitch and its engine (R298, R304, R309) -/

/-- A way through the network depends on its endpoints, its links and the registers. -/
theorem reaches_congr (heps : t.eps = s.eps) (hdown : t.down = s.down) (hregs : t.regs = s.regs) (h : Reaches s src dst) :
    Reaches t src dst := by
  obtain ⟨hdst, hsrcEp, hdstEp, hsrcOpen, hdstOpen, hcut, hback, hready⟩ := h
  have hfenced (e : Nat) : t.fenced e = s.fenced e := by
    unfold State.fenced State.epSt
    rw [heps]
  have hshed : t.shedReady (epShed dst) = s.shedReady (epShed dst) := by
    simp only [State.shedReady, State.shedCur, State.shedBusy, State.rf_of_regs hregs, State.rb_of_regs hregs]
    rfl
  exact ⟨hdst, hsrcEp, hdstEp, (hfenced src).trans hsrcOpen, (hfenced dst).trans hdstOpen,
    (cut_of_regs hsrcEp hdown hregs).trans hcut, (cut_of_regs hdstEp hdown hregs).trans hback, hshed.trans hready⟩

theorem back_of_reaches (h : Reaches s src dst) (code : Nat) : s.back src dst code = (code, s) :=
  back_of_not_cut (wayBack_of_reaches h).2.2 code

theorem niPosted_of_reaches (h : Reaches s src dst) : s.niPosted src dst = (true, s) := by
  obtain ⟨-, -, -, hsrcOpen, hdstOpen, hcut, -, -⟩ := h
  simp [State.niPosted, hsrcOpen, hdstOpen, hcut]

/-! ## Counted jobs and completions (R151, R157, R190) -/

section
variable (s : State) (e : Nat) (j : EJob) (status rsp : Nat) (sw : Bool) (summary cyc : Nat) (src : Nat)

theorem regFrame_countJob : RegFrame s (countJob s e status rsp src) := by
  have hjobs : RegFrame s (s.cnt (eA e 8) 1) := rfl
  unfold countJob
  dsimp only
  split
  · exact hjobs
  · exact (hjobs.wr ..).wr ..

theorem regsBut_countJob : RegsBut [eA e 8, eA e 0x14, eA e 0x18] s (countJob s e status rsp src) := by
  have hjobs : RegsBut [eA e 8, eA e 0x14, eA e 0x18] s (s.cnt (eA e 8) 1) := (regsBut_of_regs rfl).wr (by simp) _
  unfold countJob
  dsimp only
  split
  · exact hjobs
  · exact (hjobs.wr (by simp) _).wr (by simp) _

theorem rd_jobs_countJob : (countJob s e status rsp src).rd (eA e 8) = sat32 (s.rd (eA e 8) + 1) := by
  have hjobs : (s.cnt (eA e 8) 1).rd (eA e 8) = sat32 (s.rd (eA e 8) + 1) := rd_cnt_of_regs rfl ..
  unfold countJob
  dsimp only
  split
  · exact hjobs
  · rw [State.rd_wr_other _ _ (eA_ne (by decide)), State.rd_cnt, if_neg (eA_ne (by decide)), hjobs]

variable {status} in
theorem rd_countJob_of_ok (hok : status = 0) {a : Nat} (ha : a ≠ eA e 8) : (countJob s e status rsp src).rd a = s.rd a := by
  rw [countJob, if_pos hok, State.rd_cnt, if_neg ha.symm]

variable {status} in
theorem rd_fails_countJob (hfail : status ≠ 0) :
    (countJob s e status rsp src).rd (eA e 0x14) = sat32 (s.rd (eA e 0x14) + 1) := by
  rw [countJob, if_neg hfail, State.rd_wr_other _ _ (eA_ne (by decide)), State.rd_cnt, if_pos rfl, State.rd_cnt,
    if_neg (eA_ne (by decide))]

theorem frame_sendComp : sendComp s e j status rsp sw summary cyc =
    { s with regs := (countJob s e status rsp (hEp j.h)).regs, comps := tmod noComps s.comps j.h
              (· ++ [⟨eEp e, j.tag, j.gen, statusWord status rsp sw summary, cyc⟩]) } := by
  unfold sendComp
  dsimp only
  rw [regFrame_countJob]

theorem comps_sendComp : tget noComps (sendComp s e j status rsp sw summary cyc).comps j.h =
    tget noComps s.comps j.h ++ [⟨eEp e, j.tag, j.gen, statusWord status rsp sw summary, cyc⟩] := by
  rw [frame_sendComp]
  exact tget_tmod_same noComps s.comps j.h (· ++ [⟨eEp e, j.tag, j.gen, statusWord status rsp sw summary, cyc⟩])

theorem eng_sendComp (f : Nat) : (sendComp s e j status rsp sw summary cyc).eng f = s.eng f := by
  rw [frame_sendComp]
  exact State.eng_of_engines rfl f

theorem rd_sendComp (a : Nat) :
    (sendComp s e j status rsp sw summary cyc).rd a = (countJob s e status rsp (hEp j.h)).rd a := State.rd_of_regs rfl a

theorem regsBut_sendComp : RegsBut [eA e 8, eA e 0x14, eA e 0x18] s (sendComp s e j status rsp sw summary cyc) :=
  (regsBut_countJob s e status rsp (hEp j.h)).trans (regsBut_of_regs rfl)

end

end Sys2Proof.Machine
end

section
/-! PROOF of the statement on POST, CONFIRM and WITHDRAW at an engine (R147, R158, R161, R191). -/

namespace Sys2Proof.Machine

variable {s : State} {e h tag gen ctrl desc ctx : Nat} {rest : List HMsg} {j : EJob}

/-- The oldest message on its way to engine `e` has been taken; `rest` are the others. -/
abbrev msgTaken (s : State) (e : Nat) (rest : List HMsg) : State := { s with hmsgs := tset noMsgs s.hmsgs e rest }

theorem eng_msgTaken (s : State) (e : Nat) (rest : List HMsg) (f : Nat) : (msgTaken s e rest).eng f = s.eng f :=
  State.eng_of_engines rfl f

theorem hmsgs_msgTaken (s : State) (e : Nat) (rest : List HMsg) : tget noMsgs (msgTaken s e rest).hmsgs e = rest :=
  tget_tset_same ..

theorem reaches_msgTaken {src dst : Nat} (hreach : Reaches s src dst) : Reaches (msgTaken s e rest) src dst :=
  reaches_congr (s := s) rfl rfl rfl hreach

/-! ## POST (R147, R158) -/

theorem exec_enginePost (he : e < 196) : exec (.enginePost e) s = .next (enginePost s e) := if_pos he

/-- An engine whose queue has taken a command, which no reset has met. -/
def queued (h tag gen ctrl desc ctx : Nat) (x : Engine) : Engine :=
  { x with queue := x.queue ++ [⟨h, tag, gen, ctrl, desc, ctx, false⟩]
           doomed := x.doomed.filter (fun d => decide (d ≠ (h, tag, gen))) }

/-- The answer to a post is on its way to hitch `h`. -/
abbrev answerSent (s : State) (h : Nat) (a : PostAns) : State := { s with postAns := tmod noAns s.postAns h (· ++ [a]) }

theorem postAns_answerSent (s : State) (h : Nat) (a : PostAns) :
    tget noAns (answerSent s h a).postAns h = tget noAns s.postAns h ++ [a] :=
  tget_tmod_same noAns s.postAns h (· ++ [a])

section
variable (hreach : Reaches s (hEp h) (eEp e)) (hmsg : tget noMsgs s.hmsgs e = .post h tag gen ctrl desc ctx :: rest)
include hreach hmsg

theorem enginePost_of_accepted (hheld : eHeld s e = false) (hroom : (s.eng e).queue.length < 128) :
    enginePost s e =
      answerSent ((msgTaken s e rest).setEng e (queued h tag gen ctrl desc ctx (s.eng e))) h ⟨tag, gen, rspOk⟩ := by
  have hway := reaches_msgTaken (e := e) (rest := rest) hreach
  have hback : Reaches ((msgTaken s e rest).setEng e (queued h tag gen ctrl desc ctx (s.eng e))) (hEp h) (eEp e) :=
    reaches_congr (s := s) rfl rfl rfl hreach
  have hheld' : eHeld (msgTaken s e rest) e = false := (eHeld_of_regs rfl e).trans hheld
  rw [queued] at hback ⊢
  simp only [enginePost, hmsg, ni_of_reaches hway, eng_msgTaken, hheld', Nat.not_le.mpr hroom, ne_eq, not_true_eq_false,
    if_false, if_true, Bool.false_eq_true, back_of_reaches hback]

theorem enginePost_of_refused (hfull : eHeld s e = true ∨ 128 ≤ (s.eng e).queue.length) :
    enginePost s e = answerSent (msgTaken s e rest) h ⟨tag, gen, if eHeld s e then rspTgt else rspFull⟩ := by
  have hway := reaches_msgTaken (e := e) (rest := rest) hreach
  have hheld : eHeld (msgTaken s e rest) e = eHeld s e := eHeld_of_regs rfl e
  have hcode : (if eHeld s e then rspTgt else if 128 ≤ (s.eng e).queue.length then rspFull else rspOk) =
      if eHeld s e then rspTgt else rspFull := by
    split
    · rfl
    · next hopen => exact if_pos (hfull.resolve_left hopen)
  have hrefused : (if eHeld s e then rspTgt else rspFull) ≠ rspOk := by split <;> decide
  simp only [enginePost, hmsg, ni_of_reaches hway, eng_msgTaken, hheld, ne_eq, not_true_eq_false, if_false, if_true, hcode,
    hrefused, back_of_reaches hway]

theorem completes_enginePost_of_accepted (he : e < 196) (hheld : eHeld s e = false)
    (hroom : (s.eng e).queue.length < 128) :
    Completes (.enginePost e) s fun t => (t.eng e).queue = (s.eng e).queue ++ [⟨h, tag, gen, ctrl, desc, ctx, false⟩] ∧
      tget noAns t.postAns h = tget noAns s.postAns h ++ [⟨tag, gen, rspOk⟩] ∧ tget noMsgs t.hmsgs e = rest ∧
      (∀ f, f ≠ e → t.eng f = s.eng f) ∧
      t = { s with hmsgs := t.hmsgs, postAns := t.postAns, engines := t.engines } :=
  completes_of_exec ((exec_enginePost he).trans (congrArg _ (enginePost_of_accepted hreach hmsg hheld hroom)))
    ⟨congrArg Engine.queue (eng_setEng_same ..), postAns_answerSent .., hmsgs_msgTaken ..,
      fun _ hf => (eng_setEng_other hf ..).trans (eng_msgTaken ..), rfl⟩

theorem completes_enginePost_of_refused (he : e < 196) (hfull : eHeld s e = true ∨ 128 ≤ (s.eng e).queue.length) :
    Completes (.enginePost e) s fun t =>
      tget noAns t.postAns h = tget noAns s.postAns h ++ [⟨tag, gen, if eHeld s e then rspTgt else rspFull⟩] ∧
      t = { s with hmsgs := t.hmsgs, postAns := t.postAns } :=
  completes_of_exec ((exec_enginePost he).trans (congrArg _ (enginePost_of_refused hreach hmsg hfull)))
    ⟨postAns_answerSent .., rfl⟩

end

/-! ## CONFIRM (R147, R191) -/

theorem exec_engineConfirm (he : e < 196) : exec (.engineConfirm e) s = .next (engineConfirm s e) := if_pos he

/-- The queued command that a CONFIRM of a hitch names: the one of its tag and generation that is not confirmed. -/
abbrev Unconfirmed (h tag gen : Nat) (j : EJob) : Bool := decide (j.h = h ∧ j.tag = tag ∧ j.gen = gen) && !j.conf

/-- An engine that no longer remembers a command that a reset met. -/
def doomForgotten (h tag gen : Nat) (x : Engine) : Engine :=
  { x with doomed := x.doomed.filter (fun d => decide (d ≠ (h, tag, gen))) }

/-- An engine one of whose commands is confirmed: it goes behind the others. -/
def jobConfirmed (j : EJob) (x : Engine) : Engine := { x with queue := x.queue.erase j ++ [{ j with conf := true }] }

section
variable (hreach : Reaches s (hEp h) (eEp e)) (hmsg : tget noMsgs s.hmsgs e = .confirm h tag gen :: rest)
include hreach hmsg

theorem engineConfirm_of_doomed (hdoomed : (s.eng e).doomed.contains (h, tag, gen) = true) :
    engineConfirm s e = sendComp ((msgTaken s e rest).setEng e (doomForgotten h tag gen (s.eng e))) e
      ⟨h, tag, gen, 0, 0, 0, true⟩ 5 0 false 0 0 := by
  have hway := niPosted_of_reaches (reaches_msgTaken (e := e) (rest := rest) hreach)
  simp only [engineConfirm, hmsg, hway, eng_msgTaken, hdoomed, Bool.not_true, Bool.false_eq_true, if_false, if_true]
  rfl

theorem engineConfirm_of_queued (hdoomed : (s.eng e).doomed.contains (h, tag, gen) = false)
    (hfind : (s.eng e).queue.find? (Unconfirmed h tag gen) = some j) :
    engineConfirm s e = (msgTaken s e rest).setEng e (jobConfirmed j (s.eng e)) := by
  have hway := niPosted_of_reaches (reaches_msgTaken (e := e) (rest := rest) hreach)
  simp only [engineConfirm, hmsg, hway, eng_msgTaken, hdoomed, Bool.not_true, Bool.false_eq_true, if_false, hfind]
  rfl

theorem completes_engineConfirm_of_doomed (he : e < 196) (hdoomed : (s.eng e).doomed.contains (h, tag, gen) = true) :
    Completes (.engineConfirm e) s fun t => tget noComps t.comps h = tget noComps s.comps h ++ [⟨eEp e, tag, gen, 5, 0⟩] ∧
      (h, tag, gen) ∉ (t.eng e).doomed ∧ (t.eng e).queue = (s.eng e).queue ∧
      t = { s with hmsgs := t.hmsgs, comps := t.comps, engines := t.engines, regs := t.regs } := by
  refine completes_of_exec ((exec_engineConfirm he).trans
    (congrArg _ (engineConfirm_of_doomed hreach hmsg hdoomed))) ⟨?comps, ?forgotten, ?queue, ?frame⟩
  case comps =>
    exact comps_sendComp ((msgTaken s e rest).setEng e (doomForgotten h tag gen (s.eng e))) e ⟨h, tag, gen, 0, 0, 0, true⟩ 5 0
      false 0 0
  case forgotten =>
    rw [eng_sendComp, eng_setEng_same]
    exact fun hmem => of_decide_eq_true (List.mem_filter.mp hmem).2 rfl
  case queue => rw [eng_sendComp, eng_setEng_same]; rfl
  case frame => rw [frame_sendComp]; rfl

theorem completes_engineConfirm_of_queued (he : e < 196) (hdoomed : (s.eng e).doomed.contains (h, tag, gen) = false)
    (hfind : (s.eng e).queue.find? (Unconfirmed h tag gen) = some j) :
    Completes (.engineConfirm e) s fun t => (t.eng e).queue = (s.eng e).queue.erase j ++ [{ j with conf := true }] ∧
      t = { s with hmsgs := t.hmsgs, engines := t.engines } :=
  completes_of_exec ((exec_engineConfirm he).trans
    (congrArg _ (engineConfirm_of_queued hreach hmsg hdoomed hfind))) ⟨congrArg Engine.queue (eng_setEng_same ..), rfl⟩

end

/-! ## WITHDRAW (R161) -/

theorem exec_engineWithdraw (he : e < 196) : exec (.engineWithdraw e) s = .next (engineWithdraw s e) := if_pos he

/-- An engine from whose queue the command that a WITHDRAW names is removed. -/
def jobWithdrawn (h tag gen : Nat) (x : Engine) : Engine :=
  { x with queue := x.queue.filter fun j => !Unconfirmed h tag gen j }

theorem not_unconfirmed_iff : (!Unconfirmed h tag gen j) = true ↔ j.conf = true ∨ ¬ (j.h = h ∧ j.tag = tag ∧ j.gen = gen) := by
  simp only [Unconfirmed, Bool.not_and, Bool.not_not, Bool.or_eq_true, Bool.not_eq_true', decide_eq_false_iff_not, or_comm]

theorem engineWithdraw_of_reaches (hreach : Reaches s (hEp h) (eEp e))
    (hmsg : tget noMsgs s.hmsgs e = .withdraw h tag gen :: rest) (hreset : s.rb (eA e 0) 0 = false) :
    engineWithdraw s e = (msgTaken s e rest).setEng e (jobWithdrawn h tag gen (s.eng e)) := by
  have hway := niPosted_of_reaches (reaches_msgTaken (e := e) (rest := rest) hreach)
  have hreset' : (msgTaken s e rest).rb (eA e 0) 0 = false := (State.rb_of_regs rfl ..).trans hreset
  simp only [engineWithdraw, hmsg, hway, eng_msgTaken, hreset', Bool.not_true, Bool.false_eq_true, or_self, if_false]
  rfl

theorem completes_engineWithdraw (he : e < 196) (hreach : Reaches s (hEp h) (eEp e))
    (hmsg : tget noMsgs s.hmsgs e = .withdraw h tag gen :: rest) (hreset : s.rb (eA e 0) 0 = false) :
    Completes (.engineWithdraw e) s fun t => tget noMsgs t.hmsgs e = rest ∧
      (∀ j ∈ (t.eng e).queue, j.conf = true ∨ ¬ (j.h = h ∧ j.tag = tag ∧ j.gen = gen)) ∧
      (∀ j ∈ (s.eng e).queue, (j.conf = true ∨ ¬ (j.h = h ∧ j.tag = tag ∧ j.gen = gen)) → j ∈ (t.eng e).queue) ∧
      t = { s with hmsgs := t.hmsgs, engines := t.engines } := by
  refine completes_of_exec ((exec_engineWithdraw he).trans
    (congrArg _ (engineWithdraw_of_reaches hreach hmsg hreset))) ⟨hmsgs_msgTaken .., ?gone, ?others, rfl⟩
  all_goals rw [eng_setEng_same]
  case gone => exact fun j hj => not_unconfirmed_iff.mp (List.mem_filter.mp hj).2
  case others => exact fun j hj hkept => List.mem_filter.mpr ⟨hj, not_unconfirmed_iff.mpr hkept⟩

/-- Settles O33: each message by the lemma of what its engine makes of it. -/
theorem engineMessages : Obligations.EngineMessages := fun _ _ _ _ _ _ he hreach =>
  ⟨fun _ _ _ hmsg => ⟨completes_enginePost_of_accepted hreach hmsg he, completes_enginePost_of_refused hreach hmsg he⟩,
    fun hmsg => ⟨completes_engineConfirm_of_doomed hreach hmsg he,
      fun _ => completes_engineConfirm_of_queued hreach hmsg he⟩,
    completes_engineWithdraw he hreach⟩

end Sys2Proof.Machine
end

section
/-! PROOF of the statement on the start and the completion of engine jobs (R151, R155, R157, R187, R189, R190, R258). -/

namespace Sys2Proof.Machine

variable {s t u : State} {e i st sm : Nat} {j : EJob} {r : ERun} {d : List Byte} {more : List (Nat × Nat)}

/-! ## Engines and runs -/

/-- From `s` to `t` nothing has changed but the engines. -/
abbrev EngFrame (s t : State) : Prop := t = { s with engines := t.engines }

theorem EngFrame.trans (h1 : EngFrame s t) (h2 : EngFrame t u) : EngFrame s u := by
  rw [EngFrame, h1] at h2
  exact h2

theorem engFrame_modEng (s : State) (e : Nat) (f : Engine → Engine) : EngFrame s (s.modEng e f) := rfl

theorem eng_modEng_same (s : State) (e : Nat) (f : Engine → Engine) : (s.modEng e f).eng e = f (s.eng e) :=
  eng_setEng_same ..

theorem eng_modEng_other {k : Nat} (hk : k ≠ e) (s : State) (f : Engine → Engine) : (s.modEng e f).eng k = s.eng k :=
  eng_setEng_other hk ..

theorem run_modRun (s : State) (e : Nat) (f : ERun → ERun) : ((modRun s e f).eng e).run = (s.eng e).run.map f :=
  congrArg Engine.run (eng_modEng_same ..)

theorem queue_modRun (s : State) (e : Nat) (f : ERun → ERun) : ((modRun s e f).eng e).queue = (s.eng e).queue := by
  rw [modRun, eng_modEng_same]

theorem engFrame_modRun (s : State) (e : Nat) (f : ERun → ERun) : EngFrame s (modRun s e f) := engFrame_modEng s e _

/-! ## Start (R155, R189, R190) -/

theorem exec_engineJobStart (he : e < 196) : exec (.engineJobStart e) s = .next (engineJobStart s e) := if_pos he

/-- A held engine, or one whose shed is not ready, starts nothing. -/
theorem completes_engineJobStart_of_closed (he : e < 196) (hclosed : eHeld s e = true ∨ s.shedReady (eShed e) = false) :
    Completes (.engineJobStart e) s fun t => t = s :=
  completes_of_exec (exec_engineJobStart he) (if_pos hclosed)

/-- The next confirmed command leaves the queue and becomes the engine's run. -/
def commandStarted (s : State) (e : Nat) (j : EJob) : State :=
  s.setEng e { s.eng e with queue := (s.eng e).queue.erase j, run := some (newRun s (some j) none) }

/-- An idle engine that is not paused and has no chained job runs its next confirmed command. -/
theorem engineJobStart_of_command (hheld : eHeld s e = false) (hready : s.shedReady (eShed e) = true)
    (hidle : (s.eng e).run = none) (hchain : (s.eng e).chainQ = []) (hpaused : s.rb (eA e 0) 1 = false)
    (hnext : (s.eng e).queue.find? (fun (j : EJob) => j.conf) = some j) :
    engineJobStart s e = endRun e (runCommand e j (commandStarted s e j)) := by
  rw [commandStarted]
  simp only [engineJobStart, hheld, hready, hidle, hchain, hpaused, hnext, Bool.false_eq_true, Bool.true_eq_false, or_self,
    if_false]

/-- A burst command without a context is the burst job of the descriptor that is read. -/
theorem runCommand_of_burst (hclass : engClass e = 10) (hctx : j.ctx = 0)
    (hread : eRead s e (ownGlobal s (areaAddr j.h j.desc)) 64 = (rspOk, d, s)) : runCommand e j s = nbJob e d s := by
  simp only [runCommand, withDesc, eGet, jobOf, hclass, hctx, hread, ne_eq, not_true_eq_false, false_and, if_false, if_true]

/-! ## Burst jobs without an enabled channel (R258, R265) -/

/-- No channel of the burst engine changes at a job boundary: none waits to be cleared, and one that is not enabled is
as after reset. -/
theorem nbBoundary_of_settled (hclear : (s.eng e).chClr = []) {cs : List Nat}
    (hcs : ∀ c ∈ cs, s.nb (engInst e) c = NbChan.reset) (x : NbRun) (k : NbRun → State → JobRes) :
    nbBoundary e cs x s k = k x s := by
  induction cs with
  | nil => rfl
  | cons c cs ih =>
    have hreset : s.nb (engInst e) c = NbChan.reset := hcs c List.mem_cons_self
    simp only [nbBoundary, hclear, hreset, List.contains_nil, Bool.false_eq_true, ne_eq, not_true_eq_false, and_false,
      if_false]
    exact ih fun c' hc' => hcs c' (List.mem_cons_of_mem c hc')

theorem nbChannels_of_disabled (n c : Nat) (hoff : ∀ c', c' < c + n → nbEnabled s (engInst e) c' = false) (x : NbRun)
    (k : NbRun → State → JobRes) : nbChannels e d n c x s k = k x s := by
  induction n generalizing c with
  | zero => rfl
  | succ n ih =>
    have hskip : nbEnabled s (engInst e) c = false := hoff c (by omega)
    simp only [nbChannels, hskip, Bool.not_false, if_true]
    exact ih (c + 1) fun c' hc' => hoff c' (by omega)

/-- The channels that an accepted descriptor names exist. -/
theorem channels_le_of_nbGood (hgood : nbGood d = true) : le d 2 1 + le d 3 1 ≤ 96 := by
  obtain ⟨-, -, -, hchannels, -⟩ := of_decide_eq_true hgood
  exact hchannels

/-- The engine has taken note of the channels to be cleared. -/
def boundaryPassed (s : State) (e : Nat) : State := s.modEng e fun x => { x with chClr := [] }

theorem nbEnabled_boundaryPassed (s : State) (e i c : Nat) : nbEnabled (boundaryPassed s e) i c = nbEnabled s i c :=
  State.rb_of_regs rfl ..

/-- What a burst job without an enabled channel comes to: nothing but its occupancy, or HS_BAD_DESC. -/
def idleBurst (s : State) (e : Nat) (d : List Byte) : JobRes :=
  ⟨boundaryPassed s e, if nbGood d then 0 else 2, 0, 0, if nbGood d then 64 else 0⟩

theorem nbJob_of_noChannels (hclear : (s.eng e).chClr = [])
    (hoff : ∀ c, c < 96 → s.nb (engInst e) c = NbChan.reset ∧ nbEnabled s (engInst e) c = false) :
    nbJob e d s = idleBurst s e d := by
  rw [idleBurst, nbJob, nbBoundary_of_settled hclear fun c hc => (hoff c (List.mem_range.mp hc)).1]
  dsimp only
  rw [← boundaryPassed]
  cases hgood : nbGood d
  case false => rfl
  case true =>
    have hskip (c : Nat) (hc : c < le d 2 1 + le d 3 1) : nbEnabled (boundaryPassed s e) (engInst e) c = false :=
      (nbEnabled_boundaryPassed ..).trans (hoff c (Nat.lt_of_lt_of_le hc (channels_le_of_nbGood hgood))).2
    rw [nbChannels_of_disabled _ _ hskip]
    rfl

section
variable (res : JobRes)

theorem run_endRun (hrun : (res.s.eng e).run = some r) : ((endRun e res).eng e).run =
    some { r with status := res.status, rsp := res.rsp, summary := res.summary, occ := res.occ } :=
  (run_modRun ..).trans (by rw [hrun]; rfl)

theorem queue_endRun : ((endRun e res).eng e).queue = (res.s.eng e).queue := queue_modRun ..

theorem engFrame_endRun : EngFrame res.s (endRun e res) := engFrame_modRun ..

theorem eng_endRun_other {k : Nat} (hk : k ≠ e) : (endRun e res).eng k = res.s.eng k := eng_modEng_other hk ..

end

theorem eng_commandBoundary (s : State) (e : Nat) (j : EJob) : (boundaryPassed (commandStarted s e j) e).eng e =
    { s.eng e with queue := (s.eng e).queue.erase j, run := some (newRun s (some j) none), chClr := [] } := by
  rw [boundaryPassed, eng_modEng_same, commandStarted, eng_setEng_same]

theorem completes_engineJobStart_of_idleBurst (he : e < 196) (hclass : engClass e = 10) (hheld : eHeld s e = false)
    (hready : s.shedReady (eShed e) = true) (hidle : (s.eng e).run = none) (hchain : (s.eng e).chainQ = [])
    (hclear : (s.eng e).chClr = []) (hpaused : s.rb (eA e 0) 1 = false)
    (hnext : (s.eng e).queue.find? (fun (j : EJob) => j.conf) = some j) (hctx : j.ctx = 0)
    (hoff : ∀ c, c < 96 → s.nb (engInst e) c = NbChan.reset ∧ nbEnabled s (engInst e) c = false)
    (hu : u = commandStarted s e j) (hread : eRead u e (ownGlobal u (areaAddr j.h j.desc)) 64 = (rspOk, d, u)) :
    Completes (.engineJobStart e) s fun t => (∃ r, (t.eng e).run = some r ∧ r.job = some j ∧ r.phase = 0 ∧
        r.summary = 0 ∧ r.status = (if nbGood d then 0 else 2) ∧ r.occ = (if nbGood d then 64 else 0)) ∧
      (t.eng e).queue = (s.eng e).queue.erase j ∧ (∀ f, f ≠ e → t.eng f = s.eng f) ∧
      t = { s with engines := t.engines } := by
  subst hu
  have hjob : runCommand e j (commandStarted s e j) = idleBurst (commandStarted s e j) e d :=
    (runCommand_of_burst hclass hctx hread).trans <| nbJob_of_noChannels
      ((congrArg Engine.chClr (eng_setEng_same ..)).trans hclear)
      fun c hc => ⟨(hoff c hc).1, (State.rb_of_regs rfl ..).trans (hoff c hc).2⟩
  have hexec := (exec_engineJobStart he).trans
    (congrArg _ (engineJobStart_of_command hheld hready hidle hchain hpaused hnext))
  rw [hjob] at hexec
  have heng : ((idleBurst (commandStarted s e j) e d).s).eng e = _ := eng_commandBoundary s e j
  refine completes_of_exec hexec ⟨⟨_, run_endRun _ (congrArg Engine.run heng), rfl, rfl, rfl, rfl, rfl⟩, ?queue,
    fun f hf => ?others, ?frame⟩
  case queue => rw [queue_endRun, heng]
  case others =>
    exact (eng_endRun_other _ hf).trans ((eng_modEng_other hf ..).trans (eng_setEng_other hf ..))
  case frame =>
    have hstarted : EngFrame s (commandStarted s e j) := rfl
    exact (hstarted.trans (engFrame_modEng ..)).trans (engFrame_endRun (idleBurst (commandStarted s e j) e d))

/-! ## Completion (R151, R157, R190) -/

/-- From `s` to `t` nothing has changed but time, registers, engines and completions. -/
abbrev JobFrame (s t : State) : Prop :=
  t = { s with now := t.now, regs := t.regs, engines := t.engines, comps := t.comps }

theorem JobFrame.trans (h1 : JobFrame s t) (h2 : JobFrame t u) : JobFrame s u := by
  rw [JobFrame, h1] at h2
  exact h2

theorem EngFrame.jobFrame (h : EngFrame s t) : JobFrame s t := by rw [JobFrame, h]

theorem settleRecord_of_noRecord (hrun : (s.eng e).run = some r) (hrec : r.recW = none) : settleRecord s e = s := by
  simp only [settleRecord, flushRec, hrun, hrec, jobOk, if_true]

theorem postReport_of_noPost (hrun : (s.eng e).run = some r) (hpost : r.post = none) : postReport s e = s := by
  simp only [postReport, hrun, hpost]

/-- The cycles of run `r` have passed. -/
def runEnded (s : State) (r : ERun) : State := s.until (r.since + r.occ * enginePeriod s)

/-- Run `r` has left its engine, and its cycles are counted. -/
def runLeft (s : State) (e : Nat) (r : ERun) : State :=
  ((runEnded s r).cnt (eA e 0xC) (runCycles (runEnded s r) r)).modEng e fun x => { x with run := none }

theorem eng_runEnded (s : State) (r : ERun) (f : Nat) : (runEnded s r).eng f = s.eng f :=
  State.eng_of_engines rfl f

section
variable (s : State) (e : Nat) (r : ERun)

theorem eng_runLeft : (runLeft s e r).eng e = { s.eng e with run := none } := by
  rw [runLeft, eng_modEng_same]
  exact congrArg (fun x : Engine => { x with run := none }) (State.eng_of_engines rfl e)

theorem eng_runLeft_other {f : Nat} (hf : f ≠ e) : (runLeft s e r).eng f = s.eng f :=
  (eng_modEng_other hf ..).trans (State.eng_of_engines rfl f)

theorem regsBut_runLeft : RegsBut [eA e 0xC] s (runLeft s e r) := fun a ha => regsBut_cnt (runEnded s r) _ _ a ha

theorem rd_runLeft {a : Nat} (ha : a ≠ eA e 0xC) : (runLeft s e r).rd a = s.rd a :=
  regsBut_runLeft s e r a (mt List.mem_singleton.mp ha)

theorem jobFrame_runLeft : JobFrame s (runLeft s e r) := by
  have hended : JobFrame s (runEnded s r) := rfl
  exact hended.trans (JobFrame.trans (t := (runEnded s r).cnt (eA e 0xC) (runCycles (runEnded s r) r)) rfl rfl)

theorem le_now_runLeft : r.since + r.occ * enginePeriod s ≤ (runLeft s e r).now := Nat.le_max_right ..

end

/-- The run of a hitch's command, without a hatch post or a record still to be written. -/
structure PlainRun (s : State) (e : Nat) (r : ERun) (j : EJob) : Prop where
  run : (s.eng e).run = some r
  job : r.job = some j
  post : r.post = none
  recW : r.recW = none

/-- What such a run leaves: its completion on its way to the hitch. -/
def runCompleted (s : State) (e : Nat) (r : ERun) (j : EJob) : State :=
  sendComp (runLeft s e r) e j r.status r.rsp r.ctxSw r.summary r.ctxCyc

theorem finishRun_of_plainRun (hr : PlainRun s e r j) : finishRun s e = runCompleted s e r j := by
  obtain ⟨hrun, hjob, hpost, hrec⟩ := hr
  have hrun' : ((runEnded s r).eng e).run = some r := (congrArg Engine.run (eng_runEnded ..)).trans hrun
  have hreport : postReport (settleRecord (runEnded s r) e) e = runEnded s r := by
    rw [settleRecord_of_noRecord hrun' hrec, postReport_of_noPost hrun' hpost]
  rw [runEnded] at hreport hrun'
  simp only [finishRun, hrun, hreport, hrun', hjob]
  rfl

section
variable (s : State) (e : Nat) (r : ERun) (j : EJob)

theorem eng_runCompleted : (runCompleted s e r j).eng e = { s.eng e with run := none } :=
  (eng_sendComp ..).trans (eng_runLeft ..)

theorem eng_runCompleted_other {f : Nat} (hf : f ≠ e) : (runCompleted s e r j).eng f = s.eng f :=
  (eng_sendComp ..).trans (eng_runLeft_other s e r hf)

theorem comps_runCompleted : tget noComps (runCompleted s e r j).comps j.h = tget noComps s.comps j.h ++
    [⟨eEp e, j.tag, j.gen, statusWord r.status r.rsp r.ctxSw r.summary, r.ctxCyc⟩] := comps_sendComp ..

theorem jobFrame_runCompleted : JobFrame s (runCompleted s e r j) := by
  refine (jobFrame_runLeft s e r).trans ?_
  rw [runCompleted, frame_sendComp]

theorem le_now_runCompleted : r.since + r.occ * enginePeriod s ≤ (runCompleted s e r j).now := by
  rw [runCompleted, frame_sendComp]
  exact le_now_runLeft s e r

theorem regsBut_runCompleted : RegsBut [eA e 8, eA e 0xC, eA e 0x14, eA e 0x18] s (runCompleted s e r j) := by
  have hcomp := regsBut_sendComp (runLeft s e r) e j r.status r.rsp r.ctxSw r.summary r.ctxCyc
  exact ((regsBut_runLeft s e r).mono (by simp)).trans (hcomp.mono (by simp))

theorem rd_jobs_runCompleted : (runCompleted s e r j).rd (eA e 8) = sat32 (s.rd (eA e 8) + 1) := by
  rw [runCompleted, rd_sendComp, rd_jobs_countJob, rd_runLeft s e r (eA_ne (by decide))]

variable {r}

theorem rd_fails_runCompleted (hfail : r.status ≠ 0) :
    (runCompleted s e r j).rd (eA e 0x14) = sat32 (s.rd (eA e 0x14) + 1) := by
  rw [runCompleted, rd_sendComp, rd_fails_countJob _ _ _ _ hfail, rd_runLeft s e r (eA_ne (by decide))]

theorem rd_runCompleted_of_ok (hok : r.status = 0) {a : Nat} (hjobs : a ≠ eA e 8) (hcycles : a ≠ eA e 0xC) :
    (runCompleted s e r j).rd a = s.rd a := by
  rw [runCompleted, rd_sendComp, rd_countJob_of_ok _ _ _ _ hok hjobs, rd_runLeft s e r hcycles]

end

theorem exec_engineJobComplete (he : e < 196) : exec (.engineJobComplete e) s = .next (engineJobComplete s e) := if_pos he

theorem completes_engineJobComplete_of_unfinished (he : e < 196) (hrun : (s.eng e).run = some r) (hphase : r.phase ≠ 0) :
    Completes (.engineJobComplete e) s fun t => t = s :=
  completes_of_exec (exec_engineJobComplete he) (by simp only [engineJobComplete, hrun, if_neg hphase])

theorem completes_engineJobComplete_of_finished (he : e < 196) (hr : PlainRun s e r j) (hphase : r.phase = 0) :
    Completes (.engineJobComplete e) s fun t => (t.eng e).run = none ∧
      tget noComps t.comps j.h = tget noComps s.comps j.h ++
        [⟨eEp e, j.tag, j.gen, statusWord r.status r.rsp r.ctxSw r.summary, r.ctxCyc⟩] ∧
      r.since + r.occ * enginePeriod s ≤ t.now ∧ t.rd (eA e 8) = sat32 (s.rd (eA e 8) + 1) ∧
      (t.eng e).queue = (s.eng e).queue ∧ (∀ f, f ≠ e → t.eng f = s.eng f) ∧
      (r.status ≠ 0 → t.rd (eA e 0x14) = sat32 (s.rd (eA e 0x14) + 1)) ∧
      (r.status = 0 → t.rd (eA e 0x14) = s.rd (eA e 0x14) ∧ t.rd (eA e 0x18) = s.rd (eA e 0x18)) ∧
      t = { s with now := t.now, regs := t.regs, engines := t.engines, comps := t.comps } ∧
      RegsBut [eA e 8, eA e 0xC, eA e 0x14, eA e 0x18] s t := by
  have hfinish : engineJobComplete s e = runCompleted s e r j := by
    rw [← finishRun_of_plainRun hr]
    simp only [engineJobComplete, hr.run, if_pos hphase]
  have heng := eng_runCompleted s e r j
  exact completes_of_exec ((exec_engineJobComplete he).trans (congrArg _ hfinish))
    ⟨congrArg Engine.run heng, comps_runCompleted .., le_now_runCompleted .., rd_jobs_runCompleted ..,
      by rw [heng], fun _ hf => eng_runCompleted_other s e r j hf, rd_fails_runCompleted s e j,
      fun hok => ⟨rd_runCompleted_of_ok s e j hok (eA_ne (by decide)) (eA_ne (by decide)),
        rd_runCompleted_of_ok s e j hok (eA_ne (by decide)) (eA_ne (by decide))⟩,
      jobFrame_runCompleted .., regsBut_runCompleted s e r j⟩

/-! ## The report of a chained job (R187) -/

/-- A producer's run with what its chained job reports: a failure's status, and the summary. -/
def reportedRun (st sm : Nat) (r : ERun) : ERun :=
  { r with phase := 0, status := if st % 256 ≠ 0 then st % 256 else r.status,
           rsp := if st % 256 ≠ 0 then st / 256 else r.rsp, summary := sm }

/-- The oldest report, of status `st` and summary `sm`, has reached its producer. -/
def reportTaken (s : State) (e st sm : Nat) (more : List (Nat × Nat)) : State :=
  modRun (s.modEng e fun x => { x with reports := more }) e (reportedRun st sm)

theorem eng_reportTaken (s : State) (e st sm : Nat) (more : List (Nat × Nat)) : (reportTaken s e st sm more).eng e =
    { s.eng e with reports := more, run := (s.eng e).run.map (reportedRun st sm) } := by
  rw [reportTaken, modRun, eng_modEng_same, eng_modEng_same]

theorem PlainRun.reportTaken (hr : PlainRun s e r j) (st sm : Nat) (more : List (Nat × Nat)) :
    PlainRun (reportTaken s e st sm more) e (reportedRun st sm r) j :=
  ⟨(congrArg Engine.run (eng_reportTaken ..)).trans (by rw [hr.run]; rfl), hr.job, hr.post, hr.recW⟩

theorem engFrame_reportTaken (s : State) (e st sm : Nat) (more : List (Nat × Nat)) :
    EngFrame s (reportTaken s e st sm more) := (engFrame_modEng ..).trans (engFrame_modRun ..)

/-- A producer that waits for its report completes with it, if the summary is the report's and not its own. -/
theorem chainReport_of_waiting (hrun : (s.eng e).run = some r) (hphase : r.phase = 4)
    (hreports : (s.eng e).reports = (st, sm) :: more) (hsum : sm ≠ 0 ∨ engClass e ≠ 1) :
    chainReport s e = finishRun (reportTaken s e st sm more) e := by
  have hown : ¬ (engClass e = 1 ∧ sm = 0) := fun ⟨hclass, hzero⟩ => hsum.elim (· hzero) (· hclass)
  simp only [chainReport, hrun, hreports, if_pos hphase, decide_eq_true_eq, if_neg hown]
  rfl

theorem exec_chainStatusReport (he : e < 196) : exec (.chainStatusReport e) s = .next (chainReport s e) := if_pos he

theorem completes_chainStatusReport (he : e < 196) (hr : PlainRun s e r j) (hphase : r.phase = 4)
    (hreports : (s.eng e).reports = (st, sm) :: more) (hsum : sm ≠ 0 ∨ engClass e ≠ 1) :
    Completes (.chainStatusReport e) s fun t => (t.eng e).run = none ∧ (t.eng e).reports = more ∧
      tget noComps t.comps j.h = tget noComps s.comps j.h ++ [⟨eEp e, j.tag, j.gen,
        statusWord (reportedRun st sm r).status (reportedRun st sm r).rsp r.ctxSw sm, r.ctxCyc⟩] ∧
      t = { s with now := t.now, regs := t.regs, engines := t.engines, comps := t.comps } := by
  have hfinish := (chainReport_of_waiting hr.run hphase hreports hsum).trans
    (finishRun_of_plainRun (hr.reportTaken st sm more))
  have heng := eng_runCompleted (reportTaken s e st sm more) e (reportedRun st sm r) j
  refine completes_of_exec ((exec_chainStatusReport he).trans (congrArg _ hfinish)) ⟨congrArg Engine.run heng, ?reports,
    comps_runCompleted .., (engFrame_reportTaken ..).jobFrame.trans (jobFrame_runCompleted ..)⟩
  rw [heng, eng_reportTaken]

theorem completes_chainStatusReport_of_failed (he : e < 196) (hr : PlainRun s e r j) (hphase : r.phase = 4)
    (hreports : (s.eng e).reports = (st, sm) :: more) (hsum : sm ≠ 0 ∨ engClass e ≠ 1) (hfail : st % 256 ≠ 0) :
    Completes (.chainStatusReport e) s fun t => (t.eng e).run = none ∧ (t.eng e).reports = more ∧
      tget noComps t.comps j.h = tget noComps s.comps j.h ++
        [⟨eEp e, j.tag, j.gen, statusWord (st % 256) (st / 256) r.ctxSw sm, r.ctxCyc⟩] ∧
      t = { s with now := t.now, regs := t.regs, engines := t.engines, comps := t.comps } := by
  have hstatus : (reportedRun st sm r).status = st % 256 := if_pos hfail
  have hrsp : (reportedRun st sm r).rsp = st / 256 := if_pos hfail
  rw [← hstatus, ← hrsp]
  exact completes_chainStatusReport he hr hphase hreports hsum

theorem completes_chainStatusReport_of_ok (he : e < 196) (hr : PlainRun s e r j) (hphase : r.phase = 4)
    (hreports : (s.eng e).reports = (st, sm) :: more) (hsum : sm ≠ 0 ∨ engClass e ≠ 1) (hok : st % 256 = 0) :
    Completes (.chainStatusReport e) s fun t => (t.eng e).run = none ∧
      tget noComps t.comps j.h = tget noComps s.comps j.h ++
        [⟨eEp e, j.tag, j.gen, statusWord r.status r.rsp r.ctxSw sm, r.ctxCyc⟩] ∧
      t = { s with now := t.now, regs := t.regs, engines := t.engines, comps := t.comps } := by
  have hstatus : (reportedRun st sm r).status = r.status := if_neg (not_not.mpr hok)
  have hrsp : (reportedRun st sm r).rsp = r.rsp := if_neg (not_not.mpr hok)
  obtain ⟨t, hexec, hrun, -, hcomps, hframe⟩ := completes_chainStatusReport he hr hphase hreports hsum
  rw [hstatus, hrsp] at hcomps
  exact ⟨t, hexec, hrun, hcomps, hframe⟩

/-- Settles O34: the start of an idle burst, the finished run, and the producer with its report, each by its own lemma. -/
theorem engineJobs : Obligations.EngineJobs := fun _ _ he =>
  ⟨fun _ _ _ hclass hheld hready hidle hchain hclear hpaused hnext hctx hoff hu hread =>
      completes_engineJobStart_of_idleBurst he hclass hheld hready hidle hchain hclear hpaused hnext hctx hoff hu hread,
    completes_engineJobStart_of_closed he,
    fun _ _ hrun hjob hpost hrec =>
      ⟨completes_engineJobComplete_of_finished he ⟨hrun, hjob, hpost, hrec⟩,
        completes_engineJobComplete_of_unfinished he hrun,
        fun _ _ _ => completes_chainStatusReport_of_failed he ⟨hrun, hjob, hpost, hrec⟩,
        fun _ _ _ => completes_chainStatusReport_of_ok he ⟨hrun, hjob, hpost, hrec⟩⟩⟩

end Sys2Proof.Machine
end

section
/-! PROOF of the statement on the slots between a producer and its consumer (06_transform_matrix.md R187,
07_channel_coding.md R195). -/

namespace Sys2Proof.Machine

variable {s t u u' : State} {e g i : Nat} {c : Instr} {r : ERun} {l : List Byte} {k : State → JobRes}

/-! ## The rows of a producer -/

/-- A producer's row is a matrix engine's or another's, by its class. -/
theorem exec_producerRow {matrixRow otherRow : Instr} {f : State → Nat → State} (he : e < 196)
    (hmatrix : exec matrixRow s = engEvent (chainRow true f) e s)
    (hother : exec otherRow s = engEvent (chainRow false f) e s)
    (hc : c = if engClass e = 1 then matrixRow else otherRow) : exec c s = .next (f s e) := by
  subst hc
  split
  · next hclass => rw [hmatrix, engEvent, if_pos he, chainRow, if_pos (decide_eq_true hclass).symm]
  · next hclass => rw [hother, engEvent, if_pos he, chainRow, if_pos (decide_eq_false hclass).symm]

theorem exec_slotAsk (he : e < 196) (hc : c = if engClass e = 1 then .chainHalfRequest e else .chainSlotRequest e)
    (hrun : (s.eng e).run = some r) (hphase : r.phase = 1) : exec c s = .next (slotRequest s e) :=
  (exec_producerRow (f := slotAsk) he rfl rfl hc).trans (by simp only [slotAsk, hrun, if_pos hphase])

theorem exec_slotRetry (he : e < 196) (hc : c = if engClass e = 1 then .chainHalfRetry e else .chainSlotRetry e) :
    exec c s = .next (slotRetry s e) := exec_producerRow he rfl rfl hc

theorem exec_slotReady (he : e < 196) (hc : c = if engClass e = 1 then .chainedJobSend e else .chainSlotReady e) :
    exec c s = .next (slotReady s e) := exec_producerRow he rfl rfl hc

/-! ## Operands written to a slot -/

theorem ePut_of_written (hwrite : eWrite s e g l = (rspOk, u)) : ePut e g l s k = k u := by
  simp only [ePut, hwrite, if_true]

/-- The operands of a matrix engine fill the two parts of a half. -/
theorem ePutAll_slotWrites_of_matrix (hclass : engClass e = 1)
    (hfirst : eWrite t e (ownGlobal s (slotAddr' e r.cons i)) (((r.todo[0]?).map ChainOut.data).getD []) = (rspOk, u))
    (hsecond : eWrite u e (ownGlobal s (slotAddr' e r.cons i) + 0x1F000) (((r.todo[1]?).map ChainOut.data).getD []) =
      (rspOk, u')) : ePutAll e (slotWrites s e r i) t k = k u' := by
  rw [slotWrites, if_pos hclass, ePutAll, ePut_of_written hfirst, ePutAll, ePut_of_written hsecond, ePutAll]

/-- Any other producer fills a slot with the block whose turn it is. -/
theorem ePutAll_slotWrites_of_block (hclass : engClass e ≠ 1)
    (hwrite : eWrite t e (ownGlobal s (slotAddr' e r.cons i)) (((r.todo[r.sent]?).map ChainOut.data).getD []) =
      (rspOk, u)) : ePutAll e (slotWrites s e r i) t k = k u := by
  rw [slotWrites, if_neg hclass, ePutAll, ePut_of_written hwrite, ePutAll]

/-! ## A slot is asked for -/

theorem eng_modRun_other {f : Nat} (hf : f ≠ e) (s : State) (g : ERun → ERun) : (modRun s e g).eng f = s.eng f :=
  eng_modEng_other hf ..

section
variable (he : e < 196) (hrun : (s.eng e).run = some r) (hreach : Reaches s (eEp e) (eEp r.cons))
  (hheld : eHeld s r.cons = false)
include hrun hreach hheld

theorem slotRequest_of_full (hfull : freeSlot s e r.cons = none) :
    slotRequest s e = modRun s e fun r => { r with phase := 2, asked := s.now } := by
  simp only [slotRequest, hrun, ni_of_reaches hreach, hheld, ne_eq, not_true_eq_false, if_false, if_true,
    Bool.false_eq_true, back_of_reaches hreach, hfull]

theorem slotRequest_of_filled (hfree : freeSlot s e r.cons = some i)
    (hfilled : ePutAll e (slotWrites s e r i) (grantSlot s e r.cons i) (fun s => jobOk s 0 0) = jobOk u 0 0) :
    slotRequest s e = modRun u e fun r => { r with phase := 3, slot := i } := by
  simp only [slotRequest, hrun, ni_of_reaches hreach, hheld, ne_eq, not_true_eq_false, if_false, if_true,
    Bool.false_eq_true, back_of_reaches hreach, hfree, hfilled]
  exact if_pos rfl

include he

section
variable (hc : c = if engClass e = 1 then .chainHalfRequest e else .chainSlotRequest e) (hphase : r.phase = 1)
include hc hphase

theorem completes_slotAsk_of_full (hfull : freeSlot s e r.cons = none) : Completes c s fun t =>
    (t.eng e).run = some { r with phase := 2, asked := s.now } ∧ (∀ f, f ≠ e → t.eng f = s.eng f) ∧
    t = { s with engines := t.engines } :=
  completes_of_exec
    ((exec_slotAsk he hc hrun hphase).trans (congrArg _ (slotRequest_of_full hrun hreach hheld hfull)))
    ⟨(run_modRun ..).trans (by rw [hrun]; rfl), fun _ hf => eng_modRun_other hf .., engFrame_modRun ..⟩

theorem completes_slotAsk_of_filled (hfree : freeSlot s e r.cons = some i)
    (hfilled : ePutAll e (slotWrites s e r i) (grantSlot s e r.cons i) (fun s => jobOk s 0 0) = jobOk u 0 0) :
    Completes c s fun t => t = modRun u e fun r => { r with phase := 3, slot := i } :=
  completes_of_exec (exec_slotAsk he hc hrun hphase) (slotRequest_of_filled hrun hreach hheld hfree hfilled)

end

end

/-! ## A refused request is repeated -/

/-- The 64 engine cycles after a refusal have passed, and the wait is counted. -/
def refusalWaited (s : State) (e : Nat) (r : ERun) : State :=
  (s.until (r.asked + 64 * enginePeriod s)).cnt (eA e (if engClass e = 1 then 0x2C else 0x30)) 64

theorem slotRetry_of_refused (hrun : (s.eng e).run = some r) (hphase : r.phase = 2) :
    slotRetry s e = slotRequest (refusalWaited s e r) e := by
  simp only [slotRetry, hrun, if_pos hphase, refusalWaited]

theorem completes_slotRetry (he : e < 196) (hrun : (s.eng e).run = some r)
    (hc : c = if engClass e = 1 then .chainHalfRetry e else .chainSlotRetry e) (hphase : r.phase = 2) :
    Completes c s fun t => ∃ u, t = slotRequest u e ∧ r.asked + 64 * enginePeriod s ≤ u.now ∧
      u.rd (eA e (if engClass e = 1 then 0x2C else 0x30)) =
        sat32 (s.rd (eA e (if engClass e = 1 then 0x2C else 0x30)) + 64) ∧
      u = { s with now := u.now, regs := u.regs } ∧ RegsBut [eA e (if engClass e = 1 then 0x2C else 0x30)] s u :=
  completes_of_exec (exec_slotRetry he hc) ⟨refusalWaited s e r, slotRetry_of_refused hrun hphase,
    Nat.le_max_right .., rd_cnt_of_regs rfl .., rfl, regsBut_cnt (s.until (r.asked + 64 * enginePeriod s)) _ 64⟩

/-! ## A filled slot is announced -/

/-- The slot just filled is the producer's last; a matrix engine asks for one half only. -/
def lastSlot (e : Nat) (r : ERun) : Bool := decide (engClass e = 1 ∨ r.todo.length ≤ r.sent + 1)

/-- What the consumer queues of a filled slot. -/
def announcement (e : Nat) (r : ERun) : ChainIn :=
  ⟨e, r.cdesc, r.slot, ((r.todo[r.sent]?).getD ⟨[], 0, false⟩).high, ((r.todo[r.sent]?).getD ⟨[], 0, false⟩).skip, r.sent,
    lastSlot e r⟩

/-- An engine that has accepted a filled slot. -/
def slotAccepted (i : ChainIn) (x : Engine) : Engine := { x with chainQ := x.chainQ ++ [i] }

/-- A producer that has announced a slot, its last one or not. -/
def slotSent (last : Bool) (r : ERun) : ERun := { r with phase := if last then 4 else 1, sent := r.sent + 1 }

theorem slotReady_of_accepted (hrun : (s.eng e).run = some r) (hreach : Reaches s (eEp e) (eEp r.cons))
    (hheld : eHeld s r.cons = false) (hphase : r.phase = 3) : slotReady s e =
      modRun (s.modEng r.cons (slotAccepted (announcement e r))) e (slotSent (lastSlot e r)) := by
  simp only [slotReady, hrun, hphase, ni_of_reaches hreach, hheld, ne_eq, not_true_eq_false, if_false, if_true,
    Bool.false_eq_true, back_of_reaches hreach]
  rfl

theorem completes_slotReady (he : e < 196) (hrun : (s.eng e).run = some r) (hreach : Reaches s (eEp e) (eEp r.cons))
    (hheld : eHeld s r.cons = false) (hc : c = if engClass e = 1 then .chainedJobSend e else .chainSlotReady e)
    (hphase : r.phase = 3) (hcons : r.cons ≠ e) :
    Completes c s fun t =>
      ((t.eng e).run = some { r with phase := if lastSlot e r then 4 else 1, sent := r.sent + 1 } ∧
        ∃ i, (t.eng r.cons).chainQ = (s.eng r.cons).chainQ ++ [i] ∧ i.prod = e ∧ i.desc = r.cdesc ∧ i.slot = r.slot ∧
          i.idx = r.sent ∧ i.last = lastSlot e r) ∧
      (∀ f, f ≠ e → f ≠ r.cons → t.eng f = s.eng f) ∧ t = { s with engines := t.engines } := by
  refine completes_of_exec
    ((exec_slotReady he hc).trans (congrArg _ (slotReady_of_accepted hrun hreach hheld hphase)))
    ⟨⟨?run, announcement e r, ?queued, rfl, rfl, rfl, rfl, rfl⟩, fun f hf hcons' => ?others,
      (engFrame_modEng ..).trans (engFrame_modRun ..)⟩
  case run => rw [run_modRun, eng_modEng_other hcons.symm, hrun]; rfl
  case queued => rw [eng_modRun_other hcons, eng_modEng_same]; rfl
  case others => exact (eng_modRun_other hf ..).trans (eng_modEng_other hcons' ..)

/-- Settles O35: a request by what becomes of it, then its repetition and the announcement of a filled slot. -/
theorem chainSlots : Obligations.ChainSlots := fun _ _ _ he hrun hreach hheld =>
  ⟨fun _ hc hphase =>
      ⟨completes_slotAsk_of_full he hrun hreach hheld hc hphase,
        fun _ _ hclass hfree hwrite => completes_slotAsk_of_filled he hrun hreach hheld hc hphase hfree
          (ePutAll_slotWrites_of_block hclass hwrite),
        fun _ _ _ hclass hfree hfirst hsecond => completes_slotAsk_of_filled he hrun hreach hheld hc hphase hfree
          (ePutAll_slotWrites_of_matrix hclass hfirst hsecond)⟩,
    fun _ => completes_slotRetry he hrun,
    fun _ => completes_slotReady he hrun hreach hheld⟩

end Sys2Proof.Machine
end

section
/-! PROOFS on the engines' register windows (01_architecture.md R23, 06_transform_matrix.md R190): which engine and which
register an address of a window names, and what a write of one comes to. -/

namespace Sys2Proof.Machine

variable {s t : State} {a c e i o v : Nat} {row : RegRow}

/-! ## Engines and their classes (R23) -/

/-- Engine `e` is one of class `c`, whose engines are numbered one after another. -/
abbrev OfClass (e c : Nat) : Prop := c < 11 ∧ classCtl c - 96 ≤ e ∧ e < classCtl c - 96 + classCount c

theorem ofClass_engClass (he : e < 196) : OfClass e (engClass e) := by
  unfold engClass
  repeat' refine iteInduction (fun _ => ?_) fun _ => ?_
  all_goals
    rw [OfClass, classCtl, classCount]
    dsimp only [List.getD, List.getElem?_cons_succ, List.getElem?_cons_zero, Option.getD]
    omega

theorem engClass_lt (he : e < 196) : engClass e < 11 := (ofClass_engClass he).1

theorem engInst_lt (he : e < 196) : engInst e < classCount (engClass e) := by
  obtain ⟨-, hfirst, hlast⟩ := ofClass_engClass he
  exact Nat.sub_lt_left_of_lt_add hfirst hlast

theorem engNum_of_engine (he : e < 196) : engNum (engClass e) (engInst e) = e := by
  obtain ⟨-, hfirst, -⟩ := ofClass_engClass he
  exact Nat.add_sub_of_le hfirst

/-! ## Windows (R23) -/

/-- The windows of a class's engines lie within the class's own 16 MiB. -/
theorem window_fits (hc : c < 11) (hi : i < classCount c) : (i + 1) * classStride c ≤ 0x1000000 := by
  have hclasses : ∀ c, c < 11 → classCount c * classStride c ≤ 0x1000000 := by decide
  exact Nat.le_trans (Nat.mul_le_mul_right _ hi) (hclasses c hc)

/-- The class, the number within it and the offset that an address within a window names. -/
theorem window_decode (hc : c < 11) (hi : i < classCount c) (ho : o < classStride c) :
    (engBase c i + o - 0x02000000000) / 0x1000000 = c ∧ (engBase c i + o) % 0x1000000 / classStride c = i ∧
    (engBase c i + o) % 0x1000000 % classStride c = o := by
  have hfit := window_fits hc hi
  rw [Nat.succ_mul] at hfit
  have hoffset : (engBase c i + o) % 0x1000000 = o + i * classStride c := by simp only [engBase]; omega
  have hpos : 0 < classStride c := Nat.zero_lt_of_lt ho
  refine ⟨by simp only [engBase]; omega, ?_, ?_⟩
  · rw [hoffset, Nat.add_mul_div_right _ _ hpos, Nat.div_eq_of_lt ho, Nat.zero_add]
  · rw [hoffset, Nat.add_mul_mod_self_right, Nat.mod_eq_of_lt ho]

theorem engOf_window (hc : c < 11) (hi : i < classCount c) (ho : o < classStride c) :
    engOf (engBase c i + o) = engNum c i := by
  obtain ⟨hclass, hinst, -⟩ := window_decode hc hi ho
  simp only [engOf, hclass, hinst]

/-- The accelerator windows decode class by class. -/
theorem regionOf_engBase (hc : c < 11) (hi : i < classCount c) (ho : o < classStride c) :
    regionOf (engBase c i + o) =
      engRegion ((engBase c i + o - 0x02000000000) / 0x1000000) ((engBase c i + o) % 0x1000000) := by
  have hfit := window_fits hc hi
  rw [Nat.succ_mul] at hfit
  have hplace : 0x02000000000 ≤ engBase c i + o ∧ engBase c i + o < 0x0200B000000 := by simp only [engBase]; omega
  generalize engBase c i + o = a at hplace ⊢
  unfold regionOf
  rw [if_neg, if_neg, if_pos hplace]
  · omega
  · simp only [barnSize]; omega

theorem regionOf_window (hc : c < 11) (hi : i < classCount c) (ho : o < classStride c / 2) :
    regionOf (engBase c i + o) = .regs (engBase c i) (rowsEng ++ rowsClass c) := by
  have hstride : o < classStride c := Nat.lt_of_lt_of_le ho (Nat.div_le_self ..)
  obtain ⟨hclass, hinst, hoffset⟩ := window_decode hc hi hstride
  rw [regionOf_engBase hc hi hstride, hclass, engRegion]
  simp only [hinst, hoffset, if_pos hi, if_pos ho]

theorem regRow_of_regs {base : Nat} {rows : List RegRow} (hregion : regionOf (base + o) = .regs base rows)
    (hrow : findRow rows o = some row) : regRow (base + o) = some (base, row) := by
  rw [regRow, hregion]
  dsimp only
  rw [Nat.add_sub_cancel_left, hrow]
  rfl

theorem regRow_window (hc : c < 11) (hi : i < classCount c) (ho : o < classStride c / 2)
    (hrow : findRow (rowsEng ++ rowsClass c) o = some row) : regRow (engBase c i + o) = some (engBase c i, row) :=
  regRow_of_regs (regionOf_window hc hi ho) hrow

/-! ## Writes of an engine's register (R7, R8, R190) -/

theorem regWriteBy_of_regRow {base code : Nat} {hook : WriteHook} (hrow : regRow (base + o) = some (base, row))
    (hhook : hook row.name (dimIdx row.dims (o - row.off)) v s (s.wr (base + o) (regNext row (s.rd (base + o)) v)) =
      (code, t)) : s.regWriteBy hook (base + o) v = t.answer code 0 := by
  rw [State.regWriteBy, hrow]
  dsimp only
  rw [Nat.add_sub_cancel_left, hhook]
  rfl

theorem setBit_lt (hv : v < 2 ^ 64) (hi : i < 64) : setBit v i < 2 ^ 64 := by
  rw [setBit, Nat.one_shiftLeft]
  exact Nat.or_lt_two_pow hv (Nat.pow_lt_pow_right (by decide) hi)

theorem clrBit_lt (hv : v < 2 ^ 64) (hi : i < 64) : clrBit v i < 2 ^ 64 := setFld_lt _ _ _ _ _ (Nat.le_refl i) hi hv

theorem tb_setBit_same (v i : Nat) : tb (setBit v i) i = true := by simp [tb, testBit_setBit]

theorem tb_setBit_other {j : Nat} (hij : i ≠ j) (v : Nat) : tb (setBit v i) j = tb v j := by
  simp [tb, testBit_setBit, hij]

theorem tb_clrBit_same (v i : Nat) : tb (clrBit v i) i = false := by simp [tb, clrBit, testBit_setFld]

/-- A bit that software writes reads as written. -/
theorem rb_wr_regNext_of_rw (hm : row.MasksFit) (hrw : row.rw.testBit i = true) (hw1c : row.w1c = 0) (hw1s : row.w1s = 0)
    (hi : i < 64) (hv : v < 2 ^ 64) : (s.wr a (regNext row (s.rd a) v)).rb a i = tb v i := by
  rw [State.rb, State.rd_wr_same, tb, Nat.testBit_mod_two_pow, testBit_regNext hm _ hi hv]
  simp [hi, hrw, hw1c, hw1s, tb]

end Sys2Proof.Machine
end

section
/-! PROOFS of the commands that reset and pause an engine (06_transform_matrix.md R190, R191, 07_channel_coding.md R230). -/

namespace Sys2Proof.Machine

variable {s t : State} {e v : Nat} {j : EJob}

/-! ## The control register (R190) -/

/-- The row of the engines' control registers. -/
def engCtrlRow : RegRow := ⟨"x_CTRL", 0, [], 4, 0, 3, 0, 0, 0, 0, 0, 0⟩

theorem findRow_engCtrl (c : Nat) : findRow (rowsEng ++ rowsClass c) 0 = some engCtrlRow := rfl

/-- The control register of engine `e` holds what its access codes make of `v`. -/
def ctrlWritten (s : State) (e v : Nat) : State := s.wr (eA e 0) (regNext engCtrlRow (s.rd (eA e 0)) v)

theorem rb_ctrlWritten {i : Nat} (hi : i < 2) (hv : v < 2 ^ 64) : (ctrlWritten s e v).rb (eA e 0) i = tb v i := by
  have hrw : ∀ i, i < 2 → engCtrlRow.rw.testBit i = true := by decide
  exact rb_wr_regNext_of_rw (by decide) (hrw i hi) rfl rfl (Nat.lt_trans hi (by decide)) hv

theorem regsBut_ctrlWritten (s : State) (e v : Nat) : RegsBut [eA e 0] s (ctrlWritten s e v) := regsBut_wr s _ _

theorem engOf_eA (he : e < 196) : engOf (eA e 0) = e := by
  have hstride : ∀ c, c < 11 → 0 < classStride c := by decide
  exact (engOf_window (engClass_lt he) (engInst_lt he) (hstride _ (engClass_lt he))).trans (engNum_of_engine he)

/-- A write of the control register resets the engine, ends its reset, or does no more than its access codes. -/
theorem engWrite_engCtrl (he : e < 196) (ix : List Nat) (v : Nat) (s s1 : State) :
    engWrite (eA e 0) engCtrlRow.name ix v s s1 =
      (rspOk, if tb v 0 ∧ !s.rb (eA e 0) 0 then engineReset s1 e
        else if !tb v 0 ∧ s.rb (eA e 0) 0 then engineResetClear s1 e else s1) := by
  simp only [engWrite, engCtrlRow, engOf_eA he]

theorem regWriteBy_engCtrl (he : e < 196)
    (ht : t = if tb v 0 ∧ !s.rb (eA e 0) 0 then engineReset (ctrlWritten s e v) e
      else if !tb v 0 ∧ s.rb (eA e 0) 0 then engineResetClear (ctrlWritten s e v) e else ctrlWritten s e v) :
    s.regWriteBy (engWrite (eA e 0)) (eA e 0) v = t.answer rspOk 0 := by
  have hstride : ∀ c, c < 11 → 0 < classStride c / 2 := by decide
  refine regWriteBy_of_regRow
    (regRow_window (engClass_lt he) (engInst_lt he) (hstride _ (engClass_lt he)) (findRow_engCtrl _)) ?_
  rw [ht]
  exact engWrite_engCtrl he _ _ _ _

/-! ## Reset (R191) -/

theorem abortRun_of_idle (hidle : (s.eng e).run = none) : abortRun s e = s := by simp only [abortRun, hidle]

/-- What a reset leaves of an engine: the commands it met before their CONFIRM, and what its end has to settle. -/
def resetEngine (lost : List (Nat × Nat × Nat)) (x : Engine) : Engine :=
  { Engine.reset with doomed := x.doomed ++ lost, recs := x.recs, chClr := x.chClr }

/-- Each confirmed command of queue `q` completes HS_ABORT. -/
def queueAborted (s : State) (e : Nat) (q : List EJob) : State :=
  (q.filter (fun (j : EJob) => j.conf)).foldl (fun s j => sendComp s e j 5 0 false 0 0) s

/-- The commands of queue `q` whose CONFIRM is still to come, as a reset engine remembers them. -/
def lostCommands (q : List EJob) : List (Nat × Nat × Nat) :=
  (q.filter (fun (j : EJob) => !j.conf)).map (fun (j : EJob) => (j.h, j.tag, j.gen))

theorem queueAborted_of_confirmed (hconf : j.conf = true) : queueAborted s e [j] = sendComp s e j 5 0 false 0 0 := by
  simp only [queueAborted, List.filter_cons, List.filter_nil, hconf, if_true, List.foldl_cons, List.foldl_nil]

theorem queueAborted_of_unconfirmed (hconf : j.conf = false) : queueAborted s e [j] = s := by
  simp only [queueAborted, List.filter_cons, List.filter_nil, hconf, Bool.false_eq_true, if_false, List.foldl_nil]

theorem lostCommands_of_unconfirmed (hconf : j.conf = false) : lostCommands [j] = [(j.h, j.tag, j.gen)] := by
  simp only [lostCommands, List.filter_cons, List.filter_nil, hconf, Bool.not_false, if_true, List.map_cons, List.map_nil]

/-- From `s` to `t` nothing has changed but registers and completions. -/
abbrev CompFrame (s t : State) : Prop := t = { s with regs := t.regs, comps := t.comps }

theorem compFrame_queueAborted (s : State) (e : Nat) (q : List EJob) : CompFrame s (queueAborted s e q) :=
  List.foldlRecOn (motive := CompFrame s) _ _ rfl fun u hu j _ => by
    rw [CompFrame, frame_sendComp, hu]

theorem eng_queueAborted (s : State) (e : Nat) (q : List EJob) (f : Nat) : (queueAborted s e q).eng f = s.eng f := by
  rw [compFrame_queueAborted]
  exact State.eng_of_engines rfl f

theorem regsBut_queueAborted (s : State) (e : Nat) (q : List EJob) :
    RegsBut [eA e 8, eA e 0x14, eA e 0x18] s (queueAborted s e q) :=
  List.foldlRecOn (motive := RegsBut _ s) _ _ (regsBut_of_regs rfl) fun u hu j _ =>
    hu.trans (regsBut_sendComp u e j 5 0 false 0 0)

/-- A reset meets an idle engine that no other waits for. -/
theorem engineReset_of_idle (hidle : (s.eng e).run = none) (hwaits : waitsOn s e = []) :
    engineReset s e = (queueAborted s e (s.eng e).queue).setEng e
      (resetEngine (lostCommands (s.eng e).queue) (s.eng e)) := by
  have heng : ((queueAborted s e (s.eng e).queue).eng e).doomed = (s.eng e).doomed :=
    congrArg Engine.doomed (eng_queueAborted ..)
  rw [queueAborted] at heng ⊢
  simp only [engineReset, abortRun_of_idle hidle, hwaits, List.foldl_nil, heng, resetEngine, lostCommands]

/-- Engine `e` in reset, its queue `q` aborted. -/
def resetWith (s : State) (e : Nat) (q : List EJob) : State :=
  (queueAborted (ctrlWritten s e (setBit (s.rd (eA e 0)) 0)) e q).setEng e (resetEngine (lostCommands q) (s.eng e))

theorem exec_engineReset (he : e < 196) (hopen : s.rb (eA e 0) 0 = false) (hidle : (s.eng e).run = none)
    (hwaits : waitsOn s e = []) :
    exec (.engineReset e) s = .next ((resetWith s e (s.eng e).queue).answer rspOk 0) := by
  refine (if_pos he).trans (congrArg _ (regWriteBy_engCtrl he ?_))
  rw [if_pos ⟨tb_setBit_same .., by rw [hopen]; rfl⟩]
  exact (engineReset_of_idle (s := ctrlWritten s e _) hidle hwaits).symm

section
variable (s : State) (e : Nat) (q : List EJob)

theorem eng_resetWith : (resetWith s e q).eng e = resetEngine (lostCommands q) (s.eng e) := eng_setEng_same ..

theorem rb_reset_resetWith : (resetWith s e q).rb (eA e 0) 0 = true := by
  have hother : eA e 0 ∉ [eA e 8, eA e 0x14, eA e 0x18] := by simp [eA_ne]
  have hkept := regsBut_queueAborted (ctrlWritten s e (setBit (s.rd (eA e 0)) 0)) e q _ hother
  calc (resetWith s e q).rb (eA e 0) 0
      = (ctrlWritten s e (setBit (s.rd (eA e 0)) 0)).rb (eA e 0) 0 := congrArg (tb · 0) hkept
    _ = tb (setBit (s.rd (eA e 0)) 0) 0 := rb_ctrlWritten (by decide) (setBit_lt (s.rd_lt _) (by decide))
    _ = true := tb_setBit_same ..

theorem regsBut_resetWith : RegsBut [eA e 0, eA e 8, eA e 0x14, eA e 0x18] s (resetWith s e q) :=
  ((regsBut_ctrlWritten s e _).mono (by simp)).trans
    (((regsBut_queueAborted _ e q).mono (by simp)).trans (regsBut_of_regs rfl))

theorem frame_resetWith : resetWith s e q =
    { s with regs := (resetWith s e q).regs, engines := (resetWith s e q).engines, comps := (resetWith s e q).comps } := by
  rw [resetWith, compFrame_queueAborted]
  rfl

theorem comps_resetWith_of_confirmed (hconf : j.conf = true) : tget noComps (resetWith s e [j]).comps j.h =
    tget noComps s.comps j.h ++ [⟨eEp e, j.tag, j.gen, 5, 0⟩] := by
  have hcomps := comps_sendComp (ctrlWritten s e (setBit (s.rd (eA e 0)) 0)) e j 5 0 false 0 0
  rw [resetWith, queueAborted_of_confirmed hconf]
  exact hcomps

theorem comps_resetWith_of_unconfirmed (hconf : j.conf = false) : (resetWith s e [j]).comps = s.comps := by
  rw [resetWith, queueAborted_of_unconfirmed hconf]
  rfl

theorem mem_doomed_resetWith (hconf : j.conf = false) : (j.h, j.tag, j.gen) ∈ ((resetWith s e [j]).eng e).doomed := by
  rw [eng_resetWith, lostCommands_of_unconfirmed hconf]
  exact List.mem_append_right _ (List.mem_singleton_self _)

end

theorem completes_engineReset (he : e < 196) (hopen : s.rb (eA e 0) 0 = false) (hidle : (s.eng e).run = none)
    (hwaits : waitsOn s e = []) (hqueue : (s.eng e).queue = [j]) :
    Completes (.engineReset e) s fun t => t.rb (eA e 0) 0 = true ∧ (t.eng e).queue = [] ∧ (t.eng e).run = none ∧
      (t.eng e).ctxs = [] ∧ (t.eng e).chainQ = [] ∧
      (j.conf = true → tget noComps t.comps j.h = tget noComps s.comps j.h ++ [⟨eEp e, j.tag, j.gen, 5, 0⟩]) ∧
      (j.conf = false → (j.h, j.tag, j.gen) ∈ (t.eng e).doomed ∧ t.comps = s.comps) ∧
      t = { s with regs := t.regs, engines := t.engines, comps := t.comps, bus := ⟨rspOk, 0⟩ } ∧
      RegsBut [eA e 0, eA e 8, eA e 0x14, eA e 0x18] s t := by
  have hexec := exec_engineReset he hopen hidle hwaits
  rw [hqueue] at hexec
  have heng := eng_resetWith s e [j]
  exact completes_of_exec hexec ⟨rb_reset_resetWith .., congrArg Engine.queue heng, congrArg Engine.run heng,
    congrArg Engine.ctxs heng, congrArg Engine.chainQ heng, comps_resetWith_of_confirmed s e,
    fun hconf => ⟨mem_doomed_resetWith s e hconf, comps_resetWith_of_unconfirmed s e hconf⟩,
    congrArg (State.answer · rspOk 0) (frame_resetWith s e [j]), regsBut_resetWith s e [j]⟩

/-! ## The end of a reset, and pause (R190, R191) -/

/-- The records that an engine had set BUSY are settled. -/
def recsSettled (s : State) (e : Nat) : State := s.modEng e fun x => { x with recs := [] }

theorem eng_recsSettled (hrecs : (s.eng e).recs = []) : (recsSettled s e).eng e = s.eng e := by
  rw [recsSettled, eng_modEng_same, ← hrecs]

/-- The end of a reset writes no record where none was BUSY (R230). -/
theorem engineResetClear_of_noRecords (hrecs : (s.eng e).recs = []) : engineResetClear s e = recsSettled s e := by
  simp only [engineResetClear, hrecs, List.foldl_nil, recsSettled]

theorem exec_engineResetClear (he : e < 196) (hheld : s.rb (eA e 0) 0 = true) (hrecs : (s.eng e).recs = []) :
    exec (.engineResetClear e) s =
      .next ((recsSettled (ctrlWritten s e (clrBit (s.rd (eA e 0)) 0)) e).answer rspOk 0) := by
  refine (if_pos he).trans (congrArg _ (regWriteBy_engCtrl he ?_))
  rw [tb_clrBit_same, if_neg (by simp), if_pos ⟨rfl, hheld⟩]
  exact (engineResetClear_of_noRecords (s := ctrlWritten s e _) hrecs).symm

theorem completes_engineResetClear (he : e < 196) (hheld : s.rb (eA e 0) 0 = true) (hrecs : (s.eng e).recs = []) :
    Completes (.engineResetClear e) s fun t => t.rb (eA e 0) 0 = false ∧ t.eng e = s.eng e ∧
      t = { s with regs := t.regs, engines := t.engines, bus := ⟨rspOk, 0⟩ } ∧ RegsBut [eA e 0] s t := by
  have hclear : (ctrlWritten s e (clrBit (s.rd (eA e 0)) 0)).rb (eA e 0) 0 = false :=
    (rb_ctrlWritten (by decide) (clrBit_lt (s.rd_lt _) (by decide))).trans (tb_clrBit_same ..)
  exact completes_of_exec (exec_engineResetClear he hheld hrecs)
    ⟨hclear, eng_recsSettled (s := ctrlWritten s e _) hrecs, rfl, regsBut_ctrlWritten s e _⟩

/-- A write that leaves RESET as it was does no more than its access codes. -/
theorem exec_enginePause (he : e < 196) :
    exec (.enginePause e) s = .next ((ctrlWritten s e (setBit (s.rd (eA e 0)) 1)).answer rspOk 0) := by
  refine (if_pos he).trans (congrArg _ (regWriteBy_engCtrl he ?_))
  rw [tb_setBit_other (by decide), State.rb, if_neg (by simp), if_neg (by simp)]

theorem completes_enginePause (he : e < 196) : Completes (.enginePause e) s fun t => t.rb (eA e 0) 1 = true ∧
    t.rb (eA e 0) 0 = s.rb (eA e 0) 0 ∧ t = { s with regs := t.regs, bus := ⟨rspOk, 0⟩ } ∧ RegsBut [eA e 0] s t := by
  have hbit {i : Nat} (hi : i < 2) : (ctrlWritten s e (setBit (s.rd (eA e 0)) 1)).rb (eA e 0) i =
      tb (setBit (s.rd (eA e 0)) 1) i := rb_ctrlWritten hi (setBit_lt (s.rd_lt _) (by decide))
  exact completes_of_exec (exec_enginePause he) ⟨(hbit (by decide)).trans (tb_setBit_same ..),
    (hbit (by decide)).trans (tb_setBit_other (by decide) _), rfl, regsBut_ctrlWritten s e _⟩

end Sys2Proof.Machine
end

section
/-! PROOFS of the commands of a listen-before-talk unit (08_sieve_bursts.md R250-R254). -/

namespace Sys2Proof.Machine

variable {s t : State} {c o p v : Nat}

theorem svA_ne (hop : o ≠ p) : svA c o ≠ svA c p := fun heq => hop (Nat.add_left_cancel heq)

/-! ## The command register (R254) -/

/-- The row of the command registers of the sieve chains. -/
def lbtCmdRow : RegRow := ⟨"SV_LBT_CMD", 0x48, [], 4, 0, 0, 0, 0, 0, 7, 0, 0⟩

theorem findRow_lbtCmd : findRow (rowsEng ++ rowsClass 9) 0x48 = some lbtCmdRow := by decide

theorem engInst_sieve (hc : c < 64) : engInst (engNum 9 c) = c := by
  revert c
  decide

theorem engWrite_lbtCmd (hc : c < 64) (ix : List Nat) (v : Nat) (s s1 : State) :
    engWrite (svA c 0x48) lbtCmdRow.name ix v s s1 = lbtCmd s c v := by
  have hengine : engOf (svA c 0x48) = engNum 9 c := engOf_window (by decide) hc (by decide)
  simp only [engWrite, lbtCmdRow, hengine, engInst_sieve hc]

/-- A command leaves what it answers; the command register keeps nothing. -/
theorem lbtCommand_eq (hc : c < 64) (v : Nat) (s : State) :
    lbtCommand c v s = .next ((lbtCmd s c v).2.answer (lbtCmd s c v).1 0) :=
  (if_pos hc).trans <| congrArg _ <| regWriteBy_of_regRow
    (regRow_window (by decide) hc (by decide) findRow_lbtCmd) (engWrite_lbtCmd hc _ v s _)

theorem exec_lbtStart (hc : c < 64) (s : State) :
    exec (.lbtStart c) s = .next ((lbtCmd s c 1).2.answer (lbtCmd s c 1).1 0) := lbtCommand_eq hc 1 s

theorem exec_lbtAbort (hc : c < 64) (s : State) : exec (.lbtAbort c) s = .next ((lbtAbort s c).answer rspOk 0) :=
  lbtCommand_eq hc 2 s

theorem exec_lbtRelease (hc : c < 64) (s : State) : exec (.lbtRelease c) s = .next ((lbtRelease s c).answer rspOk 0) :=
  lbtCommand_eq hc 4 s

theorem exec_cotEnd (hc : c < 64) (s : State) : exec (.cotEnd c) s = .next (lbtRelease s c) := if_pos hc

/-- From `s` to `t` nothing has changed but registers and listen-before-talk units. -/
abbrev LbtFrame (s t : State) : Prop := t = { s with regs := t.regs, lbts := t.lbts }

theorem LbtFrame.trans {u : State} (h1 : LbtFrame s t) (h2 : LbtFrame t u) : LbtFrame s u := by
  rw [LbtFrame, h1] at h2
  exact h2

theorem LbtFrame.answer (h : LbtFrame s t) (code : Nat) :
    t.answer code 0 = { s with regs := (t.answer code 0).regs, lbts := (t.answer code 0).lbts, bus := ⟨code, 0⟩ } :=
  congrArg (State.answer · code 0) h

/-! ## START (R251, R252) -/

theorem xorshift_lt (hv : v < 2 ^ 64) : xorshift v < 2 ^ 64 := by
  have hlow (x : Nat) : x % 2 ^ 32 < 2 ^ 64 := Nat.lt_trans (Nat.mod_lt _ (by decide)) (by decide)
  have hshift {x : Nat} (hx : x < 2 ^ 64) (k : Nat) : x >>> k < 2 ^ 64 :=
    Nat.lt_of_le_of_lt (Nat.shiftRight_le ..) hx
  have ha := Nat.xor_lt_two_pow hv (hlow (v <<< 13))
  exact Nat.xor_lt_two_pow (Nat.xor_lt_two_pow ha (hshift ha 17)) (hlow _)

/-- The status word of a unit that has drawn its N and defers. -/
def deferStatus (s : State) (c : Nat) : Nat :=
  1 + xorshift (s.rd (svA c 0x44)) * (s.rf (svA c 0x3C) 9 0 + 1) / 2 ^ 32 * 16

theorem deferStatus_lt (s : State) (c : Nat) : deferStatus s c < 2 ^ 64 := by
  have hdraw := xorshift_lt (s.rd_lt (svA c 0x44))
  have hwindow : s.rf (svA c 0x3C) 9 0 + 1 ≤ 2 ^ 10 := Nat.mod_lt _ (by decide)
  have hprod := Nat.mul_le_mul (Nat.le_of_lt hdraw) hwindow
  rw [deferStatus]
  omega

theorem rd_seed_lbtStart (s : State) (c : Nat) : (lbtStart s c).rd (svA c 0x44) = xorshift (s.rd (svA c 0x44)) := by
  rw [lbtStart, State.setLbt_rd, State.rd_wr_other _ _ (svA_ne (by decide)), State.rd_wr_same,
    Nat.mod_eq_of_lt (xorshift_lt (s.rd_lt _))]

theorem rd_status_lbtStart (s : State) (c : Nat) : (lbtStart s c).rd (svA c 0x4C) = deferStatus s c := by
  rw [lbtStart, State.setLbt_rd, State.rd_wr_same]
  exact Nat.mod_eq_of_lt (deferStatus_lt s c)

theorem lbtState_lbtStart (s : State) (c : Nat) : lbtState (lbtStart s c) c = 1 := by
  have hstate : fld (deferStatus s c) 2 0 = 1 := by
    simp only [fld, deferStatus, Nat.shiftRight_zero]
    omega
  rw [lbtState, State.rf, rd_status_lbtStart, hstate]

theorem regsBut_lbtStart (s : State) (c : Nat) : RegsBut [svA c 0x44, svA c 0x4C] s (lbtStart s c) := by
  unfold lbtStart
  exact (((regsBut_wr s _ _).mono (by simp)).wr (by simp) _).trans (regsBut_of_regs rfl)

theorem lbt_lbtStart (s : State) (c : Nat) : (lbtStart s c).lbt c = Lbt.reset := by
  rw [lbtStart, State.lbt_setLbt, if_pos rfl]

/-- From `s` to `t` the unit has drawn its N and begun to defer. -/
structure Deferred (s t : State) (c : Nat) : Prop where
  seed : t.rd (svA c 0x44) = xorshift (s.rd (svA c 0x44))
  status : t.rd (svA c 0x4C) = deferStatus s c
  state : lbtState t c = 1
  unit : t.lbt c = Lbt.reset
  frame : LbtFrame s t
  regs : RegsBut [svA c 0x44, svA c 0x4C] s t

theorem deferred_lbtStart (s : State) (c : Nat) : Deferred s (lbtStart s c) c :=
  ⟨rd_seed_lbtStart s c, rd_status_lbtStart s c, lbtState_lbtStart s c, lbt_lbtStart s c, rfl, regsBut_lbtStart s c⟩

theorem completes_lbtStart_of_idle (hc : c < 64) (hon : s.rb (svA c 0x30) 0 = true) (hidle : lbtState s c = 0) :
    Completes (.lbtStart c) s fun t => t.rd (svA c 0x44) = xorshift (s.rd (svA c 0x44)) ∧
      t.rd (svA c 0x4C) = 1 + xorshift (s.rd (svA c 0x44)) * (s.rf (svA c 0x3C) 9 0 + 1) / 2 ^ 32 * 16 ∧
      lbtState t c = 1 ∧ t.lbt c = Lbt.reset ∧ t = { s with regs := t.regs, lbts := t.lbts, bus := ⟨rspOk, 0⟩ } ∧
      RegsBut [svA c 0x44, svA c 0x4C] s t := by
  have haccepted : lbtCmd s c 1 = (rspOk, lbtStart s c) := if_pos ⟨hon, hidle⟩
  have hexec := exec_lbtStart hc s
  rw [haccepted] at hexec
  obtain ⟨hseed, hstatus, hstate, hunit, hframe, hregs⟩ := deferred_lbtStart s c
  generalize lbtStart s c = u at *
  exact completes_of_exec hexec ⟨hseed, hstatus, hstate, hunit, hframe.answer rspOk, hregs⟩

theorem completes_lbtStart_of_refused (hc : c < 64) (hbusy : s.rb (svA c 0x30) 0 = false ∨ lbtState s c ≠ 0) :
    Completes (.lbtStart c) s fun t => t = { s with bus := ⟨rspTgt, 0⟩ } := by
  have hrefused : lbtCmd s c 1 = (rspTgt, s) := if_neg fun ⟨hon, hidle⟩ =>
    hbusy.elim (fun hoff => Bool.false_ne_true (hoff.symm.trans hon)) (· hidle)
  have hexec := exec_lbtStart hc s
  rw [hrefused] at hexec
  exact completes_of_exec hexec rfl

/-! ## The return to IDLE (R251) -/

theorem rd_status_lbtIdle (s : State) (c : Nat) :
    (lbtIdle s c).rd (svA c 0x4C) = setFld (setFld (s.rd (svA c 0x4C)) 2 0 0) 18 16 0 := by
  rw [lbtIdle, State.setLbt_rd, State.rd_wf _ _ _ _ _ _ (by decide) (by decide), if_pos rfl,
    State.rd_wf _ _ _ _ _ _ (by decide) (by decide), if_pos rfl]

theorem lbtState_lbtIdle (s : State) (c : Nat) : lbtState (lbtIdle s c) c = 0 := by
  rw [lbtState, State.rf, rd_status_lbtIdle, fld_setFld_other _ _ _ _ _ _ (by decide) (by decide) (by decide),
    fld_setFld _ _ _ _ (by decide), Nat.zero_mod]

/-- N keeps its value. -/
theorem rf_drawn_lbtIdle (s : State) (c : Nat) : (lbtIdle s c).rf (svA c 0x4C) 13 4 = s.rf (svA c 0x4C) 13 4 := by
  rw [State.rf, rd_status_lbtIdle, fld_setFld_other _ _ _ _ _ _ (by decide) (by decide) (by decide),
    fld_setFld_other _ _ _ _ _ _ (by decide) (by decide) (by decide), State.rf]

theorem regsBut_lbtIdle (s : State) (c : Nat) : RegsBut [svA c 0x4C] s (lbtIdle s c) := by
  unfold lbtIdle State.wf
  exact ((regsBut_wr s _ _).trans (regsBut_wr _ _ _)).trans (regsBut_of_regs rfl)

/-- From `s` to `t` the unit has returned to IDLE, and N kept its value. -/
structure ReturnedToIdle (s t : State) (c : Nat) : Prop where
  state : lbtState t c = 0
  drawn : t.rf (svA c 0x4C) 13 4 = s.rf (svA c 0x4C) 13 4
  frame : LbtFrame s t
  regs : RegsBut [svA c 0x4C] s t

theorem returnedToIdle_lbtIdle (s : State) (c : Nat) : ReturnedToIdle s (lbtIdle s c) c :=
  ⟨lbtState_lbtIdle s c, rf_drawn_lbtIdle s c, rfl, regsBut_lbtIdle s c⟩

theorem completes_lbtAbort_of_busy (hc : c < 64) (hbusy : lbtState s c ≠ 0) :
    Completes (.lbtAbort c) s fun t => lbtState t c = 0 ∧ t.rd (svA c 0x58) = sat32 (s.rd (svA c 0x58) + 1) ∧
      t = { s with regs := t.regs, lbts := t.lbts, bus := ⟨rspOk, 0⟩ } ∧ RegsBut [svA c 0x4C, svA c 0x58] s t := by
  have habort : lbtAbort s c = lbtIdle (s.cnt (svA c 0x58) 1) c := if_neg hbusy
  have hexec := exec_lbtAbort hc s
  rw [habort] at hexec
  obtain ⟨hstate, -, hframe, hregs⟩ := returnedToIdle_lbtIdle (s.cnt (svA c 0x58) 1) c
  generalize lbtIdle (s.cnt (svA c 0x58) 1) c = u at *
  have hother : svA c 0x58 ∉ [svA c 0x4C] := mt List.mem_singleton.mp (svA_ne (by decide))
  have hcount : u.rd (svA c 0x58) = sat32 (s.rd (svA c 0x58) + 1) := (hregs _ hother).trans (rd_cnt_of_regs rfl ..)
  have hkept : RegsBut [svA c 0x4C, svA c 0x58] s u :=
    ((regsBut_cnt s (svA c 0x58) 1).mono (by simp)).trans (hregs.mono (by simp))
  have hcounted : LbtFrame s (s.cnt (svA c 0x58) 1) := rfl
  exact completes_of_exec hexec ⟨hstate, hcount, (hcounted.trans hframe).answer rspOk, hkept⟩

theorem completes_lbtAbort_of_idle (hc : c < 64) (hidle : lbtState s c = 0) :
    Completes (.lbtAbort c) s fun t => t = { s with bus := ⟨rspOk, 0⟩ } := by
  have habort : lbtAbort s c = s := if_pos hidle
  have hexec := exec_lbtAbort hc s
  rw [habort] at hexec
  exact completes_of_exec hexec rfl

theorem lbtRelease_of_acquired (hacquired : lbtState s c = 3) : lbtRelease s c = lbtIdle s c := if_pos hacquired

theorem completes_lbtRelease_of_acquired (hc : c < 64) (hacquired : lbtState s c = 3) :
    Completes (.lbtRelease c) s fun t => lbtState t c = 0 ∧ t.rf (svA c 0x4C) 13 4 = s.rf (svA c 0x4C) 13 4 ∧
      t = { s with regs := t.regs, lbts := t.lbts, bus := ⟨rspOk, 0⟩ } ∧ RegsBut [svA c 0x4C] s t := by
  have hexec := exec_lbtRelease hc s
  rw [lbtRelease_of_acquired hacquired] at hexec
  obtain ⟨hstate, hdrawn, hframe, hregs⟩ := returnedToIdle_lbtIdle s c
  generalize lbtIdle s c = u at *
  exact completes_of_exec hexec ⟨hstate, hdrawn, hframe.answer rspOk, hregs⟩

theorem completes_cotEnd_of_acquired (hc : c < 64) (hacquired : lbtState s c = 3) :
    Completes (.cotEnd c) s fun t => lbtState t c = 0 ∧ t = { s with regs := t.regs, lbts := t.lbts } ∧
      RegsBut [svA c 0x4C] s t := by
  obtain ⟨hstate, -, hframe, hregs⟩ := returnedToIdle_lbtIdle s c
  exact completes_of_exec ((exec_cotEnd hc s).trans (congrArg _ (lbtRelease_of_acquired hacquired)))
    ⟨hstate, hframe, hregs⟩

theorem completes_cotEnd_of_not_acquired (hc : c < 64) (hacquired : lbtState s c ≠ 3) :
    Completes (.cotEnd c) s fun t => t = s := completes_of_exec (exec_cotEnd hc s) (if_neg hacquired)

end Sys2Proof.Machine
end

section
/-! PROOFS of the enable of a burst channel (08_sieve_bursts.md R255, R257, R266), and of the statement on engine control,
listen-before-talk units and burst channels. -/

namespace Sys2Proof.Machine

variable {s t : State} {i j k n o : Nat}

/-! ## The enable registers (R266) -/

/-- The row of the burst engines' channel enables. -/
def nbEnableRow : RegRow := ⟨"NB_CH_ENk", 0x2c, [(3, 4)], 4, 0, 0xffffffff, 0, 0, 0, 0, 0, 0⟩

theorem findRow_nbEnable (hk : k < 3) : findRow (rowsEng ++ rowsClass 10) (0x2C + k * 4) = some nbEnableRow := by
  revert k
  decide

theorem dimIdx_nbEnable (k : Nat) : dimIdx nbEnableRow.dims (0x2C + k * 4 - nbEnableRow.off) = [k] := by
  have hoff : 0x2C + k * 4 - nbEnableRow.off = k * 4 := Nat.add_sub_cancel_left ..
  rw [hoff]
  simp [nbEnableRow, dimIdx]

theorem engInst_burst (hi : i < 8) : engInst (engNum 10 i) = i := by
  revert i
  decide

theorem engWrite_nbEnable (hi : i < 8) (hk : k < 3) (v : Nat) (s s1 : State) :
    engWrite (nbA i (0x2C + k * 4)) nbEnableRow.name [k] v s s1 = (rspOk, nbEnWrite s i k v) := by
  have hplace : 0x2C + k * 4 < classStride 10 := Nat.lt_trans (by omega : 0x2C + k * 4 < 0x38) (by decide)
  have hengine : engOf (nbA i (0x2C + k * 4)) = engNum 10 i := engOf_window (by decide) hi hplace
  simp only [engWrite, nbEnableRow, hengine, engInst_burst hi, List.getD_cons_zero]

theorem exec_nbChannelEnable (hi : i < 8) (hj : j < 96) (s : State) : exec (.nbChannelEnable i j) s =
    .next ((nbEnWrite s i (j / 32) (setBit (s.rd (nbA i (0x2C + j / 32 * 4))) (j % 32))).answer rspOk 0) := by
  have hk : j / 32 < 3 := by omega
  have hplace : 0x2C + j / 32 * 4 < classStride 10 / 2 := Nat.lt_trans (by omega : 0x2C + j / 32 * 4 < 0x38) (by decide)
  have haddr : engBase 10 i + 0x2C + j / 32 * 4 = nbA i (0x2C + j / 32 * 4) := Nat.add_assoc ..
  have hhook (s1 : State) := engWrite_nbEnable hi hk (setBit (s.rd (nbA i (0x2C + j / 32 * 4))) (j % 32)) s s1
  rw [← dimIdx_nbEnable] at hhook
  refine (if_pos ⟨hi, hj⟩).trans (congrArg _ ?_)
  rw [haddr]
  exact regWriteBy_of_regRow (regRow_window (by decide) hi hplace (findRow_nbEnable hk)) (hhook _)

/-! ## One enable bit -/

/-- A fold of which only step `k` does something is that step. -/
theorem foldl_range_of_one {α : Type} {f : α → Nat → α} (hk : k < n) (hidle : ∀ j, j ≠ k → ∀ x, f x j = x) (x : α) :
    (List.range n).foldl f x = f x k := by
  have hskip (l : List Nat) (hl : ∀ j ∈ l, j ≠ k) (x : α) : l.foldl f x = x :=
    List.foldlRecOn (motive := fun y => y = x) l f rfl fun y hy j hj => (hidle j (hl j hj) y).trans hy
  obtain ⟨before, after, hsplit⟩ := List.append_of_mem (List.mem_range.mpr hk)
  have hnodup := List.nodup_range (n := n)
  rw [hsplit, List.nodup_middle, List.nodup_cons, List.mem_append, not_or] at hnodup
  obtain ⟨⟨hbefore, hafter⟩, -⟩ := hnodup
  rw [hsplit, List.foldl_append, List.foldl_cons, hskip before fun j hj heq => hbefore (heq ▸ hj),
    hskip after fun j hj heq => hafter (heq ▸ hj)]

/-- A word masked by itself with one more bit set is the word. -/
theorem and_setBit (v i : Nat) : v &&& setBit v i = v := by
  apply Nat.eq_of_testBit_eq
  intro j
  rw [Nat.testBit_and, testBit_setBit]
  cases v.testBit j <;> simp

/-- The enable register `k` of burst engine `i` has been written with what it holds. -/
def enablesKept (s : State) (i k : Nat) : State := s.wr (nbA i (0x2C + k * 4)) (s.rd (nbA i (0x2C + k * 4)))

theorem rd_enablesKept (s : State) (i k a : Nat) : (enablesKept s i k).rd a = s.rd a := by
  rw [enablesKept, State.rd_wr]
  split
  · next heq => rw [heq, Nat.mod_eq_of_lt (s.rd_lt a)]
  · rfl

theorem nbEnWrite_of_one (hoff : s.rb (nbA i (0x2C + k * 4)) j = false) (hj : j < 32) :
    nbEnWrite s i k (setBit (s.rd (nbA i (0x2C + k * 4))) j) = nbEnable (enablesKept s i k) i (32 * k + j) := by
  have haddr : engBase 10 i + 0x2C + 4 * k = nbA i (0x2C + k * 4) := by rw [nbA, Nat.add_assoc, Nat.mul_comm]
  simp only [nbEnWrite, haddr, and_setBit]
  rw [foldl_range_of_one hj]
  · rw [if_pos ⟨tb_setBit_same .., by rw [← State.rb, hoff]; rfl⟩, enablesKept]
  · intro j' hj' u
    rw [tb_setBit_other hj'.symm]
    exact if_neg (by simp)

/-! ## The two outcomes (R255, R257) -/

theorem nbConfigOk_of_mem (hmem : t.mem = s.mem) (i j : Nat) : nbConfigOk t i j = nbConfigOk s i j := by
  simp only [nbConfigOk, State.bytes_of_mem hmem]

/-- A channel's enable bit is set. -/
def enableSet (s : State) (i j : Nat) : State :=
  (enablesKept s i (j / 32)).wb (nbA i (0x2C + j / 32 * 4)) (j % 32) true

/-- A channel is enabled, to be cleared at the next job boundary. -/
def channelEnabled (s : State) (i j : Nat) : State :=
  (enableSet s i j).modEng (engNum 10 i) fun x => { x with chClr := x.chClr ++ [j] }

/-- A channel is faulted. -/
def channelFaulted (s : State) (i j : Nat) : State :=
  (enablesKept s i (j / 32)).wb (nbA i (0x38 + j / 32 * 4)) (j % 32) true

theorem nbEnWrite_of_channel (hoff : nbEnabled s i j = false) :
    nbEnWrite s i (j / 32) (setBit (s.rd (nbA i (0x2C + j / 32 * 4))) (j % 32)) =
      if nbConfigOk s i j then channelEnabled s i j else channelFaulted s i j := by
  have hone := nbEnWrite_of_one hoff (Nat.mod_lt j (by decide))
  rw [Nat.div_add_mod, nbEnable, nbConfigOk_of_mem (s := s) (t := enablesKept s i (j / 32)) rfl] at hone
  simp only [Nat.add_assoc] at hone
  exact hone

theorem nbA_ne {p : Nat} (hop : o ≠ p) : nbA i o ≠ nbA i p := fun heq => hop (Nat.add_left_cancel heq)

theorem nbEnabled_enablesKept (s : State) (i k j : Nat) : nbEnabled (enablesKept s i k) i j = nbEnabled s i j := by
  simp only [nbEnabled, State.rb, rd_enablesKept]

theorem nbEnabled_enableSet_same (s : State) (i j : Nat) : nbEnabled (enableSet s i j) i j = true := by
  rw [nbEnabled, enableSet, State.rb_wb_same _ _ _ _ (by omega)]

theorem nbEnabled_enableSet_other (hkj : k ≠ j) (s : State) (i : Nat) :
    nbEnabled (enableSet s i j) i k = nbEnabled s i k := by
  rw [← nbEnabled_enablesKept s i (j / 32) k, nbEnabled, nbEnabled, enableSet]
  by_cases hword : k / 32 = j / 32
  · rw [hword, State.rb_wb_other _ _ _ _ _ (by omega) (by omega)]
  · rw [State.rb_wb_reg _ _ _ _ (nbA_ne (by omega))]

theorem regsBut_enablesKept (l : List Nat) (s : State) (i k : Nat) : RegsBut l s (enablesKept s i k) :=
  fun a _ => rd_enablesKept s i k a

theorem regsBut_wb (s : State) (a i : Nat) (b : Bool) : RegsBut [a] s (s.wb a i b) := regsBut_wr s a _

theorem regsBut_enableSet (s : State) (i j : Nat) : RegsBut [nbA i (0x2C + j / 32 * 4)] s (enableSet s i j) :=
  (regsBut_enablesKept _ s i (j / 32)).trans (regsBut_wb _ _ _ _)

theorem mem_chClr_channelEnabled (s : State) (i j : Nat) : j ∈ ((channelEnabled s i j).eng (engNum 10 i)).chClr := by
  rw [channelEnabled, eng_modEng_same]
  exact List.mem_append_right _ (List.mem_singleton_self j)

theorem nbEnabled_channelFaulted (s : State) (i j : Nat) : nbEnabled (channelFaulted s i j) i j = nbEnabled s i j := by
  rw [← nbEnabled_enablesKept s i (j / 32) j, nbEnabled, nbEnabled, channelFaulted,
    State.rb_wb_reg _ _ _ _ (nbA_ne (by omega))]

theorem rb_fault_channelFaulted (s : State) (i j : Nat) :
    (channelFaulted s i j).rb (nbA i (0x38 + j / 32 * 4)) (j % 32) = true := by
  rw [channelFaulted, State.rb_wb_same _ _ _ _ (by omega)]

theorem regsBut_channelFaulted (s : State) (i j : Nat) :
    RegsBut [nbA i (0x2C + j / 32 * 4), nbA i (0x38 + j / 32 * 4)] s (channelFaulted s i j) :=
  (regsBut_enablesKept _ s i (j / 32)).trans ((regsBut_wb _ _ _ _).mono (by simp))

theorem regFrame_channelFaulted (s : State) (i j : Nat) : RegFrame s (channelFaulted s i j) := rfl

theorem regFrame_enableSet (s : State) (i j : Nat) : RegFrame s (enableSet s i j) := rfl

section
variable (hi : i < 8) (hj : j < 96) (hoff : nbEnabled s i j = false)
include hi hj hoff

theorem completes_nbChannelEnable_of_good (hgood : nbConfigOk s i j = true) :
    Completes (.nbChannelEnable i j) s fun t => nbEnabled t i j = true ∧
      (∀ k, k < 96 → k ≠ j → nbEnabled t i k = nbEnabled s i k) ∧ j ∈ (t.eng (engNum 10 i)).chClr ∧
      t = { s with regs := t.regs, engines := t.engines, bus := ⟨rspOk, 0⟩ } ∧
      RegsBut [nbA i (0x2C + j / 32 * 4)] s t := by
  have hexec := exec_nbChannelEnable hi hj s
  rw [nbEnWrite_of_channel hoff, if_pos hgood] at hexec
  have hset := nbEnabled_enableSet_same s i j
  have hothers (k : Nat) (_ : k < 96) (hkj : k ≠ j) := nbEnabled_enableSet_other hkj s i
  have hclear := mem_chClr_channelEnabled s i j
  have hframe := regFrame_enableSet s i j
  have hregs := regsBut_enableSet s i j
  rw [channelEnabled] at hexec hclear
  generalize enableSet s i j = u at *
  refine completes_of_exec hexec ⟨hset, hothers, hclear, ?_, hregs⟩
  rw [hframe]
  rfl

theorem completes_nbChannelEnable_of_bad (hbad : nbConfigOk s i j = false) :
    Completes (.nbChannelEnable i j) s fun t => nbEnabled t i j = false ∧
      t.rb (nbA i (0x38 + j / 32 * 4)) (j % 32) = true ∧ t = { s with regs := t.regs, bus := ⟨rspOk, 0⟩ } ∧
      RegsBut [nbA i (0x2C + j / 32 * 4), nbA i (0x38 + j / 32 * 4)] s t := by
  have hexec := exec_nbChannelEnable hi hj s
  rw [nbEnWrite_of_channel hoff, if_neg (Bool.eq_false_iff.mp hbad)] at hexec
  have hkept := (nbEnabled_channelFaulted s i j).trans hoff
  have hfault := rb_fault_channelFaulted s i j
  have hframe := regFrame_channelFaulted s i j
  have hregs := regsBut_channelFaulted s i j
  generalize channelFaulted s i j = u at *
  exact completes_of_exec hexec ⟨hkept, hfault, congrArg (State.answer · rspOk 0) hframe, hregs⟩

end

/-- Settles O36: reset, its end and pause of an engine, the commands of a listen-before-talk unit and the enable of a
burst channel, each by its own lemma. -/
theorem engineControlAndLbt : Obligations.EngineControlAndLbt := fun _ =>
  ⟨fun _ _ => completes_engineReset,
    fun _ => completes_engineResetClear,
    fun _ => completes_enginePause,
    fun _ hc => ⟨completes_lbtStart_of_idle hc, completes_lbtStart_of_refused hc, completes_lbtAbort_of_busy hc,
      completes_lbtAbort_of_idle hc,
      fun hacquired => ⟨completes_lbtRelease_of_acquired hc hacquired, completes_cotEnd_of_acquired hc hacquired⟩,
      completes_cotEnd_of_not_acquired hc⟩,
    fun _ _ hi hj hoff => ⟨completes_nbChannelEnable_of_good hi hj hoff, completes_nbChannelEnable_of_bad hi hj hoff⟩⟩

end Sys2Proof.Machine
end

section
/-! PROOFS of the kernel commands that are turned away (09_yardmaster.md R285, R286), and how an activation leaves its core
(R279, R281). -/

namespace Sys2Proof.Machine

variable {s t : State} {g k code : Nat} {c : Instr}

/-! ## The kernel page in either mode (R285) -/

theorem kPage_of_kernelMode (hg : g < 256) (hkm : (s.core g).km = true) (f : State → State) :
    kPage g f s = .next ((f s).answer rspOk 0) := by
  rw [kPage, if_pos hkm]
  exact if_pos hg

theorem kPage_of_threadMode (hg : g < 256) (hkm : (s.core g).km = false) (f : State → State) :
    kPage g f s = .next (s.answer rspTgt 0) := by
  rw [kPage, if_neg (ne_true_of_eq_false hkm)]
  exact if_pos hg

/-- The kernel's result is `code`, and nothing else has changed from `s` to `t`. -/
abbrev OnlyAnswers (s t : State) (g code : Nat) : Prop :=
  KernelAnswers t g code ∧ t = { s with regs := t.regs, bus := t.bus } ∧ RegsBut [ykA g 0x10] s t

/-- A command in kernel mode that leaves its result alone. -/
theorem completes_onlyAnswers (hg : g < 256) (hkm : (s.core g).km = true) {f : State → State}
    (hexec : exec c s = kPage g f s) (hf : f s = kResult s g code 0 false) (hcode : code < 2 ^ 16) :
    Completes c s fun t => OnlyAnswers s t g code :=
  completes_of_exec (by rw [hexec, kPage_of_kernelMode hg hkm, hf])
    ⟨kernelAnswers_kResult s g hcode, rfl, regsBut_kResult (regsBut_of_regs rfl) 0 false⟩

/-! ## Commands turned away (R285, R286) -/

/-- What KERNEL_BAD_COMMAND with `code` leaves, but for its answer. -/
def badCommand (s : State) (g code : Nat) : State :=
  let r := kCommand s g (code % 256)
  if s.rd (ykA g 0x10) = r.rd (ykA g 0x10) ∨ r.rf (ykA g 0x10) 7 0 = yrBad then r else s

theorem exec_kernelCommand (hc : c ∈ [Instr.kEnd g, .kYield g, .kArm g, .kBlock g, .kOutDone g, .kSignal g, .kTake g,
    .kernelBadCommand g code]) : ∃ f, exec c s = kPage g f s := by
  simp only [List.mem_cons, List.not_mem_nil, or_false] at hc
  rcases hc with rfl | rfl | rfl | rfl | rfl | rfl | rfl | rfl
  · exact ⟨fun s => kEnd s g, rfl⟩
  · exact ⟨fun s => kYield s g, rfl⟩
  · exact ⟨fun s => kArm s g, rfl⟩
  · exact ⟨fun s => kBlock s g, rfl⟩
  · exact ⟨fun s => kOutDone s g, rfl⟩
  · exact ⟨fun s => kSignal s g, rfl⟩
  · exact ⟨fun s => kTake s g, rfl⟩
  · exact ⟨fun s => badCommand s g code, rfl⟩

/-- Commands 0x01-0x05 of a kernel with no activation running are unknown to it. -/
theorem exec_of_not_running (hidle : kRunning s g = false)
    (hc : c ∈ [Instr.kEnd g, .kYield g, .kArm g, .kBlock g, .kOutDone g]) :
    ∃ f, exec c s = kPage g f s ∧ f s = kResult s g yrBad 0 false := by
  simp only [List.mem_cons, List.not_mem_nil, or_false] at hc
  rcases hc with rfl | rfl | rfl | rfl | rfl
  · exact ⟨fun s => kEnd s g, rfl, by simp [kEnd, hidle]⟩
  · exact ⟨fun s => kYield s g, rfl, by simp [kYield, hidle]⟩
  · exact ⟨fun s => kArm s g, rfl, by simp [kArm, hidle]⟩
  · exact ⟨fun s => kBlock s g, rfl, by simp [kBlock, hidle]⟩
  · exact ⟨fun s => kOutDone s g, rfl, by simp [kOutDone, hidle]⟩

theorem kCommand_of_undefined (h : k = 0 ∨ 7 < k) : kCommand s g k = kResult s g yrBad 0 false := by
  unfold kCommand
  split
  case h_8 => rfl
  all_goals omega

theorem rf_code_kResult (s : State) (g : Nat) (hcode : code < 256) :
    (kResult s g code 0 false).rf (ykA g 0x10) 7 0 = code := by
  have hrd : (kResult s g code 0 false).rd (ykA g 0x10) = code := (kernelAnswers_kResult s g (by omega)).1
  rw [State.rf, hrd, fld, Nat.shiftRight_zero]
  exact Nat.mod_eq_of_lt hcode

theorem badCommand_of_undefined (h : code % 256 = 0 ∨ 7 < code % 256) :
    badCommand s g code = kResult s g yrBad 0 false := by
  unfold badCommand
  dsimp only
  rw [kCommand_of_undefined h]
  exact if_pos (.inr (rf_code_kResult s g (by decide)))

theorem kernelCommandsTurnedAway : KernelCommandsTurnedAway := by
  refine fun s g code hg => ⟨fun hkm c hc => ?thread, fun hkm hidle c hc => ?idle, fun hkm hcode => ?undefined⟩
  case thread =>
    obtain ⟨f, hexec⟩ := exec_kernelCommand (s := s) hc
    exact completes_of_exec (hexec.trans (kPage_of_threadMode hg hkm f)) rfl
  case idle =>
    have hnone : kRunning s g = false := by rcases hidle with h | h <;> simp [kRunning, h]
    obtain ⟨f, hexec, hf⟩ := exec_of_not_running hnone hc
    exact completes_onlyAnswers hg hkm hexec hf (by decide)
  case undefined =>
    exact completes_onlyAnswers (f := fun s => badCommand s g code) hg hkm rfl (badCommand_of_undefined hcode) (by decide)

/-! ## An activation leaves its core (R279, R281) -/

/-- What is left once the running activation has left core `g` and the kernel has been answered. -/
def departed (v : State) (g : Nat) (save : Bool) : State := (kResult (leaveCore v g save) g yrOk 0 false).answer rspOk 0

@[simp] theorem th_departed (v : State) (g : Nat) (save : Bool) (j : Nat) : (departed v g save).th j = v.th j := by
  rw [departed, th_answer, kResult, th_wr, th_leaveCore]

@[simp] theorem core_departed (v : State) (g : Nat) (save : Bool) (h : Nat) :
    (departed v g save).core h = (leaveCore v g save).core h := by
  rw [departed, core_answer, kResult, core_wr]

@[simp] theorem tag_departed (v : State) (g : Nat) (save : Bool) (h k : Nat) : (departed v g save).tag h k = v.tag h k :=
  State.tag_of_tags (by rw [departed, State.answer_tags, kResult, State.wr_tags, leaveCore, State.modCore_tags]) h k

@[simp] theorem byte_departed (v : State) (g : Nat) (save : Bool) (b : Nat) : (departed v g save).byte b = v.byte b := by
  rw [departed, State.answer_byte, kResult, State.wr_byte, leaveCore, State.modCore_byte]

@[simp] theorem ym_departed (v : State) (g : Nat) (save : Bool) : (departed v g save).ym = v.ym := by
  rw [departed, State.answer_ym, kResult, State.wr_ym, leaveCore, State.modCore_ym]

theorem regsBut_departed (h : RegsBut [ykA g 0x10] s t) (save : Bool) : RegsBut [ykA g 0x10] s (departed t g save) := by
  unfold departed
  exact regsBut_kResult (s := s) (u := leaveCore t g save) h 0 false

theorem kernelAnswers_departed (v : State) (g : Nat) (save : Bool) : KernelAnswers (departed v g save) g yrOk := by
  unfold departed
  exact kernelAnswers_kResult _ g (by decide)

/-- In PREEMPT mode the slice takes the core over at the next boundary; in INTERRUPT mode no thread runs. -/
theorem run_departed (hrun : (t.core g).run = (s.core g).run) (hleft : (t.core g).left = false)
    (hmode : preemptMode t g = preemptMode s g) (save : Bool) :
    ((departed t g save).core g).run = (if preemptMode s g then (s.core g).run else 0) ∧
      ((departed t g save).core g).left = preemptMode s g := by
  obtain ⟨hrun', hleft', -⟩ := core_leaveCore t g save hleft
  rw [hmode, hrun] at hrun'
  rw [hmode] at hleft'
  rw [core_departed]
  exact ⟨hrun', hleft'⟩

end Sys2Proof.Machine
end

section
/-! PROOFS of END (09_yardmaster.md R281, R282): the tags of the activation that ends (05_hitch.md R160), its thread and its
task (02_slot_tick.md R51). -/

namespace Sys2Proof.Machine

variable {s t : State} {g k mask : Nat} {a : Act}

/-! ## What a frame says of one part of the state -/

theorem State.core_of_cores (h : t.cores = s.cores) (g : Nat) : t.core g = s.core g := by simp only [State.core, h]

theorem YmFrame.mem (h : YmFrame s t) : t.mem = s.mem := by rw [h]
theorem YmFrame.regs (h : YmFrame s t) : t.regs = s.regs := by rw [h]
theorem YmFrame.tags (h : YmFrame s t) : t.tags = s.tags := by rw [h]
theorem YmFrame.cores (h : YmFrame s t) : t.cores = s.cores := by rw [h]

section
variable {l : List Nat} (h : TagsKept l s t)
include h

theorem TagsKept.mem : t.mem = s.mem := by rw [h.frame]
theorem TagsKept.ym : t.ym = s.ym := by rw [h.frame]
theorem TagsKept.cores : t.cores = s.cores := by rw [h.frame]

theorem TagsKept.wr {r : Nat} (hr : r ∈ l) (v : Nat) : TagsKept l s (t.wr r v) :=
  h.trans ⟨rfl, (regsBut_of_regs rfl).wr hr v⟩

end

/-! ## The tags of an activation that ends (R160) -/

/-- What the end of an activation that was granted the tags `mask` does to tag `k` of core `g`. -/
def endTag (g mask : Nat) (s : State) (k : Nat) : State :=
  if tb mask k then
    match (s.tag g k).st with
    | 1 => withdrawTag s g k
    | 2 => s.setTag g k { s.tag g k with st := 4, charge := 0 }
    | 3 => (freeTag s g k).wb (notifyAt g k).1 (notifyAt g k).2 false
    | _ => s
  else s

theorem endTags_eq (s : State) (g mask : Nat) : endTags s g mask = (List.range 64).foldl (endTag g mask) s := rfl

/-- The notifications of core `g` and its count of withdrawn tags. -/
abbrev hitchRegs (g : Nat) : List Nat := [kA g 0x70, kA g 0x74, kA g 0x84]

theorem notifyAt_mem_hitchRegs (hg : g < 256) (hk : k < 64) : (notifyAt g k).1 ∈ hitchRegs g := by
  rw [notifyAt, if_pos hg]
  have hword : k / 32 = 0 ∨ k / 32 = 1 := by omega
  rcases hword with h | h <;> simp [h]

theorem tagsKept_endTag (hg : g < 256) (hk : k < 64) (mask : Nat) (s : State) :
    TagsKept (hitchRegs g) s (endTag g mask s k) := by
  unfold endTag
  split
  · split
    · have hsent (e : Nat) (m : HMsg) : TagsKept (hitchRegs g) s (hSend s e m) := ⟨rfl, fun _ _ => rfl⟩
      exact ((hsent ..).trans (tagsKept_freeTag ..)).wr (by simp) _
    · exact ⟨rfl, fun _ _ => rfl⟩
    · exact (tagsKept_freeTag ..).wr (notifyAt_mem_hitchRegs hg hk) _
    · exact .refl ..
  · exact .refl ..

theorem tagsKept_endTags (hg : g < 256) (s : State) (mask : Nat) : TagsKept (hitchRegs g) s (endTags s g mask) :=
  List.foldlRecOn (motive := TagsKept (hitchRegs g) s) _ _ (.refl _ s) fun u hu _ hk =>
    hu.trans (tagsKept_endTag hg (List.mem_range.mp hk) mask u)

/-- What becomes of a granted tag's state: PROV and DONE tags are freed, a CONF tag is an ORPHAN. -/
def endedTagSt (st : Nat) : Nat := if st = 1 ∨ st = 3 then 0 else if st = 2 then 4 else st

theorem endedTagSt_endedTagSt (st : Nat) : endedTagSt (endedTagSt st) = endedTagSt st := by
  unfold endedTagSt
  split_ifs <;> simp_all

theorem st_endTag (hk : tb mask k = true) (s : State) (j : Nat) :
    ((endTag g mask s j).tag g k).st = if k = j then endedTagSt (s.tag g k).st else (s.tag g k).st := by
  by_cases hkj : k = j
  · subst hkj
    rw [if_pos rfl, endTag, if_pos hk, endedTagSt]
    split
    · next hst => rw [hst]; exact (st_freeTag (hSend ..) g k k).trans (if_pos rfl)
    · next hst => rw [hst, tag_setTag, if_pos rfl]; rfl
    · next hst => rw [hst]; exact (st_freeTag s g k k).trans (if_pos rfl)
    · next h1 h2 h3 => rw [if_neg (not_or.mpr ⟨h1, h3⟩), if_neg h2]
  · rw [if_neg hkj, endTag]
    split
    · split
      · exact (st_freeTag (hSend ..) g j k).trans (if_neg hkj)
      · rw [tag_setTag, if_neg hkj]
      · exact (st_freeTag s g j k).trans (if_neg hkj)
      · rfl
    · rfl

theorem st_foldl_endTag (hk : tb mask k = true) (js : List Nat) (s : State) :
    ((js.foldl (endTag g mask) s).tag g k).st = if k ∈ js then endedTagSt (s.tag g k).st else (s.tag g k).st := by
  induction js generalizing s with
  | nil => rfl
  | cons j js ih =>
    rw [List.foldl_cons, ih, st_endTag hk]
    by_cases hkj : k = j
    · simp [hkj, endedTagSt_endedTagSt]
    · simp [hkj]

/-- Each tag that the activation was granted ends. -/
theorem st_endTags (hk : k < 64) (hmask : tb mask k = true) (s : State) (g : Nat) :
    ((endTags s g mask).tag g k).st = endedTagSt (s.tag g k).st := by
  rw [endTags_eq, st_foldl_endTag hmask, if_pos (List.mem_range.mpr hk)]

/-! ## END (R282) -/

/-- Core `g` forgets the vector state of its thread `k` (R138). -/
def disowned (s : State) (g k : Nat) : State :=
  if (s.core g).owner = some k then s.modCore g (fun c => { c with owner := none, dirty := 0 }) else s

theorem frame_disowned (s : State) (g k : Nat) : disowned s g k = { s with cores := (disowned s g k).cores } := by
  unfold disowned
  split <;> rfl

theorem ym_disowned (s : State) (g k : Nat) : (disowned s g k).ym = s.ym := by rw [frame_disowned]
theorem mem_disowned (s : State) (g k : Nat) : (disowned s g k).mem = s.mem := by rw [frame_disowned]
theorem regs_disowned (s : State) (g k : Nat) : (disowned s g k).regs = s.regs := by rw [frame_disowned]
theorem tags_disowned (s : State) (g k : Nat) : (disowned s g k).tags = s.tags := by rw [frame_disowned]

theorem core_disowned (s : State) (g k : Nat) : ((disowned s g k).core g).run = (s.core g).run ∧
    ((disowned s g k).core g).left = (s.core g).left := by
  unfold disowned
  split
  · rw [core_modCore_same]
    exact ⟨rfl, rfl⟩
  · exact ⟨rfl, rfl⟩

/-- The task of an activation that has ended by END is complete; a software activation has none. -/
def sourceDone (s : State) : ActSrc → State
  | .plan p i k rep => taskDone s p i k rep
  | .soft _ _ => s

theorem threads_readyTasks (s : State) (p i : Nat) : (readyTasks s p i).ym.threads = s.ym.threads := by
  unfold readyTasks
  split <;> rfl

theorem ymFrame_sourceDone (s : State) (src : ActSrc) :
    YmFrame s (sourceDone s src) ∧ (sourceDone s src).ym.threads = s.ym.threads := by
  cases src with
  | plan p i k rep => exact ⟨(s.ymFrame_setInsts _).trans (ymFrame_readyTasks _ p i).1, threads_readyTasks _ p i⟩
  | soft v h => exact ⟨rfl, rfl⟩

/-- An instance after its tasks were made ready is one from before, as far as its tasks' completion goes. -/
theorem exists_of_mem_insts_readyTasks {p i : Nat} {y : Inst} (hy : y ∈ (readyTasks s p i).ym.insts) :
    ∃ z ∈ s.ym.insts, z.dropped = y.dropped ∧ z.p = y.p ∧ z.idx = y.idx ∧ z.done = y.done := by
  unfold readyTasks at hy
  split at hy
  · exact ⟨y, hy, rfl, rfl, rfl, rfl⟩
  · obtain ⟨z, hz, rfl⟩ := List.mem_map.mp hy
    refine ⟨z, hz, ?_⟩
    split <;> exact ⟨rfl, rfl, rfl, rfl⟩

/-- A task that has completed is done in its instance (R51). -/
theorem mem_done_taskDone {p i : Nat} {rep : Option Nat} {y : Inst} (hy : y ∈ (taskDone s p i k rep).ym.insts)
    (hd : y.dropped = false) (hp : y.p = p) (hi : y.idx = i) : k ∈ y.done := by
  obtain ⟨z, hz, hzd, hzp, hzi, hdone⟩ := exists_of_mem_insts_readyTasks hy
  obtain ⟨x, -, hx⟩ := List.mem_map.mp hz
  rw [← hdone]
  split at hx
  · rw [← hx]
    simp
  · next hother =>
    subst hx
    simp [hzd, hzp, hzi, hd, hp, hi] at hother

/-- What END leaves of the running activation, before its thread leaves the core. -/
def endedRun (s : State) (g : Nat) (src : ActSrc) : State :=
  sweepInsts (sourceDone ((disowned (endTags s g (tmask s g)) g (s.core g).run).setTh (runThread s g)
    (endedThread (s.th (runThread s g)))) src)

theorem leaveFlow_none (s : State) (gt : Nat) : leaveFlow s gt none = s := rfl

theorem endAct_of_end (h : KernelRuns s g) (hact : (s.th (runThread s g)).act = some a) (hflow : a.flow = none)
    (hsrc : ∀ v h, a.src ≠ .soft v (some h)) : endAct s (runThread s g) 0 = endedRun s g a.src := by
  obtain ⟨-, -, -, hrun, hleft⟩ := h
  obtain ⟨hdiv, hmod⟩ : runThread s g / 256 = g ∧ runThread s g % 256 = (s.core g).run := threadId_parts hrun
  have hmine : (s.core g).run = (s.core g).run ∧ (!(s.core g).left) = true := ⟨rfl, by rw [hleft]; rfl⟩
  have hcause : ¬ (0 : Nat) = 1 := by decide
  unfold endAct
  dsimp only
  rw [hact]
  dsimp only
  rw [hdiv, hmod, if_pos hmine, hflow, leaveFlow_none, endedRun]
  generalize endTags s g (tmask s g) = s1
  rw [← disowned]
  generalize disowned s1 g (s.core g).run = s2
  rw [if_neg hcause, ← endedThread]
  split
  · next p i k rep heq => rw [heq, if_pos rfl, sourceDone]
  · next v h heq => exact absurd heq (hsrc v h)
  · next v heq => rw [heq, sourceDone]

theorem kEnd_of_running (h : KernelRuns s g) (hact : (s.th (runThread s g)).act = some a) (hflow : a.flow = none)
    (hsrc : ∀ v h, a.src ≠ .soft v (some h)) :
    kEnd s g = kResult (leaveCore (endedRun s g a.src) g false) g yrOk 0 false := by
  rw [kEnd, if_pos (kRunning_of_kernelRuns h), endAct_of_end h hact hflow hsrc]

/-- From the end of its tags on, END touches the Yardmaster's own state. -/
theorem ymFrame_endedRun (s : State) (g : Nat) (src : ActSrc) :
    YmFrame (disowned (endTags s g (tmask s g)) g (s.core g).run) (endedRun s g src) :=
  ((State.ymFrame_setTh ..).trans (ymFrame_sourceDone ..).1).trans (State.ymFrame_setInsts ..)

section
variable (hg : g < 256) (src : ActSrc)

theorem tags_endedRun (s : State) (g : Nat) : (endedRun s g src).tags = (endTags s g (tmask s g)).tags :=
  (ymFrame_endedRun s g src).tags.trans (tags_disowned ..)

theorem regs_endedRun (s : State) (g : Nat) : (endedRun s g src).regs = (endTags s g (tmask s g)).regs :=
  (ymFrame_endedRun s g src).regs.trans (regs_disowned ..)

theorem st_endedRun (hk : k < 64) (hmask : tb (tmask s g) k = true) :
    ((endedRun s g src).tag g k).st = endedTagSt (s.tag g k).st := by
  rw [State.tag_of_tags (tags_endedRun src s g), st_endTags hk hmask]

include hg

theorem mem_endedRun : (endedRun s g src).mem = s.mem :=
  (ymFrame_endedRun s g src).mem.trans ((mem_disowned ..).trans (tagsKept_endTags hg s _).mem)

theorem th_endedRun (k : Nat) : (endedRun s g src).th k =
    if runThread s g = k then endedThread (s.th (runThread s g)) else s.th k := by
  have hym : (disowned (endTags s g (tmask s g)) g (s.core g).run).ym = s.ym :=
    (ym_disowned ..).trans (tagsKept_endTags hg s _).ym
  rw [endedRun, th_sweepInsts, State.th_of_threads (ymFrame_sourceDone _ src).2, State.th_setTh,
    State.th_of_threads (congrArg Ym.threads hym)]

theorem core_endedRun : ((endedRun s g src).core g).run = (s.core g).run ∧
    ((endedRun s g src).core g).left = (s.core g).left := by
  rw [State.core_of_cores (ymFrame_endedRun s g src).cores, ← State.core_of_cores (tagsKept_endTags hg s (tmask s g)).cores]
  exact core_disowned ..

theorem preemptMode_endedRun : preemptMode (endedRun s g src) g = preemptMode s g := by
  have hhigh : ymRegs ≤ ymCoreA g 0 := by simp only [ymCoreA]; omega
  rw [preemptMode, State.rb_of_regs (regs_endedRun src s g), State.rb, (hitchKept_endTags hg s _).high _ hhigh,
    preemptMode, State.rb]

end

/-- R282: END ends the running activation, its tags and its task, and the core is left. -/
theorem completes_kEnd (h : KernelRuns s g) (hact : (s.th (runThread s g)).act = some a) (hflow : a.flow = none)
    (hsrc : ∀ v h, a.src ≠ .soft v (some h)) :
    Completes (.kEnd g) s fun t => KernelAnswers t g yrOk ∧
      t.th (runThread s g) = { s.th (runThread s g) with st := 1, act := none, armed := false, woken := false, wait := 0,
                                                          stop := none } ∧
      (∀ k, k ≠ runThread s g → t.th k = s.th k) ∧
      (t.core g).run = (if preemptMode s g then (s.core g).run else 0) ∧ (t.core g).left = preemptMode s g ∧
      (∀ k, k < 64 → tb (tmask s g) k = true → (s.tag g k).st = 2 → (t.tag g k).st = 4) ∧
      (∀ k, k < 64 → tb (tmask s g) k = true → (s.tag g k).st = 3 → (t.tag g k).st = 0) ∧
      (∀ p i k rep, a.src = .plan p i k rep → ∀ x ∈ t.ym.insts, x.dropped = false → x.p = p → x.idx = i → k ∈ x.done) ∧
      SameBytes s t := by
  have ⟨hg, _, _, _, hleft⟩ := h
  obtain ⟨hrun, hleft'⟩ := core_endedRun (s := s) hg a.src
  obtain ⟨hrunDep, hleftDep⟩ := run_departed hrun (hleft'.trans hleft) (preemptMode_endedRun hg a.src) false
  refine completes_of_kPage (f := fun s => kEnd s g) h rfl (kEnd_of_running h hact hflow hsrc) ?_
  rw [← departed]
  refine ⟨kernelAnswers_departed .., ?this, fun k hk => ?others, hrunDep, hleftDep, fun k hk hmask hst => ?orphan,
    fun k hk hmask hst => ?freed, fun p i k rep hplan x hx hd hp hi => ?task, fun b => ?bytes⟩
  case this => rw [th_departed, th_endedRun hg, if_pos rfl, endedThread]
  case others => rw [th_departed, th_endedRun hg, if_neg hk.symm]
  case orphan => rw [tag_departed, st_endedRun a.src hk hmask, hst]; rfl
  case freed => rw [tag_departed, st_endedRun a.src hk hmask, hst]; rfl
  case task =>
    rw [ym_departed, hplan] at hx
    exact mem_done_taskDone (List.mem_filter.mp hx).1 hd hp hi
  case bytes => rw [byte_departed, State.byte_of_mem (mem_endedRun hg a.src)]

end Sys2Proof.Machine
end

section
/-! PROOF of the statement on kernel commands turned away, END, YIELD and TAKE (09_yardmaster.md R279, R281, R282, R285 to
R287): what YIELD and TAKE make of the running thread and the candidate. -/

namespace Sys2Proof.Machine

variable {s t : State} {g gt : Nat} {a : Act} {x : Thread}

/-! ## The running thread becomes READY (R269, R281) -/

/-- The running thread is READY again, with its unspent budget. -/
def yielded (s : State) (g : Nat) : State := makeReady (recordUnspent s g (runThread s g)) (runThread s g)

theorem ymFrame_recordUnspent (s : State) (g gt : Nat) : YmFrame s (recordUnspent s g gt) := rfl

theorem ymFrame_yielded (s : State) (g : Nat) : YmFrame s (yielded s g) :=
  (ymFrame_recordUnspent ..).trans (ymFrame_makeReady ..)

/-- The running thread once it has yielded; `stamp` orders it among the READY threads (R278). -/
def yieldedThread (s : State) (g stamp : Nat) : Thread :=
  { s.th (runThread s g) with
    st := 2, stamp := stamp,
    act := (s.th (runThread s g)).act.map (fun a => { a with budget := (s.core g).budget.toNat }) }

theorem th_yielded (s : State) (g k : Nat) :
    (yielded s g).th k = if runThread s g = k then yieldedThread s g s.ym.stamp else s.th k := by
  have hrecord (k : Nat) : (recordUnspent s g (runThread s g)).th k = if runThread s g = k then
      { s.th (runThread s g) with
        act := (s.th (runThread s g)).act.map (fun a => { a with budget := (s.core g).budget.toNat }) } else s.th k :=
    s.th_setTh _ _ _
  have hstamp : (recordUnspent s g (runThread s g)).ym.stamp = s.ym.stamp := rfl
  rw [yielded, th_makeReady, hrecord, hrecord, hstamp, if_pos rfl]
  split <;> rfl

/-! ## YIELD (R281) -/

/-- Priority of the activation that runs on core `g`. -/
abbrev runningPrio (s : State) (g : Nat) : Nat := ((s.th (runThread s g)).act.map Act.prio).getD 0

theorem kYield_of_none (h : KernelRuns s g)
    (hnone : ∀ x ∈ coreThreads s g, x.2.1.st = 2 → x.2.2.prio < runningPrio s g) :
    kYield s g = kResult s g yrOk 0 false := by
  have hany : (coreThreads s g).any (fun x => decide (x.2.1.st = 2 ∧ runningPrio s g ≤ x.2.2.prio)) = false :=
    List.any_eq_false.mpr fun x hx hready =>
      have hready := of_decide_eq_true hready
      Nat.not_lt.mpr hready.2 (hnone x hx hready.1)
  unfold kYield
  dsimp only
  rw [if_pos (kRunning_of_kernelRuns h), hany]
  rfl

theorem kYield_of_ready (h : KernelRuns s g) {y : Nat × Thread × Act} (hy : y ∈ coreThreads s g) (hst : y.2.1.st = 2)
    (hprio : runningPrio s g ≤ y.2.2.prio) :
    kYield s g = kResult (leaveCore (yielded s g) g true) g yrOk 0 false := by
  have hany : (coreThreads s g).any (fun x => decide (x.2.1.st = 2 ∧ runningPrio s g ≤ x.2.2.prio)) = true :=
    List.any_eq_true.mpr ⟨y, hy, decide_eq_true ⟨hst, hprio⟩⟩
  unfold kYield
  dsimp only
  rw [if_pos (kRunning_of_kernelRuns h), hany, if_pos rfl, yielded]

/-- R281: YIELD makes room for a READY thread of at least the running one's priority. -/
theorem completes_kYield (h : KernelRuns s g) {y : Nat × Thread × Act} (hy : y ∈ coreThreads s g) (hst : y.2.1.st = 2)
    (hprio : runningPrio s g ≤ y.2.2.prio) :
    Completes (.kYield g) s fun t => KernelAnswers t g yrOk ∧ (t.th (runThread s g)).st = 2 ∧
      (t.th (runThread s g)).act = (s.th (runThread s g)).act.map (fun a => { a with budget := (s.core g).budget.toNat }) ∧
      (∀ k, k ≠ runThread s g → t.th k = s.th k) ∧
      (t.core g).run = (if preemptMode s g then (s.core g).run else 0) ∧ (t.core g).left = preemptMode s g ∧
      RegsBut [ykA g 0x10] s t ∧ SameBytes s t := by
  have ⟨_, _, _, _, hleft⟩ := h
  have hframe := ymFrame_yielded s g
  have hcore : (yielded s g).core g = s.core g := State.core_of_cores hframe.cores g
  have hmode : preemptMode (yielded s g) g = preemptMode s g := State.rb_of_regs hframe.regs _ _
  obtain ⟨hrunDep, hleftDep⟩ := run_departed (by rw [hcore]) (by rw [hcore, hleft]) hmode true
  refine completes_of_kPage (f := fun s => kYield s g) h rfl (kYield_of_ready h hy hst hprio) ?_
  rw [← departed]
  have hthis : (departed (yielded s g) g true).th (runThread s g) = yieldedThread s g s.ym.stamp := by
    rw [th_departed, th_yielded, if_pos rfl]
  rw [hthis]
  refine ⟨kernelAnswers_departed .., rfl, rfl, fun k hk => ?others, hrunDep, hleftDep,
    regsBut_departed (regsBut_of_regs hframe.regs) true, fun b => ?bytes⟩
  case others => rw [th_departed, th_yielded, if_neg hk.symm]
  case bytes => rw [byte_departed, State.byte_of_mem hframe.mem]

/-! ## The words handed to the kernel (R281, R285) -/

theorem reg_wr_other (s : State) {r b : Nat} (v : Nat) (h : r ≠ b) : (s.wr r v).reg b = s.reg b := by
  rw [State.reg, State.wr, tget_tset_other _ _ _ h, ← State.reg]

theorem ykA_ne {o p : Nat} (h : o ≠ p) : ykA g o ≠ ykA g p := fun heq => h (Nat.add_left_cancel heq)

/-- What TAKE leaves in the kernel page: S0 to S3, the activation ID, the budget and the entry. -/
def activationWords (a : Act) : List Nat := [a.s0, a.s1, a.s2, a.s3, a.id, a.budget, a.entry]

/-- The first `n` words written from offset 0x20 of the kernel page. -/
def wordsHanded (s : State) (g : Nat) (vals : List Nat) (n : Nat) : State :=
  (List.range n).foldl (fun s i => s.wr (ykA g (0x20 + 4 * i)) (vals.getD i 0)) s

theorem wordsHanded_succ (s : State) (g : Nat) (vals : List Nat) (n : Nat) : wordsHanded s g vals (n + 1) =
    (wordsHanded s g vals n).wr (ykA g (0x20 + 4 * n)) (vals.getD n 0) := by
  rw [wordsHanded, List.range_succ, List.foldl_append]
  rfl

theorem reg_wordsHanded (s : State) (g : Nat) (vals : List Nat) {i n : Nat} (hi : i < n) :
    (wordsHanded s g vals n).reg (ykA g (0x20 + 4 * i)) = BitVec.ofNat 64 (vals.getD i 0) := by
  induction n with
  | zero => cases hi
  | succ n ih =>
    rw [wordsHanded_succ]
    by_cases hin : i = n
    · rw [hin, State.reg_wr_same]
    · rw [reg_wr_other _ _ (ykA_ne (by omega)), ih (by omega)]

theorem frame_wordsHanded (s : State) (g : Nat) (vals : List Nat) (n : Nat) : RegFrame s (wordsHanded s g vals n) := by
  induction n with
  | zero => rfl
  | succ n ih => rw [wordsHanded_succ]; exact ih.wr ..

theorem regsBut_wordsHanded {l : List Nat} (vals : List Nat) {n : Nat} (hl : ∀ i, i < n → ykA g (0x20 + 4 * i) ∈ l) :
    RegsBut l s (wordsHanded s g vals n) := by
  induction n with
  | zero => exact regsBut_of_regs rfl
  | succ n ih =>
    rw [wordsHanded_succ]
    exact (ih fun i hi => hl i (by omega)).wr (hl n (by omega)) _

/-! ## TAKE (R281) -/

/-- An activation that still runs when another is taken becomes READY. -/
def displaced (s : State) (g : Nat) : State := if kRunning s g then yielded s g else s

theorem ymFrame_displaced (s : State) (g : Nat) : YmFrame s (displaced s g) := by
  unfold displaced
  split
  · exact ymFrame_yielded s g
  · rfl

/-- The core once thread `gt` has been taken, with the budget and the save area of its activation. -/
def takenCore (s : State) (gt : Nat) (a : Act) (c : Core) : Core :=
  { c with run := gt % 256, ctxptr := BitVec.ofNat 32 (s.rd (tdA gt 4)), offer := false, left := false, sample := a.budget }

/-- Thread `gt` runs activation `a`, which is no longer fresh. -/
def taken (s : State) (g gt : Nat) (a : Act) : State :=
  ((displaced s g).setTh gt { (displaced s g).th gt with st := 3, act := some { a with fresh := false } }).modCore g
    (takenCore s gt a)

theorem coreYmFrame_taken (s : State) (g gt : Nat) (a : Act) : CoreYmFrame s (taken s g gt a) :=
  ((ymFrame_displaced s g).trans (State.ymFrame_setTh ..)).modCore ..

theorem th_taken (s : State) (g gt : Nat) (a : Act) : ((taken s g gt a).th gt).st = 3 ∧
    ((taken s g gt a).th gt).act = some { a with fresh := false } := by
  rw [taken, th_modCore, State.th_setTh, if_pos rfl]
  exact ⟨rfl, rfl⟩

theorem core_taken (s : State) (g gt : Nat) (a : Act) : (taken s g gt a).core g = takenCore s gt a (s.core g) := by
  rw [taken, core_modCore_same, core_setTh, State.core_of_cores (ymFrame_displaced s g).cores]

theorem kTake_of_preempt (hmode : preemptMode s g = true) : kTake s g = kResult s g yrBad 0 false := if_pos hmode

theorem kTake_of_no_offer (hmode : preemptMode s g = false) (hoffer : offerNow s g = false) :
    kTake s g = kResult s g yrNone 0 false := by
  rw [kTake, if_neg (ne_true_of_eq_false hmode), hoffer]
  rfl

theorem kTake_of_candidate (hmode : preemptMode s g = false) (hoffer : offerNow s g = true)
    (hcand : candidate s g = some (gt, x, a)) :
    kTake s g = kResult (wordsHanded (taken s g gt a) g (activationWords a) 7) g yrOk (gt % 256) a.fresh := by
  rw [kTake, if_neg (ne_true_of_eq_false hmode), hoffer]
  dsimp only
  rw [hcand]
  rfl

/-- The result that names the thread taken, and whether its activation is fresh. -/
theorem rd_takeResult (u : State) (g gt : Nat) (fresh : Bool) :
    (kResult u g yrOk (gt % 256) fresh).rd (ykA g 0x10) = gt % 256 * 256 + b2n fresh * 2 ^ 16 := by
  have hfresh : b2n fresh ≤ 1 := by cases fresh <;> decide
  have hslot : gt % 256 < 256 := Nat.mod_lt _ (by decide)
  rw [kResult, State.rd_wr_same, yrOk, Nat.zero_add]
  exact Nat.mod_eq_of_lt (by omega)

/-- What TAKE leaves: the candidate's words in the kernel page, and the result. -/
def takeAnswered (s : State) (g gt : Nat) (a : Act) : State :=
  (kResult (wordsHanded (taken s g gt a) g (activationWords a) 7) g yrOk (gt % 256) a.fresh).answer rspOk 0

theorem reg_takeAnswered (s : State) (g gt : Nat) (a : Act) {i : Nat} (hi : i < 7) :
    (takeAnswered s g gt a).reg (ykA g (0x20 + 4 * i)) = BitVec.ofNat 64 ((activationWords a).getD i 0) := by
  have hanswer (u : State) (c v r : Nat) : (u.answer c v).reg r = u.reg r := rfl
  rw [takeAnswered, hanswer, kResult, reg_wr_other _ _ (ykA_ne (by omega)), reg_wordsHanded _ _ _ hi]

theorem th_takeAnswered (s : State) (g gt : Nat) (a : Act) : ((takeAnswered s g gt a).th gt).st = 3 ∧
    ((takeAnswered s g gt a).th gt).act = some { a with fresh := false } := by
  have hym : (wordsHanded (taken s g gt a) g (activationWords a) 7).ym = (taken s g gt a).ym := by rw [frame_wordsHanded]
  rw [takeAnswered, th_answer, kResult, th_wr, State.th_of_threads (congrArg Ym.threads hym)]
  exact th_taken s g gt a

theorem core_takeAnswered (s : State) (g gt : Nat) (a : Act) :
    (takeAnswered s g gt a).core g = takenCore s gt a (s.core g) := by
  have hcores : (wordsHanded (taken s g gt a) g (activationWords a) 7).cores = (taken s g gt a).cores := by
    rw [frame_wordsHanded]
  rw [takeAnswered, core_answer, kResult, core_wr, State.core_of_cores hcores, core_taken]

theorem mem_takeAnswered (s : State) (g gt : Nat) (a : Act) : (takeAnswered s g gt a).mem = s.mem := by
  have hmem : (wordsHanded (taken s g gt a) g (activationWords a) 7).mem = (taken s g gt a).mem := by rw [frame_wordsHanded]
  rw [takeAnswered, State.answer_mem, kResult, State.wr_mem, hmem, coreYmFrame_taken]

/-- The registers of the kernel page that TAKE writes. -/
abbrev takeRegs (g : Nat) : List Nat :=
  [ykA g 0x10, ykA g 0x20, ykA g 0x24, ykA g 0x28, ykA g 0x2C, ykA g 0x30, ykA g 0x34, ykA g 0x38]

theorem regsBut_takeAnswered (s : State) (g gt : Nat) (a : Act) : RegsBut (takeRegs g) s (takeAnswered s g gt a) := by
  have hregs : (taken s g gt a).regs = s.regs := by rw [coreYmFrame_taken]
  have hwords : RegsBut (takeRegs g) (taken s g gt a) (wordsHanded (taken s g gt a) g (activationWords a) 7) :=
    regsBut_wordsHanded _ fun i hi => by interval_cases i <;> simp
  have hresult := ((regsBut_of_regs hregs).trans hwords).wr (a := ykA g 0x10) (by simp)
    (yrOk + gt % 256 * 256 + b2n a.fresh * 2 ^ 16)
  intro r hr
  rw [takeAnswered, State.answer_rd, kResult, hresult r hr]

/-- R281: TAKE makes the candidate RUNNING and hands its words over. -/
theorem completes_kTake (hg : g < 256) (hkm : (s.core g).km = true) (hmode : preemptMode s g = false)
    (hoffer : offerNow s g = true) (hcand : candidate s g = some (gt, x, a)) :
    Completes (.kTake g) s fun t => KernelAnswers t g (gt % 256 * 256 + b2n a.fresh * 2 ^ 16) ∧
      (t.th gt).st = 3 ∧ (t.th gt).act = some { a with fresh := false } ∧
      (t.core g).run = gt % 256 ∧ (t.core g).offer = false ∧ (t.core g).left = false ∧
      (t.core g).ctxptr = BitVec.ofNat 32 (s.rd (tdA gt 4)) ∧
      t.reg (ykA g 0x20) = BitVec.ofNat 64 a.s0 ∧ t.reg (ykA g 0x24) = BitVec.ofNat 64 a.s1 ∧
      t.reg (ykA g 0x28) = BitVec.ofNat 64 a.s2 ∧ t.reg (ykA g 0x2C) = BitVec.ofNat 64 a.s3 ∧
      t.reg (ykA g 0x30) = BitVec.ofNat 64 a.id ∧ t.reg (ykA g 0x34) = BitVec.ofNat 64 a.budget ∧
      t.reg (ykA g 0x38) = BitVec.ofNat 64 a.entry ∧ SameBytes s t ∧ RegsBut (takeRegs g) s t := by
  have hexec : exec (.kTake g) s = .next (takeAnswered s g gt a) := by
    rw [takeAnswered, ← kTake_of_candidate hmode hoffer hcand]
    exact kPage_of_kernelMode hg hkm fun s => kTake s g
  have hanswers : KernelAnswers (takeAnswered s g gt a) g (gt % 256 * 256 + b2n a.fresh * 2 ^ 16) := by
    refine ⟨?_, rfl⟩
    rw [takeAnswered, State.answer_rd]
    exact rd_takeResult ..
  obtain ⟨hst, hact⟩ := th_takeAnswered s g gt a
  have hreg (i : Nat) (hi : i < 7) := reg_takeAnswered s g gt a hi
  have hbytes := sameBytes_of_mem (mem_takeAnswered s g gt a)
  have hregs := regsBut_takeAnswered s g gt a
  have hcore := core_takeAnswered s g gt a
  refine completes_of_exec hexec ?_
  generalize takeAnswered s g gt a = t at hanswers hst hact hreg hbytes hregs hcore ⊢
  rw [hcore]
  exact ⟨hanswers, hst, hact, rfl, rfl, rfl, rfl, hreg 0 (by decide), hreg 1 (by decide), hreg 2 (by decide),
    hreg 3 (by decide), hreg 4 (by decide), hreg 5 (by decide), hreg 6 (by decide), hbytes, hregs⟩

theorem kernelEndYieldTake : KernelEndYieldTake := by
  refine fun s g => ⟨fun h _ hact hflow hsrc => completes_kEnd h hact hflow hsrc, fun h => ?yield, fun hg hkm => ?take⟩
  case yield =>
    have ⟨hg, hkm, _⟩ := h
    exact ⟨fun hnone => completes_onlyAnswers (f := fun s => kYield s g) hg hkm rfl (kYield_of_none h hnone) (by decide),
      fun _ hy hst hprio => completes_kYield h hy hst hprio⟩
  case take =>
    exact ⟨fun hmode => completes_onlyAnswers (f := fun s => kTake s g) hg hkm rfl (kTake_of_preempt hmode) (by decide),
      fun hmode hoffer =>
        completes_onlyAnswers (f := fun s => kTake s g) hg hkm rfl (kTake_of_no_offer hmode hoffer) (by decide),
      fun _ _ _ hmode hoffer hcand => completes_kTake hg hkm hmode hoffer hcand⟩

/-- Settles O19: a command that is turned away leaves its result alone; END, YIELD and TAKE by what they make of the running
thread, its core and the candidate. -/
theorem kernelCommandsAnswered : Obligations.KernelCommandsAnswered := ⟨kernelCommandsTurnedAway, kernelEndYieldTake⟩

end Sys2Proof.Machine
end

section
/-! PROOFS for the statement on software activation requests: what the Yardmaster reads and writes of a request record in the
Barn (09_yardmaster.md R288). -/

namespace Sys2Proof.Machine

variable {s t : State} {src dst a o v : Nat} {l : List Byte}

/-! ## What a memory access depends on, but for the bytes (R298, R329, R339) -/

/-- From `s` to `t` check bits, fences, links and the registers from the sheds' up are as they were. -/
structure NetKept (s t : State) : Prop where
  ecc : t.ecc = s.ecc
  eps : t.eps = s.eps
  down : t.down = s.down
  high : ∀ r, shdRegs ≤ r → t.rd r = s.rd r

theorem NetKept.refl (s : State) : NetKept s s := ⟨rfl, rfl, rfl, fun _ _ => rfl⟩

theorem NetKept.cnt (h : NetKept s t) {r : Nat} (hr : r < shdRegs) (n : Nat) : NetKept s (t.cnt r n) :=
  ⟨h.ecc, h.eps, h.down, fun b hb => (t.rd_wr_other _ (by omega)).trans (h.high b hb)⟩

theorem NetKept.store (h : NetKept s t) (a : Nat) (l : List Byte) : NetKept s (t.store a l) :=
  ⟨h.ecc, h.eps, h.down, h.high⟩

theorem CoreYmFrame.netKept (h : CoreYmFrame s t) : NetKept s t :=
  ⟨by rw [h], by rw [h], by rw [h], fun r _ => State.rd_of_regs (by rw [h]) r⟩

section
variable (h : NetKept s t)
include h

theorem NetKept.cleanMem (hclean : CleanMem s) : CleanMem t := by
  obtain ⟨hecc, hinj⟩ := hclean
  refine ⟨h.ecc.trans hecc, fun n hn => ?_⟩
  rw [State.rb, h.high _ (shdRegs_le_eccA n 0x30)]
  exact hinj n hn

theorem NetKept.cut (hsrc : epExists src = true) : t.cut src dst = s.cut src dst := by
  have hyrd (o : Nat) : t.rd (yrdA o) = s.rd (yrdA o) := h.high _ (shdRegs_le_yrdA o)
  exact cut_congr (router_lt_of_epExists hsrc) h.down (by simp only [yrdEpoch, State.rf, hyrd]) fun _ _ => by
    simp only [routePort, State.rf, hyrd]

theorem NetKept.reaches (hreach : Reaches s src dst) : Reaches t src dst := by
  obtain ⟨hdst, hsrcEp, hdstEp, hsrcOpen, hdstOpen, hcut, hback, hready⟩ := hreach
  have hfenced (e : Nat) : t.fenced e = s.fenced e := by
    unfold State.fenced State.epSt
    rw [h.eps]
  have hshed (k : Nat) : t.rd (shdRegs + 0x200 + k) = s.rd (shdRegs + 0x200 + k) := h.high _ (by omega)
  refine ⟨hdst, hsrcEp, hdstEp, (hfenced src).trans hsrcOpen, (hfenced dst).trans hdstOpen, (h.cut hsrcEp).trans hcut,
    (h.cut hdstEp).trans hback, ?_⟩
  simp only [State.shedReady, State.shedCur, State.shedBusy, State.rf, State.rb, hshed] at hready ⊢
  exact hready

end

/-! ## A request record (R288) -/

/-- A request record lies at `a`, in clean memory of the Barn that the Yardmaster reaches. -/
structure RecordAt (s : State) (a : Nat) : Prop where
  aligned : a % 32 = 0
  inBarn : a + 32 ≤ barnSize
  clean : CleanMem s
  reach : Reaches s ymEp (epOf a)

theorem RecordAt.of_netKept (h : RecordAt s a) (hk : NetKept s t) : RecordAt t a :=
  ⟨h.aligned, h.inBarn, hk.cleanMem h.clean, hk.reaches h.reach⟩

/-- An address of the Barn has no bits above the 44 of a request (R288). -/
theorem RecordAt.mod_addr (h : RecordAt s a) : a % 2 ^ 44 = a := by
  have hbarn := h.inBarn
  exact Nat.mod_eq_of_lt (by simp only [barnSize] at hbarn; omega)

theorem epOf_barn (ha : a < barnSize) : epOf a = barnEp (a / 0x0C000000 * 16 + fld a 11 8) := by
  simp only [epOf, regionOf_of_barn ha]

/-- A record does not cross from one port of the Barn to another. -/
theorem epOf_in_record (halign : a % 32 = 0) (hbarn : a + 32 ≤ barnSize) (ho : o < 32) : epOf (a + o) = epOf a := by
  have hport : fld (a + o) 11 8 = fld a 11 8 := by
    simp only [fld, Nat.shiftRight_eq_div_pow]
    omega
  rw [epOf_barn (by omega), epOf_barn (by omega), hport, (by omega : (a + o) / 0x0C000000 = a / 0x0C000000)]

theorem fetch_record (h : RecordAt s a) (hl : l = s.bytes a 32) : s.fetch ymEp a 32 = (rspOk, l, s) := by
  have hread := readMem_of_sram h.clean.1 (a := a) (n := 32)
    (Nat.le_trans (Nat.add_le_add_right h.inBarn 16) (by decide)) 0 ymEp
  simp [State.fetch, ni_of_reaches h.reach, ddrAnswer_of_barn (by have := h.inBarn; omega : a < barnSize), hread,
    back_of_reaches h.reach, hl]

/-- A field of the record is written. -/
theorem put_record (h : RecordAt s a) (hl : l ≠ []) (hlen : l.length < 16) (hfit : (a + o) % 16 + l.length ≤ 16)
    (ho : o < 32) : s.put ymEp (a + o) l = (rspOk, s.store (a + o) l) := by
  have hbarn : a + o < barnSize := by have := h.inBarn; omega
  have hreach : Reaches s ymEp (epOf (a + o)) := by rw [epOf_in_record h.aligned h.inBarn ho]; exact h.reach
  have hback := back_of_reaches (((NetKept.refl s).store (a + o) l).reaches hreach) rspOk
  simp [State.put, ni_of_reaches hreach, ddrAnswer_of_barn hbarn, writeMem_within_word h.clean hbarn hl hlen hfit, hback]

theorem actStatus_record (h : RecordAt s a) (v : Nat) : actStatus s a v = s.store (a + 3) (natLe 1 v) := by
  have halign := h.aligned
  rw [actStatus, put_record h (by simp [natLe]) (by simp) (by rw [length_natLe]; omega) (by decide)]

theorem recordOk_of_barn (halign : a % 32 = 0) (hbarn : a + 32 ≤ barnSize) : recordOk a = true := by
  rw [recordOk, regionOf_of_barn (by omega), halign]
  rfl

/-! ## A request that is turned away (R288) -/

theorem exec_ymAct (h : Reaches s src ymEp) : exec (.ymAct src a) s = .next ((ymAct s (a % 2 ^ 44)).answer rspOk 0) := by
  change execYmAct src a s = _
  rw [execYmAct, ni_of_reaches h]
  rfl

theorem ymAct_of_misplaced (h : recordOk a = false) : ymAct s a = s.cnt (ymRegs + 0x28) 1 := by
  rw [ymAct, h]
  rfl

/-- Counter `r` counts one, and `v` is the STATUS of the record at `a`. -/
def turnedAway (s : State) (r a v : Nat) : State := (s.cnt r 1).store (a + 3) (natLe 1 v)

theorem actStatus_of_counted (h : RecordAt s a) {r : Nat} (hr : r < shdRegs) (v : Nat) :
    actStatus (s.cnt r 1) a v = turnedAway s r a v :=
  actStatus_record (h.of_netKept ((NetKept.refl s).cnt hr 1)) v

theorem byte_status (u : State) (a v : Nat) : (u.store (a + 3) (natLe 1 v)).byte (a + 3) = BitVec.ofNat 8 v := by
  rw [State.byte_store, if_pos (by simp), Nat.sub_self]
  rfl

theorem frame_wr_store_answer (s : State) (r w b : Nat) (l : List Byte) (code data : Nat)
    (ht : ((s.wr r w).store b l).answer code data = t) : t = { s with regs := t.regs, mem := t.mem, bus := ⟨code, data⟩ } := by
  subst ht
  rfl

/-- The outcome of a request that leaves a count and a STATUS. -/
theorem completes_of_turnedAway {c : Instr} {r : Nat} (hexec : exec c s = .next ((turnedAway s r a v).answer rspOk 0)) :
    Completes c s fun t => t.rd r = sat32 (s.rd r + 1) ∧ t.byte (a + 3) = BitVec.ofNat 8 v ∧ BytesBut (a + 3) 1 s t ∧
      t = { s with regs := t.regs, mem := t.mem, bus := ⟨rspOk, 0⟩ } ∧ RegsBut [r] s t := by
  refine completes_of_exec hexec ⟨?count, ?status, fun b hb => ?bytes,
    frame_wr_store_answer s r _ (a + 3) (natLe 1 v) rspOk 0 rfl, fun b hb => ?regs⟩
  case count => rw [State.answer_rd, turnedAway, State.store_rd, State.rd_cnt, if_pos rfl]
  case status => rw [State.answer_byte, turnedAway, byte_status]
  case bytes => rw [State.answer_byte, turnedAway, State.byte_store_other _ _ (by rwa [length_natLe]), State.cnt_byte]
  case regs => rw [State.answer_rd, turnedAway, State.store_rd, regsBut_cnt s r 1 b hb]

section
variable (h : RecordAt s a) (hl : l = s.bytes a 32)
include h hl

theorem ymAct_of_invalid (hvalid : recordValid s l = false) : ymAct s a = turnedAway s (ymRegs + 0x28) a 4 := by
  unfold ymAct
  dsimp only
  rw [recordOk_of_barn h.aligned h.inBarn, fetch_record h hl]
  dsimp only
  rw [hvalid]
  exact actStatus_of_counted h (by decide) 4

theorem ymAct_of_busy (hvalid : recordValid s l = true) (hst : (s.th (le l 0 2)).st ≠ 1) :
    ymAct s a = turnedAway s (ymRegs + 0x24) a 2 := by
  unfold ymAct
  dsimp only
  rw [recordOk_of_barn h.aligned h.inBarn, fetch_record h hl]
  dsimp only
  rw [hvalid, decide_eq_false hst]
  exact actStatus_of_counted h (by decide) 2

end

end Sys2Proof.Machine
end

section
/-! PROOF of the statement on software activation requests (09_yardmaster.md R288): an admitted request, and the statement. -/

namespace Sys2Proof.Machine

variable {s : State} {a gt : Nat} {l : List Byte}

/-! ## An admitted request (R288) -/

/-- The activation that the record `l` asks for, in no flow. -/
def requestedAct (s : State) (l : List Byte) : Act :=
  { id := 0, prio := s.rf (tdA (le l 0 2) 0) 13 8, entry := le l 4 4, budget := le l 8 4, grant := le l 8 4, fresh := true,
    dlTrain := le l 12 1, dlLevel := le l 13 1, dlAt := seen s (le l 12 1) (le l 13 1) + le l 14 1,
    td := tdTime s (sTime s) (le l 12 1) (le l 13 1) (le l 14 1), flow := none,
    src := .soft (le l 16 4) (if tb (le l 2 1) 0 then some (fld (le l 22 2) 11 0) else none), s1 := 0, s2 := le l 16 4 }

/-- The activation ID of the next activation of thread `gt` (R270). -/
abbrev nextId (s : State) (gt : Nat) : Nat := gt + ((s.th gt).cnt + 1) % 65536 * 65536

/-- The thread is bound, and its activation's ID and STATUS 1 stand in the record. -/
def admitted (s : State) (a gt : Nat) (x : Act) : State :=
  ((((bindAct s gt x).store (a + 24) (natLe 4 (nextId s gt))).cnt (ymRegs + 0x20) 1).store (a + 3) (natLe 1 1))

theorem act_bindAct {x : Act} (hflow : x.flow = none) :
    ((bindAct s gt x).th gt).act = some { x with id := nextId s gt } := by
  rw [th_bindAct_same hflow, boundThread]

theorem id_bindAct {x : Act} (hflow : x.flow = none) :
    (((bindAct s gt x).th gt).act.map Act.id).getD 0 = nextId s gt := by
  rw [act_bindAct hflow, Option.map_some, Option.getD_some]

theorem ymAct_of_admitted (h : RecordAt s a) (hl : l = s.bytes a 32) (hvalid : recordValid s l = true)
    (hst : (s.th (le l 0 2)).st = 1) (hflow : le l 20 2 = 0xFFFF) (hon : s.rb ymRegs 0 = true)
    (hel : eligible s (le l 0 2 / 256) = true)
    (hadm : admits s (le l 0 2 / 256) (le l 8 4) (tdTime s (sTime s) (le l 12 1) (le l 13 1) (le l 14 1)) = true) :
    ymAct s a = admitted s a (le l 0 2) (requestedAct s l) := by
  have hbound : RecordAt (bindAct s (le l 0 2) (requestedAct s l)) a :=
    h.of_netKept (bindAct_eq (a := requestedAct s l) rfl).1.netKept
  have hput := put_record (o := 24) (l := natLe 4 (nextId s (le l 0 2))) hbound (by simp [natLe]) (by simp)
    (by have := h.aligned; rw [length_natLe]; omega) (by decide)
  have hrecord := hbound.of_netKept (((NetKept.refl _).store (a + 24) (natLe 4 (nextId s (le l 0 2)))).cnt
    (r := ymRegs + 0x20) (by decide) 1)
  unfold ymAct
  dsimp only
  rw [recordOk_of_barn h.aligned h.inBarn, fetch_record h hl]
  dsimp only
  rw [hvalid, decide_eq_true hst, if_pos hflow, hon, hel, hadm]
  dsimp only
  rw [← requestedAct, id_bindAct (x := requestedAct s l) rfl, hput]
  exact actStatus_record hrecord 1

@[simp] theorem th_store (u : State) (a : Nat) (l : List Byte) (k : Nat) : (u.store a l).th k = u.th k := rfl

section
variable {x : Act}

theorem ld_admitted : (admitted s a gt x).ld (a + 24) 4 = nextId s gt % 2 ^ 32 := by
  rw [admitted, ld_store_other _ (.inr (by rw [length_natLe]; omega)), State.ld_of_mem (State.cnt_mem ..), ← State.st,
    State.ld_st, (by decide : 256 ^ 4 = 2 ^ 32)]

theorem byte_admitted_status : (admitted s a gt x).byte (a + 3) = 1 := by
  rw [admitted, byte_status]
  rfl

variable (hflow : x.flow = none)
include hflow

theorem th_admitted (k : Nat) : (admitted s a gt x).th k = if gt = k then
    { boundThread (s.th gt) gt x with st := 2, stamp := s.ym.stamp } else s.th k := by
  rw [admitted, th_store, th_cnt, th_store]
  split
  · next hk => rw [← hk, th_bindAct_same hflow]
  · next hk => rw [th_bindAct_other hflow (Ne.symm hk)]

theorem rd_admitted : (admitted s a gt x).rd (ymRegs + 0x20) = sat32 (s.rd (ymRegs + 0x20) + 1) := by
  have hregs : (bindAct s gt x).regs = s.regs := by rw [(bindAct_eq hflow).1]
  rw [admitted, State.store_rd, State.rd_cnt, if_pos rfl, State.store_rd, State.rd_of_regs hregs]

theorem byte_admitted_other {b : Nat} (hstatus : b ≠ a + 3) (hid : b < a + 24 ∨ a + 28 ≤ b) :
    (admitted s a gt x).byte b = s.byte b := by
  have hmem : (bindAct s gt x).mem = s.mem := by rw [(bindAct_eq hflow).1]
  rw [admitted, State.byte_store_other _ _ (by rw [length_natLe]; omega), State.cnt_byte,
    State.byte_store_other _ _ (by rwa [length_natLe]), State.byte_of_mem hmem]

end

/-- R288: the thread of an admitted request is READY, and its record tells the activation ID. -/
theorem completes_ymAct_of_admitted {src : Nat} (hreach : Reaches s src ymEp) (h : RecordAt s a) (hl : l = s.bytes a 32)
    (hvalid : recordValid s l = true) (hst : (s.th (le l 0 2)).st = 1) (hflow : le l 20 2 = 0xFFFF)
    (hon : s.rb ymRegs 0 = true) (hel : eligible s (le l 0 2 / 256) = true)
    (hadm : admits s (le l 0 2 / 256) (le l 8 4) (tdTime s (sTime s) (le l 12 1) (le l 13 1) (le l 14 1)) = true) :
    Completes (.ymAct src a) s fun t => (t.th (le l 0 2)).st = 2 ∧ t.byte (a + 3) = 1 ∧
      (∃ x, (t.th (le l 0 2)).act = some x ∧ x.entry = le l 4 4 ∧ x.budget = le l 8 4 ∧ x.fresh = true ∧
        x.s2 = le l 16 4 ∧ x.id = le l 0 2 + ((s.th (le l 0 2)).cnt + 1) % 65536 * 65536 ∧
        t.ld (a + 24) 4 = x.id % 2 ^ 32) ∧
      (∀ k, k ≠ le l 0 2 → t.th k = s.th k) ∧ t.rd (ymRegs + 0x20) = sat32 (s.rd (ymRegs + 0x20) + 1) ∧
      (∀ b, b ≠ a + 3 → (b < a + 24 ∨ a + 28 ≤ b) → t.byte b = s.byte b) := by
  have hexec := exec_ymAct (a := a) hreach
  rw [h.mod_addr, ymAct_of_admitted h hl hvalid hst hflow hon hel hadm] at hexec
  have hnone : (requestedAct s l).flow = none := rfl
  have hthis := th_admitted (s := s) (a := a) (gt := le l 0 2) hnone (le l 0 2)
  rw [if_pos rfl] at hthis
  refine completes_of_exec hexec ?_
  rw [th_answer, hthis, State.answer_byte, State.answer_rd, rd_admitted hnone, State.ld_of_mem (State.answer_mem ..), ld_admitted]
  refine ⟨rfl, byte_admitted_status, ⟨_, rfl, rfl, rfl, rfl, rfl, rfl, rfl⟩, fun k hk => ?others, rfl, fun b hb hid => ?bytes⟩
  case others => rw [th_answer, th_admitted hnone, if_neg hk.symm]
  case bytes => rw [State.answer_byte, byte_admitted_other hnone hb hid]

/-! ## The statement -/

theorem completes_ymAct_of_misplaced {src : Nat} (hreach : Reaches s src ymEp) (h : recordOk (a % 2 ^ 44) = false) :
    Completes (.ymAct src a) s fun t => t.rd (ymRegs + 0x28) = sat32 (s.rd (ymRegs + 0x28) + 1) ∧
      t = { s with regs := t.regs, bus := ⟨rspOk, 0⟩ } ∧ RegsBut [ymRegs + 0x28] s t := by
  have hexec := exec_ymAct (a := a) hreach
  rw [ymAct_of_misplaced h] at hexec
  exact completes_of_exec hexec ⟨(s.rd_cnt _ _ 1).trans (if_pos rfl), rfl, regsBut_cnt s _ 1⟩

/-- Settles O25: a request by where its record lies, then by what the record holds and by its thread. -/
theorem softwareActivations : Obligations.SoftwareActivations := by
  refine fun s src a hreach => ⟨completes_ymAct_of_misplaced hreach, fun l halign hbarn hclean hrec hl => ?_⟩
  have h : RecordAt s a := ⟨halign, hbarn, hclean, hrec⟩
  have hexec := exec_ymAct (a := a) hreach
  rw [h.mod_addr] at hexec
  exact ⟨fun hvalid => completes_of_turnedAway (hexec.trans (by rw [ymAct_of_invalid h hl hvalid])),
    fun hvalid hst => completes_of_turnedAway (hexec.trans (by rw [ymAct_of_busy h hl hvalid hst])),
    fun hvalid hst hflow hon hel hadm => completes_ymAct_of_admitted hreach h hl hvalid hst hflow hon hel hadm⟩

end Sys2Proof.Machine
end

section
/-! PROOFS on the Yard network control block (10_yard_network.md R307-R309, R319): its registers and interrupt flags, what an
update of one endpoint leaves, and an endpoint that becomes FENCED. -/

namespace Sys2Proof.Machine

variable {s t u : State} {e f i o p : Nat}

/-! ## Registers and interrupt flags (R319) -/

theorem yrdA_ne (hop : o ≠ p) : yrdA o ≠ yrdA p := fun heq => hop (Nat.add_left_cancel heq)

/-- A flag changes registers and the messages that rise with it. -/
theorem frame_yrdFlag (s : State) (i : Nat) :
    yrdFlag s i = { s with regs := (yrdFlag s i).regs, msiRise := (yrdFlag s i).msiRise } :=
  (((Logged.refl s).wr (shdRegs_le_yrdA 0xC) _).rise ..).frame

@[simp] theorem now_yrdFlag (s : State) (i : Nat) : (yrdFlag s i).now = s.now := State.flag_now ..
@[simp] theorem mem_yrdFlag (s : State) (i : Nat) : (yrdFlag s i).mem = s.mem := State.flag_mem ..

theorem rd_yrdFlag_other (hi : i < 64) (ho : o ≠ 0xC) (s : State) : (yrdFlag s i).rd (yrdA o) = s.rd (yrdA o) := by
  rw [yrdFlag, s.rd_flag _ _ _ _ _ hi, if_neg (yrdA_ne ho.symm)]

theorem regsBut_yrdFlag (hi : i < 64) (s : State) : RegsBut [yrdA 0xC] s (yrdFlag s i) := fun a ha => by
  rw [yrdFlag, s.rd_flag _ _ _ _ _ hi, if_neg fun heq => ha (List.mem_singleton.mpr heq.symm)]

theorem rb_yrdFlag (hi : i < 64) (s : State) : (yrdFlag s i).rb (yrdA 0xC) i = true := by
  rw [State.rb, yrdFlag, s.rd_flag _ _ _ _ _ hi, if_pos rfl, tb, testBit_setBit]
  simp

/-! ## Endpoints -/

theorem State.epSt_of_eps (heps : t.eps = s.eps) (e : Nat) : t.epSt e = s.epSt e := by
  simp only [State.epSt, heps]

theorem epSt_setEp_same (s : State) (e : Nat) (x : EpState) : (s.setEp e x).epSt e = x := by
  rw [State.epSt_setEp, if_pos rfl]

theorem epSt_setEp_other (hf : f ≠ e) (s : State) (x : EpState) : (s.setEp e x).epSt f = s.epSt f := by
  rw [State.epSt_setEp, if_neg hf.symm]

@[simp] theorem epSt_wr (s : State) (a v e : Nat) : (s.wr a v).epSt e = s.epSt e := rfl
@[simp] theorem epSt_answer (s : State) (c v e : Nat) : (s.answer c v).epSt e = s.epSt e := rfl

theorem epSt_yrdFlag (s : State) (i e : Nat) : (yrdFlag s i).epSt e = s.epSt e :=
  State.epSt_of_eps (by rw [frame_yrdFlag]) e

/-! ## What is held for an endpoint that is fenced (R306, R309) -/

/-- One worm that was held for the endpoint: a request is answered RSP_FENCED, a posted worm discarded. -/
def heldCompleted (e : Nat) (s : State) (h : Held) : State :=
  if h.kind = 2 ∨ h.kind = 4 then s.discardAt e
  else { s.absorb e with
    resps := s.resps ++ [⟨h.req.src, h.req.seq, h.req.gen, rspFenced, [], e, (s.epSt e).gen, yrdEpoch s⟩] }

/-- From `s` to `t` nothing has changed but what endpoint `e` counts and the responses on their way. -/
structure EpCounted (e : Nat) (s t : State) : Prop where
  frame : t = { s with eps := t.eps, resps := t.resps }
  st : (t.epSt e).st = (s.epSt e).st
  auto : (t.epSt e).auto = (s.epSt e).auto
  gen : (t.epSt e).gen = (s.epSt e).gen
  other : ∀ f, f ≠ e → t.epSt f = s.epSt f

theorem EpCounted.refl (e : Nat) (s : State) : EpCounted e s s := ⟨rfl, rfl, rfl, rfl, fun _ _ => rfl⟩

theorem EpCounted.trans (h1 : EpCounted e s t) (h2 : EpCounted e t u) : EpCounted e s u := by
  refine ⟨?frame, h2.st.trans h1.st, h2.auto.trans h1.auto, h2.gen.trans h1.gen,
    fun f hf => (h2.other f hf).trans (h1.other f hf)⟩
  have hframe := h2.frame
  rw [h1.frame] at hframe
  exact hframe

theorem epCounted_heldCompleted (s : State) (h : Held) : EpCounted e s (heldCompleted e s h) := by
  have hset (x : EpState) (l : List YResp) (hst : x.st = (s.epSt e).st) (hauto : x.auto = (s.epSt e).auto)
      (hgen : x.gen = (s.epSt e).gen) : EpCounted e s { s.setEp e x with resps := l } := by
    have hself : ({ s.setEp e x with resps := l } : State).epSt e = x := epSt_setEp_same s e x
    exact ⟨rfl, by rw [hself, hst], by rw [hself, hauto], by rw [hself, hgen], fun f hf => epSt_setEp_other hf s x⟩
  unfold heldCompleted
  split
  · exact hset _ s.resps rfl rfl rfl
  · exact hset _ _ rfl rfl rfl

theorem epCounted_foldl_heldCompleted (l : List Held) (s : State) : EpCounted e s (l.foldl (heldCompleted e) s) := by
  induction l generalizing s with
  | nil => exact .refl e s
  | cons h l ih => exact (epCounted_heldCompleted s h).trans (ih _)

/-! ## An endpoint becomes FENCED (R307) -/

/-- From `s` to `t` endpoint `e` has become FENCED: its reservations are complete, what was held for it is gone, and no other
endpoint has changed. -/
structure BecameFenced (e : Nat) (auto : Bool) (s t : State) : Prop where
  frame : t = { s with eps := t.eps, resvs := t.resvs, held := t.held, resps := t.resps }
  st : (t.epSt e).st = 1
  auto : (t.epSt e).auto = auto
  gen : (t.epSt e).gen = (s.epSt e).gen
  other : ∀ f, f ≠ e → t.epSt f = s.epSt f
  resvs : ∀ v ∈ t.resvs, v.src ≠ e
  held : ∀ h ∈ t.held, h.dst ≠ e

/-- Endpoint `e` marked FENCED and its reservations complete, before what was held for it is answered. -/
def fenceMarked (s : State) (e : Nat) (auto : Bool) : State :=
  { s.setEp e { s.epSt e with st := 1, auto := auto } with
    resvs := s.resvs.filter (fun v => decide (v.src ≠ e)), held := s.held.filter (fun h => decide (h.dst ≠ e)) }

theorem fence_eq (s : State) (e : Nat) (auto : Bool) : fence s e auto =
    (s.held.filter (fun h => decide (h.dst = e))).foldl (heldCompleted e) (fenceMarked s e auto) := rfl

theorem epSt_fenceMarked (s : State) (e f : Nat) (auto : Bool) :
    (fenceMarked s e auto).epSt f = if e = f then { s.epSt e with st := 1, auto := auto } else s.epSt f :=
  s.epSt_setEp e f { s.epSt e with st := 1, auto := auto }

theorem becameFenced_fence (s : State) (e : Nat) (auto : Bool) : BecameFenced e auto s (fence s e auto) := by
  obtain ⟨hframe, hst, hauto, hgen, hother⟩ := epCounted_foldl_heldCompleted (e := e)
    (s.held.filter (fun h => decide (h.dst = e))) (fenceMarked s e auto)
  rw [← fence_eq] at hframe hst hauto hgen hother
  rw [epSt_fenceMarked, if_pos rfl] at hst hauto hgen
  have hresvs : (fence s e auto).resvs = s.resvs.filter (fun v => decide (v.src ≠ e)) := by rw [hframe]; rfl
  have hheld : (fence s e auto).held = s.held.filter (fun h => decide (h.dst ≠ e)) := by rw [hframe]; rfl
  refine ⟨?frame, hst, hauto, hgen, fun f hf => ?other, fun v hv => ?resvs, fun h hh => ?held⟩
  case frame => rw [hframe]; rfl
  case other => rw [hother f hf, epSt_fenceMarked, if_neg hf.symm]
  case resvs =>
    rw [hresvs] at hv
    exact of_decide_eq_true (List.mem_filter.mp hv).2
  case held =>
    rw [hheld] at hh
    exact of_decide_eq_true (List.mem_filter.mp hh).2

end Sys2Proof.Machine
end

section
/-! PROOF of the statement on fences, the drain barrier and response timeouts (10_yard_network.md R307, R308, R311, R312). -/

namespace Sys2Proof.Machine

variable {s : State} {e seq : Nat} {v : Resv}

/-! ## FENCE (R307) -/

/-- A fence as YRD_LAST_FENCE records it changes that register alone. -/
theorem regsBut_lastFence (s : State) (e : Nat) (auto : Bool) (src : Nat) :
    RegsBut [yrdA 0x44] s (lastFence s e auto src) := regsBut_wr s _ _

theorem epSt_lastFence (s : State) (e f : Nat) (auto : Bool) (src : Nat) :
    (lastFence s e auto src).epSt f = s.epSt f := epSt_wr ..

theorem regFrame_lastFence (s : State) (e : Nat) (auto : Bool) (src : Nat) : RegFrame s (lastFence s e auto src) :=
  RegFrame.wr rfl ..

theorem completes_yrdFence (he : epExists e = true) (hyrd : e ≠ yrdEp) :
    Completes (.yrdFence e) s fun t => (t.epSt e).st = 1 ∧ (t.epSt e).auto = false ∧
      (t.epSt e).gen = (s.epSt e).gen ∧ (∀ f, f ≠ e → t.epSt f = s.epSt f) ∧ t.bus = ⟨rspOk, 0⟩ ∧
      (∀ v ∈ t.resvs, v.src ≠ e) ∧ (∀ h ∈ t.held, h.dst ≠ e) ∧
      t = { s with eps := t.eps, resvs := t.resvs, held := t.held, resps := t.resps, regs := t.regs, bus := t.bus } ∧
      RegsBut [yrdA 0x44] s t := by
  obtain ⟨hframe, hst, hauto, hgen, hother, hresvs, hheld⟩ := becameFenced_fence s e false
  have hcmd : cmdFence s e = (rspOk, lastFence (fence s e false) e false 0) := by simp [cmdFence, he, hyrd]
  have hexec : exec (.yrdFence e) s = .next ((lastFence (fence s e false) e false 0).answer rspOk 0) := by
    change execYrdFence e s = _
    rw [execYrdFence, hcmd]
  have hregs : (fence s e false).regs = s.regs := by rw [hframe]
  refine completes_of_exec hexec ⟨hst, hauto, hgen, hother, rfl, hresvs, hheld, ?frame, ?regs⟩
  case frame =>
    generalize fence s e false = u at hframe
    rw [hframe]
    rfl
  case regs => exact (regsBut_of_regs hregs).trans (regsBut_lastFence _ e false 0)

/-- The control block's own endpoint is never fenced (R308). -/
theorem completes_yrdFence_yrdEp : Completes (.yrdFence yrdEp) s fun t => t = { s with bus := ⟨rspTgt, 0⟩ } := by
  have hcmd : cmdFence s yrdEp = (rspTgt, s) := by simp [cmdFence]
  refine completes_of_exec (t := s.answer rspTgt 0) ?_ rfl
  change execYrdFence yrdEp s = _
  rw [execYrdFence, hcmd]

/-! ## UNFENCE (R311) -/

/-- Endpoint `e` in READMIT, its generation raised and the barrier's time running. -/
def readmitting (s : State) (e : Nat) : State :=
  s.setEp e { s.epSt e with st := 2, gen := ((s.epSt e).gen + 1) % 16, since := s.now }

theorem completes_yrdUnfence (he : epExists e = true) (hst : (s.epSt e).st = 1) :
    Completes (.yrdUnfence e) s fun t => (t.epSt e).st = 2 ∧ (t.epSt e).gen = ((s.epSt e).gen + 1) % 16 ∧
      (∀ f, f ≠ e → t.epSt f = s.epSt f) ∧ t = { s with eps := t.eps, bus := ⟨rspOk, 0⟩ } := by
  have hcmd : cmdUnfence s e = (rspOk, readmitting s e) := by simp [cmdUnfence, he, hst, readmitting]
  have hexec : exec (.yrdUnfence e) s = .next ((readmitting s e).answer rspOk 0) := by
    change execYrdUnfence e s = _
    rw [execYrdUnfence, hcmd]
  refine completes_of_exec hexec ⟨?st, ?gen, fun f hf => ?other, rfl⟩
  case other => rw [epSt_answer, readmitting, epSt_setEp_other hf]
  all_goals rw [epSt_answer, readmitting, epSt_setEp_same]

theorem completes_yrdUnfence_of_not_fenced (hst : (s.epSt e).st ≠ 1) :
    Completes (.yrdUnfence e) s fun t => t = { s with bus := ⟨rspTgt, 0⟩ } := by
  have hcmd : cmdUnfence s e = (rspTgt, s) := by simp [cmdUnfence, hst]
  refine completes_of_exec (t := s.answer rspTgt 0) ?_ rfl
  change execYrdUnfence e s = _
  rw [execYrdUnfence, hcmd]

/-! ## The barrier's two ends (R311) -/

theorem completes_barrierComplete (hst : (s.epSt e).st = 2) :
    Completes (.barrierComplete e) s fun t => (t.epSt e).st = 0 ∧ (t.epSt e).gen = (s.epSt e).gen ∧
      (∀ f, f ≠ e → t.epSt f = s.epSt f) ∧ t = { s with eps := t.eps } := by
  have hexec : exec (.barrierComplete e) s =
      .next (s.setEp e { s.epSt e with st := 0, auto := false, barFail := false }) := by
    change execBarrierComplete e s = _
    rw [execBarrierComplete, barrierDone, if_pos hst]
  refine completes_of_exec hexec ⟨?st, ?gen, fun f hf => epSt_setEp_other hf s _, rfl⟩
  all_goals rw [epSt_setEp_same]

/-- The barrier's time is out and endpoint `e` FENCED again, its generation still raised. -/
def barrierFailed (s : State) (e : Nat) : State :=
  (s.until ((s.epSt e).since + barTmo s)).setEp e { s.epSt e with st := 1, barFail := true }

theorem completes_barrierTimeout (hst : (s.epSt e).st = 2) :
    Completes (.barrierTimeout e) s fun t => (t.epSt e).st = 1 ∧ (t.epSt e).barFail = true ∧
      (t.epSt e).gen = (s.epSt e).gen ∧ t.rb (yrdA 0xC) 1 = true ∧ (s.epSt e).since + barTmo s ≤ t.now ∧
      (∀ f, f ≠ e → t.epSt f = s.epSt f) ∧
      t = { s with eps := t.eps, now := t.now, regs := t.regs, msiRise := t.msiRise } ∧ RegsBut [yrdA 0xC] s t := by
  have hexec : exec (.barrierTimeout e) s = .next (yrdFlag (barrierFailed s e) 1) := by
    change execBarrierTimeout e s = _
    rw [execBarrierTimeout, barrierTimeout, if_pos hst]
    rfl
  have hself : (yrdFlag (barrierFailed s e) 1).epSt e = { s.epSt e with st := 1, barFail := true } := by
    rw [epSt_yrdFlag, barrierFailed, epSt_setEp_same]
  refine completes_of_exec hexec ⟨by rw [hself], by rw [hself], by rw [hself], rb_yrdFlag (by decide) _, ?now,
    fun f hf => ?other, ?frame, ?regs⟩
  case now => rw [now_yrdFlag]; exact Nat.le_max_right ..
  case other => rw [epSt_yrdFlag, barrierFailed, epSt_setEp_other hf]; rfl
  case frame => rw [frame_yrdFlag]; rfl
  case regs => exact (regsBut_of_regs rfl).trans (regsBut_yrdFlag (by decide) (barrierFailed s e))

/-! ## A response timeout (R308) -/

/-- The request's time is out: its reservation is complete and the timeout counted. -/
def requestTimedOut (s : State) (v : Resv) : State :=
  { s.until (v.sent + rspTmo s) with resvs := s.resvs.erase v }.cnt (yrdA 0x48) 1

/-- The destination of a request that timed out is fenced (R308). -/
def timedOutFenced (s : State) (v : Resv) (src : Nat) : State :=
  lastFence (fence (requestTimedOut s v) v.dst true) v.dst true src

theorem exec_responseTimeout (hv : s.resvs.find? (fun v => decide (v.src = e ∧ v.seq = seq)) = some v)
    (hyrd : v.dst ≠ yrdEp) :
    exec (.responseTimeout e seq) s = .next ((yrdFlag (timedOutFenced s v e) 0).answer rspFenced 0) := by
  change execResponseTimeout e seq s = _
  simp only [execResponseTimeout, responseTimeout, hv, timeoutFence, if_neg hyrd]
  rfl

theorem rd_timeouts_timedOutFenced (s : State) (v : Resv) (src : Nat) :
    (timedOutFenced s v src).rd (yrdA 0x48) = sat32 (s.rd (yrdA 0x48) + 1) := by
  have hregs : (fence (requestTimedOut s v) v.dst true).regs = (requestTimedOut s v).regs := by
    rw [(becameFenced_fence _ v.dst true).frame]
  rw [timedOutFenced, regsBut_lastFence _ _ _ _ _ fun h => yrdA_ne (by decide) (List.mem_singleton.mp h), State.rd_of_regs hregs]
  exact rd_cnt_of_regs rfl (yrdA 0x48) 1

theorem frame_timedOutFenced (s : State) (v : Resv) (src : Nat) :
    (timedOutFenced s v src).now = max s.now (v.sent + rspTmo s) ∧ (timedOutFenced s v src).mem = s.mem := by
  rw [timedOutFenced, regFrame_lastFence, (becameFenced_fence (requestTimedOut s v) v.dst true).frame]
  simp only [requestTimedOut, State.cnt_now, State.until_now, State.cnt_mem, State.until_mem, and_self]

theorem epSt_timedOutFenced (s : State) (v : Resv) (src : Nat) :
    ((timedOutFenced s v src).epSt v.dst).st = 1 ∧ ((timedOutFenced s v src).epSt v.dst).auto = true := by
  obtain ⟨-, hst, hauto, -⟩ := becameFenced_fence (requestTimedOut s v) v.dst true
  rw [timedOutFenced, epSt_lastFence]
  exact ⟨hst, hauto⟩

theorem completes_responseTimeout (hv : s.resvs.find? (fun v => decide (v.src = e ∧ v.seq = seq)) = some v)
    (hyrd : v.dst ≠ yrdEp) :
    Completes (.responseTimeout e seq) s fun t => t.bus = ⟨rspFenced, 0⟩ ∧ (t.epSt v.dst).st = 1 ∧
      (t.epSt v.dst).auto = true ∧ t.rd (yrdA 0x48) = sat32 (s.rd (yrdA 0x48) + 1) ∧ t.rb (yrdA 0xC) 0 = true ∧
      v.sent + rspTmo s ≤ t.now ∧ SameBytes s t := by
  obtain ⟨hnow, hmem⟩ := frame_timedOutFenced s v e
  obtain ⟨hst, hauto⟩ := epSt_timedOutFenced s v e
  have hcount := rd_timeouts_timedOutFenced s v e
  have hexec := exec_responseTimeout hv hyrd
  generalize timedOutFenced s v e = u at *
  refine completes_of_exec hexec ⟨rfl, ?st, ?auto, ?count, ?flag, ?now, State.byte_of_mem ?mem⟩
  case st => rw [epSt_answer, epSt_yrdFlag, hst]
  case auto => rw [epSt_answer, epSt_yrdFlag, hauto]
  case count => rw [State.answer_rd, rd_yrdFlag_other (by decide) (by decide), hcount]
  case flag => rw [rb_answer, rb_yrdFlag (by decide)]
  case now =>
    rw [State.answer_now, now_yrdFlag, hnow]
    exact Nat.le_max_right ..
  case mem => rw [State.answer_mem, mem_yrdFlag, hmem]

/-- Settles O4: each clause is the rule of that command, above. -/
theorem fenceStates : Obligations.FenceStates := fun _ _ =>
  ⟨completes_yrdFence, completes_yrdFence_yrdEp, completes_yrdUnfence, completes_yrdUnfence_of_not_fenced,
    fun hst => ⟨completes_barrierComplete hst, completes_barrierTimeout hst⟩, fun _ _ => completes_responseTimeout⟩

end Sys2Proof.Machine
end

section
/-! PROOF of the statement on flits, links and the commit of the route tables (10_yard_network.md R298, R314, R315, R319). -/

namespace Sys2Proof.Machine

variable {s t : State} {r port dir q c k i : Nat} {ex tail ep : Bool}

/-! ## Fields and bits of one register (R2) -/

theorem State.rf_wf_other {hi lo hi' lo' : Nat} (s : State) (a v : Nat) (hlo : lo ≤ hi) (hhi : hi < 64) (hlo' : lo' ≤ hi')
    (hdisj : hi' < lo ∨ hi < lo') : (s.wf a hi lo v).rf a hi' lo' = s.rf a hi' lo' := by
  rw [State.rf, s.rd_wf a a hi lo v hlo hhi, if_pos rfl, fld_setFld_other _ _ _ _ _ _ hlo hdisj hlo', State.rf]

theorem State.rb_wf_other {hi lo : Nat} (s : State) (a v : Nat) (hlo : lo ≤ hi) (hhi : hi < 64) (hi' : i < lo ∨ hi < i) :
    (s.wf a hi lo v).rb a i = s.rb a i := by
  rw [State.rb, s.rd_wf a a hi lo v hlo hhi, if_pos rfl, tb, testBit_setFld _ _ _ _ _ hlo, if_neg (by omega), State.rb, tb]

theorem regsBut_wf (s : State) (a hi lo v : Nat) : RegsBut [a] s (s.wf a hi lo v) := regsBut_wr s a _

theorem rb_yrdFlag_other {o : Nat} (hi : i < 64) (ho : o ≠ 0xC) (s : State) (j : Nat) :
    (yrdFlag s i).rb (yrdA o) j = s.rb (yrdA o) j := by
  rw [State.rb, rd_yrdFlag_other hi ho, State.rb]

theorem rf_yrdFlag_other {o : Nat} (hi : i < 64) (ho : o ≠ 0xC) (s : State) (hi' lo' : Nat) :
    (yrdFlag s i).rf (yrdA o) hi' lo' = s.rf (yrdA o) hi' lo' := by
  rw [State.rf, rd_yrdFlag_other hi ho, State.rf]

theorem yrdEpoch_yrdFlag (hi : i < 64) (s : State) : yrdEpoch (yrdFlag s i) = yrdEpoch s :=
  rf_yrdFlag_other hi (by decide) s 0 0

/-! ## Flits (R298) -/

theorem exec_flitReceive (hr : r < 96) (hport : port < 5) (ok : Bool) :
    exec (.flitReceive r port ok ex tail ep) s = .next (flitReceive s r port ok ex tail (b2n ep)) := if_pos ⟨hr, hport⟩

theorem flitReceive_of_good (e : Nat) : flitReceive s r port true ex tail e =
    { ({ s with replays := tset noCount s.replays (8 * r + port) 0 } : State).cnt
        (yrdA (0x10000 + r * 0x20) + (if ex then 0x10 else 0xC)) 1 with
      worms := tset noCount s.worms (8 * r + port) (if tail then 0 else 1 + e % 2) } := rfl

/-- A good flit is counted and ends the replays of its port. -/
theorem completes_flitReceive_of_good (hr : r < 96) (hport : port < 5) :
    Completes (.flitReceive r port true ex tail ep) s fun t => tget noCount t.replays (8 * r + port) = 0 ∧
      t.rd (yrdA (0x10000 + r * 0x20) + (if ex then 0x10 else 0xC)) =
        sat32 (s.rd (yrdA (0x10000 + r * 0x20) + (if ex then 0x10 else 0xC)) + 1) ∧
      tget noCount t.worms (8 * r + port) = (if tail then 0 else 1 + b2n ep) ∧
      t = { s with replays := t.replays, regs := t.regs, worms := t.worms } := by
  have hworm : b2n ep % 2 = b2n ep := Nat.mod_eq_of_lt (b2n_lt_two ep)
  have hexec := exec_flitReceive (s := s) (ex := ex) (tail := tail) (ep := ep) hr hport true
  rw [flitReceive_of_good, hworm] at hexec
  refine completes_of_exec hexec ⟨?replays, ?count, ?worm, rfl⟩
  case replays => exact tget_tset_same noCount s.replays _ 0
  case count => exact rd_cnt_of_regs (s := s) (t := { s with replays := tset noCount s.replays (8 * r + port) 0 }) rfl _ 1
  case worm => exact tget_tset_same noCount s.worms _ _

/-- A replay of the flit due at port `port` is asked for once more. -/
def replayAsked (s : State) (r port : Nat) : State :=
  { s with replays := tset noCount s.replays (8 * r + port) (tget noCount s.replays (8 * r + port) + 1) }

theorem flitReceive_of_bad {e : Nat} (hfew : tget noCount s.replays (8 * r + port) < 3) :
    flitReceive s r port false ex tail e = (replayAsked s r port).cnt (yrdA (0x10000 + r * 0x20) + 0x18) 1 := if_pos hfew

/-- A bad flit is asked for again. -/
theorem completes_flitReceive_of_bad (hr : r < 96) (hport : port < 5) (hfew : tget noCount s.replays (8 * r + port) < 3) :
    Completes (.flitReceive r port false ex tail ep) s fun t =>
      tget noCount t.replays (8 * r + port) = tget noCount s.replays (8 * r + port) + 1 ∧ t.down = s.down ∧
      t.rd (yrdA (0x10000 + r * 0x20) + 0x18) = sat32 (s.rd (yrdA (0x10000 + r * 0x20) + 0x18) + 1) := by
  have hexec := exec_flitReceive (s := s) (ex := ex) (tail := tail) (ep := ep) hr hport false
  rw [flitReceive_of_bad hfew] at hexec
  exact completes_of_exec hexec ⟨tget_tset_same noCount s.replays (8 * r + port) (tget noCount s.replays (8 * r + port) + 1),
    rfl, rd_cnt_of_regs (s := s) (t := replayAsked s r port) rfl _ 1⟩

/-- The link of port `port` is DOWN at both ends, and no replay of its flit is due. -/
def linkLost (s : State) (r port : Nat) : State :=
  { s with replays := tset noCount s.replays (8 * r + port) 0
           down := s.down ++ (linkEnds r port).filter (fun e => !s.down.contains e) }

theorem mem_down_linkLost {x : Nat} (hx : x ∈ linkEnds r port) : x ∈ (linkLost s r port).down := by
  by_cases hdown : x ∈ s.down
  · exact List.mem_append_left _ hdown
  · exact List.mem_append_right _ (List.mem_filter.mpr ⟨hx, by simp [hdown]⟩)

/-- The fourth bad flit in a row takes the link DOWN. -/
theorem completes_flitReceive_of_fourthBad (hr : r < 96) (hport : port < 5)
    (hmany : 3 ≤ tget noCount s.replays (8 * r + port)) :
    Completes (.flitReceive r port false ex tail ep) s fun t => tget noCount t.replays (8 * r + port) = 0 ∧
      (∀ x ∈ linkEnds r port, x ∈ t.down) ∧ t.rb (yrdA 0xC) 5 = true ∧
      t = { s with replays := t.replays, down := t.down, regs := t.regs, msiRise := t.msiRise } := by
  have hlost : flitReceive s r port false ex tail (b2n ep) = yrdFlag (linkLost s r port) 5 := if_neg (Nat.not_lt.mpr hmany)
  have hframe := frame_yrdFlag (linkLost s r port) 5
  refine completes_of_exec ((exec_flitReceive hr hport false).trans (congrArg _ hlost))
    ⟨?replays, fun x hx => ?down, rb_yrdFlag (by decide) _, ?frame⟩
  case replays => rw [hframe]; exact tget_tset_same noCount s.replays _ 0
  case down => rw [hframe]; exact mem_down_linkLost hx
  case frame => rw [hframe]; rfl

/-- A retrained link is no longer DOWN at either end, and no other link changes. -/
theorem completes_linkRetrain (hr : r < 96) (hdir : dir < 4) (hdown : s.down.contains (4 * r + dir) = true) :
    Completes (.linkRetrain r dir) s fun t => (∀ x ∈ linkEnds r (dir + 1), x ∉ t.down) ∧
      (∀ x ∈ s.down, x ∉ linkEnds r (dir + 1) → x ∈ t.down) ∧ t = { s with down := t.down, bus := ⟨rspOk, 0⟩ } := by
  have hexec : exec (.linkRetrain r dir) s =
      .next (({ s with down := s.down.filter (fun e => !(linkEnds r (dir + 1)).contains e) } : State).answer rspOk 0) :=
    (if_pos ⟨hr, hdir⟩).trans (by rw [linkRetrain, if_pos hdown])
  refine completes_of_exec hexec ⟨fun x hx hmem => ?gone, fun x hx hother => ?kept, rfl⟩
  case gone =>
    have hnot := (List.mem_filter.mp hmem).2
    simp [hx] at hnot
  case kept => exact List.mem_filter.mpr ⟨hx, by simp [hother]⟩

/-! ## Commits (R314, R315) -/

/-- The commit check's record: its error code, the router and whether the check passed. -/
def checkRecorded (s : State) (c k : Nat) : State :=
  ((s.wf (yrdA 0x24) 7 4 c).wf (yrdA 0x24) 14 8 k).wb (yrdA 0x24) 3 (decide (c = 0))

/-- Phase 2: epoch `e` is current and the old one drains. -/
def epochSwitched (s : State) (e : Nat) : State := (s.wf (yrdA 0x24) 0 0 e).wb (yrdA 0x24) 1 true

theorem regsBut_checkRecorded (s : State) (c k : Nat) : RegsBut [yrdA 0x24] s (checkRecorded s c k) :=
  ((regsBut_wf _ _ _ _ _).trans (regsBut_wf _ _ _ _ _)).trans (regsBut_wb _ _ _ _)

theorem rb_ok_checkRecorded (s : State) (c k : Nat) : (checkRecorded s c k).rb (yrdA 0x24) 3 = decide (c = 0) :=
  State.rb_wb_same _ _ _ _ (by decide)

theorem rf_err_checkRecorded (s : State) (c k : Nat) : (checkRecorded s c k).rf (yrdA 0x24) 7 4 = c % 16 := by
  rw [checkRecorded, State.wb, State.rf_wf_other _ _ _ (by decide) (by decide) (by decide) (by decide),
    State.rf_wf_other _ _ _ (by decide) (by decide) (by decide) (by decide), State.rf_wf_same _ _ _ _ _ (by decide) (by decide)]
  rfl

theorem yrdEpoch_checkRecorded (s : State) (c k : Nat) : yrdEpoch (checkRecorded s c k) = yrdEpoch s := by
  rw [yrdEpoch, checkRecorded, State.wb, State.rf_wf_other _ _ _ (by decide) (by decide) (by decide) (by decide),
    State.rf_wf_other _ _ _ (by decide) (by decide) (by decide) (by decide),
    State.rf_wf_other _ _ _ (by decide) (by decide) (by decide) (by decide), yrdEpoch]

theorem regsBut_epochSwitched (s : State) (e : Nat) : RegsBut [yrdA 0x24] s (epochSwitched s e) :=
  (regsBut_wf _ _ _ _ _).trans (regsBut_wb _ _ _ _)

theorem yrdEpoch_epochSwitched (s : State) (e : Nat) : yrdEpoch (epochSwitched s e) = e % 2 := by
  rw [yrdEpoch, epochSwitched, State.wb, State.rf_wf_other _ _ _ (by decide) (by decide) (by decide) (by decide),
    State.rf_wf_same _ _ _ _ _ (by decide) (by decide)]
  rfl

theorem rb_draining_epochSwitched (s : State) (e : Nat) : (epochSwitched s e).rb (yrdA 0x24) 1 = true :=
  State.rb_wb_same _ _ _ _ (by decide)

theorem rb_ok_epochSwitched (s : State) (e : Nat) : (epochSwitched s e).rb (yrdA 0x24) 3 = s.rb (yrdA 0x24) 3 := by
  rw [epochSwitched, State.rb_wb_other _ _ _ _ _ (by decide) (by decide),
    State.rb_wf_other _ _ _ (by decide) (by decide) (by decide)]

/-- Every response of epoch `e` on its way is answered RSP_EPOCH (R317). -/
def staleAnswered (s : State) (e : Nat) : State :=
  { s with resps := s.resps.map (fun (r : YResp) => if r.epoch = e then { r with code := rspEpoch, data := [] } else r) }

theorem absorbStale_eq (s : State) (e : Nat) : absorbStale s e =
    if (s.resps.filter (fun r => decide (r.epoch = e))).length = 0 then s
    else yrdFlag ((staleAnswered s e).cnt (yrdA 0x54) (s.resps.filter (fun r => decide (r.epoch = e))).length) 6 := rfl

/-- From `s` to `t` nothing has changed but registers, interrupt messages, responses on their way and the bus answer. -/
abbrev CommitFrame (s t : State) : Prop :=
  t = { s with regs := t.regs, resps := t.resps, msiRise := t.msiRise, bus := t.bus }

theorem CommitFrame.trans {u : State} (h1 : CommitFrame s t) (h2 : CommitFrame t u) : CommitFrame s u := by
  rw [CommitFrame, h1] at h2
  exact h2

theorem CommitFrame.refl (s : State) : CommitFrame s s := rfl

theorem CommitFrame.wr (h : CommitFrame s t) (a v : Nat) : CommitFrame s (t.wr a v) := h.trans rfl

theorem CommitFrame.answer (h : CommitFrame s t) (code data : Nat) : CommitFrame s (t.answer code data) := h.trans rfl

theorem commitFrame_checkRecorded (s : State) (c k : Nat) : CommitFrame s (checkRecorded s c k) :=
  CommitFrame.wr (CommitFrame.wr (CommitFrame.wr (.refl s) _ _) _ _) _ _

theorem commitFrame_epochSwitched (s : State) (e : Nat) : CommitFrame s (epochSwitched s e) :=
  CommitFrame.wr (CommitFrame.wr (.refl s) _ _) _ _

theorem commitFrame_yrdFlag (s : State) (i : Nat) : CommitFrame s (yrdFlag s i) := by rw [CommitFrame, frame_yrdFlag]

/-- Responses two commits stale are counted and flagged, and nothing else changes (R317). -/
theorem absorbStale_kept (s : State) (e : Nat) :
    CommitFrame s (absorbStale s e) ∧ RegsBut [yrdA 0xC, yrdA 0x54] s (absorbStale s e) := by
  rw [absorbStale_eq]
  split
  · exact ⟨rfl, regsBut_of_regs rfl⟩
  · have hanswered : RegsBut [yrdA 0xC, yrdA 0x54] s (staleAnswered s e) := regsBut_of_regs rfl
    have hcounted (n : Nat) : CommitFrame s ((staleAnswered s e).cnt (yrdA 0x54) n) := rfl
    exact ⟨(hcounted _).trans (commitFrame_yrdFlag _ 6),
      (hanswered.wr (by simp) _).trans ((regsBut_yrdFlag (by decide) _).mono (by simp))⟩

/-- The state in which phase 2 of a commit begins: its check passed, and stale responses absorbed if the mesh still drains. -/
def checkPassed (s : State) : State :=
  if s.rb (yrdA 0x24) 1 then absorbStale (checkRecorded s 0 0) (1 - yrdEpoch s) else checkRecorded s 0 0

theorem checkPassed_kept (s : State) : CommitFrame (checkRecorded s 0 0) (checkPassed s) ∧
    RegsBut [yrdA 0xC, yrdA 0x54] (checkRecorded s 0 0) (checkPassed s) := by
  unfold checkPassed
  split
  · exact absorbStale_kept _ _
  · exact ⟨.refl _, fun _ _ => rfl⟩

theorem commit_of_passed (hcheck : rtCheck s (1 - yrdEpoch s) = (0, 0))
    (hdrain : s.rb (yrdA 0x24) 1 = false ∨ s.rb (yrdA 0x20) 1 = true) :
    commit s = yrdFlag (epochSwitched (checkPassed s) (1 - yrdEpoch s)) 2 := by
  have hgoes : ¬ (0 = 0 ∧ s.rb (yrdA 0x24) 1 = true ∧ (!s.rb (yrdA 0x20) 1) = true) := by
    rintro ⟨-, hdraining, hforce⟩
    rcases hdrain with h | h
    · exact Bool.false_ne_true (h.symm.trans hdraining)
    · rw [h] at hforce
      exact Bool.false_ne_true hforce
  unfold commit
  dsimp only
  rw [hcheck]
  dsimp only
  rw [if_neg hgoes]
  rfl

theorem commit_of_failed (hcheck : rtCheck s (1 - yrdEpoch s) = (c, k)) (hc : 0 < c) :
    commit s = yrdFlag (checkRecorded s c k) 2 := by
  have hne : ¬ c = 0 := Nat.ne_of_gt hc
  unfold commit
  dsimp only
  rw [hcheck]
  dsimp only
  rw [if_neg (fun h => hne h.1 : ¬ (c = 0 ∧ s.rb (yrdA 0x24) 1 = true ∧ (!s.rb (yrdA 0x20) 1) = true)), if_neg hne]
  rfl

theorem completes_yrdCommit_of_passed (hcheck : rtCheck s (1 - yrdEpoch s) = (0, 0))
    (hdrain : s.rb (yrdA 0x24) 1 = false ∨ s.rb (yrdA 0x20) 1 = true) :
    Completes .yrdCommit s fun t => yrdEpoch t = 1 - yrdEpoch s ∧ t.rb (yrdA 0x24) 1 = true ∧
      t.rb (yrdA 0x24) 3 = true ∧ t.rb (yrdA 0xC) 2 = true ∧ t.bus = ⟨rspOk, 0⟩ ∧
      t = { s with regs := t.regs, resps := t.resps, msiRise := t.msiRise, bus := t.bus } ∧
      RegsBut [yrdA 0x24, yrdA 0xC, yrdA 0x54] s t := by
  obtain ⟨hframe, hregs⟩ := checkPassed_kept s
  have hexec : exec .yrdCommit s =
      .next ((yrdFlag (epochSwitched (checkPassed s) (1 - yrdEpoch s)) 2).answer rspOk 0) :=
    congrArg (fun u => Host.Outcome.next (State.answer u rspOk 0)) (commit_of_passed hcheck hdrain)
  have hstatus : (checkPassed s).rd (yrdA 0x24) = (checkRecorded s 0 0).rd (yrdA 0x24) :=
    hregs _ (by simp [yrdA])
  refine completes_of_exec hexec ⟨?epoch, ?draining, ?ok, rb_yrdFlag (by decide) _, rfl, ?frame, ?regs⟩
  case epoch =>
    refine (yrdEpoch_yrdFlag (by decide) _).trans ((yrdEpoch_epochSwitched ..).trans (Nat.mod_eq_of_lt ?_))
    omega
  case draining => exact (rb_yrdFlag_other (by decide) (by decide) _ 1).trans (rb_draining_epochSwitched ..)
  case ok =>
    refine (rb_yrdFlag_other (by decide) (by decide) _ 3).trans ((rb_ok_epochSwitched ..).trans ?_)
    rw [State.rb, hstatus]
    exact rb_ok_checkRecorded s 0 0
  case frame =>
    have hswitched := ((commitFrame_checkRecorded s 0 0).trans hframe).trans (commitFrame_epochSwitched _ (1 - yrdEpoch s))
    exact (hswitched.trans (commitFrame_yrdFlag _ 2)).answer rspOk 0
  case regs =>
    have hswitch := (regsBut_checkRecorded s 0 0).mono (l' := [yrdA 0x24, yrdA 0xC, yrdA 0x54]) (by simp)
    exact ((hswitch.trans (hregs.mono (by simp))).trans ((regsBut_epochSwitched _ _).mono (by simp))).trans
      ((regsBut_yrdFlag (by decide) _).mono (by simp))

theorem completes_yrdCommit_of_failed (hcheck : rtCheck s (1 - yrdEpoch s) = (c, k)) (hc : 0 < c) :
    Completes .yrdCommit s fun t => yrdEpoch t = yrdEpoch s ∧ t.rf (yrdA 0x24) 7 4 = c % 16 ∧
      t.rb (yrdA 0x24) 3 = false ∧ t.rb (yrdA 0xC) 2 = true ∧ RegsBut [yrdA 0x24, yrdA 0xC] s t := by
  have hexec : exec .yrdCommit s = .next ((yrdFlag (checkRecorded s c k) 2).answer rspOk 0) :=
    congrArg (fun u => Host.Outcome.next (State.answer u rspOk 0)) (commit_of_failed hcheck hc)
  refine completes_of_exec hexec ⟨?epoch, ?err, ?ok, rb_yrdFlag (by decide) _, ?regs⟩
  case epoch => exact (yrdEpoch_yrdFlag (by decide) _).trans (yrdEpoch_checkRecorded s c k)
  case err => exact (rf_yrdFlag_other (by decide) (by decide) _ 7 4).trans (rf_err_checkRecorded s c k)
  case ok =>
    refine (rb_yrdFlag_other (by decide) (by decide) _ 3).trans ((rb_ok_checkRecorded s c k).trans ?_)
    exact decide_eq_false (Nat.ne_of_gt hc)
  case regs =>
    exact ((regsBut_checkRecorded s c k).mono (by simp)).trans ((regsBut_yrdFlag (by decide) _).mono (by simp))

/-! ## The end of draining (R314) -/

theorem completes_yrdDrained (hdrain : s.rb (yrdA 0x24) 1 = true) (hempty : ∀ r, r < 96 → rtrDrain s r = 0) :
    Completes .yrdDrained s fun t => t.rb (yrdA 0x24) 1 = false ∧ t.rb (yrdA 0xC) 3 = true ∧ yrdEpoch t = yrdEpoch s ∧
      t = { s with regs := t.regs, msiRise := t.msiRise } ∧ RegsBut [yrdA 0x24, yrdA 0xC] s t := by
  have hall : (List.range 96).all (fun r => decide (rtrDrain s r = 0)) = true :=
    List.all_eq_true.mpr fun r hr => decide_eq_true (hempty r (List.mem_range.mp hr))
  have hexec : exec .yrdDrained s = .next (yrdFlag (s.wb (yrdA 0x24) 1 false) 3) :=
    congrArg Host.Outcome.next (if_pos ⟨hdrain, hall⟩)
  refine completes_of_exec hexec ⟨?draining, rb_yrdFlag (by decide) _, ?epoch, ?frame, ?regs⟩
  case draining => exact (rb_yrdFlag_other (by decide) (by decide) _ 1).trans (State.rb_wb_same _ _ _ _ (by decide))
  case epoch =>
    exact (yrdEpoch_yrdFlag (by decide) _).trans
      (State.rf_wf_other _ _ _ (by decide) (by decide) (by decide) (by decide))
  case frame => rw [frame_yrdFlag]; rfl
  case regs => exact ((regsBut_wb _ _ _ _).mono (by simp)).trans ((regsBut_yrdFlag (by decide) _).mono (by simp))

theorem completes_yrdDrainTmo (hdrain : s.rb (yrdA 0x24) 1 = true) :
    Completes .yrdDrainTmo s fun t => t.rb (yrdA 0xC) 4 = true ∧ t.rb (yrdA 0x24) 1 = true ∧
      t = { s with regs := t.regs, msiRise := t.msiRise } ∧ RegsBut [yrdA 0xC] s t := by
  have hexec : exec .yrdDrainTmo s = .next (yrdFlag s 4) := congrArg Host.Outcome.next (if_pos hdrain)
  exact completes_of_exec hexec ⟨rb_yrdFlag (by decide) s, (rb_yrdFlag_other (by decide) (by decide) s 1).trans hdrain,
    frame_yrdFlag s 4, regsBut_yrdFlag (by decide) s⟩

/-- Settles O6: each clause is the rule of that command, above. -/
theorem linksAndCommits : Obligations.LinksAndCommits := by
  intro s
  refine ⟨fun r port ex tail ep hr hport => ?flit, fun r dir q hr hdir _ => completes_linkRetrain hr hdir,
    completes_yrdCommit_of_passed, fun c k => completes_yrdCommit_of_failed,
    fun hdrain => ⟨completes_yrdDrained hdrain, completes_yrdDrainTmo hdrain⟩⟩
  case flit =>
    exact ⟨completes_flitReceive_of_good hr hport, completes_flitReceive_of_bad hr hport,
      completes_flitReceive_of_fourthBad hr hport⟩

end Sys2Proof.Machine
end

section
/-! PROOF of the statement on messages, responses and wakes that time out (10_yard_network.md R301, R304, R305, R309,
R310). -/

namespace Sys2Proof.Machine

variable {s t u : State} {r : YReq} {x : YResp} {v : Resv} {e k src dst seq : Nat}

/-! ## The way through the network (R298) -/

theorem routeDown_of_regs (hdown : t.down = s.down) (hregs : t.regs = s.regs) (e d n r : Nat) :
    routeDown t e d n r = routeDown s e d n r := by
  induction n generalizing r with
  | zero => rfl
  | succ n ih =>
    have hport : routePort t e r d = routePort s e r d := State.rf_of_regs hregs ..
    simp only [routeDown, hdown, hport]
    cases hq : neighbour r (routePort s e r d) with
    | none => rfl
    | some q => simp only [ih]

theorem State.cut_of_down (hdown : t.down = s.down) (hregs : t.regs = s.regs) (src dst : Nat) :
    t.cut src dst = s.cut src dst := by
  simp only [State.cut, yrdEpoch, hdown, State.rf_of_regs hregs, routeDown_of_regs hdown hregs]

/-! ## Messages and broadcasts (R301, R304) -/

theorem exec_yardMsg (hsrc : epExists r.src = true) : exec (.yardMsg r) s = .next (yardReq s 4 r) := by
  change yardRow 4 r s = _
  rw [yardRow, if_pos hsrc, if_pos (.inl rfl)]

/-- A message that has arrived changes nothing of the Yard. -/
theorem deliverReq_message (s : State) (r : YReq) (dst : Nat) : deliverReq s 4 r dst = s := rfl

theorem completes_yardMsg_of_open (hsrc : epExists r.src = true) (hopen : s.fenced r.src = false)
    (hdst : epExists r.addr = true) (hone : r.addr ≠ 0xFFF) (hdstOpen : s.fenced r.addr = false)
    (hcut : s.cut r.src r.addr = false) (hready : s.shedReady (epShed r.addr) = true) :
    Completes (.yardMsg r) s fun t => t = s := by
  have harrives : yardReq s 4 r = s := by
    simp [yardReq, deliverReq_message, hopen, hdst, hone, hdstOpen, hcut, hready]
  exact completes_of_exec (exec_yardMsg hsrc) harrives

/-- An ordinary-class broadcast names no endpoint. -/
theorem completes_yardMsg_of_ordinaryBroadcast (hsrc : epExists r.src = true) (hopen : s.fenced r.src = false)
    (hall : r.addr = 0xFFF) (hexp : r.exp = false) :
    Completes (.yardMsg r) s fun t => t = { s with bus := ⟨rspNone, 0⟩ } := by
  have hnone : yardReq s 4 r = s.answer rspNone 0 := by simp [yardReq, hopen, hall, hexp]
  exact completes_of_exec (exec_yardMsg hsrc) hnone

theorem epSt_discardAt (s : State) (f e : Nat) : (s.discardAt f).epSt e =
    if f = e then { s.epSt f with discard := sat32 ((s.epSt f).discard + 1) } else s.epSt e :=
  s.epSt_setEp f e { s.epSt f with discard := sat32 ((s.epSt f).discard + 1) }

/-- Each endpoint at which a worm is discarded counts it once. -/
theorem discard_foldl_discardAt {l : List Nat} (hl : l.Nodup) (s : State) (e : Nat) :
    ((l.foldl State.discardAt s).epSt e).discard =
      if e ∈ l then sat32 ((s.epSt e).discard + 1) else (s.epSt e).discard := by
  induction l generalizing s with
  | nil => rfl
  | cons f l ih =>
    obtain ⟨hf, hl⟩ := List.nodup_cons.mp hl
    rw [List.foldl_cons, ih hl, epSt_discardAt]
    by_cases hfe : f = e
    · subst hfe
      simp [hf]
    · simp [hfe, Ne.symm hfe]

theorem frame_foldl_discardAt (l : List Nat) (s : State) :
    l.foldl State.discardAt s = { s with eps := (l.foldl State.discardAt s).eps } := by
  induction l generalizing s with
  | nil => rfl
  | cons f l ih =>
    rw [List.foldl_cons, ih]
    rfl

/-- The endpoints at which a broadcast is discarded (R309). -/
abbrev fencedEps (s : State) : List Nat := (List.range 3072).filter fun e => epExists e && s.fenced e

theorem mem_fencedEps (he : e < 3072) : e ∈ fencedEps s ↔ epExists e = true ∧ s.fenced e = true := by
  rw [List.mem_filter, List.mem_range, Bool.and_eq_true, and_iff_right he]

theorem completes_yardMsg_of_expressBroadcast (hsrc : epExists r.src = true) (hopen : s.fenced r.src = false)
    (hall : r.addr = 0xFFF) (hexp : r.exp = true) :
    Completes (.yardMsg r) s fun t =>
      (∀ e, e < 3072 → (t.epSt e).discard =
        if epExists e = true ∧ s.fenced e = true then sat32 ((s.epSt e).discard + 1) else (s.epSt e).discard) ∧
      t = { s with eps := t.eps } := by
  have hdiscards : yardReq s 4 r = (fencedEps s).foldl State.discardAt s := by simp [yardReq, hopen, hall, hexp]
  refine completes_of_exec ((exec_yardMsg hsrc).trans (congrArg _ hdiscards)) ⟨fun e he => ?_, frame_foldl_discardAt _ s⟩
  rw [discard_foldl_discardAt (List.nodup_range.filter _), if_congr (mem_fencedEps he) rfl rfl]

theorem yardMessages : YardMessages := fun _ _ hsrc hopen =>
  ⟨completes_yardMsg_of_open hsrc hopen, completes_yardMsg_of_expressBroadcast hsrc hopen,
    completes_yardMsg_of_ordinaryBroadcast hsrc hopen⟩

/-! ## Responses (R309, R310) -/

theorem exec_yardResponse (hx : s.resps.find? (fun x => decide (x.src = src ∧ x.seq = seq)) = some x) :
    exec (.yardResponse src seq) s = .next (respond { s with resps := s.resps.erase x } x) := by
  change execYardResponse src seq s = _
  simp only [execYardResponse, yardResponse, hx]

theorem respond_of_current
    (hv : s.resvs.find? (fun v => decide (v.src = x.src ∧ v.seq = x.seq ∧ v.gen = x.gen)) = some v)
    (hopen : s.fenced x.src = false) (hgen : (s.epSt x.src).gen = x.gen) (hdstGen : (s.epSt x.dst).gen = x.dstGen)
    (hcut : s.cut x.dst x.src = false) :
    respond s x = ({ s with resvs := s.resvs.erase v } : State).answer x.code
      (if x.code = rspOk then leNat x.data else 0) := by
  have hcurrent : ¬ (s.fenced x.src = true ∨ (s.epSt x.src).gen ≠ x.gen ∨ (s.epSt x.dst).gen ≠ x.dstGen) := by
    simp [hopen, hgen, hdstGen]
  simp only [respond, hv, if_neg hcurrent, back_of_not_cut hcut]

/-- A response is stale if its initiator is fenced, a generation has changed or nothing waits for it. -/
theorem respond_of_stale (hstale : s.fenced x.src = true ∨ (s.epSt x.src).gen ≠ x.gen ∨ (s.epSt x.dst).gen ≠ x.dstGen ∨
    ∀ v ∈ s.resvs, ¬ (v.src = x.src ∧ v.seq = x.seq ∧ v.gen = x.gen)) : respond s x = s.cnt (yrdA 0x4C) 1 := by
  unfold respond
  dsimp only
  cases hv : s.resvs.find? (fun v => decide (v.src = x.src ∧ v.seq = x.seq ∧ v.gen = x.gen)) with
  | none => rfl
  | some v =>
    have hwaits : v.src = x.src ∧ v.seq = x.seq ∧ v.gen = x.gen := by simpa using List.find?_some hv
    have hchanged : s.fenced x.src = true ∨ (s.epSt x.src).gen ≠ x.gen ∨ (s.epSt x.dst).gen ≠ x.dstGen := by
      rcases hstale with h | h | h | h
      · exact .inl h
      · exact .inr (.inl h)
      · exact .inr (.inr h)
      · exact absurd hwaits (h v (List.mem_of_find?_eq_some hv))
    exact if_pos hchanged

theorem completes_yardResponse_of_current
    (hx : s.resps.find? (fun x => decide (x.src = src ∧ x.seq = seq)) = some x)
    (hv : s.resvs.find? (fun v => decide (v.src = x.src ∧ v.seq = x.seq ∧ v.gen = x.gen)) = some v)
    (hopen : s.fenced x.src = false) (hgen : (s.epSt x.src).gen = x.gen) (hdstGen : (s.epSt x.dst).gen = x.dstGen)
    (hcut : s.cut x.dst x.src = false) :
    Completes (.yardResponse src seq) s fun t => t.bus = ⟨x.code, if x.code = rspOk then leNat x.data else 0⟩ ∧
      t = { s with resps := s.resps.erase x, resvs := s.resvs.erase v, bus := t.bus } := by
  have hcut' : ({ s with resps := s.resps.erase x } : State).cut x.dst x.src = false :=
    (State.cut_of_down rfl rfl _ _).trans hcut
  exact completes_of_exec ((exec_yardResponse hx).trans (congrArg _ (respond_of_current hv hopen hgen hdstGen hcut')))
    ⟨rfl, rfl⟩

theorem completes_yardResponse_of_stale (hx : s.resps.find? (fun x => decide (x.src = src ∧ x.seq = seq)) = some x)
    (hstale : s.fenced x.src = true ∨ (s.epSt x.src).gen ≠ x.gen ∨ (s.epSt x.dst).gen ≠ x.dstGen ∨
      ∀ v ∈ s.resvs, ¬ (v.src = x.src ∧ v.seq = x.seq ∧ v.gen = x.gen)) :
    Completes (.yardResponse src seq) s fun t => t.rd (yrdA 0x4C) = sat32 (s.rd (yrdA 0x4C) + 1) ∧
      t = { s with resps := s.resps.erase x, regs := t.regs } ∧ RegsBut [yrdA 0x4C] s t := by
  have hregs : ({ s with resps := s.resps.erase x } : State).regs = s.regs := rfl
  have hframe (u : State) (n : Nat) : RegFrame u (u.cnt (yrdA 0x4C) n) := rfl
  exact completes_of_exec ((exec_yardResponse hx).trans (congrArg _ (respond_of_stale hstale)))
    ⟨rd_cnt_of_regs hregs _ 1, hframe _ 1, (regsBut_of_regs hregs).trans (regsBut_cnt _ _ 1)⟩

/-! ## Wakes that time out (R305) -/

/-- One worm leaves the interface whose wake timer expired: counted, and answered RSP_WAKE if it is a request. -/
def wakeFailed (s : State) (y : Held) : State :=
  if y.kind = 2 ∨ y.kind = 4 then s.cnt (yrdA 0x50) 1
  else { s.cnt (yrdA 0x50) 1 with
    resps := s.resps ++ [⟨y.req.src, y.req.seq, y.req.gen, rspWake, [], y.dst, (s.epSt y.dst).gen, yrdEpoch s⟩] }

/-- From `s` to `t` the worms `l` have left their interfaces. -/
structure WakesFailed (l : List Held) (s t : State) : Prop where
  frame : t = { s with resps := t.resps, regs := t.regs }
  regs : RegsBut [yrdA 0x50] s t
  kept : ∀ z ∈ s.resps, z ∈ t.resps
  answered : ∀ y ∈ l, y.kind ≠ 2 → y.kind ≠ 4 → ∃ z ∈ t.resps, z.src = y.req.src ∧ z.seq = y.req.seq ∧ z.code = rspWake

theorem wakesFailed_wakeFailed (s : State) (y : Held) : WakesFailed [y] s (wakeFailed s y) := by
  have hframe (l : List YResp) (n : Nat) : ({ s.cnt (yrdA 0x50) n with resps := l } : State) =
      { s with resps := l, regs := (s.cnt (yrdA 0x50) n).regs } := rfl
  have hcount := regsBut_cnt s (yrdA 0x50) 1
  unfold wakeFailed
  split
  · next hposted =>
    refine ⟨hframe s.resps 1, hcount, fun _ hz => hz, fun y' hy' h2 h4 => ?_⟩
    rw [List.mem_singleton.mp hy'] at h2 h4
    exact absurd hposted (not_or.mpr ⟨h2, h4⟩)
  · refine ⟨hframe _ 1, hcount.trans (regsBut_of_regs rfl), fun _ hz => List.mem_append_left _ hz, fun y' hy' _ _ => ?_⟩
    rw [List.mem_singleton.mp hy']
    exact ⟨_, List.mem_append_right _ (List.mem_singleton.mpr rfl), rfl, rfl, rfl⟩

theorem WakesFailed.append {l l' : List Held} (h1 : WakesFailed l s t) (h2 : WakesFailed l' t u) :
    WakesFailed (l ++ l') s u := by
  refine ⟨?frame, h1.regs.trans h2.regs, fun z hz => h2.kept z (h1.kept z hz), fun y hy hk2 hk4 => ?answered⟩
  case frame =>
    have hframe := h2.frame
    rw [h1.frame] at hframe
    exact hframe
  case answered =>
    rcases List.mem_append.mp hy with hy | hy
    · obtain ⟨z, hz, hrest⟩ := h1.answered y hy hk2 hk4
      exact ⟨z, h2.kept z hz, hrest⟩
    · exact h2.answered y hy hk2 hk4

theorem wakesFailed_foldl (l : List Held) (s : State) : WakesFailed l s (l.foldl wakeFailed s) := by
  induction l generalizing s with
  | nil => exact ⟨rfl, fun _ _ => rfl, fun _ hz => hz, fun _ hy => absurd hy List.not_mem_nil⟩
  | cons y l ih => exact (wakesFailed_wakeFailed s y).append (ih _)

/-- The wake timer of the worm `y` for shed `k` has expired at `now`. -/
def wakeDue (s : State) (k now : Nat) (y : Held) : Bool := decide (y.shed = k) && decide (y.start + wakeTmo s ≤ now)

theorem wakeDue_iff {now : Nat} {y : Held} : wakeDue s k now y = true ↔ y.shed = k ∧ y.start + wakeTmo s ≤ now := by
  simp [wakeDue]

/-- The worms held for shed `k`. -/
abbrev heldFor (s : State) (k : Nat) : List Held := s.held.filter fun y => decide (y.shed = k)

theorem mem_heldFor {y : Held} : y ∈ heldFor s k ↔ y ∈ s.held ∧ y.shed = k := by simp [heldFor]

/-- The state at time `now`, without the worms of shed `k` whose timers have expired. -/
def heldReleased (s : State) (k now : Nat) : State :=
  { s with now := now, held := s.held.filter fun y => !wakeDue s k now y }

/-- The earliest start of a list of worms is the start of one of them. -/
theorem exists_start_eq_foldl_min (h : Held) (l : List Held) :
    ∃ y ∈ h :: l, y.start = l.foldl (fun m y => min m y.start) h.start := by
  induction l using List.reverseRecOn with
  | nil => exact ⟨h, List.mem_cons_self, rfl⟩
  | append_singleton l z ih =>
    obtain ⟨y, hy, hstart⟩ := ih
    rw [List.foldl_append, List.foldl_cons, List.foldl_nil, ← hstart]
    rcases Nat.le_total y.start z.start with hle | hle
    · rw [Nat.min_eq_left hle]
      exact ⟨y, List.mem_append_left [z] hy, rfl⟩
    · rw [Nat.min_eq_right hle]
      exact ⟨z, by simp, rfl⟩

/-- A wake timer of shed `k` expires: the worms due leave, at a time at which at least one is due. -/
theorem exists_wakeTimeout_eq {y : Held} (hy : y ∈ heldFor s k) : ∃ now, (∃ z ∈ heldFor s k, z.start + wakeTmo s ≤ now) ∧
    wakeTimeout s k = ((heldFor s k).filter (wakeDue s k now)).foldl wakeFailed (heldReleased s k now) := by
  cases hl : heldFor s k with
  | nil =>
    rw [hl] at hy
    exact absurd hy List.not_mem_nil
  | cons h l =>
    obtain ⟨z, hz, hstart⟩ := exists_start_eq_foldl_min h l
    refine ⟨max s.now (l.foldl (fun m y => min m y.start) h.start + wakeTmo s),
      ⟨z, hz, hstart ▸ Nat.le_max_right ..⟩, ?_⟩
    have hmine : s.held.filter (fun y => decide (y.shed = k)) = h :: l := hl
    simp only [wakeTimeout, hmine]
    rfl

theorem completes_wakeTimeout {y : Held} (hk : k < 50) (hy : y ∈ s.held) (hshed : y.shed = k) :
    Completes (.wakeTimeout k) s fun t =>
      (∃ y ∈ s.held, y.shed = k ∧ y.start + wakeTmo s ≤ t.now ∧ y ∉ t.held) ∧
      (∀ y ∈ t.held, y.shed = k → t.now < y.start + wakeTmo s) ∧
      (∀ y ∈ s.held, y.shed ≠ k → y ∈ t.held) ∧
      (∀ y ∈ s.held, y.shed = k → y ∉ t.held → y.kind ≠ 2 → y.kind ≠ 4 →
        ∃ z ∈ t.resps, z.src = y.req.src ∧ z.seq = y.req.seq ∧ z.code = rspWake) ∧
      t = { s with now := t.now, held := t.held, resps := t.resps, regs := t.regs } ∧ RegsBut [yrdA 0x50] s t := by
  obtain ⟨now, ⟨z, hz, hzDue⟩, hwake⟩ := exists_wakeTimeout_eq (mem_heldFor.mpr ⟨hy, hshed⟩)
  have hfailed := wakesFailed_foldl ((heldFor s k).filter (wakeDue s k now)) (heldReleased s k now)
  rw [← hwake] at hfailed
  obtain ⟨hframe, hregs, -, hanswered⟩ := hfailed
  have hnow : (wakeTimeout s k).now = now := by rw [hframe]; rfl
  have hheld : (wakeTimeout s k).held = s.held.filter fun y => !wakeDue s k now y := by rw [hframe]; rfl
  have hstays {y : Held} : y ∈ (wakeTimeout s k).held ↔ y ∈ s.held ∧ ¬ (y.shed = k ∧ y.start + wakeTmo s ≤ now) := by
    rw [hheld, List.mem_filter, Bool.not_eq_true', ← Bool.not_eq_true, wakeDue_iff]
  obtain ⟨hzHeld, hzShed⟩ := mem_heldFor.mp hz
  refine completes_of_exec (if_pos hk) ⟨⟨z, hzHeld, hzShed, ?due, fun h => ?left⟩, fun y hy hyShed => ?early,
    fun y hy hyShed => ?other, fun y hy hyShed hyLeft => ?answered, ?frame, hregs⟩
  case due => rwa [hnow]
  case left => exact (hstays.mp h).2 ⟨hzShed, hzDue⟩
  case early =>
    rw [hnow]
    exact Nat.lt_of_not_le fun hle => (hstays.mp hy).2 ⟨hyShed, hle⟩
  case other => exact hstays.mpr ⟨hy, fun h => hyShed h.1⟩
  case answered =>
    have hyDue : wakeDue s k now y = true := by
      by_contra hnot
      exact hyLeft (hstays.mpr ⟨hy, fun h => hnot (wakeDue_iff.mpr h)⟩)
    exact hanswered y (List.mem_filter.mpr ⟨mem_heldFor.mpr ⟨hy, hyShed⟩, hyDue⟩)
  case frame =>
    generalize wakeTimeout s k = t at *
    rw [hframe]
    rfl

theorem responsesAndWakes : ResponsesAndWakes := fun _ =>
  ⟨fun _ _ _ hx => ⟨fun _ => completes_yardResponse_of_current hx, completes_yardResponse_of_stale hx⟩,
    fun _ _ => completes_wakeTimeout⟩

/-- Settles O5: the messages, then the responses and wakes, above. -/
theorem messagesResponsesAndWakes : Obligations.MessagesResponsesAndWakes := ⟨yardMessages, responsesAndWakes⟩

end Sys2Proof.Machine
end

section
/-! PROOFS on the Barn's memory behind one port (10_yard_network.md R296, 11_memories_ecc.md R331, R335, R339): where it lies,
and what a read, a write and an indivisible operation make of it while its controller finds no error and has no injection
armed. -/

namespace Sys2Proof.Machine

variable {s : State} {a b n p w src op x : Nat} {km : Bool} {l : List Byte}

/-! ## Where the Barn lies (R18) -/

theorem blockRegion_ne_barn (b o p : Nat) : blockRegion b o ≠ .barn p := by
  unfold blockRegion
  dsimp only
  repeat' split
  all_goals exact nofun

theorem engRegion_ne_barn (c o p : Nat) : engRegion c o ≠ .barn p := by
  unfold engRegion
  dsimp only
  repeat' split
  all_goals exact nofun

theorem stableRegion_ne_barn (n o p : Nat) : stableRegion n o ≠ .barn p := by
  obtain ⟨i, -, hmem | hmem | hmem⟩ | hhole | ⟨base, rows, hregs⟩ := stableRegion_cases n o
  · rw [hmem]; exact nofun
  · rw [hmem]; exact nofun
  · rw [hmem]; exact nofun
  · rw [hhole]; exact nofun
  · rw [hregs]; exact nofun

theorem lt_barnSize_of_barn (h : regionOf a = .barn p) : a < barnSize := by
  by_contra hbarn
  rw [regionOf, if_neg hbarn] at h
  split at h
  · exact stableRegion_ne_barn _ _ _ h
  split at h
  · exact engRegion_ne_barn _ _ _ h
  split at h
  · exact blockRegion_ne_barn _ _ _ h
  split at h
  · cases h
  split at h
  · cases h
  · cases h

/-- One 256-byte block of the Barn lies behind one port (R296). -/
theorem regionOf_of_block (h : regionOf a = .barn p) (hblock : b / 256 = a / 256) : regionOf b = .barn p := by
  have ha : a < barnSize := lt_barnSize_of_barn h
  have hb : b < barnSize := by simp only [barnSize] at ha ⊢; omega
  have hport : fld b 11 8 = fld a 11 8 := by simp only [fld, Nat.shiftRight_eq_div_pow]; omega
  have hbank : b / 0x0C000000 = a / 0x0C000000 := by omega
  rw [regionOf_of_barn hb, hport, hbank, ← regionOf_of_barn ha, h]

/-! ## Accesses (R331, R335) -/

/-- The controller of port `p` finds no error in a word and has no injection armed. -/
structure PortClean (s : State) (p : Nat) : Prop where
  ecc : s.ecc = []
  unarmed : s.rb (eccA p 0x30) 0 = false

theorem PortClean.store (h : PortClean s p) (a : Nat) (l : List Byte) : PortClean (s.store a l) p := ⟨h.ecc, h.unarmed⟩

theorem injectAt_of_unarmed (h : s.rb (eccA p 0x30) 0 = false) (w : Nat) : injectAt s p w = s :=
  if_neg (by rw [show tb (s.rd (eccA p 0x30)) 0 = false from h, Bool.false_and]; exact Bool.false_ne_true)

theorem writeWord_of_portClean (h : PortClean s p) (hw : regionOf w = .barn p) (near : Bool) (a : Nat) (l : List Byte)
    (req : Nat) : s.writeWord near w a l req = (false, s.store a l) := by
  have hctl : ctlOf w = some p := by rw [ctlOf, hw]
  have hgood := wordSt_of_noEcc h.ecc (Nat.lt_trans (lt_barnSize_of_barn hw) (by decide : barnSize < ddrBase))
  have hvalid : (s.store a l).setEcc w 0 = s.store a l :=
    congrArg (fun e => { s.store a l with ecc := e })
      ((congrArg (fun e => tset (fun _ => 0) e w 0) h.ecc).trans h.ecc.symm : tset (fun _ => 0) s.ecc w 0 = s.ecc)
  simp only [State.writeWord, hctl, hgood, hvalid, injectAt_of_unarmed (h.store a l).unarmed, ite_self]

/-- A write within one block, which lies behind one port. -/
theorem writeWords_of_portClean {k base : Nat} (hblock : ∀ w, base ≤ w → w < base + 256 → regionOf w = .barn p)
    (hbase : base % 256 = 0) (near : Bool) (req : Nat) (h : PortClean s p) (ha : base ≤ a) (hend : a + l.length ≤ base + 256)
    (hk : a % 16 + l.length ≤ 16 * k) : s.writeWords near req k a l = (false, s.store a l) := by
  induction k generalizing s a l with
  | zero =>
    have hl : l = [] := List.eq_nil_of_length_eq_zero (by omega)
    rw [hl]
    rfl
  | succ k ih =>
    by_cases hl : l = []
    · rw [hl]
      rfl
    · have hpos : 0 < l.length := List.length_pos_of_ne_nil hl
      have hword := writeWord_of_portClean h (hblock (a / 16 * 16) (by omega) (by omega)) near a
        (l.take (a / 16 * 16 + 16 - a)) req
      have hrest := ih (h.store a (l.take (a / 16 * 16 + 16 - a))) (a := a + (a / 16 * 16 + 16 - a))
        (l := l.drop (a / 16 * 16 + 16 - a)) (by omega) (by rw [List.length_drop]; omega) (by rw [List.length_drop]; omega)
      simp only [State.writeWords, if_neg hl, hword, hrest, store_take_drop, Bool.or_false]

theorem writeMem_of_portClean (h : PortClean s p) (hregion : regionOf a = .barn p) (hfit : a % 256 + l.length ≤ 256)
    (req : Nat) : s.writeMem a l req = (false, s.store a l) :=
  writeWords_of_portClean (base := a / 256 * 256) (fun _ _ _ => regionOf_of_block hregion (by omega)) (by omega) false req h
    (by omega) (by omega) (by omega)

theorem tgtRead_of_clean (hecc : s.ecc = []) (hregion : regionOf a = .barn p) (hfit : a % 256 + n ≤ 256) (src : Nat) :
    tgtRead s src a n = (rspOk, s.bytes a n, s) := by
  have ha := lt_barnSize_of_barn hregion
  have hread := readMem_of_sram hecc (a := a) (n := n) (by simp only [ddrBase, barnSize] at ha ⊢; omega) 0 src
  simp [tgtRead, hregion, ddrAnswer_of_barn ha, hread]

theorem tgtWrite_of_portClean (h : PortClean s p) (hregion : regionOf a = .barn p) (hfit : a % 256 + l.length ≤ 256)
    (src : Nat) (km : Bool) : tgtWrite s src km a l = (rspOk, s.store a l) := by
  have ha := lt_barnSize_of_barn hregion
  have hwritable : memWritable s src a l.length = true := by simp only [memWritable, hregion]
  simp [tgtWrite, hregion, ddrAnswer_of_barn ha, hwritable, not_shedOf_lt_of_barn ha, writeMem_of_portClean h hregion hfit]

/-- An indivisible operation returns the old value and stores the new one (R297). -/
theorem tgtRmw_of_portClean (h : PortClean s p) (hregion : regionOf a = .barn p) (halign : a % 8 = 0)
    (hx : rmwValue op (s.ld a 8) l = some x) (src : Nat) :
    tgtRmw s src a 8 op l = (rspOk, s.bytes a 8, s.st a 8 x) := by
  have hread := tgtRead_of_clean h.ecc hregion (n := 8) (by omega) src
  have hwrite := tgtWrite_of_portClean h hregion (l := natLe 8 x) (by rw [length_natLe]; omega) src false
  have hvalue : rmwValue op (leNat (s.bytes a 8)) l = some x := hx
  simp [tgtRmw, hregion, halign, hread, hvalue, hwrite, State.st]

end Sys2Proof.Machine
end

section
/-! PROOF of the statement on RD, WR, WRP and RMW (10_yard_network.md R296, R297, R302, R305, R309, R310): a request on its
way to its target, what the target makes of it and the one response that goes back. -/

namespace Sys2Proof.Machine

variable {s t : State} {r : YReq} {op port dst : Nat} {c : Instr}

/-! ## The commands -/

theorem exec_yardRd (hsrc : epExists r.src = true) (hok : reqOk r = true) : exec (.yardRd r) s = .next (yardReq s 0 r) := by
  change yardRow 0 r s = _
  rw [yardRow, if_pos hsrc, if_pos (.inr hok)]

theorem exec_yardWr (hsrc : epExists r.src = true) (hok : reqOk r = true) : exec (.yardWr r) s = .next (yardReq s 1 r) := by
  change yardRow 1 r s = _
  rw [yardRow, if_pos hsrc, if_pos (.inr hok)]

theorem exec_yardWrp (hsrc : epExists r.src = true) (hok : reqOk r = true) : exec (.yardWrp r) s = .next (yardReq s 2 r) := by
  change yardRow 2 r s = _
  rw [yardRow, if_pos hsrc, if_pos (.inr hok)]

theorem exec_yardRmw (hsrc : epExists r.src = true) (hok : reqOk r = true) : exec (.yardRmw r) s = .next (yardReq s 3 r) := by
  change yardRow 3 r s = _
  rw [yardRow, if_pos hsrc, if_pos (.inr hok)]

/-- The opcodes of requests that are answered: neither a posted write nor a message (R297). -/
abbrev Answered (op : Nat) : Prop := op ≠ 2 ∧ op ≠ 4

/-- RD, WR and RMW inject a request that is answered. -/
theorem exists_answered_of_mem (hc : c ∈ [Instr.yardRd r, Instr.yardWr r, Instr.yardRmw r]) (hsrc : epExists r.src = true)
    (hok : reqOk r = true) : ∃ op, Answered op ∧ exec c s = .next (yardReq s op r) := by
  simp only [List.mem_cons, List.not_mem_nil, or_false] at hc
  rcases hc with rfl | rfl | rfl
  · exact ⟨0, by decide, exec_yardRd hsrc hok⟩
  · exact ⟨1, by decide, exec_yardWr hsrc hok⟩
  · exact ⟨3, by decide, exec_yardRmw hsrc hok⟩

theorem reqOk_fit (h : reqOk r = true) : r.addr % 256 + r.len ≤ 256 := by
  simp only [reqOk, Bool.and_eq_true, decide_eq_true_eq] at h
  exact h.1.2.2

/-! ## On the way (R302, R304, R305, R309) -/

theorem localize_of_local (hlocal : isRemote r.addr = false) (s : State) : localize s r.addr = r.addr := by
  unfold localize
  split
  · next w hw =>
    rw [isRemote, hw] at hlocal
    cases hlocal
  · rfl

theorem busDst_of_local (hlocal : isRemote r.addr = false) (s : State) : busDst r.src (localize s r.addr) = epOf r.addr := by
  rw [localize_of_local hlocal, busDst, hlocal]
  rfl

/-- The request's reservation is taken (R302). -/
def reserved (s : State) (r : YReq) : State :=
  { s with resvs := s.resvs ++ [⟨r.src, r.seq, r.gen, epOf r.addr, s.now⟩] }

/-- A reservation is free and the request's tag is not in use. -/
theorem not_waits_of_mayIssue (h : MayIssue s r) :
    ¬ (resvLimit r.src ≤ (s.resvs.filter (fun v => decide (v.src = r.src))).length ∨
      s.resvs.any (fun v => decide (v.src = r.src ∧ v.seq = r.seq ∧ v.gen = r.gen)) = true) := by
  obtain ⟨-, hfree, hunused⟩ := h
  rintro (hfull | hused)
  · exact Nat.not_lt.mpr hfull hfree
  · obtain ⟨v, hv, hsame⟩ := List.any_eq_true.mp hused
    exact hunused v hv (of_decide_eq_true hsame)

/-- The request `r` may be issued, and no link on its way to a local target is DOWN. -/
structure SetsOut (s : State) (r : YReq) : Prop where
  isLocal : isRemote r.addr = false
  issue : MayIssue s r
  src : epExists r.src = true
  srcOpen : s.fenced r.src = false
  one : epOf r.addr ≠ 0xFFF
  dst : epExists (epOf r.addr) = true
  uncut : s.cut r.src (epOf r.addr) = false

theorem setsOut_of_reaches (hlocal : isRemote r.addr = false) (hissue : MayIssue s r)
    (hreach : Reaches s r.src (epOf r.addr)) : SetsOut s r := by
  obtain ⟨hone, hsrc, hdst, hsrcOpen, -, hcut, -, -⟩ := hreach
  exact ⟨hlocal, hissue, hsrc, hsrcOpen, hone, hdst, hcut⟩

/-- A request that is answered takes its way to a target that is not fenced: it is delivered there, or held. -/
theorem yardReq_of_answered (hop : Answered op) (h : SetsOut s r) (hdstOpen : s.fenced (epOf r.addr) = false) :
    yardReq s op r = if s.shedReady (epShed (epOf r.addr)) then deliverReq (reserved s r) op r (epOf r.addr)
      else holdWorm (reserved s r) op r (epOf r.addr) := by
  obtain ⟨hop2, hop4⟩ := hop
  obtain ⟨hlocal, hissue, -, hsrcOpen, hone, hdst, hcut⟩ := h
  have hissues := not_waits_of_mayIssue hissue
  simp only [yardReq, hop2, hop4, busDst_of_local hlocal, hissues, hsrcOpen, hone, hdst, hcut, hdstOpen, or_self,
    decide_false, Bool.not_true, Bool.false_eq_true, and_false, if_false]
  rfl

/-- A fenced target absorbs a request that is answered (R309). -/
theorem yardReq_of_fenced (hop : Answered op) (h : SetsOut s r) (hfenced : s.fenced (epOf r.addr) = true) :
    yardReq s op r = (s.absorb (epOf r.addr)).answer rspFenced 0 := by
  obtain ⟨hop2, hop4⟩ := hop
  obtain ⟨hlocal, hissue, -, hsrcOpen, hone, hdst, hcut⟩ := h
  have hissues := not_waits_of_mayIssue hissue
  simp only [yardReq, hop2, hop4, busDst_of_local hlocal, hissues, hsrcOpen, hone, hdst, hcut, hfenced, or_self,
    decide_false, Bool.not_true, Bool.false_eq_true, and_false, if_false, if_true]

/-- A posted write reaches its target without a reservation. -/
theorem yardReq_of_posted (hlocal : isRemote r.addr = false) (hreach : Reaches s r.src (epOf r.addr)) :
    yardReq s 2 r = deliverReq s 2 r (epOf r.addr) := by
  obtain ⟨hone, -, hdst, hsrcOpen, hdstOpen, hcut, -, hready⟩ := hreach
  simp [yardReq, busDst_of_local hlocal, hsrcOpen, hone, hdst, hcut, hdstOpen, hready]

/-! ## At the target (R297, R310) -/

/-- What the target answers to a request: code, data and the state it leaves. -/
def served (s : State) (op : Nat) (r : YReq) : Nat × List Byte × State :=
  match op with
  | 0 => tgtRead s r.src r.addr r.len
  | 1 => let t := tgtWrite s r.src r.km r.addr (sub r.data 0 r.len); (t.1, [], t.2)
  | _ => tgtRmw s r.src r.addr r.len r.op r.data

/-- The response to `r` with the tag of its initiator, the generation of its target and the epoch as they are in `s`. -/
def responseTo (s : State) (r : YReq) (code : Nat) (data : List Byte) : YResp :=
  ⟨r.src, r.seq, r.gen, code, if code = rspOk then data else [], epOf r.addr, (s.epSt (epOf r.addr)).gen, yrdEpoch s⟩

/-- A response goes on its way. -/
def sends (s : State) (x : YResp) : State := { s with resps := s.resps ++ [x] }

/-- A local request that is answered is served, and one response to it goes on its way. -/
theorem deliverReq_of_answered (hop : Answered op) (hlocal : isRemote r.addr = false) (s : State) :
    deliverReq s op r (epOf r.addr) =
      sends (served s op r).2.2 (responseTo s r (served s op r).1 (served s op r).2.1) := by
  obtain ⟨hop2, hop4⟩ := hop
  unfold deliverReq
  dsimp only
  rw [if_neg hop4, localize_of_local hlocal, hlocal, if_neg Bool.false_ne_true]
  match op with
  | 0 => rfl
  | 1 => rfl
  | 2 => exact absurd rfl hop2
  | n + 3 => rfl

theorem deliverReq_of_posted (hlocal : isRemote r.addr = false) (s : State) :
    deliverReq s 2 r dst = (tgtWrite s r.src r.km r.addr (sub r.data 0 r.len)).2 := by
  simp [deliverReq, localize_of_local hlocal, hlocal]

/-- A request that reaches its target is served there. -/
theorem yardReq_of_reaches (hop : Answered op) (hlocal : isRemote r.addr = false) (hissue : MayIssue s r)
    (hreach : Reaches s r.src (epOf r.addr)) : yardReq s op r = sends (served (reserved s r) op r).2.2
      (responseTo s r (served (reserved s r) op r).1 (served (reserved s r) op r).2.1) := by
  have hsets := setsOut_of_reaches hlocal hissue hreach
  obtain ⟨-, -, -, -, hdstOpen, -, -, hready⟩ := hreach
  rw [yardReq_of_answered hop hsets hdstOpen, if_pos hready, deliverReq_of_answered hop hlocal]
  rfl

/-- R297, R302, R310: one response goes back, with the initiator's tag, the target's generation and the epoch. -/
theorem completes_answered (hlocal : isRemote r.addr = false) (hreach : Reaches s r.src (epOf r.addr))
    (hissue : MayIssue s r) (hc : c ∈ [Instr.yardRd r, Instr.yardWr r, Instr.yardRmw r]) :
    Completes c s fun t => ∃ (l : List YResp) (x : YResp), t.resps = l ++ [x] ∧ x.src = r.src ∧ x.seq = r.seq ∧ x.gen = r.gen ∧
      x.dst = epOf r.addr ∧ x.dstGen = (s.epSt (epOf r.addr)).gen ∧ x.epoch = yrdEpoch s ∧
      (x.code ≠ rspOk → x.data = []) := by
  obtain ⟨op, hop, hexec⟩ := exists_answered_of_mem (s := s) hc (wayBack_of_reaches hreach).1 hissue.1
  rw [yardReq_of_reaches hop hlocal hissue hreach] at hexec
  exact completes_of_exec hexec ⟨_, _, rfl, rfl, rfl, rfl, rfl, rfl, rfl, fun hcode => if_neg hcode⟩

/-! ## Clean memory of the Barn (R297, R331, R335) -/

theorem sub_zero_of_length {l : List Byte} {n : Nat} (h : l.length = n) : sub l 0 n = l := by
  simp [sub, ← h]

theorem PortClean.reserved (h : PortClean s port) (r : YReq) : PortClean (reserved s r) port := ⟨h.ecc, h.unarmed⟩

section
variable (hregion : regionOf r.addr = .barn port) (hclean : PortClean s port)
include hregion hclean

theorem served_read (hok : reqOk r = true) : served s 0 r = (rspOk, s.bytes r.addr r.len, s) :=
  tgtRead_of_clean hclean.ecc hregion (reqOk_fit hok) r.src

theorem served_write (hok : reqOk r = true) (hdata : r.data.length = r.len) :
    served s 1 r = (rspOk, [], s.store r.addr r.data) := by
  have hwrite := tgtWrite_of_portClean hclean hregion (l := r.data) (hdata ▸ reqOk_fit hok) r.src r.km
  simp only [served, sub_zero_of_length hdata, hwrite]

theorem served_rmw {x : Nat} (hx : rmwValue r.op (s.ld r.addr 8) r.data = some x) (hlen : r.len = 8)
    (halign : r.addr % 8 = 0) : served s 3 r = (rspOk, s.bytes r.addr 8, s.st r.addr 8 x) := by
  have hrmw := tgtRmw_of_portClean hclean hregion halign hx r.src
  simp only [served, hlen, hrmw]

end

section
variable (hregion : regionOf r.addr = .barn port) (hclean : PortClean s port)
include hregion hclean

variable (hlocal : isRemote r.addr = false) (hreach : Reaches s r.src (epOf r.addr))
include hlocal hreach

theorem completes_yardRd (hissue : MayIssue s r) :
    Completes (.yardRd r) s fun t => t.resps = s.resps ++ [⟨r.src, r.seq, r.gen, rspOk, s.bytes r.addr r.len,
        epOf r.addr, (s.epSt (epOf r.addr)).gen, yrdEpoch s⟩] ∧
      t.resvs = s.resvs ++ [⟨r.src, r.seq, r.gen, epOf r.addr, s.now⟩] ∧
      t = { s with resps := t.resps, resvs := t.resvs } := by
  have hexec := exec_yardRd (s := s) (wayBack_of_reaches hreach).1 hissue.1
  rw [yardReq_of_reaches (by decide) hlocal hissue hreach, served_read hregion (hclean.reserved r) hissue.1,
    State.bytes_of_mem (rfl : (reserved s r).mem = s.mem)] at hexec
  exact completes_of_exec hexec ⟨rfl, rfl, rfl⟩

theorem completes_yardWr (hissue : MayIssue s r) (hdata : r.data.length = r.len) :
    Completes (.yardWr r) s fun t => t.resps = s.resps ++ [⟨r.src, r.seq, r.gen, rspOk, [],
        epOf r.addr, (s.epSt (epOf r.addr)).gen, yrdEpoch s⟩] ∧
      t.bytes r.addr r.len = r.data ∧ BytesBut r.addr r.len s t ∧
      t = { s with resps := t.resps, resvs := t.resvs, mem := t.mem } := by
  have hexec := exec_yardWr (s := s) (wayBack_of_reaches hreach).1 hissue.1
  rw [yardReq_of_reaches (by decide) hlocal hissue hreach, served_write hregion (hclean.reserved r) hissue.1 hdata] at hexec
  refine completes_of_exec hexec ⟨rfl, ?stored, fun b hb => ?kept, rfl⟩
  case stored => rw [← hdata]; exact (reserved s r).bytes_store r.addr r.data
  case kept => exact (reserved s r).byte_store_other r.data (hdata ▸ hb)

theorem completes_yardRmw (hissue : MayIssue s r) {x : Nat} (hx : rmwValue r.op (s.ld r.addr 8) r.data = some x)
    (hlen : r.len = 8) (halign : r.addr % 8 = 0) :
    Completes (.yardRmw r) s fun t => t.ld r.addr 8 = x % 2 ^ 64 ∧ BytesBut r.addr 8 s t ∧
      ∃ y : YResp, t.resps = s.resps ++ [y] ∧ y.code = rspOk ∧ leNat y.data = s.ld r.addr 8 := by
  have hexec := exec_yardRmw (s := s) (wayBack_of_reaches hreach).1 hissue.1
  have hmem : (reserved s r).mem = s.mem := rfl
  have hx' : rmwValue r.op ((reserved s r).ld r.addr 8) r.data = some x := by rwa [State.ld_of_mem hmem]
  rw [yardReq_of_reaches (by decide) hlocal hissue hreach, served_rmw hregion (hclean.reserved r) hx' hlen halign,
    State.bytes_of_mem hmem] at hexec
  refine completes_of_exec hexec ⟨?stored, fun b hb => ?kept, _, rfl, rfl, rfl⟩
  case stored => exact (reserved s r).ld_st r.addr 8 x
  case kept => exact (reserved s r).byte_store_other (natLe 8 x) (by rwa [length_natLe])

theorem completes_yardWrp (hok : reqOk r = true) (hdata : r.data.length = r.len) :
    Completes (.yardWrp r) s fun t => t.bytes r.addr r.len = r.data ∧ BytesBut r.addr r.len s t ∧
      t = { s with mem := t.mem } := by
  have hexec := exec_yardWrp (s := s) (wayBack_of_reaches hreach).1 hok
  rw [yardReq_of_posted hlocal hreach, deliverReq_of_posted hlocal, sub_zero_of_length hdata,
    tgtWrite_of_portClean hclean hregion (hdata ▸ reqOk_fit hok)] at hexec
  refine completes_of_exec hexec ⟨?stored, fun b hb => ?kept, rfl⟩
  case stored => rw [← hdata]; exact s.bytes_store r.addr r.data
  case kept => exact s.byte_store_other r.data (hdata ▸ hb)

end

/-! ## A fenced and a sleeping target (R305, R309) -/

theorem completes_of_fencedTarget (h : SetsOut s r) (hfenced : s.fenced (epOf r.addr) = true)
    (hc : c ∈ [Instr.yardRd r, Instr.yardWr r, Instr.yardRmw r]) :
    Completes c s fun t => t.bus = ⟨rspFenced, 0⟩ ∧
      (t.epSt (epOf r.addr)).absorbed = sat32 ((s.epSt (epOf r.addr)).absorbed + 1) ∧
      t = { s with eps := t.eps, bus := t.bus } := by
  obtain ⟨op, hop, hexec⟩ := exists_answered_of_mem (s := s) hc h.src h.issue.1
  rw [yardReq_of_fenced hop h hfenced] at hexec
  refine completes_of_exec hexec ⟨rfl, ?absorbed, rfl⟩
  rw [epSt_answer, State.absorb, epSt_setEp_same]

theorem mem_wakeShed (s : State) (k : Nat) : (wakeShed s k).mem = s.mem := by
  unfold wakeShed
  split_ifs
  · exact State.wb_mem ..
  · rfl
  · exact State.cnt_mem ..
  · simp only [shedKick, State.setShedTr_mem, State.wf_mem, State.wb_mem]

/-- A worm that meets a sleeping shed is held at the interface of its target; no response and no memory changes (R305). -/
theorem holdWorm_kept (s : State) (op : Nat) (r : YReq) (dst : Nat) :
    (∃ h : Held, (holdWorm s op r dst).held = s.held ++ [h] ∧ h.req = r ∧ h.kind = op ∧ h.dst = dst) ∧
      (holdWorm s op r dst).resps = s.resps ∧ (holdWorm s op r dst).mem = s.mem := by
  have hasked (first : Bool) : (if first then wakeShed s (epShed dst) else s).held = s.held ∧
      (if first then wakeShed s (epShed dst) else s).resps = s.resps ∧
      (if first then wakeShed s (epShed dst) else s).mem = s.mem := by
    cases first with
    | false => exact ⟨rfl, rfl, rfl⟩
    | true =>
      have hframe := (writeKept_wakeShed s (epShed dst)).frame
      rw [if_pos rfl]
      exact ⟨by rw [hframe], by rw [hframe], mem_wakeShed ..⟩
  obtain ⟨hheld, hresps, hmem⟩ := hasked (s.held.filter fun h => decide (h.shed = epShed dst ∧ h.router = dst / 32)).isEmpty
  exact ⟨⟨_, congrArg (· ++ [_]) hheld, rfl, rfl, rfl⟩, hresps, hmem⟩

theorem completes_yardRd_of_sleepingTarget (h : SetsOut s r) (hdstOpen : s.fenced (epOf r.addr) = false)
    (hasleep : s.shedReady (epShed (epOf r.addr)) = false) :
    Completes (.yardRd r) s fun t => (∃ h : Held, t.held = s.held ++ [h] ∧ h.req = r ∧ h.kind = 0 ∧ h.dst = epOf r.addr) ∧
      t.resps = s.resps ∧ SameBytes s t := by
  have hexec := exec_yardRd (s := s) h.src h.issue.1
  rw [yardReq_of_answered (by decide) h hdstOpen, hasleep, if_neg Bool.false_ne_true] at hexec
  obtain ⟨hheld, hresps, hmem⟩ := holdWorm_kept (reserved s r) 0 r (epOf r.addr)
  exact completes_of_exec hexec ⟨hheld, hresps, fun a => State.byte_of_mem hmem a⟩

/-- Settles O3: each clause is the rule of that request, above. -/
theorem yardRequests : Obligations.YardRequests := by
  intro s r _ hlocal
  refine ⟨fun hreach hissue c hc => ?answered, fun port hreach hregion hecc hinj hok => ?barn,
    fun hsrcOpen hfenced hcut hsrc hdst hone hissue c hc => ?fenced,
    fun hsrcOpen hdstOpen hcut hsrc hdst hone hissue hasleep => ?sleeping⟩
  case answered => exact completes_answered hlocal hreach hissue hc
  case barn =>
    have hclean : PortClean s port := ⟨hecc, hinj⟩
    refine ⟨fun hissue => ⟨completes_yardRd hregion hclean hlocal hreach hissue,
      completes_yardWr hregion hclean hlocal hreach hissue, fun x => ?rmw⟩,
      completes_yardWrp hregion hclean hlocal hreach hok⟩
    exact completes_yardRmw hregion hclean hlocal hreach hissue
  case fenced => exact completes_of_fencedTarget ⟨hlocal, hissue, hsrc, hsrcOpen, hone, hdst, hcut⟩ hfenced hc
  case sleeping =>
    exact completes_yardRd_of_sleepingTarget ⟨hlocal, hissue, hsrc, hsrcOpen, hone, hdst, hcut⟩ hdstOpen hasleep

end Sys2Proof.Machine
end

section
/-! WITNESSES: concrete states that meet the hypotheses of the rules above. -/

namespace Sys2Proof.Machine

/-- An RMW of Loft core 0 that adds 5 to the 8 bytes at 0x40 of the Barn. -/
def addFive : YReq := ⟨loftEp 0, 0, 7, false, false, 0x40, 8, 4, natLe 8 5⟩

/-- The state after reset, the shed of the Barn's first quarter ON. -/
def barnAwake : State := { State.reset with regs := [(shdStatus 40, 3)] }

/-- A request that reaches clean memory of the Barn: the sum is stored. -/
theorem completes_addFive_barnAwake : Completes (.yardRmw addFive) barnAwake fun t => t.ld 0x40 8 = 5 := by
  obtain ⟨t, hexec, hsum, -⟩ := completes_yardRmw (s := barnAwake) (r := addFive) (port := 0) (x := 5) (by decide)
    ⟨rfl, by decide⟩ (by decide) (by decide) ⟨by decide, by decide, by decide⟩ (by decide) rfl (by decide)
  exact ⟨t, hexec, hsum⟩

/-- A request to a shed that is asleep, as the Barn's are after reset: it is held and not answered. -/
theorem completes_yardRd_reset : Completes (.yardRd addFive) State.reset fun t => t.resps = [] := by
  obtain ⟨t, hexec, -, hresps, -⟩ := completes_yardRd_of_sleepingTarget (s := State.reset) (r := addFive)
    ⟨by decide, ⟨by decide, by decide, by decide⟩, by decide, by decide, by decide, by decide, by decide⟩ (by decide) (by decide)
  exact ⟨t, hexec, hresps⟩

/-- A request that waits for its response, which is on its way. -/
def answerDue : State :=
  { State.reset with resps := [⟨loftEp 0, 7, 0, rspOk, natLe 8 9, epOf 0x40, 0, 0⟩]
                     resvs := [⟨loftEp 0, 7, 0, epOf 0x40, 0⟩] }

theorem completes_yardResponse_answerDue :
    Completes (.yardResponse (loftEp 0) 7) answerDue fun t => t.bus = ⟨rspOk, 9⟩ := by
  obtain ⟨t, hexec, hbus, -⟩ := completes_yardResponse_of_current (s := answerDue) (src := loftEp 0) (seq := 7)
    (x := ⟨loftEp 0, 7, 0, rspOk, natLe 8 9, epOf 0x40, 0, 0⟩) (v := ⟨loftEp 0, 7, 0, epOf 0x40, 0⟩)
    (by decide) (by decide) (by decide) (by decide) (by decide) (by decide)
  exact ⟨t, hexec, hbus.trans (by decide)⟩

/-- A request held for the Barn's shed since the reset. -/
def heldSinceReset : State := { State.reset with held := [⟨40, epOf 0x40 / 32, epOf 0x40, 0, addFive, 0⟩] }

theorem completes_wakeTimeout_heldSinceReset :
    Completes (.wakeTimeout 40) heldSinceReset fun t => ∃ y ∈ heldSinceReset.held, y ∉ t.held := by
  obtain ⟨t, hexec, ⟨y, hy, -, -, hleft⟩, -⟩ := completes_wakeTimeout (s := heldSinceReset) (k := 40) (by decide)
    List.mem_cons_self rfl
  exact ⟨t, hexec, y, hy, hleft⟩

/-- Router 13 has asked three times for the flit due at its east port. -/
def threeReplays : State := { State.reset with replays := [(8 * 13 + 2, 3)] }

theorem completes_flitReceive_threeReplays :
    Completes (.flitReceive 13 2 false false false false) threeReplays fun t => 4 * 13 + 1 ∈ t.down ∧ 4 * 14 + 3 ∈ t.down := by
  obtain ⟨t, hexec, -, hdown, -⟩ := completes_flitReceive_of_fourthBad (s := threeReplays) (r := 13) (port := 2) (ex := false)
    (tail := false) (ep := false) (by decide) (by decide) (by decide)
  exact ⟨t, hexec, hdown _ (by decide), hdown _ (by decide)⟩

/-- A drain barrier of Loft core 0 is running. -/
def barrierRuns : State := State.reset.setEp (loftEp 0) { EpState.reset with st := 2 }

theorem completes_barrierTimeout_barrierRuns :
    Completes (.barrierTimeout (loftEp 0)) barrierRuns fun t => (t.epSt (loftEp 0)).barFail = true := by
  obtain ⟨t, hexec, -, hfail, -⟩ := completes_barrierTimeout (s := barrierRuns) (e := loftEp 0) (by decide)
  exact ⟨t, hexec, hfail⟩

end Sys2Proof.Machine
end

section
/-! PROOFS for the canonical form of memory (01_architecture.md R1, 11_memories_ecc.md R325, R331, R335). A step's
next state is built by the functions of the model one from another, so each has one lemma here, in the order of the
model's files: `f_mem` says that `f` leaves memory as it was, `f_memWf` that `f` may write memory and keeps its form.
Memory is written only through `State.st` and `State.store`, cleared by `State.zero`, and started anew by
`State.initMem` and at a reset of the unit. Where a function hands its state to a continuation, its lemma asks the same
of the continuation. The option `-implicitDefEqProofs` keeps each rewrite of `simp` in the proof, where the kernel would
otherwise evaluate both states to compare their memories. -/

namespace Sys2Proof.Machine

/-! ### Memory through an `if` and through a fold -/

@[simp] theorem mem_ite (c : Prop) [Decidable c] (a b : State) :
    (if c then a else b).mem = if c then a.mem else b.mem :=
  apply_ite ..

@[simp] theorem fst_ite {α β : Type} (c : Prop) [Decidable c] (a b : α × β) :
    (if c then a else b).1 = if c then a.1 else b.1 :=
  apply_ite ..

@[simp] theorem snd_ite {α β : Type} (c : Prop) [Decidable c] (a b : α × β) :
    (if c then a else b).2 = if c then a.2 else b.2 :=
  apply_ite ..

@[simp] theorem foldl_mem {α : Type} (f : State → α → State) (l : List α) (s : State)
    (h : ∀ s a, (f s a).mem = s.mem) : (l.foldl f s).mem = s.mem := by
  induction l generalizing s with
  | nil => rfl
  | cons a l ih => rw [List.foldl_cons, ih, h]

@[simp] theorem foldl_fst_mem {α β : Type} (f : State × β → α → State × β) (l : List α) (s : State × β)
    (h : ∀ s a, (f s a).1.mem = s.1.mem) : (l.foldl f s).1.mem = s.1.mem := by
  induction l generalizing s with
  | nil => rfl
  | cons a l ih => rw [List.foldl_cons, ih, h]

@[simp] theorem foldl_snd_mem {α β : Type} (f : β × State → α → β × State) (l : List α) (s : β × State)
    (h : ∀ s a, (f s a).2.mem = s.2.mem) : (l.foldl f s).2.mem = s.2.mem := by
  induction l generalizing s with
  | nil => rfl
  | cons a l ih => rw [List.foldl_cons, ih, h]

@[simp] theorem foldl_snd_snd_mem {α β γ : Type} (f : β × γ × State → α → β × γ × State) (l : List α)
    (s : β × γ × State) (h : ∀ s a, (f s a).2.2.mem = s.2.2.mem) : (l.foldl f s).2.2.mem = s.2.2.mem := by
  induction l generalizing s with
  | nil => rfl
  | cons a l ih => rw [List.foldl_cons, ih, h]

@[simp] theorem wf_ite (c : Prop) [Decidable c] (a b : List Host.Cell) :
    Memory.wf (if c then a else b) ↔ if c then Memory.wf a else Memory.wf b := by
  split <;> rfl

theorem memWf_stateIte {c : Prop} [Decidable c] {a b : State} (ha : Memory.wf a.mem) (hb : Memory.wf b.mem) :
    Memory.wf (if c then a else b).mem := by
  split <;> assumption

theorem foldl_memWf {α : Type} {f : State → α → State} (l : List α) {s : State} (h : Memory.wf s.mem)
    (hf : ∀ s a, Memory.wf s.mem → Memory.wf (f s a).mem) : Memory.wf (l.foldl f s).mem := by
  induction l generalizing s with
  | nil => exact h
  | cons a l ih => exact ih (hf s a h)

theorem foldl_snd_memWf {α β : Type} {f : β × State → α → β × State} (l : List α) {s : β × State}
    (h : Memory.wf s.2.mem) (hf : ∀ s a, Memory.wf s.2.mem → Memory.wf (f s a).2.mem) :
    Memory.wf (l.foldl f s).2.mem := by
  induction l generalizing s with
  | nil => exact h
  | cons a l ih => exact ih (hf s a h)

theorem memWf_withBus {s : State} (h : Memory.wf s.mem) (b : BusAnswer) :
    Memory.wf ({ s with bus := b } : State).mem := h

/-- Memory of a state in canonical form, as a structure: two states are then compared as they stand, where the bare
statement has the kernel compare the fields they evaluate to. -/
structure State.MemWf (s : State) : Prop where
  wf : Memory.wf s.mem

theorem State.memWf_ite {c : Prop} [Decidable c] {a b : State} (ha : a.MemWf) (hb : b.MemWf) :
    (if c then a else b).MemWf := by
  split <;> assumption

/-- The same of the state that a function answers beside a value. -/
structure SndMemWf {β : Type} (q : β × State) : Prop where
  wf : Memory.wf q.2.mem

theorem sndMemWf_ite {β : Type} {c : Prop} [Decidable c] {a b : β × State} (ha : SndMemWf a) (hb : SndMemWf b) :
    SndMemWf (if c then a else b) := by
  split <;> assumption

/-- What a block does of itself at a write of its register, before which the register's word was written, keeps the
canonical form. -/
def HookMemWf (hook : WriteHook) : Prop :=
  ∀ (nm : String) (ix : List Nat) (v : Nat) (s s1 : State), Memory.wf s.mem → s1.mem = s.mem →
    Memory.wf (hook nm ix v s s1).2.mem

theorem hookMemWf_of_mem {hook : WriteHook}
    (hh : ∀ nm ix v s s1, s1.mem = s.mem → (hook nm ix v s s1).2.mem = s.mem) : HookMemWf hook :=
  fun nm ix v s s1 h h1 => by rw [hh nm ix v s s1 h1]; exact h

theorem hookMemWf_of_memWf {hook : WriteHook} (hh : ∀ {s s1 : State}, Memory.wf s.mem → Memory.wf s1.mem →
    ∀ nm ix v, Memory.wf (hook nm ix v s s1).2.mem) : HookMemWf hook :=
  fun nm ix v _ _ h h1 => hh h (h1 ▸ h) nm ix v

theorem State.regWriteBy_memWf {s : State} (h : Memory.wf s.mem) {hook : WriteHook} (hh : HookMemWf hook)
    (a v : Nat) : Memory.wf (s.regWriteBy hook a v).mem := by
  unfold State.regWriteBy
  split
  · exact h
  · exact hh _ _ _ _ _ h (State.wr_mem ..)

/-! ### Ops -/

@[simp] theorem State.draw_mem (s : State) : s.draw.2.mem = s.mem := by simp [State.draw]

theorem State.regWriteBy_mem (s : State) {hook : WriteHook} (a v : Nat)
    (h : ∀ nm ix v s1, s1.mem = s.mem → (hook nm ix v s s1).2.mem = s.mem) : (s.regWriteBy hook a v).mem = s.mem := by
  unfold State.regWriteBy
  split
  · rfl
  · exact h _ _ _ _ (State.wr_mem ..)

/-! ### Calendar -/

@[simp] theorem calSet_mem (s : State) (n : Nat) : (calSet s n).mem = s.mem := by
  rw [calSet, State.wr_mem, State.wr_mem]

@[simp] theorem calWrite_mem (s : State) (t d : Nat) : (calWrite s t d).2.mem = s.mem := by simp [calWrite]

@[simp] theorem trimApply_mem (s : State) : (trimApply s).mem = s.mem := by simp [trimApply]

@[simp] theorem calHook_mem (nm : String) (ix : List Nat) (v : Nat) (s s1 : State) (h : s1.mem = s.mem) :
    (calHook nm ix v s s1).2.mem = s.mem := by
  simp only [calHook]
  split <;> simp [*]

theorem calHook_hookMemWf : HookMemWf calHook := hookMemWf_of_mem calHook_mem

/-! ### Clocktower -/

@[simp] theorem State.wrTime_mem (s : State) (a : Nat) (x : Int) : (s.wrTime a x).mem = s.mem := by
  simp [State.wrTime]

@[simp] theorem anchorDom_mem (s : State) (d : Nat) : (anchorDom s d).mem = s.mem := by simp [anchorDom]

@[simp] theorem startSlewing_mem (s : State) : (startSlewing s).mem = s.mem := by simp [startSlewing]

@[simp] theorem withS_mem (s : State) (f : State → State) : (withS s f).mem = (f s).mem := by
  simp -implicitDefEqProofs [withS]

@[simp] theorem untilS_mem (x : Int) (n : Nat) (s : State) : (untilS x n s).mem = s.mem := by
  induction n generalizing s with
  | zero => rfl
  | succ n ih => simp [untilS, ih]

@[simp] theorem ctFlag_mem (s : State) (i : Nat) : (ctFlag s i).mem = s.mem := by simp [ctFlag]

@[simp] theorem setDomState_mem (s : State) (d st : Nat) (valid : Bool) (origin : Nat) :
    (setDomState s d st valid origin).mem = s.mem := by
  simp [setDomState]

@[simp] theorem setState_mem (s : State) (d st : Nat) : (setState s d st).mem = s.mem := by simp [setState]

@[simp] theorem domEnable_mem (s : State) (d : Nat) : (domEnable s d).mem = s.mem := by simp [domEnable]

@[simp] theorem domDisable_mem (s : State) (d : Nat) : (domDisable s d).mem = s.mem := by simp [domDisable]

@[simp] theorem domJump_mem (s : State) (d : Nat) (x : Int) (origin : Nat) : (domJump s d x origin).mem = s.mem := by
  simp [domJump]

@[simp] theorem domStep_mem (s : State) (d : Nat) : (domStep s d).mem = s.mem := by simp [domStep]

@[simp] theorem domSet_mem (s : State) (d : Nat) : (domSet s d).mem = s.mem := by simp [domSet]

@[simp] theorem domSlewBy_mem (s : State) (d : Nat) (x : Int) (ppb : Nat) : (domSlewBy s d x ppb).mem = s.mem := by
  simp [domSlewBy]

@[simp] theorem domSlew_mem (s : State) (d : Nat) : (domSlew s d).mem = s.mem := by simp [domSlew]

@[simp] theorem domAbort_mem (s : State) (d : Nat) : (domAbort s d).mem = s.mem := by simp [domAbort]

@[simp] theorem domSetFreq_mem (s : State) (d v : Nat) : (domSetFreq s d v).mem = s.mem := by simp [domSetFreq]

@[simp] theorem domCmd_mem (s : State) (d v : Nat) : (domCmd s d v).2.mem = s.mem := by
  simp only [domCmd]
  split <;> simp [*]

@[simp] theorem pushTick_mem (s : State) (k : Nat) (m : Tick) : (pushTick s k m).mem = s.mem := by simp [pushTick]

@[simp] theorem emitTick_mem (s : State) (t : Nat) (x : Int) : (emitTick s t x).mem = s.mem := by simp [emitTick]

@[simp] theorem tickEdge_mem (s : State) (t : Nat) : (tickEdge s t).mem = s.mem := by
  unfold tickEdge
  (repeat' split) <;> simp

@[simp] theorem emitDue_mem (n : Nat) (s : State) (t : Nat) : (emitDue n s t).mem = s.mem := by
  induction n generalizing s with
  | zero => rfl
  | succ n ih =>
    unfold emitDue
    split <;> simp [ih]

@[simp] theorem trainEnable_mem (s : State) (t : Nat) : (trainEnable s t).mem = s.mem := by
  simp -implicitDefEqProofs [trainEnable]

@[simp] theorem trainDisable_mem (s : State) (t : Nat) : (trainDisable s t).mem = s.mem := by simp [trainDisable]

@[simp] theorem tsPush_mem (s : State) (n : Nat) (e : TsEntry) : (tsPush s n e).mem = s.mem := by simp [tsPush]

@[simp] theorem tsRead_mem (s : State) (n : Nat) : (tsRead s n).2.mem = s.mem := by simp [tsRead]

@[simp] theorem servo_mem (s : State) (d : Nat) (e : Int) (labelled : Bool) : (servo s d e labelled).mem = s.mem := by
  simp [servo]

@[simp] theorem ppsMissed_mem (s : State) (i n : Nat) : (ppsMissed s i n).mem = s.mem := by simp [ppsMissed]

@[simp] theorem ppsPulse_mem (s : State) (i : Nat) : (ppsPulse s i).mem = s.mem := by simp [ppsPulse]

@[simp] theorem ppsMissing_mem (s : State) (i : Nat) : (ppsMissing s i).mem = s.mem := by
  simp only [ppsMissing]
  split <;> simp [*]

@[simp] theorem todSentence_mem (s : State) (i : Nat) (l : List Byte) : (todSentence s i l).mem = s.mem := by
  simp only [todSentence]
  (repeat' split) <;> simp

@[simp] theorem ppsOutEdge_mem (s : State) : (ppsOutEdge s).mem = s.mem := by simp [ppsOutEdge]

@[simp] theorem holdoverNow_mem (s : State) (d : Nat) : (holdoverNow s d).mem = s.mem := by simp [holdoverNow]

@[simp] theorem fabricLost_mem (s : State) (d : Nat) : (fabricLost s d).mem = s.mem := by simp [fabricLost]

@[simp] theorem holdover_mem (s : State) (d : Nat) : (holdover s d).mem = s.mem := by
  simp only [holdover]
  split <;> simp [*]

@[simp] theorem selectDom_mem (s : State) (d : Nat) : (selectDom s d).mem = s.mem := by
  simp -implicitDefEqProofs [selectDom]

@[simp] theorem selWrite_mem (s : State) (d : Nat) : (selWrite s d).mem = s.mem := by simp [selWrite]

@[simp] theorem autoSwitch_mem (s : State) : (autoSwitch s).mem = s.mem := by simp [autoSwitch]

@[simp] theorem setSe_mem (s : State) (st k : Nat) : (setSe s st k).mem = s.mem := by simp [setSe]

@[simp] theorem seUpdate_mem (s : State) (qual : Nat) : (seUpdate s qual).mem = s.mem := by
  simp only [seUpdate]
  (repeat' split) <;> simp

@[simp] theorem ctSnap_mem (s : State) : (ctSnap s).mem = s.mem := by simp -implicitDefEqProofs [ctSnap]

@[simp] theorem ctWrite_mem (nm : String) (ix : List Nat) (v : Nat) (s s1 : State) (h : s1.mem = s.mem) :
    (ctWrite nm ix v s s1).2.mem = s.mem := by
  simp only [ctWrite]
  (repeat' split) <;> simp [h]

theorem ctWrite_hookMemWf : HookMemWf ctWrite := hookMemWf_of_mem ctWrite_mem

/-! ### Yard0 -/

@[simp] theorem State.absorb_mem (s : State) (e : Nat) : (s.absorb e).mem = s.mem := by simp [State.absorb]

@[simp] theorem State.discardAt_mem (s : State) (e : Nat) : (s.discardAt e).mem = s.mem := by simp [State.discardAt]

@[simp] theorem shedKick_mem (s : State) (k : Nat) : (shedKick s k).mem = s.mem := by simp [shedKick]

@[simp] theorem wakeShed_mem (s : State) (k : Nat) : (wakeShed s k).mem = s.mem := by simp [wakeShed]

@[simp] theorem State.ni_mem (s : State) (src dst : Nat) : (s.ni src dst).2.mem = s.mem := by simp [State.ni]

@[simp] theorem State.back_mem (s : State) (src dst code : Nat) : (s.back src dst code).2.mem = s.mem := by
  simp [State.back]

@[simp] theorem State.niPosted_mem (s : State) (src dst : Nat) : (s.niPosted src dst).2.mem = s.mem := by
  simp [State.niPosted]

/-! ### Ecc -/

@[simp] theorem eccSet_mem (s : State) (n i : Nat) : (eccSet s n i).mem = s.mem := by simp [eccSet]

@[simp] theorem eccLog_mem (s : State) (n w pos syn : Nat) (scrub wrote : Bool) :
    (eccLog s n w pos syn scrub wrote).mem = s.mem := by
  simp only [eccLog]
  split
  · simp -implicitDefEqProofs
  · split <;> simp -implicitDefEqProofs

@[simp] theorem State.poison_mem (s : State) (w : Nat) : (s.poison w).mem = s.mem := by simp [State.poison]

@[simp] theorem eccUe_mem (s : State) (n w kind req : Nat) : (eccUe s n w kind req).mem = s.mem := by
  simp -implicitDefEqProofs [eccUe]

@[simp] theorem State.readWord_mem (s : State) (w kind req : Nat) : (s.readWord w kind req).2.2.mem = s.mem := by
  simp only [State.readWord]
  split <;> simp [*]

@[simp] theorem State.readWords_mem (s : State) (w k kind req : Nat) :
    (s.readWords w k kind req).2.2.mem = s.mem := by
  induction k generalizing s w with
  | zero => rfl
  | succ k ih => simp [State.readWords, ih]

@[simp] theorem State.readMem_mem (s : State) (a n kind req : Nat) : (s.readMem a n kind req).2.2.mem = s.mem := by
  simp [State.readMem]

@[simp] theorem injectAt_memWf {s : State} (h : Memory.wf s.mem) (n w : Nat) : Memory.wf (injectAt s n w).mem := by
  unfold injectAt
  extract_lets c a
  split
  next flip s1 s2 s3 _ =>
    have hflip : ∀ {t : State} (pos pat : Nat), Memory.wf t.mem → Memory.wf (flip t pos pat).mem :=
      fun pos pat ht => by
        simp only [flip]
        (repeat' split) <;> simp [ht, State.st_wf]
    have hs1 : Memory.wf s1.mem := hflip _ _ (hflip _ _ h)
    simp [s3, s2, hs1]
  · exact h

theorem injectAt_store_memWf {s : State} (h : Memory.wf s.mem) (a : Nat) (l : List Byte) (n w d : Nat) :
    Memory.wf (injectAt ((s.store a l).setEcc w d) n w).mem :=
  injectAt_memWf (s := (s.store a l).setEcc w d) (State.store_wf h a l) n w

@[simp] theorem State.writeWord_memWf {s : State} (h : Memory.wf s.mem) (near : Bool) (w a : Nat) (l : List Byte)
    (req : Nat) : Memory.wf (s.writeWord near w a l req).2.mem := by
  unfold State.writeWord
  split
  · exact State.store_wf h a l
  next n _ =>
    split
    · exact injectAt_store_memWf h ..
    · split
      · exact injectAt_memWf (State.store_wf h a l) ..
      next pos err syn _ =>
        have h1 : Memory.wf (eccLog s n w pos syn false false).mem := by simp [h]
        exact injectAt_store_memWf (State.st_wf h1 ..) ..
      · have h1 : Memory.wf ((s.cnt (eccA n 0x10) 1).cnt (eccA n 0x40) 1).mem := by simp [h]
        cases near
        · exact h1
        · exact injectAt_store_memWf h1 ..
      · have h1 : Memory.wf ((eccUe s n w 3 req).cnt (eccA n 0x40) 1).mem := by simp [h]
        cases near
        · exact h1
        · exact injectAt_store_memWf h1 ..

@[simp] theorem State.writeWords_memWf {s : State} (h : Memory.wf s.mem) (near : Bool) (req k a : Nat)
    (l : List Byte) :
    Memory.wf (s.writeWords near req k a l).2.mem := by
  induction k generalizing s a l with
  | zero => exact h
  | succ k ih =>
    unfold State.writeWords
    split
    · exact h
    · exact ih (State.writeWord_memWf h ..) _ _

@[simp] theorem State.writeMem_memWf {s : State} (h : Memory.wf s.mem) (a : Nat) (l : List Byte) (req : Nat) :
    Memory.wf (s.writeMem a l req).2.mem := by
  simp [State.writeMem, h]

@[simp] theorem State.writeNear_memWf {s : State} (h : Memory.wf s.mem) (a : Nat) (l : List Byte) (req : Nat) :
    Memory.wf (s.writeNear a l req).mem := by
  simp [State.writeNear, h]

@[simp] theorem State.fetch_mem (s : State) (src a n : Nat) : (s.fetch src a n).2.2.mem = s.mem := by
  simp [State.fetch]

@[simp] theorem State.put_memWf {s : State} (h : Memory.wf s.mem) (src a : Nat) (l : List Byte) :
    Memory.wf (s.put src a l).2.mem := by
  simp [State.put, h]

@[simp] theorem State.putPosted_memWf {s : State} (h : Memory.wf s.mem) (src a : Nat) (l : List Byte) :
    Memory.wf (s.putPosted src a l).mem := by
  simp [State.putPosted, h]

@[simp] theorem State.putPostedAll_memWf {s : State} (h : Memory.wf s.mem) (src a : Nat) (l : List Byte) :
    Memory.wf (s.putPostedAll src a l).mem :=
  foldl_memWf _ h fun _ _ hs => State.putPosted_memWf hs ..

@[simp] theorem State.putAll_memWf {s : State} (h : Memory.wf s.mem) (src a : Nat) (l : List Byte) :
    Memory.wf (s.putAll src a l).2.mem :=
  foldl_snd_memWf _ h fun _ _ hq => by
    split
    · exact State.put_memWf hq ..
    · exact hq

@[simp] theorem State.fetchAll_mem (s : State) (src a n : Nat) : (s.fetchAll src a n).2.2.mem = s.mem := by
  simp [State.fetchAll]

/-! ### Kcore -/

@[simp] theorem State.charge_mem (s : State) (g n stall : Nat) : (s.charge g n stall).mem = s.mem := by
  simp [State.charge]

@[simp] theorem endWait_mem (s : State) (g : Nat) (stall : Bool) : (endWait s g stall).mem = s.mem := by
  simp [endWait]

@[simp] theorem endHalt_mem (s : State) (g : Nat) : (endHalt s g).mem = s.mem := by simp [endHalt]

@[simp] theorem setLine_mem (s : State) (g i : Nat) (b : Bool) : (setLine s g i b).mem = s.mem := by simp [setLine]

@[simp] theorem doubleFault_mem (s : State) (g code : Nat) : (doubleFault s g code).mem = s.mem := by
  simp [doubleFault]

@[simp] theorem raiseExc_mem (s : State) (g code slot rsp : Nat) (val : Option Nat) :
    (raiseExc s g code slot rsp val).mem = s.mem := by
  simp [raiseExc]

@[simp] theorem takeLine_mem (s : State) (g n : Nat) : (takeLine s g n).mem = s.mem := by simp [takeLine]

/-! ### Tags -/

@[simp] theorem hSend_mem (s : State) (e : Nat) (m : HMsg) : (hSend s e m).mem = s.mem := by simp [hSend]

@[simp] theorem signalEvent_mem (s : State) (src n : Nat) : (signalEvent s src n).mem = s.mem := by simp [signalEvent]

@[simp] theorem disarm_mem (s : State) (h t : Nat) : (disarm s h t).mem = s.mem := by simp [disarm]

@[simp] theorem freeTag_mem (s : State) (h t : Nat) : (freeTag s h t).mem = s.mem := by simp [freeTag]

@[simp] theorem withdrawTag_mem (s : State) (g t : Nat) : (withdrawTag s g t).mem = s.mem := by simp [withdrawTag]

@[simp] theorem tagEvent_mem (s : State) (h t gen : Nat) : (tagEvent s h t gen).mem = s.mem := by
  simp only [tagEvent]
  split <;> simp [*]

@[simp] theorem completeTag_mem (s : State) (h t status cyc : Nat) : (completeTag s h t status cyc).mem = s.mem := by
  simp [completeTag]

@[simp] theorem postTag_mem (s : State) (h t ctrl desc ctx : Nat) : (postTag s h t ctrl desc ctx).mem = s.mem := by
  simp [postTag]

@[simp] theorem confirmTag_mem (s : State) (h t : Nat) : (confirmTag s h t).mem = s.mem := by
  simp only [confirmTag]
  split <;> simp [*]

@[simp] theorem postAnswer_mem (s : State) (h : Nat) (m : PostAns) : (postAnswer s h m).mem = s.mem := by
  simp [postAnswer]

@[simp] theorem staleComp_mem (s : State) (h : Nat) (m : Comp) : (staleComp s h m).mem = s.mem := by simp [staleComp]

@[simp] theorem hitchComp_mem (s : State) (h : Nat) (m : Comp) : (hitchComp s h m).mem = s.mem := by simp [hitchComp]

@[simp] theorem hitchTimeout_mem (s : State) (h t : Nat) : (hitchTimeout s h t).mem = s.mem := by simp [hitchTimeout]

@[simp] theorem endTags_mem (s : State) (g mask : Nat) : (endTags s g mask).mem = s.mem := by
  refine foldl_mem _ _ _ fun s t => ?_
  split
  · split <;> simp
  · rfl

@[simp] theorem resetTags_mem (s : State) (g : Nat) : (resetTags s g).mem = s.mem := by
  rw [resetTags, foldl_mem, foldl_mem]
  · intro s t
    split <;> simp
  · intro s i
    rw [State.setGuard_mem]

@[simp] theorem chargeCtx_mem (s : State) (g : Nat) : (chargeCtx s g).mem = s.mem := by simp [chargeCtx]

/-! ### Threads -/

@[simp] theorem makeReady_mem (s : State) (gt : Nat) : (makeReady s gt).mem = s.mem := by simp [makeReady]

@[simp] theorem wake_mem (s : State) (gt : Nat) : (wake s gt).mem = s.mem := by simp [wake]

@[simp] theorem wakeAll_mem (s : State) (l : List Nat) : (wakeAll s l).mem = s.mem := by simp [wakeAll]

@[simp] theorem wakeHatch_mem (s : State) (g h : Nat) : (wakeHatch s g h).mem = s.mem := by simp [wakeHatch]

@[simp] theorem wakeTicks_mem (s : State) (t : Nat) : (wakeTicks s t).mem = s.mem := by simp [wakeTicks]

@[simp] theorem startAct_mem (s : State) (gt : Nat) (flow : Option Nat) : (startAct s gt flow).mem = s.mem := by
  simp only [startAct]
  (repeat' split) <;> simp

@[simp] theorem leaveFlow_mem (s : State) (gt : Nat) (flow : Option Nat) : (leaveFlow s gt flow).mem = s.mem := by
  simp only [leaveFlow]
  (repeat' split) <;> simp

/-! ### Vswitch -/

@[simp] theorem areaPut_memWf {s : State} (h : Memory.wf s.mem) (g v o : Nat) (l : List Byte) :
    Memory.wf (areaPut s g v o l).2.mem := by
  simp [areaPut, h]

@[simp] theorem areaGet_mem (s : State) (g v o n : Nat) : (areaGet s g v o n).2.2.mem = s.mem := by simp [areaGet]

@[simp] theorem saveAnswer_mem (s : State) (g code : Nat) : (saveAnswer s g code).mem = s.mem := by
  simp only [saveAnswer]
  (repeat' split) <;> simp

@[simp] theorem saveRegs_memWf {s : State} (h : Memory.wf s.mem) (g : Nat) (l : List Nat) :
    Memory.wf (saveRegs s g l).mem :=
  foldl_memWf _ h fun _ _ hs => by simp [hs]

@[simp] theorem saveHeader_memWf {s : State} (h : Memory.wf s.mem) (g : Nat) : Memory.wf (saveHeader s g).mem := by
  simp [saveHeader, h]

@[simp] theorem restoreReg_mem (g v : Nat) (r : Nat × State) (n : Nat) : (restoreReg g v r n).2.mem = r.2.mem := by
  simp [restoreReg]

@[simp] theorem restoreFrom_mem (s : State) (g v : Nat) : (restoreFrom s g v).2.mem = s.mem := by
  simp only [restoreFrom]
  split
  · simp
  · exact (foldl_snd_mem _ _ _ (restoreReg_mem g v)).trans (by simp)

@[simp] theorem takeOwnership_mem (s : State) (g : Nat) : (takeOwnership s g).2.mem = s.mem := by simp [takeOwnership]

@[simp] theorem runSwitch_memWf {s : State} (h : Memory.wf s.mem) (g : Nat) : Memory.wf (runSwitch s g).2.mem := by
  simp -implicitDefEqProofs [runSwitch, h]

@[simp] theorem abandonSwitch_memWf {s : State} (h : Memory.wf s.mem) (g : Nat) :
    Memory.wf (abandonSwitch s g).mem := by
  simp only [abandonSwitch]
  (repeat' split) <;> simp -implicitDefEqProofs [h]

@[simp] theorem vecFlush_memWf {s : State} (h : Memory.wf s.mem) (g : Nat) : Memory.wf (vecFlush s g).mem := by
  simp -implicitDefEqProofs [vecFlush, h]

@[simp] theorem vecReload_mem (s : State) (g : Nat) : (vecReload s g).mem = s.mem := by simp [vecReload]

/-! ### Kissue -/

@[simp] theorem z0Hitch_mem (s : State) (g : Nat) (c0 : Core) (w : Nat) : (z0Hitch s g c0 w).mem = s.mem := by
  simp only [z0Hitch]
  split <;> simp [*]

@[simp] theorem nearRead_mem (s : State) (g slot : Nat) (c0 : Core) (w : Nat) :
    (nearRead s g slot c0 w).2.2.mem = s.mem := by
  simp [nearRead]

@[simp] theorem sendFar_mem (s : State) (g a : Nat) : (sendFar s g a).mem = s.mem := by simp [sendFar]

@[simp] theorem bundleStores_memWf {s : State} (h : Memory.wf s.mem) (g : Nat) (c0 : Core) (b : Bundle) :
    Memory.wf (bundleStores s g c0 b).mem := by
  unfold bundleStores
  extract_lets s1 s2 s3
  have h1 : Memory.wf s1.mem := by simp [s1, h]
  have h2 : Memory.wf s2.mem := by simp [s2, h1]
  have h3 : Memory.wf s3.mem := by simp [s3, h2]
  split
  · simpa using h3
  · exact h3

@[simp] theorem retire_memWf {s : State} (h : Memory.wf s.mem) (g : Nat) (b : Bundle) (l2 l3 : List Byte) :
    Memory.wf (retire s g b l2 l3).mem := by
  simp -implicitDefEqProofs [retire, h]

@[simp] theorem squash_mem (s : State) (g : Nat) : (squash s g).mem = s.mem := by simp [squash]

@[simp] theorem exFinish_memWf {s : State} (h : Memory.wf s.mem) (g : Nat) (b : Bundle) (far : Option
    (Nat × List Byte)) : Memory.wf (exFinish s g b far).mem := by
  simp only [exFinish]
  split <;> simp [h]

@[simp] theorem exStage_memWf {s : State} (h : Memory.wf s.mem) (g : Nat) (b : Bundle) :
    Memory.wf (exStage s g b).mem := by
  simp [exStage, h]

@[simp] theorem holdFor_mem (s : State) (g : Nat) (h : Hold) : (holdFor s g h).mem = s.mem := by simp [holdFor]

@[simp] theorem daStage_memWf {s : State} (h : Memory.wf s.mem) (g : Nat) (b : Bundle) :
    Memory.wf (daStage s g b).mem := by
  simp only [daStage]
  (repeat' split) <;> simp [h]

theorem issue_cases {P : State → Prop} (s : State) (g : Nat) (hb : ∀ v, P (raiseExc s g ecBounds 0 0 v))
    (he : ∀ n code slot v, P (raiseExc (s.readMem n 16 1 (coreEp g)).2.2 g code slot 0 v))
    (hi : ∀ n b, P (daStage (s.readMem n 16 1 (coreEp g)).2.2 g b)) : P (issue s g) := by
  unfold issue
  refine iteInduction (fun _ => hb _) fun _ => iteInduction (fun _ => he ..) fun _ => ?_
  dsimp only
  generalize decodeExc _ _ = o1, step3Exc _ _ _ _ = o2, addrExc _ _ = o3
  obtain _ | o := o1
  · obtain _ | o := o2
    · obtain _ | o := o3
      · exact hi ..
      · exact he ..
    · exact he ..
  · exact he ..

@[simp] theorem issue_memWf {s : State} (h : Memory.wf s.mem) (g : Nat) : Memory.wf (issue s g).mem :=
  have hr : ∀ n, Memory.wf (s.readMem n 16 1 (coreEp g)).2.2.mem := fun n => by simpa using h
  issue_cases (P := fun t => Memory.wf t.mem) s g (fun _ => by simpa using h)
    (fun n _ _ _ => by simpa -implicitDefEqProofs using hr n) fun n _ => daStage_memWf (hr n) ..

/-! ### Hatch -/

@[simp] theorem dropLines_mem (s : State) (i : Nat) : (dropLines s i).mem = s.mem := by simp [dropLines]

@[simp] theorem hatNotice_mem (s : State) (i k : Nat) : (hatNotice s i k).mem = s.mem := by simp [hatNotice]

@[simp] theorem hatPresent_mem (s : State) (i : Nat) : (hatPresent s i).mem = s.mem := by simp [hatPresent]

@[simp] theorem hatToSender_mem (s : State) (h k : Nat) : (hatToSender s h k).mem = s.mem := by
  simp only [hatToSender]
  split <;> simp [*]

@[simp] theorem hatchPost_mem (s : State) (src h val : Nat) : (hatchPost s src h val).2.mem = s.mem := by
  unfold hatchPost
  split <;> simp

@[simp] theorem hatEmpty_mem (s : State) (h : Nat) : (hatEmpty s h).mem = s.mem := by simp [hatEmpty]

@[simp] theorem hatchTake_mem (s : State) (src h : Nat) : (hatchTake s src h).2.2.mem = s.mem := by
  unfold hatchTake
  split <;> simp

@[simp] theorem hatchWithdraw_mem (s : State) (src h : Nat) : (hatchWithdraw s src h).2.2.mem = s.mem := by
  simp [hatchWithdraw]

@[simp] theorem hatchTimeout_mem (s : State) (h : Nat) : (hatchTimeout s h).mem = s.mem := by simp [hatchTimeout]

@[simp] theorem hatAbort_mem (s : State) (h : Nat) : (hatAbort s h).mem = s.mem := by simp [hatAbort]

@[simp] theorem hatClear_mem (s : State) (h : Nat) : (hatClear s h).mem = s.mem := by simp [hatClear]

@[simp] theorem clientEnter_mem (s : State) (i : Nat) : (clientEnter s i).mem = s.mem := by simp [clientEnter]

@[simp] theorem windowEnd_mem (s : State) (i : Nat) : (windowEnd s i).mem = s.mem := by simp [windowEnd]

@[simp] theorem hatWrite_mem (src : Nat) (nm : String) (ix : List Nat) (v : Nat) (s s1 : State) (h : s1.mem = s.mem) :
    (hatWrite src nm ix v s s1).2.mem = s.mem := by
  unfold hatWrite
  (repeat' split) <;> simp [h]

theorem hatWrite_hookMemWf (src : Nat) : HookMemWf (hatWrite src) := hookMemWf_of_mem (hatWrite_mem src)

/-! ### Plans -/

@[simp] theorem planCommit_mem (s : State) (p : Nat) : (planCommit s p).mem = s.mem := by simp [planCommit]

@[simp] theorem planDone_mem (s : State) (p : Nat) : (planDone s p).mem = s.mem := by simp [planDone]

@[simp] theorem modInst_mem (s : State) (p i : Nat) (f : Inst → Inst) : (modInst s p i f).mem = s.mem := by
  simp [modInst]

@[simp] theorem readyTasks_mem (s : State) (p i : Nat) : (readyTasks s p i).mem = s.mem := by
  simp only [readyTasks]
  split <;> simp [*]

@[simp] theorem putStatus_memWf {s : State} (h : Memory.wf s.mem) (x : Inst) (o flags : Nat) :
    Memory.wf (putStatus s x o flags).mem := by
  simp [putStatus, h]

@[simp] theorem orderFallback_mem (s : State) (x : Inst) (o : Nat) : (orderFallback s x o).mem = s.mem := by
  simp [orderFallback]

@[simp] theorem markLate_memWf {s : State} (h : Memory.wf s.mem) (x : Inst) (o : Nat) :
    Memory.wf (markLate s x o).mem := by
  simp [markLate, h]

@[simp] theorem lateOuts_memWf {s : State} (h : Memory.wf s.mem) (p i : Nat) (ks : List Nat) :
    Memory.wf (lateOuts s p i ks).mem := by
  unfold lateOuts
  split
  · exact h
  · simp only [modInst_mem]
    exact foldl_memWf _ h fun _ _ hs => markLate_memWf hs ..

@[simp] theorem activateFallback_memWf {s : State} (h : Memory.wf s.mem) (p i k : Nat) (rep : Option Nat) :
    Memory.wf (activateFallback s p i k rep).mem := by
  simp only [activateFallback]
  split <;> simp [h]

@[simp] theorem bindAct_mem (s : State) (gt : Nat) (a : Act) : (bindAct s gt a).mem = s.mem := by simp [bindAct]

@[simp] theorem tryCores_mem (s : State) (a : Act) (l : List Nat) : (tryCores s a l).2.mem = s.mem := by
  induction l generalizing s with
  | nil => rfl
  | cons g l ih =>
    unfold tryCores
    split
    · exact ih s
    · split
      · simp [ih]
      · split <;> simp [ih]

@[simp] theorem placeOne_memWf {s : State} (h : Memory.wf s.mem) (pl : Place) : Memory.wf (placeOne s pl).mem := by
  simp only [placeOne]
  split <;> simp [h]

@[simp] theorem sweepInsts_mem (s : State) : (sweepInsts s).mem = s.mem := by simp [sweepInsts]

@[simp] theorem taskDone_mem (s : State) (p i k : Nat) (rep : Option Nat) : (taskDone s p i k rep).mem = s.mem := by
  simp [taskDone]

@[simp] theorem endAct_mem (s : State) (gt cause : Nat) : (endAct s gt cause).mem = s.mem := by
  simp only [endAct]
  split
  · rfl
  · split <;> simp -implicitDefEqProofs

@[simp] theorem exhausted_memWf {s : State} (h : Memory.wf s.mem) (g : Nat) : Memory.wf (exhausted s g).mem := by
  simp only [exhausted]
  (repeat' split) <;> simp -implicitDefEqProofs [h]

@[simp] theorem clearStatus_memWf {s : State} (h : Memory.wf s.mem) (x : Inst) : Memory.wf (clearStatus s x).mem :=
  foldl_memWf _ h fun _ _ hs => putStatus_memWf hs ..

@[simp] theorem release_memWf {s : State} (h : Memory.wf s.mem) (p : Nat) (m : Tick) :
    Memory.wf (release s p m).mem := by
  simp [release, h]

@[simp] theorem orderStop_mem (s : State) (gt : Nat) : (orderStop s gt).mem = s.mem := by simp [orderStop]

@[simp] theorem deadline_memWf {s : State} (h : Memory.wf s.mem) (x : Inst) (k : Nat) :
    Memory.wf (deadline s x k).mem := by
  simp only [deadline]
  split
  · simp only [State.setInsts_mem]
    exact foldl_memWf _ h fun _ _ hs => markLate_memWf hs ..
  · split
    · simp [h]
    · exact lateOuts_memWf (by simp [h]) ..

@[simp] theorem deadlines_memWf {s : State} (h : Memory.wf s.mem) (p i : Nat) (dropped : Bool) :
    Memory.wf (deadlines s p i dropped).mem := by
  simp only [deadlines]
  split
  · exact h
  · exact foldl_memWf _ h fun _ _ hs => by split <;> simp [hs]

@[simp] theorem softDeadlines_mem (s : State) : (softDeadlines s).mem = s.mem := by
  refine foldl_mem _ _ _ fun s t => ?_
  split
  · split <;> simp
  · rfl

@[simp] theorem recordEvent_mem (s : State) (n : Nat) : (recordEvent s n).2.mem = s.mem := by
  rw [recordEvent, foldl_snd_mem]
  intro r p
  dsimp only
  split
  · rfl
  · rw [readyTasks_mem, modInst_mem]

@[simp] theorem applyEvent_mem (s : State) (n : Nat) : (applyEvent s n).mem = s.mem := by simp [applyEvent]

@[simp] theorem latchAccounts_mem (s : State) : (latchAccounts s).mem = s.mem :=
  foldl_mem _ _ _ fun s g => by rw [State.modCore_mem, State.wr_mem, State.wr_mem, State.wr_mem, State.wr_mem]

/-! ### Kbound -/

@[simp] theorem releaseHold_memWf {s : State} (h : Memory.wf s.mem) (g : Nat) : Memory.wf (releaseHold s g).mem := by
  simp only [releaseHold]
  split <;> simp -implicitDefEqProofs [h]

@[simp] theorem endWfe_mem (s : State) (g : Nat) : (endWfe s g).mem = s.mem := by simp [endWfe]

@[simp] theorem frameRead_mem (s : State) (g v : Nat) : (frameRead s g v).2.2.mem = s.mem := by simp [frameRead]

@[simp] theorem recordUnspent_mem (s : State) (g gt : Nat) : (recordUnspent s g gt).mem = s.mem := by
  simp [recordUnspent]

@[simp] theorem switchOut_memWf {s : State} (h : Memory.wf s.mem) (g : Nat) : Memory.wf (switchOut s g).mem := by
  simp [switchOut, h]

@[simp] theorem switchIn_mem (s : State) (g t : Nat) (a : Option Act) : (switchIn s g t a).mem = s.mem := by
  unfold switchIn
  rw [State.modCore_mem]
  split
  · rw [State.modCore_mem, State.setTh_mem, State.modCore_mem, State.wr_mem, State.wr_mem]
  · rw [State.modCore_mem, frameRead_mem]
    split
    · rw [State.setTh_mem, State.modCore_mem, State.wr_mem, State.wr_mem]
    · rw [State.modCore_mem, State.wr_mem, State.wr_mem]

@[simp] theorem doSwitch_memWf {s : State} (h : Memory.wf s.mem) (g : Nat) : Memory.wf (doSwitch s g).mem := by
  simp only [doSwitch]
  split <;> simp [h]

@[simp] theorem stopRunning_memWf {s : State} (h : Memory.wf s.mem) (g cause : Nat) :
    Memory.wf (stopRunning s g cause).mem := by
  simp [stopRunning, h]

@[simp] theorem threadStop_memWf {s : State} (h : Memory.wf s.mem) (gt : Nat) : Memory.wf (threadStop s gt).mem := by
  simp [threadStop, h]

@[simp] theorem stopThread_memWf {s : State} (h : Memory.wf s.mem) (gt : Nat) : Memory.wf (stopThread s gt).mem := by
  simp [stopThread, h]

@[simp] theorem busAsync_mem (s : State) (g : Nat) : (busAsync s g).mem = s.mem := by
  simp only [busAsync]
  split <;> simp [*]

@[simp] theorem takeBudget_memWf {s : State} (h : Memory.wf s.mem) (g : Nat) : Memory.wf (takeBudget s g).mem := by
  simp [takeBudget, h]

@[simp] theorem haltHere_mem (s : State) (g : Nat) : (haltHere s g).mem = s.mem := by simp [haltHere]

@[simp] theorem boundary_memWf {s : State} (h : Memory.wf s.mem) (g : Nat) : Memory.wf (boundary s g).mem := by
  simp only [boundary]
  (repeat' split) <;> simp [h]

@[simp] theorem resume_mem (s : State) (g : Nat) : (resume s g).mem = s.mem := by simp -implicitDefEqProofs [resume]

@[simp] theorem coreReset_mem (s : State) (g : Nat) : (coreReset s g).mem = s.mem := by simp [coreReset]

@[simp] theorem coreRelease_mem (s : State) (g : Nat) : (coreRelease s g).mem = s.mem := by simp [coreRelease]

@[simp] theorem setHalt_memWf {s : State} (h : Memory.wf s.mem) (g : Nat) : Memory.wf (setHalt s g).mem := by
  simp [setHalt, h]

@[simp] theorem clearHalt_mem (s : State) (g : Nat) : (clearHalt s g).mem = s.mem := by simp [clearHalt]

@[simp] theorem coreStep_memWf {s : State} (h : Memory.wf s.mem) (g : Nat) : Memory.wf (coreStep s g).mem := by
  unfold coreStep
  extract_lets c
  split
  · exact h
  next s1 go before s2 _ =>
    have hgo : ∀ {t : State}, Memory.wf t.mem → Memory.wf (go t).mem := fun ht => by
      simp only [go]
      split <;> simp [ht]
    have h1 : Memory.wf s1.mem := by simp -implicitDefEqProofs [s1, h]
    split
    · exact hgo h1
    · exact hgo (hgo h1)

@[simp] theorem switchFailed_mem (s : State) (g code : Nat) (lost : Bool) :
    (switchFailed s g code lost).mem = s.mem := by
  simp [switchFailed]

@[simp] theorem dbgWrite_mem (s : State) (g v : Nat) : (dbgWrite s g v).mem = s.mem := by simp [dbgWrite]

@[simp] theorem setPoint_mem (s : State) (n point : Nat) : (setPoint s n point).mem = s.mem := by
  simp -implicitDefEqProofs only [setPoint, State.wb_mem, State.wf_mem]
  refine foldl_mem _ _ _ fun s k => ?_
  split
  · rw [State.modCore_mem, endHalt_mem]
  · split
    · exact endWait_mem ..
    · split
      · rfl
      · rw [State.cnt_mem, endWait_mem]
      · rfl
      · exact endWait_mem ..

@[simp] theorem stableTick_mem (s : State) (n : Nat) (m : Tick) : (stableTick s n m).mem = s.mem := by
  simp [stableTick]

@[simp] theorem htcPost_mem (s : State) (c tag : Nat) : (htcPost s c tag).2.mem = s.mem := by
  simp only [htcPost]
  (repeat' split) <;> simp

@[simp] theorem htcFree_mem (s : State) (c tag : Nat) : (htcFree s c tag).2.mem = s.mem := by
  simp only [htcFree]
  split <;> simp [*]

/-! ### Yardmaster -/

@[simp] theorem kResult_mem (s : State) (g code slot : Nat) (fresh : Bool) :
    (kResult s g code slot fresh).mem = s.mem := by
  simp -implicitDefEqProofs [kResult]

@[simp] theorem leaveCore_mem (s : State) (g : Nat) (save : Bool) : (leaveCore s g save).mem = s.mem := by
  simp [leaveCore]

@[simp] theorem kEnd_mem (s : State) (g : Nat) : (kEnd s g).mem = s.mem := by simp [kEnd]

@[simp] theorem kYield_mem (s : State) (g : Nat) : (kYield s g).mem = s.mem := by simp [kYield]

@[simp] theorem kArm_mem (s : State) (g : Nat) : (kArm s g).mem = s.mem := by simp [kArm]

@[simp] theorem kBlock_mem (s : State) (g : Nat) : (kBlock s g).mem = s.mem := by simp [kBlock]

@[simp] theorem kOutDone_memWf {s : State} (h : Memory.wf s.mem) (g : Nat) : Memory.wf (kOutDone s g).mem := by
  simp only [kOutDone]
  (repeat' split) <;> simp [h]

@[simp] theorem kSignal_mem (s : State) (g : Nat) : (kSignal s g).mem = s.mem := by simp [kSignal]

@[simp] theorem kTake_mem (s : State) (g : Nat) : (kTake s g).mem = s.mem := by
  unfold kTake
  split
  · simp
  · split
    · simp
    · split <;> simp -implicitDefEqProofs

@[simp] theorem kCommand_memWf {s : State} (h : Memory.wf s.mem) (g k : Nat) : Memory.wf (kCommand s g k).mem := by
  simp only [kCommand]
  split <;> simp [h]

@[simp] theorem actStatus_memWf {s : State} (h : Memory.wf s.mem) (a v : Nat) : Memory.wf (actStatus s a v).mem := by
  simp [actStatus, h]

@[simp] theorem ymAct_memWf {s : State} (h : Memory.wf s.mem) (a : Nat) : Memory.wf (ymAct s a).mem := by
  simp -implicitDefEqProofs [ymAct, h]

@[simp] theorem ymWrite_memWf {s s1 : State} (h : Memory.wf s.mem) (h1 : Memory.wf s1.mem) (nm : String)
    (ix : List Nat) (v : Nat) : Memory.wf (ymWrite nm ix v s s1).2.mem := by
  simp only [ymWrite]
  split <;> simp [h, h1]

theorem ymWrite_hookMemWf : HookMemWf ymWrite := hookMemWf_of_memWf ymWrite_memWf

@[simp] theorem sliceWrite_memWf {s s1 : State} (h : Memory.wf s.mem) (h1 : Memory.wf s1.mem) (n src : Nat)
    (km : Bool) (nm : String) (ix : List Nat) (v : Nat) : Memory.wf (sliceWrite n src km nm ix v s s1).2.mem := by
  simp only [sliceWrite]
  split <;> simp [h, h1]

theorem sliceWrite_hookMemWf (n src : Nat) (km : Bool) : HookMemWf (sliceWrite n src km) :=
  hookMemWf_of_memWf fun h h1 => sliceWrite_memWf h h1 n src km

@[simp] theorem kbWrite_memWf {s s1 : State} (h : Memory.wf s.mem) (h1 : Memory.wf s1.mem) (g : Nat) (nm : String)
    (ix : List Nat) (v : Nat) : Memory.wf (kbWrite g nm ix v s s1).2.mem := by
  simp only [kbWrite]
  split <;> simp [h, h1]

theorem kbWrite_hookMemWf (g : Nat) : HookMemWf (kbWrite g) :=
  hookMemWf_of_memWf fun h h1 => kbWrite_memWf h h1 g

@[simp] theorem stbWrite_memWf {s s1 : State} (h : Memory.wf s.mem) (h1 : Memory.wf s1.mem) (n src : Nat)
    (km : Bool) (nm : String) (ix : List Nat) (v : Nat) : Memory.wf (stbWrite n src km nm ix v s s1).2.mem := by
  simp only [stbWrite]
  split <;> simp [h, h1]

theorem stbWrite_hookMemWf (n src : Nat) (km : Bool) : HookMemWf (stbWrite n src km) :=
  hookMemWf_of_memWf fun h h1 => stbWrite_memWf h h1 n src km

@[simp] theorem htcWrite_mem (nm : String) (ix : List Nat) (v : Nat) (s s1 : State) (h : s1.mem = s.mem) :
    (htcWrite nm ix v s s1).2.mem = s.mem := by
  simp only [htcWrite]
  split <;> simp [*]

/-! ### Barrow -/

@[simp] theorem setChSt_mem (s : State) (ch st : Nat) : (setChSt s ch st).mem = s.mem := by simp [setChSt]

@[simp] theorem brwPoint_mem (s : State) (ch pc so dd : Nat) (iter : List Nat) :
    (brwPoint s ch pc so dd iter).mem = s.mem := by
  simp -implicitDefEqProofs [brwPoint]

@[simp] theorem withIrq_mem (s : State) (ch : Nat) (f : State → State) : (withIrq s ch f).mem = (f s).mem := by
  simp -implicitDefEqProofs [withIrq]

@[simp] theorem setBrwFlag_mem (s : State) (gr f : Nat) (b : Bool) : (setBrwFlag s gr f b).mem = s.mem := by
  simp [setBrwFlag]

@[simp] theorem haltRecord_mem (s : State) (ch cause rsp addr elem ofs : Nat) :
    (haltRecord s ch cause rsp addr elem ofs).mem = s.mem := by
  simp [haltRecord]

@[simp] theorem haltNow_mem (s : State) (ch : Nat) : (haltNow s ch).mem = s.mem := by
  unfold haltNow
  extract_lets c cause x s1 keep r s2 s3
  have h1 : s1.mem = s.mem := by
    simp only [s1]
    split <;> simp
  have h3 : s3.mem = s.mem := h1
  rw [withIrq_mem]
  dsimp only
  split <;> simp [h3]

@[simp] theorem drainOrHalt_mem (s : State) (ch : Nat) : (drainOrHalt s ch).mem = s.mem := by simp [drainOrHalt]

@[simp] theorem noteFail_mem (s : State) (ch : Nat) (f : BFail) : (noteFail s ch f).mem = s.mem := by simp [noteFail]

@[simp] theorem slotFail_mem (s : State) (ch cause rsp addr : Nat) : (slotFail s ch cause rsp addr).mem = s.mem := by
  simp [slotFail]

@[simp] theorem dropRun_mem (s : State) (ch : Nat) : (dropRun s ch).mem = s.mem := by simp [dropRun]

@[simp] theorem brwStart_mem (s : State) (ch : Nat) : (brwStart s ch).mem = s.mem := by simp [brwStart]

@[simp] theorem endDone_mem (s : State) (ch : Nat) : (endDone s ch).mem = s.mem := by simp [endDone]

@[simp] theorem brwResume_mem (s : State) (ch : Nat) : (brwResume s ch).mem = s.mem := by simp [brwResume]

@[simp] theorem brwClear_mem (s : State) (ch : Nat) : (brwClear s ch).mem = s.mem := by
  simp -implicitDefEqProofs [brwClear]

@[simp] theorem brwCmd_mem (s : State) (ch cmd : Nat) : (brwCmd s ch cmd).2.mem = s.mem := by
  simp only [brwCmd]
  split <;> simp [*]

@[simp] theorem planStart_mem (s : State) (ch : Nat) : (planStart s ch).mem = s.mem := by simp [planStart]

@[simp] theorem planStop_mem (s : State) (ch : Nat) : (planStop s ch).mem = s.mem := by simp [planStop]

@[simp] theorem brwReset_mem (s : State) (ch : Nat) : (brwReset s ch).mem = s.mem := by simp [brwReset]

@[simp] theorem goSlot_mem (s : State) (ch pc : Nat) : (goSlot s ch pc).mem = s.mem := by simp [goSlot]

@[simp] theorem beginMove_mem (s : State) (ch : Nat) : (beginMove s ch).mem = s.mem := by
  simp only [beginMove]
  split <;> simp [*]

@[simp] theorem beginGather_mem (s : State) (ch : Nat) : (beginGather s ch).mem = s.mem := by
  simp only [beginGather]
  split <;> simp [*]

@[simp] theorem doLoop_mem (s : State) (ch : Nat) : (doLoop s ch).mem = s.mem := by
  simp only [doLoop]
  split <;> simp [*]

@[simp] theorem doNop_mem (s : State) (ch : Nat) : (doNop s ch).mem = s.mem := by
  simp only [doNop]
  split <;> simp [*]

@[simp] theorem doErrProg_mem (s : State) (ch : Nat) : (doErrProg s ch).mem = s.mem := by
  simp only [doErrProg]
  split <;> simp [*]

@[simp] theorem doEnd_mem (s : State) (ch : Nat) : (doEnd s ch).mem = s.mem := by
  simp only [doEnd]
  split <;> simp [*]

@[simp] theorem endComplete_mem (s : State) (ch : Nat) : (endComplete s ch).mem = s.mem := by simp [endComplete]

theorem fenceHold_mem (s : State) (ch : Nat) {t : State} (h : fenceHold s ch = some t) : t.mem = s.mem := by
  unfold fenceHold at h
  split at h
  · split at h
    · obtain rfl := Option.some.inj h
      simp
    · cases h
  · obtain rfl := Option.some.inj h
    rfl

@[simp] theorem doWait_mem (s : State) (ch : Nat) : (doWait s ch).mem = s.mem := by
  unfold doWait
  split
  · rfl
  next s0 hs0 =>
    rw [← fenceHold_mem s ch hs0]
    split <;> simp [fenceHold_mem s ch hs0]

@[simp] theorem waitDone_mem (s : State) (ch : Nat) (tick : Option Int) : (waitDone s ch tick).mem = s.mem := by
  simp [waitDone]

theorem satisfied_mem (s : State) (ch : Nat) (w : BWait) {t : State} (h : satisfied s ch w = some t) :
    t.mem = s.mem := by
  unfold satisfied at h
  split at h
  · split at h
    · obtain rfl := Option.some.inj h
      simp
    · cases h
  · split at h
    · obtain rfl := Option.some.inj h
      simp
    · cases h
  · split at h
    · split at h
      · obtain rfl := Option.some.inj h
        simp
      · cases h
    · cases h

@[simp] theorem waitSatisfied_mem (s : State) (ch : Nat) : (waitSatisfied s ch).mem = s.mem := by
  unfold waitSatisfied
  split
  · rfl
  next w _ =>
    rw [mem_ite]
    cases hq : satisfied (if w.kind = 1 then untilS w.target 64 s else s) ch w with
    | none => simp
    | some t => simp [satisfied_mem _ _ _ hq]

@[simp] theorem waitTmo_mem (s : State) (ch : Nat) : (waitTmo s ch).mem = s.mem := by
  unfold waitTmo
  (repeat' split) <;> simp

@[simp] theorem notice_mem (s : State) (ch kind arg grp word : Nat) :
    (notice s ch kind arg grp word).2.2.mem = s.mem := by
  simp only [notice]
  split <;> simp [*]

@[simp] theorem sendNotice_mem (s : State) (ch kind arg grp word : Nat) (retry : Bool) :
    (sendNotice s ch kind arg grp word retry).mem = s.mem := by
  simp [sendNotice]

@[simp] theorem doSignal_mem (s : State) (ch : Nat) : (doSignal s ch).mem = s.mem := by
  unfold doSignal
  split
  · rfl
  next s0 hs0 => split <;> simp [fenceHold_mem s ch hs0]

@[simp] theorem signalRetry_mem (s : State) (ch : Nat) : (signalRetry s ch).mem = s.mem := by
  unfold signalRetry
  (repeat' split) <;> simp

@[simp] theorem brwWrite_mem (gr : Nat) (nm : String) (ix : List Nat) (v : Nat) (s s1 : State) (h : s1.mem = s.mem) :
    (brwWrite gr nm ix v s s1).2.mem = s.mem := by
  simp only [brwWrite]
  (repeat' split) <;> simp -implicitDefEqProofs [h]

theorem brwWrite_hookMemWf (gr : Nat) : HookMemWf (brwWrite gr) := hookMemWf_of_mem (brwWrite_mem gr)

/-! ### EccCtl -/

@[simp] theorem scrubWord_memWf {s : State} (h : Memory.wf s.mem) (n w : Nat) : Memory.wf (scrubWord s n w).mem := by
  unfold scrubWord
  split
  · exact h
  · exact h
  · simpa using State.st_wf h ..
  · simp [h]

@[simp] theorem scrubRead_memWf {s : State} (h : Memory.wf s.mem) (n : Nat) : Memory.wf (scrubRead s n).mem := by
  simp only [scrubRead]
  (repeat' split) <;> simp [h]

@[simp] theorem scrubPeriodEnd_mem (s : State) (n : Nat) : (scrubPeriodEnd s n).mem = s.mem := by
  simp [scrubPeriodEnd]

@[simp] theorem eccWrite_mem (nm : String) (ix : List Nat) (v : Nat) (s s1 : State) (h : s1.mem = s.mem) :
    (eccWrite nm ix v s s1).2.mem = s.mem := by
  simp only [eccWrite]
  split <;> simp [*]

theorem eccWrite_hookMemWf : HookMemWf eccWrite := hookMemWf_of_mem eccWrite_mem

/-! ### Engine -/

@[simp] theorem countJob_mem (s : State) (e status rsp src : Nat) : (countJob s e status rsp src).mem = s.mem := by
  simp -implicitDefEqProofs [countJob]

@[simp] theorem sendComp_mem (s : State) (e : Nat) (j : EJob) (status rsp : Nat) (sw : Bool) (summary cyc : Nat) :
    (sendComp s e j status rsp sw summary cyc).mem = s.mem := by
  simp [sendComp]

@[simp] theorem enginePost_mem (s : State) (e : Nat) : (enginePost s e).mem = s.mem := by
  simp only [enginePost]
  split <;> simp [*]

@[simp] theorem engineConfirm_mem (s : State) (e : Nat) : (engineConfirm s e).mem = s.mem := by
  simp only [engineConfirm]
  (repeat' split) <;> simp

@[simp] theorem engineWithdraw_mem (s : State) (e : Nat) : (engineWithdraw s e).mem = s.mem := by
  simp only [engineWithdraw]
  split <;> simp [*]

@[simp] theorem dropChain_mem (s : State) (p c : Nat) : (dropChain s p c).mem = s.mem := by simp [dropChain]

@[simp] theorem abortRun_mem (s : State) (e : Nat) : (abortRun s e).mem = s.mem := by
  unfold abortRun
  (repeat' split) <;> simp

@[simp] theorem engineReset_mem (s : State) (e : Nat) : (engineReset s e).mem = s.mem := by simp [engineReset]

@[simp] theorem engineResetClear_memWf {s : State} (h : Memory.wf s.mem) (e : Nat) :
    Memory.wf (engineResetClear s e).mem := by
  simp only [engineResetClear, State.modEng_mem]
  exact foldl_memWf _ h fun _ _ hs => by split <;> simp [hs]

@[simp] theorem lbtStart_mem (s : State) (c : Nat) : (lbtStart s c).mem = s.mem := by simp [lbtStart]

@[simp] theorem lbtIdle_mem (s : State) (c : Nat) : (lbtIdle s c).mem = s.mem := by simp [lbtIdle]

@[simp] theorem lbtAbort_mem (s : State) (c : Nat) : (lbtAbort s c).mem = s.mem := by simp [lbtAbort]

@[simp] theorem lbtRelease_mem (s : State) (c : Nat) : (lbtRelease s c).mem = s.mem := by simp [lbtRelease]

@[simp] theorem lbtAcquire_mem (s : State) (c : Nat) (t : Int) : (lbtAcquire s c t).mem = s.mem := by
  simp only [lbtAcquire]
  (repeat' split) <;> simp

@[simp] theorem lbtCmd_mem (s : State) (c v : Nat) : (lbtCmd s c v).2.mem = s.mem := by
  simp only [lbtCmd]
  split <;> simp [*]

@[simp] theorem cotEnd_mem (s : State) (c : Nat) : (cotEnd s c).mem = s.mem := by simp [cotEnd]

@[simp] theorem nbEnable_mem (s : State) (i j : Nat) : (nbEnable s i j).mem = s.mem := by simp [nbEnable]

@[simp] theorem nbEnWrite_mem (s : State) (i k v : Nat) : (nbEnWrite s i k v).mem = s.mem := by simp [nbEnWrite]

@[simp] theorem engWrite_memWf {s s1 : State} (h : Memory.wf s.mem) (h1 : Memory.wf s1.mem) (a : Nat) (nm : String)
    (ix : List Nat) (v : Nat) : Memory.wf (engWrite a nm ix v s s1).2.mem := by
  simp only [engWrite]
  split <;> simp [h, h1]

theorem engWrite_hookMemWf (a : Nat) : HookMemWf (engWrite a) :=
  hookMemWf_of_memWf fun h h1 => engWrite_memWf h h1 a

/-! ### Ethernet -/

@[simp] theorem ethFlag_mem (s : State) (m i : Nat) : (ethFlag s m i).mem = s.mem := by simp [ethFlag]

@[simp] theorem ethCnt_mem (s : State) (m i : Nat) : (ethCnt s m i).mem = s.mem := by simp [ethCnt]

@[simp] theorem secReceive_mem (s : State) (m : Nat) (f : RxFrame) : (secReceive s m f).2.2.2.mem = s.mem := by
  simp only [secReceive]
  split
  · rfl
  · split
    · rfl
    · split
      · rfl
      · split
        · rfl
        · rw [State.cnt_mem, State.wr_mem, State.wr_mem]

@[simp] theorem placeWrite_memWf {s : State} (h : Memory.wf s.mem) (m q : Nat) (w : List (Nat × List Byte))
    (sat : Nat)
    (stamp : Int) : Memory.wf (placeWrite s m q w sat stamp).mem := by
  simp only [placeWrite, State.modMac_mem, State.cnt_mem]
  exact foldl_memWf _ h fun _ _ hs => State.putPostedAll_memWf hs ..

@[simp] theorem qPause_mem (s : State) (m q : Nat) : (qPause s m q).mem = s.mem := by simp [qPause]

@[simp] theorem qResume_mem (s : State) (m q : Nat) : (qResume s m q).mem = s.mem := by simp [qResume]

@[simp] theorem frameWrite_memWf {s : State} (h : Memory.wf s.mem) (m q rule : Nat) (b : List Byte)
    (sec reasm : Bool) (stamp : Int) : Memory.wf (frameWrite s m q rule b sec reasm stamp).mem := by
  simp [frameWrite, h]

@[simp] theorem toQueue_memWf {s : State} (h : Memory.wf s.mem) (m q rule : Nat) (b : List Byte)
    (sec reasm : Bool) (stamp : Int) : Memory.wf (toQueue s m q rule b sec reasm stamp).mem := by
  simp only [toQueue]
  (repeat' split) <;> simp [h]

@[simp] theorem pauseClass_mem (s : State) (m c n : Nat) : (pauseClass s m c n).mem = s.mem := by simp [pauseClass]

theorem pauseFrame_mem (s : State) (m : Nat) (b : List Byte) {t : State} (h : pauseFrame s m b = some t) :
    t.mem = s.mem := by
  simp only [pauseFrame] at h
  split at h
  · cases h
  · split at h
    · obtain rfl := Option.some.inj h
      simp
    · split at h
      · obtain rfl := Option.some.inj h
        simp
      · cases h

@[simp] theorem fecCount_mem (s : State) (m : Nat) (corr unc : List Nat) : (fecCount s m corr unc).mem = s.mem := by
  simp -implicitDefEqProofs [fecCount]

@[simp] theorem axcReceive_memWf {s : State} (h : Memory.wf s.mem) (m : Nat) (d : AxcData) :
    Memory.wf (axcReceive s m d).mem := by
  simp [axcReceive, h]

@[simp] theorem frameReceive_memWf {s : State} (h : Memory.wf s.mem) (m : Nat) (f : RxFrame) (axc : Option AxcData) :
    Memory.wf (frameReceive s m f axc).mem := by
  simp only [frameReceive]
  split
  · exact h
  · split
    · split <;> simp [h]
    · split
      · simp [h]
      · split
        · simp [h]
        · split
          · simp [h]
          · split
            next t ht => simpa [pauseFrame_mem _ _ _ ht] using h
            · split
              · simp [h]
              · split <;> simp [h]

@[simp] theorem qNotice_mem (s : State) (m q : Nat) : (qNotice s m q).mem = s.mem := by
  simp only [qNotice]
  split <;> simp [*]

@[simp] theorem frameDeliver_mem (s : State) (m q : Nat) : (frameDeliver s m q).2.mem = s.mem := by
  simp only [frameDeliver]
  split <;> simp [*]

@[simp] theorem pauseWd_mem (s : State) (m c : Nat) : (pauseWd s m c).mem = s.mem := by
  simp only [pauseWd]
  split <;> simp [*]

@[simp] theorem pauseEnd_mem (s : State) (m c : Nat) : (pauseEnd s m c).mem = s.mem := by simp [pauseEnd]

/-! ### EthTx -/

@[simp] theorem State.setTxq_mem (s : State) (m q : Nat) (x : Txq) : (s.setTxq m q x).mem = s.mem := by
  simp [State.setTxq]

@[simp] theorem recDiscard_mem (s : State) (m : Nat) (r : List Byte) : (recDiscard s m r).mem = s.mem := by
  simp [recDiscard]

@[simp] theorem txqParse_mem (m q n : Nat) (s : State) : (txqParse m q n s).mem = s.mem := by
  induction n generalizing s with
  | zero => rfl
  | succ n ih => simp [txqParse, ih]

@[simp] theorem txqFeed_mem (s : State) (m q : Nat) (l : List Byte) : (txqFeed s m q l).mem = s.mem := by
  simp [txqFeed]

@[simp] theorem txqUnhold_mem (m q n : Nat) (s : State) : (txqUnhold m q n s).mem = s.mem := by
  induction n generalizing s with
  | zero => rfl
  | succ n ih =>
    unfold txqUnhold
    split <;> simp [ih]

@[simp] theorem txqDrain_mem (s : State) (m q : Nat) : (txqDrain s m q).mem = s.mem := by simp [txqDrain]

@[simp] theorem txqWrite_mem (s : State) (m q src : Nat) (l : List Byte) : (txqWrite s m q src l).2.mem = s.mem := by
  simp [txqWrite]

@[simp] theorem txqHoldReject_mem (s : State) (m q : Nat) : (txqHoldReject s m q).mem = s.mem := by
  simp only [txqHoldReject]
  split <;> simp [*]

@[simp] theorem txqCmd_mem (s : State) (m q v : Nat) : (txqCmd s m q v).mem = s.mem := by simp [txqCmd]

@[simp] theorem orMask_mem (s : State) (m k slot fb cp : Nat) : (orMask s m k slot fb cp).mem = s.mem := by
  simp [orMask]

@[simp] theorem fallbackOrder_mem (s : State) (m : Nat) : (fallbackOrder s m).mem = s.mem := by
  unfold fallbackOrder
  (repeat' split) <;> simp

@[simp] theorem untilDom_mem (d : Nat) (x : Int) (n : Nat) (s : State) : (untilDom d x n s).mem = s.mem := by
  induction n generalizing s with
  | zero => rfl
  | succ n ih => simp [untilDom, ih]

@[simp] theorem advancePn_mem (s : State) (m i pn : Nat) : (advancePn s m i pn).mem = s.mem := by simp [advancePn]

@[simp] theorem popRec_mem (s : State) (m q : Nat) : (popRec s m q).mem = s.mem := by simp [popRec]

@[simp] theorem sendRec_mem (s : State) (m q : Nat) (r : List Byte) (zero : Bool) :
    (sendRec s m q r zero).mem = s.mem := by
  simp only [sendRec]
  split <;> simp [*]

@[simp] theorem startRec_mem (s : State) (m q : Nat) (r : List Byte) : (startRec s m q r).mem = s.mem := by
  simp only [startRec]
  split <;> simp [*]

@[simp] theorem frameLaunch_mem (s : State) (m q : Nat) : (frameLaunch s m q).mem = s.mem := by
  simp only [frameLaunch]
  split <;> simp [*]

@[simp] theorem qbvChange_mem (s : State) (m : Nat) : (qbvChange s m).mem = s.mem := by simp [qbvChange]

@[simp] theorem qbvTake_mem (s : State) (m : Nat) : (qbvTake s m).mem = s.mem := by
  simp -implicitDefEqProofs [qbvTake]

@[simp] theorem gateEnd_mem (s : State) (m : Nat) : (gateEnd s m).mem = s.mem := by simp [gateEnd]

@[simp] theorem linkChange_mem (s : State) (m : Nat) (up : Bool) (txvar rxvar : Nat) :
    (linkChange s m up txvar rxvar).mem = s.mem := by
  simp -implicitDefEqProofs [linkChange]

@[simp] theorem preemptVerify_mem (s : State) (m : Nat) : (preemptVerify s m).mem = s.mem := by simp [preemptVerify]

@[simp] theorem saCfg_mem (s s1 : State) (m key a v : Nat) (h : s1.mem = s.mem) :
    (saCfg s s1 m key a v).2.mem = s.mem := by
  simp [h, saCfg]

@[simp] theorem ethWrite_mem (m : Nat) (nm : String) (ix : List Nat) (v : Nat) (s s1 : State) (h : s1.mem = s.mem) :
    (ethWrite m nm ix v s s1).2.mem = s.mem := by
  unfold ethWrite
  split <;> simp [h]

theorem ethWrite_hookMemWf (m : Nat) : HookMemWf (ethWrite m) := hookMemWf_of_mem (ethWrite_mem m)

/-! ### Phinerlink -/

@[simp] theorem plFlag_mem (s : State) (i : Nat) : (plFlag s i).mem = s.mem := by simp [plFlag]

@[simp] theorem fgenInc_mem (s : State) : (fgenInc s).mem = s.mem := by simp [fgenInc]

@[simp] theorem plEnter_mem (s : State) (p st : Nat) : (plEnter s p st).mem = s.mem := by simp [plEnter]

@[simp] theorem plEmit_mem (s : State) (p : Nat) (k : PlPkt) : (plEmit s p k).mem = s.mem := by simp [plEmit]

@[simp] theorem plPumpList_mem (s : State) (p : Nat) (l : List PlWait) : (plPumpList s p l).mem = s.mem := by
  induction l generalizing s with
  | nil => rfl
  | cons w l ih => simp [plPumpList, ih]

@[simp] theorem plPump_mem (s : State) (p : Nat) : (plPump s p).mem = s.mem := by simp [plPump]

@[simp] theorem plEnqueue_mem (s : State) (p : Nat) (mtx : Bool) (k : PlPkt) : (plEnqueue s p mtx k).mem = s.mem := by
  simp [plEnqueue]

@[simp] theorem xidDone_mem (s : State) (x : PlXid) (code : Nat) (data : List Byte) :
    (xidDone s x code data).mem = s.mem := by
  simp [xidDone]

@[simp] theorem plResponse_mem (s : State) (k : PlPkt) : (plResponse s k).mem = s.mem := by
  unfold plResponse
  (repeat' split) <;> simp

@[simp] theorem plSendResp_mem (s : State) (k : PlPkt) : (plSendResp s k).mem = s.mem := by
  simp only [plSendResp]
  split <;> simp [*]

@[simp] theorem plAbsorb_mem (s : State) (k : PlPkt) (code ctr : Nat) : (plAbsorb s k code ctr).mem = s.mem := by
  simp [plAbsorb]

@[simp] theorem plForward_mem (s : State) (k : PlPkt) : (plForward s k).mem = s.mem := by
  simp only [plForward]
  split <;> simp [*]

@[simp] theorem plTrain_mem (s : State) (p prior : Nat) : (plTrain s p prior).mem = s.mem := by simp [plTrain]

@[simp] theorem plDown_mem (s : State) (p : Nat) : (plDown s p).mem = s.mem := by simp [plDown]

@[simp] theorem laneFault_mem (s : State) (p lane : Nat) (los : Bool) : (laneFault s p lane los).mem = s.mem := by
  simp [laneFault]

@[simp] theorem trainingTimeout_mem (s : State) (p : Nat) : (trainingTimeout s p).mem = s.mem := by
  simp [trainingTimeout]

@[simp] theorem plReplay_mem (s : State) (p : Nat) : (plReplay s p).mem = s.mem := by
  simp -implicitDefEqProofs [plReplay]

@[simp] theorem trainingDone_mem (s : State) (p : Nat) : (trainingDone s p).mem = s.mem := by simp [trainingDone]

@[simp] theorem plEnable_mem (s : State) (p : Nat) (was : Bool) : (plEnable s p was).mem = s.mem := by simp [plEnable]

@[simp] theorem plSleep_mem (s : State) (p st : Nat) : (plSleep s p st).mem = s.mem := by simp [plSleep]

@[simp] theorem plExit_mem (s : State) (p : Nat) : (plExit s p).mem = s.mem := by simp [plExit]

@[simp] theorem autoPm_mem (s : State) (p : Nat) : (autoPm s p).mem = s.mem := by simp [autoPm]

@[simp] theorem calStart_mem (s : State) (p : Nat) : (calStart s p).mem = s.mem := by simp [calStart]

@[simp] theorem calComplete_mem (s : State) (p : Nat) : (calComplete s p).mem = s.mem := by
  simp only [calComplete]
  split
  · rfl
  · split
    · simp -implicitDefEqProofs
    · simp

@[simp] theorem mgmtSend_mem (s : State) (p mtype id : Nat) (body : List Byte) :
    (mgmtSend s p mtype id body).mem = s.mem := by
  simp [mgmtSend]

@[simp] theorem mtxSend_mem (s : State) (p len : Nat) : (mtxSend s p len).2.mem = s.mem := by simp [mtxSend]

@[simp] theorem mgmtSegment_mem (s : State) (p : Nat) (k : PlPkt) : (mgmtSegment s p k).mem = s.mem := by
  simp [mgmtSegment]

@[simp] theorem barrierAck_mem (s : State) (u ch : Nat) : (barrierAck s u ch).mem = s.mem := by
  simp only [barrierAck]
  split <;> simp [*]

@[simp] theorem mgmtConsume_mem (s : State) (p : Nat) (m : PlMsg) : (mgmtConsume s p m).mem = s.mem := by
  simp only [mgmtConsume]
  split <;> simp [*]

@[simp] theorem mgmtMessage_memWf {s : State} (h : Memory.wf s.mem) (p : Nat) : Memory.wf (mgmtMessage s p).mem := by
  simp only [mgmtMessage]
  split <;> simp -implicitDefEqProofs [h]

@[simp] theorem mgmtTimeout_mem (s : State) (p : Nat) : (mgmtTimeout s p).mem = s.mem := by
  simp only [mgmtTimeout]
  split <;> simp [*]

@[simp] theorem plStale_mem (s : State) (e : Nat) : (plStale s e).mem = s.mem := by simp [plStale]

@[simp] theorem plPrepare_mem (s : State) : (plPrepare s).mem = s.mem := by simp [plPrepare]

@[simp] theorem plRtCtrl_mem (s : State) (v : Nat) : (plRtCtrl s v).2.mem = s.mem := by
  simp only [plRtCtrl]
  split <;> simp [*]

@[simp] theorem plDrained_mem (s : State) : (plDrained s).mem = s.mem := by simp [plDrained]

@[simp] theorem setFence_mem (s : State) (i : Nat) (f : PlFence) : (setFence s i f).mem = s.mem := by simp [setFence]

@[simp] theorem fenceXids_mem (s : State) (u : Nat) : (fenceXids s u).mem = s.mem := by simp [fenceXids]

@[simp] theorem plFenceUnit_mem (s : State) (u : Nat) (auto : Bool) : (plFenceUnit s u auto).2.mem = s.mem := by
  unfold plFenceUnit
  (repeat' split) <;> simp

@[simp] theorem plUnfence_mem (s : State) (u : Nat) : (plUnfence s u).2.mem = s.mem := by
  simp only [plUnfence]
  split <;> simp [*]

@[simp] theorem plFenceCmd_mem (s : State) (v : Nat) : (plFenceCmd s v).2.mem = s.mem := by
  simp only [plFenceCmd]
  (repeat' split) <;> simp

@[simp] theorem plBarrierTimeout_mem (s : State) (u : Nat) : (plBarrierTimeout s u).mem = s.mem := by
  simp only [plBarrierTimeout]
  split <;> simp [*]

@[simp] theorem plAutoFence_mem (s : State) (u : Nat) : (plAutoFence s u).mem = s.mem := by simp [plAutoFence]

@[simp] theorem plRspTimeout_mem (s : State) (xid : Nat) : (plRspTimeout s xid).mem = s.mem := by
  simp only [plRspTimeout]
  split <;> simp [*]

@[simp] theorem plRequest_mem (s : State) (u opc len sb xid addr : Nat) (data : List Byte) :
    (plRequest s u opc len sb xid addr data).2.mem = s.mem := by
  simp only [plRequest]
  (repeat' split) <;> simp

@[simp] theorem tmkSend_mem (s : State) (p d : Nat) : (tmkSend s p d).mem = s.mem := by simp [tmkSend]

@[simp] theorem tmkServo_mem (s : State) (p d : Nat) (e : Int) : (tmkServo s p d e).mem = s.mem := by simp [tmkServo]

@[simp] theorem tmkCal_mem (s : State) (p d : Nat) (word : Int) (caps : List (Nat × Int)) :
    (tmkCal s p d word caps).mem = s.mem := by
  simp [tmkCal]

@[simp] theorem tmkReceive_mem (s : State) (p sq word : Nat) (capts : List (Nat × Nat)) :
    (tmkReceive s p sq word capts).mem = s.mem := by
  simp only [tmkReceive]
  (repeat' split) <;> simp

@[simp] theorem plLctl_mem (s : State) (p ack nak : Nat) (credits : List Nat) :
    (plLctl s p ack nak credits).mem = s.mem := by
  simp [plLctl]

@[simp] theorem plCmd_mem (s : State) (p v : Nat) : (plCmd s p v).2.mem = s.mem := by
  simp only [plCmd]
  split <;> simp [*]

@[simp] theorem plWrite_mem (src : Nat) (nm : String) (ix : List Nat) (v : Nat) (s s1 : State) (h : s1.mem = s.mem) :
    (plWrite src nm ix v s s1).2.mem = s.mem := by
  simp only [plWrite]
  split <;> simp [*]

theorem plWrite_hookMemWf (src : Nat) : HookMemWf (plWrite src) := hookMemWf_of_mem (plWrite_mem src)

/-! ### Yard -/

@[simp] theorem dropHeld_mem (s : State) (e : Nat) : (dropHeld s e).mem = s.mem := by simp [dropHeld]

@[simp] theorem fence_mem (s : State) (e : Nat) (auto : Bool) : (fence s e auto).mem = s.mem := by simp [fence]

@[simp] theorem lastFence_mem (s : State) (e : Nat) (auto : Bool) (by' : Nat) :
    (lastFence s e auto by').mem = s.mem := by
  simp -implicitDefEqProofs [lastFence]

@[simp] theorem cmdFence_mem (s : State) (e : Nat) : (cmdFence s e).2.mem = s.mem := by simp [cmdFence]

@[simp] theorem cmdUnfence_mem (s : State) (e : Nat) : (cmdUnfence s e).2.mem = s.mem := by simp [cmdUnfence]

@[simp] theorem epCmd_mem (s : State) (v : Nat) : (epCmd s v).2.mem = s.mem := by
  simp only [epCmd]
  split <;> simp [*]

@[simp] theorem barrierDone_mem (s : State) (e : Nat) : (barrierDone s e).mem = s.mem := by simp [barrierDone]

@[simp] theorem barrierTimeout_mem (s : State) (e : Nat) : (barrierTimeout s e).mem = s.mem := by
  simp [barrierTimeout]

@[simp] theorem timeoutFence_mem (s : State) (src dst : Nat) : (timeoutFence s src dst).mem = s.mem := by
  simp [timeoutFence]

@[simp] theorem responseTimeout_mem (s : State) (src seq : Nat) : (responseTimeout s src seq).mem = s.mem := by
  simp only [responseTimeout]
  split <;> simp [*]

@[simp] theorem respond_mem (s : State) (r : YResp) : (respond s r).mem = s.mem := by
  simp only [respond]
  split <;> simp [*]

@[simp] theorem yardResponse_mem (s : State) (src seq : Nat) : (yardResponse s src seq).mem = s.mem := by
  simp only [yardResponse]
  split <;> simp [*]

@[simp] theorem wakeTimeout_mem (s : State) (k : Nat) : (wakeTimeout s k).mem = s.mem := by
  simp only [wakeTimeout]
  split <;> simp [*]

@[simp] theorem flitReceive_mem (s : State) (r port : Nat) (ok express tail : Bool) (epoch : Nat) :
    (flitReceive s r port ok express tail epoch).mem = s.mem := by
  simp [flitReceive]

@[simp] theorem linkRetrain_mem (s : State) (r dir : Nat) : (linkRetrain s r dir).mem = s.mem := by simp [linkRetrain]

@[simp] theorem absorbStale_mem (s : State) (e : Nat) : (absorbStale s e).mem = s.mem := by simp [absorbStale]

@[simp] theorem commit_mem (s : State) : (commit s).mem = s.mem := by simp [commit]

@[simp] theorem drained_mem (s : State) : (drained s).mem = s.mem := by simp [drained]

@[simp] theorem drainTmo_mem (s : State) : (drainTmo s).mem = s.mem := by simp [drainTmo]

@[simp] theorem yrdWrite_mem (nm : String) (ix : List Nat) (v : Nat) (s s1 : State) (h : s1.mem = s.mem) :
    (yrdWrite nm ix v s s1).2.mem = s.mem := by
  simp only [yrdWrite]
  split <;> simp [*]

theorem yrdWrite_hookMemWf : HookMemWf yrdWrite := hookMemWf_of_mem yrdWrite_mem

@[simp] theorem yrdClear_mem (nm : String) (s : State) : (yrdClear nm s).mem = s.mem := by
  simp only [yrdClear]
  split <;> simp [*]

/-! ### Ymtick -/

@[simp] theorem countTicks_mem (s : State) (m : Tick) : (countTicks s m).mem = s.mem := by simp [countTicks]

@[simp] theorem releaseChan_mem (s : State) (ch prog : Nat) : (releaseChan s ch prog).mem = s.mem := by
  simp [releaseChan]

@[simp] theorem releasePlan_memWf {s : State} (h : Memory.wf s.mem) (p : Nat) (m : Tick) :
    Memory.wf (releasePlan s p m).mem := by
  simp [releasePlan, h]

@[simp] theorem stopChans_mem (s : State) (f : ChanStop → Bool) : (stopChans s f).mem = s.mem := by simp [stopChans]

@[simp] theorem allDeadlines_memWf {s : State} (h : Memory.wf s.mem) : Memory.wf (allDeadlines s).mem :=
  foldl_memWf _ h fun _ _ hs => deadlines_memWf hs ..

@[simp] theorem ymTick_memWf {s : State} (h : Memory.wf s.mem) (m : Tick) : Memory.wf (ymTick s m).mem := by
  unfold ymTick
  extract_lets s1 s2 s3 s4 s5 s6 cfg
  have h1 : Memory.wf s1.mem := by simp [s1, h]
  have h2 : Memory.wf s2.mem := by
    simp only [s2]
    split
    · exact foldl_memWf _ h1 fun _ _ hs => releasePlan_memWf hs ..
    · exact h1
  have h3 : Memory.wf s3.mem := foldl_memWf _ h2 fun _ _ hs => by split <;> simp [hs]
  have h6 : Memory.wf s6.mem := by simp [s6, s5, s4, h3]
  split
  · simpa using h6
  · exact h6

@[simp] theorem takeYmTick_memWf {s : State} (h : Memory.wf s.mem) (t : Nat) : Memory.wf (takeYmTick s t).mem := by
  simp only [takeYmTick]
  split <;> simp [h]

@[simp] theorem trainStopped_memWf {s : State} (h : Memory.wf s.mem) (t : Nat) : Memory.wf
    (trainStopped s t).mem := by
  simp only [trainStopped, stopChans_mem, sweepInsts_mem]
  exact foldl_memWf _ h fun _ _ hs => foldl_memWf _ hs fun _ _ hu => by split <;> simp [hu]

@[simp] theorem ymStops_memWf {s : State} (h : Memory.wf s.mem) : Memory.wf (ymStops s).mem :=
  foldl_memWf _ h fun _ _ hs => trainStopped_memWf hs ..

/-! ### Sheds -/

@[simp] theorem withShd_mem (s : State) (f : State → State) : (withShd s f).mem = (f s).mem := by
  simp -implicitDefEqProofs [withShd]

@[simp] theorem shdFlag_mem (s : State) (i : Nat) : (shdFlag s i).mem = s.mem := by
  simp -implicitDefEqProofs [shdFlag]

@[simp] theorem dropRegs_mem (s : State) (k : Nat) : (dropRegs s k).mem = s.mem := by simp [dropRegs]

@[simp] theorem enterWindows_mem (s : State) (l : List Nat) : (enterWindows s l).mem = s.mem := by simp [enterWindows]

theorem foldl_coreReset_mem (n : Nat) (l : List Nat) (s : State) :
    (l.foldl (fun s k => coreReset s (8 * n + k)) s).mem = s.mem := by
  induction l generalizing s with
  | nil => rfl
  | cons k l ih => rw [List.foldl_cons, ih, coreReset_mem]

@[simp] theorem resetStable_mem (s : State) (n : Nat) : (resetStable s n).mem = s.mem := by
  have h : ∀ (s : State) c y t b, { s with cores := c, ym := y, ticks := t, brwLast := b }.mem = s.mem :=
    fun _ _ _ _ _ => rfl
  rw [resetStable, h, dropRegs_mem, foldl_mem _ _ _ fun s k => brwReset_mem s (16 * n + k), foldl_coreReset_mem,
    enterWindows_mem]

@[simp] theorem resetAccel_mem (s : State) (k : Nat) : (resetAccel s k).mem = s.mem := by simp [resetAccel]

@[simp] theorem resetPl_mem (s : State) : (resetPl s).mem = s.mem := by
  simp only [resetPl]
  split
  · rfl
  · rw [State.wr_mem]
    rfl

@[simp] theorem resetClock_memWf {s : State} (h : Memory.wf s.mem) : Memory.wf (resetClock s).mem := by
  simp [resetClock, h]

@[simp] theorem resetYard_mem (s : State) : (resetYard s).mem = s.mem := by simp [resetYard]

@[simp] theorem resetLoft_mem (s : State) : (resetLoft s).mem = s.mem := by simp [resetLoft]

@[simp] theorem shedReset_memWf {s : State} (h : Memory.wf s.mem) (k : Nat) : Memory.wf (shedReset s k).mem := by
  simp [shedReset, h]

@[simp] theorem shedMemInit_memWf {s : State} (h : Memory.wf s.mem) (k : Nat) : Memory.wf (shedMemInit s k).mem :=
  foldl_memWf _ (State.initMem_wf h _) fun _ _ hs => hs

theorem resetUnit_mem (s : State) (trs : Tab ShedTr) : (resetUnit s trs).mem = [] := by
  unfold resetUnit
  extract_lets shd keep s0 off u pl
  have hoff : off.mem = [] := foldl_mem _ _ _ fun _ _ => State.wr_mem ..
  have hpl : pl.mem = [] := by
    simp only [pl]
    split
    · exact hoff
    · rw [State.wr_mem, hoff]
  exact hpl

@[simp] theorem resetUnit_memWf (s : State) (trs : Tab ShedTr) : Memory.wf (resetUnit s trs).mem := by
  rw [resetUnit_mem]
  exact ⟨List.Pairwise.nil, nofun⟩

@[simp] theorem setShed_mem (s : State) (k cur : Nat) (busy : Bool) (step : Nat) :
    (setShed s k cur busy step).mem = s.mem := by
  simp [setShed]

@[simp] theorem shedDescend_mem (s : State) (k st : Nat) : (shedDescend s k st).mem = s.mem := by simp [shedDescend]

@[simp] theorem shedDrive_mem (s : State) (k : Nat) : (shedDrive s k).mem = s.mem := by simp [shedDrive]

@[simp] theorem shedReq_mem (s : State) (k req : Nat) : (shedReq s k req).2.mem = s.mem := by simp [shedReq]

@[simp] theorem endStandby_mem (s : State) : (endStandby s).mem = s.mem := by
  simp only [endStandby]
  split <;> simp [*]

@[simp] theorem wakeActs_mem (s : State) : (wakeActs s).mem = s.mem := by simp [wakeActs]

@[simp] theorem capStable_mem (s : State) (n : Nat) : (capStable s n).mem = s.mem := by simp [capStable]

@[simp] theorem shedUp_mem (s : State) (k : Nat) (held : Bool) : (shedUp s k held).mem = s.mem := by simp [shedUp]

@[simp] theorem stepReady_memWf {s : State} (h : Memory.wf s.mem) (k : Nat) : Memory.wf (stepReady s k).mem := by
  simp only [stepReady]
  split <;> simp [h]

@[simp] theorem shedFail_mem (s : State) (k fault : Nat) : (shedFail s k fault).mem = s.mem := by simp [shedFail]

@[simp] theorem stepFault_memWf {s : State} (h : Memory.wf s.mem) (k : Nat) : Memory.wf (stepFault s k).mem := by
  simp only [stepFault]
  split <;> simp [h]

@[simp] theorem descentDone_memWf {s : State} (h : Memory.wf s.mem) (k : Nat) : Memory.wf (descentDone s k).mem := by
  simp [descentDone, h]

@[simp] theorem shedRelease_mem (s : State) (k : Nat) : (shedRelease s k).mem = s.mem := by simp [shedRelease]

@[simp] theorem standbyWrite_mem (s : State) (src v : Nat) : (standbyWrite s src v).2.mem = s.mem := by
  simp [standbyWrite]

@[simp] theorem coresInWfi_mem (s : State) : (coresInWfi s).mem = s.mem := by simp [coresInWfi]

@[simp] theorem setLevel_mem (s : State) (l : Nat) : (setLevel s l).mem = s.mem := by simp [setLevel]

@[simp] theorem derateMeasure_mem (s : State) (vin cur : Nat) : (derateMeasure s vin cur).mem = s.mem := by
  simp -implicitDefEqProofs only [derateMeasure]
  (repeat' split) <;> simp -implicitDefEqProofs

@[simp] theorem bow_mem (s : State) (below : Bool) : (bow s below).mem = s.mem := by simp [bow]

@[simp] theorem powerUp_mem (s : State) : (powerUp s).mem = s.mem := by simp [powerUp]

@[simp] theorem brownout_memWf (s : State) : Memory.wf (brownout s).mem := by
  simp -implicitDefEqProofs [brownout]

@[simp] theorem sysrst_memWf {s : State} (h : Memory.wf s.mem) (v : Nat) : Memory.wf (sysrst s v).2.mem := by
  simp -implicitDefEqProofs [sysrst, h]

@[simp] theorem aonPowerOn_memWf (s : State) (fsel strap : Nat) : Memory.wf (aonPowerOn s fsel strap).mem := by
  simp [aonPowerOn]

@[simp] theorem railChange_memWf {s : State} (h : Memory.wf s.mem) (fh lost : Bool) :
    Memory.wf (railChange s fh lost).mem := by
  simp [railChange, h]

@[simp] theorem shdWrite_memWf {s s1 : State} (h : Memory.wf s.mem) (h1 : Memory.wf s1.mem) (src : Nat) (nm : String)
    (ix : List Nat) (v : Nat) : Memory.wf (shdWrite src nm ix v s s1).2.mem := by
  simp only [shdWrite]
  (repeat' split) <;> simp [h, h1]

theorem shdWrite_hookMemWf (src : Nat) : HookMemWf (shdWrite src) :=
  hookMemWf_of_memWf fun h h1 => shdWrite_memWf h h1 src

/-! ### Tack -/

@[simp] theorem tkFlag_mem (s : State) (i : Nat) : (tkFlag s i).mem = s.mem := by simp [tkFlag]

@[simp] theorem setCounter_mem (s : State) (c v : Nat) : (setCounter s c v).mem = s.mem := by simp [setCounter]

@[simp] theorem setMr_mem (s : State) (i : Nat) (l : List Byte) : (setMr s i l).mem = s.mem := by simp [setMr]

@[simp] theorem measure_mem (s : State) (t svn : Nat) (digest : List Byte) :
    (measure s t svn digest).mem = s.mem := by
  simp [measure]

@[simp] theorem bootCopy_memWf {s : State} (h : Memory.wf s.mem) (o : Nat) : Memory.wf (bootCopy s o).2.2.mem := by
  simp [bootCopy, h]

@[simp] theorem bootDone_mem (s : State) (h : List Byte) (c1 : Nat) (backup : Bool) :
    (bootDone s h c1 backup).mem = s.mem := by
  simp [bootDone]

@[simp] theorem boot_memWf {s : State} (h : Memory.wf s.mem) : Memory.wf (boot s).mem := by
  simp only [boot]
  (repeat' split) <;> simp -implicitDefEqProofs [h]

structure TkRes.MemWf (r : TkRes) : Prop where
  wf : Memory.wf r.st.mem

@[simp] theorem memWf_tkRes {s : State} (code rsp : Nat) (out : List Byte) :
    (TkRes.mk code rsp out s).MemWf ↔ Memory.wf s.mem :=
  ⟨fun h => h.wf, fun h => ⟨h⟩⟩

@[simp] theorem memWf_tkFail {s : State} (code : Nat) : (tkFail code s).MemWf ↔ Memory.wf s.mem := memWf_tkRes ..

@[simp] theorem memWf_tkDone {s : State} (out : List Byte) : (tkDone out s).MemWf ↔ Memory.wf s.mem := memWf_tkRes ..

theorem tkInput_memWf {s : State} (h : Memory.wf s.mem) (d : TkDesc) (lo hi : Nat) {f : List Byte → State → TkRes}
    (hf : ∀ l t, Memory.wf t.mem → (f l t).MemWf) : (tkInput s d lo hi f).MemWf := by
  simp only [tkInput]
  split
  · simp [h]
  · split
    · simp [h]
    · split
      · simp [h]
      · exact hf _ _ (by simp [h])

@[simp] theorem drawBytes_mem (n : Nat) (s : State) : (drawBytes n s).2.mem = s.mem := by
  induction n generalizing s with
  | zero => rfl
  | succ n ih => simp [drawBytes, ih]

@[simp] theorem trng_mem (s : State) (n : Nat) : (trng s n).2.mem = s.mem := by simp [trng]

@[simp] theorem tkFinish_memWf {s : State} (h : Memory.wf s.mem) (d : TkDesc) (code rsp written : Nat) :
    Memory.wf (tkFinish s d code rsp written).mem := by
  simp [tkFinish, h]

theorem tkRun_memWf {s : State} (h : Memory.wf s.mem) (opc : Nat) {f : TkDesc → State → TkRes}
    (hf : ∀ d t, Memory.wf t.mem → (f d t).MemWf) : Memory.wf (tkRun opc f s).mem := by
  unfold tkRun
  refine memWf_stateIte h ?_
  split
  · exact h
  · extract_lets r pop b d q
    have hr : Memory.wf (pop r.2.2).mem := by simp [pop, r, h]
    have hq : Memory.wf q.st.mem := (hf d _ hr).wf
    refine memWf_stateIte h (memWf_stateIte hr (memWf_stateIte (tkFinish_memWf hr ..) (memWf_stateIte h ?_)))
    refine memWf_stateIte (tkFinish_memWf hq ..) (memWf_stateIte (tkFinish_memWf hq ..)
      (memWf_stateIte (tkFinish_memWf hq ..) ?_))
    split
    · exact tkFinish_memWf hq ..
    · have hw := State.putAll_memWf hq
      exact memWf_stateIte (tkFinish_memWf (hw ..) ..) (tkFinish_memWf (hw ..) ..)

theorem tkRngCmd_memWf {s : State} (h : Memory.wf s.mem) (d : TkDesc) : (tkRngCmd d s).MemWf := by
  simp only [tkRngCmd]
  split <;> simp [h]

theorem tkHashCmd_memWf {s : State} (h : Memory.wf s.mem) (d : TkDesc) : (tkHashCmd d s).MemWf := by
  unfold tkHashCmd
  split
  · simp [h]
  · exact tkInput_memWf h _ _ _ fun l t ht => by simp [ht]

theorem tkExtendCmd_memWf {s : State} (h : Memory.wf s.mem) (d : TkDesc) : (tkExtendCmd d s).MemWf := by
  unfold tkExtendCmd
  split
  · simp [h]
  · exact tkInput_memWf h _ _ _ fun l t ht => by simp [ht]

theorem tkImage_memWf {s : State} (h : Memory.wf s.mem) (d : TkDesc) (t : Nat)
    {f : List Byte → List Byte → State → TkRes} (hf : ∀ l p t, Memory.wf t.mem → (f l p t).MemWf) :
    (tkImage s d t f).MemWf :=
  tkInput_memWf h d _ _ fun l u hu => by
    dsimp only
    split
    · simp [hu]
    · split
      · simp [hu]
      · split
        · simp [hu]
        · exact hf _ _ _ hu

theorem tkVerifyCmd_memWf {s : State} (h : Memory.wf s.mem) (d : TkDesc) : (tkVerifyCmd d s).MemWf := by
  unfold tkVerifyCmd
  split
  · simp [h]
  · exact tkImage_memWf h _ _ fun _ _ t ht => by simp [ht]

theorem tkLoadCmd_memWf {s : State} (h : Memory.wf s.mem) (d : TkDesc) : (tkLoadCmd d s).MemWf := by
  simp only [tkLoadCmd]
  split
  · simp [h]
  · split
    · simp [h]
    · split
      · simp [h]
      · refine tkImage_memWf h _ _ fun l p t ht => ?_
        split
        · simp [ht]
        next segs _ =>
          split
          · simp [ht]
          · have hw := foldl_snd_memWf (f := fun (q : Nat × State) (g : Nat × List Byte) =>
              if q.1 = rspOk then q.2.putAll tackEp g.1 g.2 else q) segs (s := (rspOk, t)) ht
              fun q g hq => by split <;> simp [hq]
            split <;> simp [hw]

@[simp] theorem idSign_mem (s : State) (m : List Byte) : (idSign s m).2.mem = s.mem := by simp [idSign]

theorem tkSignCmd_memWf {s : State} (h : Memory.wf s.mem) (d : TkDesc) : (tkSignCmd d s).MemWf := by
  unfold tkSignCmd
  split
  · simp [h]
  · exact tkInput_memWf h _ _ _ fun l t ht => by simp [ht]

theorem tkPeerCmd_memWf {s : State} (h : Memory.wf s.mem) (d : TkDesc) : (tkPeerCmd d s).MemWf := by
  unfold tkPeerCmd
  split
  · simp [h]
  · refine tkInput_memWf h _ _ _ fun l t ht => ?_
    have hw : ∀ (u : State) (a v : Nat), (u.regWriteBy (plWrite tackEp) a v).mem = u.mem := fun u a v =>
      State.regWriteBy_mem _ _ _ fun _ _ _ _ h => plWrite_mem _ _ _ _ _ _ h
    split
    · simp [ht]
    · split
      · simp [ht]
      · split
        · simp only
          split
          · simp [ht]
          · split <;> simp [hw, ht]
        · simp [ht]

theorem tkAttestCmd_memWf {s : State} (h : Memory.wf s.mem) (d : TkDesc) : (tkAttestCmd d s).MemWf := by
  unfold tkAttestCmd
  split
  · simp [h]
  · exact tkInput_memWf h _ _ _ fun l t ht => by simp [ht]

theorem otpProgrammed_memWf {s : State} (h : Memory.wf s.mem) {f : State → State}
    (hf : ∀ t, Memory.wf t.mem → Memory.wf (f t).mem) : (otpProgrammed s f).MemWf := by
  simp only [otpProgrammed]
  split
  · simp [h]
  · simpa using hf _ (by simp [h])

theorem ctrIncCmd_memWf {s : State} (h : Memory.wf s.mem) (d : TkDesc) : (ctrIncCmd d s).MemWf := by
  unfold ctrIncCmd
  split
  · simp [h]
  · split
    · simp [h]
    · split
      · simp [h]
      · exact otpProgrammed_memWf h fun t ht => by simpa using ht

theorem kekSealCmd_memWf {s : State} (h : Memory.wf s.mem) (d : TkDesc) : (kekSealCmd d s).MemWf := by
  unfold kekSealCmd
  split
  · simp [h]
  · exact tkInput_memWf h _ _ _ fun l t ht => by simp [ht]

theorem kekLoadCmd_memWf {s : State} (h : Memory.wf s.mem) (d : TkDesc) : (kekLoadCmd d s).MemWf := by
  unfold kekLoadCmd
  split
  · simp [h]
  · split
    · simp [h]
    · refine tkInput_memWf h _ _ _ fun l t ht => ?_
      split
      · split <;> simp [ht]
      · simp [ht]

theorem sakDeliverCmd_memWf {s : State} (h : Memory.wf s.mem) (d : TkDesc) : (sakDeliverCmd d s).MemWf := by
  unfold sakDeliverCmd
  extract_lets a m tx i cfg
  split
  · simp [h]
  · refine tkInput_memWf h _ _ _ fun l t ht => ?_
    extract_lets r
    have hr : Memory.wf r.2.mem := by simpa [r] using ht
    split
    · simp [ht]
    · split
      · simpa using hr
      · split
        · simp [ht]
        · split <;> simp [ht]

theorem idGenerateCmd_memWf {s : State} (h : Memory.wf s.mem) (d : TkDesc) : (idGenerateCmd d s).MemWf := by
  simp only [idGenerateCmd]
  (repeat' split) <;> simp [h]

theorem otpProgramCmd_memWf {s : State} (h : Memory.wf s.mem) (d : TkDesc) : (otpProgramCmd d s).MemWf := by
  simp only [otpProgramCmd]
  split
  · simp [h]
  · split
    · split
      · simp [h]
      · split
        · simp [h]
        · refine tkInput_memWf h _ _ _ fun l t ht => ?_
          split
          · simp [ht]
          · exact otpProgrammed_memWf ht fun u hu => foldl_memWf _ hu fun _ _ hv => by simpa using hv
    · split
      · simp [h]
      · split
        · simp [h]
        · exact otpProgrammed_memWf h fun t ht => by simpa using ht
    · split
      · simp [h]
      · split
        · simp [h]
        · split
          · simp [h]
          · exact otpProgrammed_memWf h fun t ht => by simpa using ht
    · simp [h]

@[simp] theorem tkWrite_mem (src : Nat) (nm : String) (ix : List Nat) (v : Nat) (s s1 : State) (h : s1.mem = s.mem) :
    (tkWrite src nm ix v s s1).2.mem = s.mem := by
  simp only [tkWrite]
  split <;> simp [*]

theorem tkWrite_hookMemWf (src : Nat) : HookMemWf (tkWrite src) := hookMemWf_of_mem (tkWrite_mem src)

/-! ### Loft -/

@[simp] theorem msiSend_mem (s : State) (n : Nat) : (msiSend s n).mem = s.mem := by simp [msiSend]

@[simp] theorem msiRisen_mem (s : State) (n : Nat) : (msiRisen s n).mem = s.mem := by simp [msiRisen]

@[simp] theorem routeWrite_mem (s s1 : State) (n v : Nat) (h : s1.mem = s.mem) :
    (routeWrite s s1 n v).2.mem = s.mem := by
  simp [h, routeWrite]

@[simp] theorem coreResetChange_mem (s : State) (v : Nat) : (coreResetChange s v).mem = s.mem := by
  simp [coreResetChange]

@[simp] theorem ddrCfg_mem (s s1 : State) (v : Nat) (h : s1.mem = s.mem) : (ddrCfg s s1 v).2.mem = s.mem := by
  simp [h, ddrCfg]

@[simp] theorem trainDone_mem (s : State) (ok : Bool) : (trainDone s ok).mem = s.mem := by simp [trainDone]

@[simp] theorem rasError_mem (s : State) (core level : Nat) (async : Bool) (addr : Nat) :
    (rasError s core level async addr).mem = s.mem := by
  simp [rasError]

@[simp] theorem uartReceive_mem (s : State) (u ch : Nat) : (uartReceive s u ch).mem = s.mem := by simp [uartReceive]

@[simp] theorem lftWrite_mem (nm : String) (ix : List Nat) (v : Nat) (s s1 : State) (h : s1.mem = s.mem) :
    (lftWrite nm ix v s s1).2.mem = s.mem := by
  simp only [lftWrite]
  split <;> simp [*]

theorem lftWrite_hookMemWf : HookMemWf lftWrite := hookMemWf_of_mem lftWrite_mem

/-! ### HltPkt -/

@[simp] theorem hltCnt_mem (s : State) (i : Nat) : (hltCnt s i).mem = s.mem := by simp [hltCnt]

@[simp] theorem hltFlag_mem (s : State) (i : Nat) : (hltFlag s i).mem = s.mem := by simp [hltFlag]

@[simp] theorem loftSend_memWf {s : State} (h : Memory.wf s.mem) (k : Nat) (pkt : List Byte) :
    Memory.wf (loftSend s k pkt).mem := by
  simp [loftSend, h]

@[simp] theorem ethReply_mem (s : State) (x : HSrc) (pkt : List Byte) : (ethReply s x pkt).2.mem = s.mem := by
  simp [ethReply]

@[simp] theorem ethSend_mem (s : State) (x : HSrc) (pkt : List Byte) : (ethSend s x pkt).mem = s.mem := by
  simp [ethSend]

@[simp] theorem fabricPkt_mem (s : State) (u : Nat) (payload : List Byte) : (fabricPkt s u payload).mem = s.mem := by
  simp [fabricPkt]

@[simp] theorem fabricSend_mem (s : State) (u : Nat) (pkt : List Byte) : (fabricSend s u pkt).mem = s.mem := by
  simp [fabricSend]

@[simp] theorem hltSend_memWf {s : State} (h : Memory.wf s.mem) (k : Nat) (x : HSrc) (pkt : List Byte) :
    Memory.wf (hltSend s k x pkt).mem := by
  simp only [hltSend]
  split <;> simp [h]

@[simp] theorem hltEmit_memWf {s : State} (h : Memory.wf s.mem) (k : Nat) (x : HSrc)
    (op st cell seq slot tok tag : Nat)
    (tlvs : List (List Byte)) : Memory.wf (hltEmit s k x op st cell seq slot tok tag tlvs).mem :=
  foldl_memWf _ h fun _ _ hs => hltSend_memWf hs ..

@[simp] theorem hltReply_memWf {s : State} (h : Memory.wf s.mem) (k : Nat) (x : HSrc) (hd : List Byte) (st : Nat)
    (rep : Bool) (gen : Option Nat) (slot : Nat) (tlvs : List (List Byte)) :
    Memory.wf (hltReply s k x hd st rep gen slot tlvs).mem := by
  unfold hltReply
  extract_lets s1 g
  have h1 : Memory.wf s1.mem := memWf_stateIte (by simpa using h) (memWf_stateIte (by simpa using h) h)
  exact memWf_stateIte h1 (hltEmit_memWf h1 ..)

@[simp] theorem hltReport_memWf {s : State} (h : Memory.wf s.mem) (c : Nat) (x : HSrc) (st slot : Nat)
    (tlvs : List (List Byte)) : Memory.wf (hltReport s c x st slot tlvs).mem := by
  simp [hltReport, h]

@[simp] theorem HReq.reply_memWf {s : State} (h : Memory.wf s.mem) (r : HReq) (st : Nat) (tlvs : List (List Byte)) :
    Memory.wf (HReq.reply r s st tlvs).mem := by
  simp [HReq.reply, h]

/-! ### HltCell -/

@[simp] theorem place_mem (s : State) (lo hi n : Nat) (used : List (Nat × Nat)) :
    (place s lo hi n used).2.mem = s.mem := by
  simp [place]

@[simp] theorem placeAll_mem (s : State) (lo hi : Nat) (l : List Nat) (used : List (Nat × Nat)) :
    (placeAll s lo hi l used).2.mem = s.mem := by
  induction l generalizing s used with
  | nil => rfl
  | cons n l ih =>
    have hp := place_mem s lo hi n used
    unfold placeAll
    split
    next _ _ hq => simpa [hq] using hp
    next a s1 hq =>
      have hs1 : s1.mem = s.mem := by simpa [hq] using hp
      have ha := ih s1 ((a, n) :: used)
      split
      · simp_all
      · simp_all

@[simp] theorem planWord_mem (s : State) (ck w : Nat) : (planWord s ck w).mem = s.mem := by simp [planWord]

@[simp] theorem postWord_mem (s : State) (ck : Nat) : (postWord s ck).mem = s.mem := by
  simp only [postWord]
  split <;> simp [*]

@[simp] theorem setGen_mem (s : State) (ck out g slot : Nat) (f : HGen → HGen) :
    (setGen s ck out g slot f).mem = s.mem := by
  simp [setGen]

@[simp] theorem resultTlvs_mem (s : State) (ck : Nat) (x : HStream) (g : HGen) :
    (resultTlvs s ck x g).2.2.mem = s.mem := by
  simp [resultTlvs]

@[simp] theorem deliver_mem (s : State) (ck : Nat) (x : HStream) (g : HGen) : (deliver s ck x g).2.2.mem = s.mem := by
  simp only [deliver]
  split <;> simp [*]

@[simp] theorem pushGen_memWf {s : State} (h : Memory.wf s.mem) (ck out g : Nat) :
    Memory.wf (pushGen s ck out g).mem := by
  simp only [pushGen]
  (repeat' split) <;> simp [h]

@[simp] theorem reportOverrun_memWf {s : State} (h : Memory.wf s.mem) (o : Overrun) :
    Memory.wf (reportOverrun s o).mem := by
  unfold reportOverrun
  extract_lets ck s1 s2 s3
  have h2 : Memory.wf s2.mem := foldl_memWf _ (by simpa [s1] using h) fun t out ht => by
    split
    · exact memWf_stateIte (by simpa using ht) ht
    · exact ht
  have h3 : Memory.wf s3.mem := by
    simp only [s3]
    split
    · exact hltReport_memWf h2 ..
    · exact h2
  exact foldl_memWf _ h3 fun t out ht => by
    split
    · exact pushGen_memWf ht ..
    · exact ht

@[simp] theorem hltSettle_memWf {s : State} (h : Memory.wf s.mem) : Memory.wf (hltSettle s).mem := by
  unfold hltSettle
  refine memWf_stateIte h ?_
  extract_lets y s1 s2
  have h1 : Memory.wf s1.mem := foldl_memWf _ h fun _ _ ht => reportOverrun_memWf ht _
  have h2 : Memory.wf s2.mem := foldl_memWf _ h1 fun _ _ ht => by simpa using ht
  exact foldl_memWf _ h2 fun t f ht => by
    split
    · refine hltReply_memWf ?_ ..
      exact ht
    · exact ht

@[simp] theorem newToken_mem (s : State) (last : Nat) : (newToken s last).2.mem = s.mem := by simp [newToken]

@[simp] theorem abortOrders_memWf {s : State} (h : Memory.wf s.mem) (ck : Nat) (f : HOrder → Bool) :
    Memory.wf (abortOrders s ck f).mem :=
  foldl_memWf _ (by simpa using h) fun _ _ ht => hltReply_memWf ht ..

@[simp] theorem holdTake_memWf {s : State} (h : Memory.wf s.mem) (r : HReq) : Memory.wf (holdTake r s).mem := by
  unfold holdTake
  extract_lets c mine take
  have ht : ∀ b t, Memory.wf t.mem → Memory.wf (take b t).mem := fun b t ht =>
    HReq.reply_memWf (by rw [State.modHcell_mem, newToken_mem]; exact ht) ..
  refine memWf_stateIte (memWf_stateIte (HReq.reply_memWf h ..) (memWf_stateIte (HReq.reply_memWf h ..) (ht _ _ h))) ?_
  refine memWf_stateIte ?_ (HReq.reply_memWf h ..)
  split
  · exact memWf_stateIte (ht _ _ h) (ht _ _ (abortOrders_memWf (hltReport_memWf h ..) ..))
  · exact ht _ _ h

@[simp] theorem holdRelease_memWf {s : State} (h : Memory.wf s.mem) (r : HReq) : Memory.wf (holdRelease r s).mem := by
  simp -implicitDefEqProofs [holdRelease, h]

@[simp] theorem cellHatches_mem (s : State) (ck : Nat) (h : List Byte) : (cellHatches s ck h).2.mem = s.mem := by
  have hw : ∀ (e : Nat) (q : State) (a v : Nat), (q.regWriteBy (hatWrite e) a v).mem = q.mem := fun e q a v =>
    State.regWriteBy_mem _ _ _ fun _ _ _ _ h => hatWrite_mem _ _ _ _ _ _ h
  simp [cellHatches, hw]

theorem cellConfig_stateMemWf {s : State} (h : Memory.wf s.mem) (r : HReq) : (cellConfig r s).MemWf := by
  have hr : ∀ st, (r.reply s st []).MemWf := fun _ => ⟨HReq.reply_memWf h ..⟩
  unfold cellConfig
  refine State.memWf_ite (hr _) (State.memWf_ite (hr _) ?_)
  generalize hp : placeAll s _ _ _ _ = p
  split
  next q as s1 =>
    have h1 : s1.mem = s.mem := by rw [← placeAll_mem s, hp]
    generalize hc : cellHatches s1 _ _ = c
    split
    · exact hr _
    next s2 =>
      have h2 : s2.mem = s1.mem := by rw [← cellHatches_mem s1, hc]
      refine ⟨HReq.reply_memWf ?_ ..⟩
      rw [State.wr_mem, State.modHcell_mem]
      exact h2.trans h1 ▸ h
  · exact hr _

@[simp] theorem cellConfig_memWf {s : State} (h : Memory.wf s.mem) (r : HReq) : Memory.wf (cellConfig r s).mem :=
  (cellConfig_stateMemWf h r).wf

@[simp] theorem cellStart_memWf {s : State} (h : Memory.wf s.mem) (r : HReq) : Memory.wf (cellStart r s).mem := by
  simp -implicitDefEqProofs [cellStart, h]

@[simp] theorem cellStop_memWf {s : State} (h : Memory.wf s.mem) (r : HReq) : Memory.wf (cellStop r s).mem := by
  simp -implicitDefEqProofs [cellStop, h]

@[simp] theorem prachConfig_memWf {s : State} (h : Memory.wf s.mem) (r : HReq) : Memory.wf (prachConfig r s).mem := by
  simp -implicitDefEqProofs [prachConfig, h]

@[simp] theorem slotOrder_memWf {s : State} (h : Memory.wf s.mem) (up : Bool) (r : HReq) :
    Memory.wf (slotOrder up r s).mem := by
  simp only [slotOrder]
  (repeat' split) <;> simp [h]

@[simp] theorem commitReply_memWf {s : State} (h : Memory.wf s.mem) (ck : Nat) (o : HOrder) (st : Nat)
    (tlvs : List (List Byte)) : Memory.wf (commitReply s ck o st tlvs).mem := by
  simp [commitReply, h]

@[simp] theorem commitWrites_memWf {s : State} (h : Memory.wf s.mem) (ck : Nat) (q : HSlot) :
    Memory.wf (commitWrites s ck q).2.mem := by
  unfold commitWrites
  extract_lets p b o n ws
  split
  · exact h
  · exact foldl_snd_memWf _ h fun t w ht => by
      split
      · exact State.putAll_memWf ht ..
      · exact ht

@[simp] theorem slotCommit_memWf {s : State} (h : Memory.wf s.mem) (ck slot : Nat) (up : Bool) :
    Memory.wf (slotCommit s ck slot up).mem := by
  unfold slotCommit
  split
  · exact h
  · extract_lets s1
    have h1 : Memory.wf s1.mem := by simpa [s1] using h
    split
    · exact h1
    · extract_lets s2 w os tbs d s3
      have hw : Memory.wf w.2.mem := commitWrites_memWf (by simpa [s2] using h1) ..
      refine memWf_stateIte (foldl_memWf _ hw fun _ _ ht => commitReply_memWf ht ..) ?_
      exact foldl_memWf _ (by simpa [s3] using hw) fun _ _ ht => commitReply_memWf ht ..

@[simp] theorem remoteRead_mem (s : State) (g n : Nat) : (remoteRead s g n).2.2.mem = s.mem := by simp [remoteRead]

@[simp] theorem globalRead_mem (s : State) (e g n : Nat) : (globalRead s e g n).2.2.mem = s.mem := by
  simp [globalRead]

theorem dataTlv_sndMemWf {s : State} (h : Memory.wf s.mem) (r : HReq) (t : Nat × List Byte) :
    SndMemWf (dataTlv r s t) := by
  unfold dataTlv
  extract_lets ck c id ptr ofs n found used
  split
  · exact ⟨h⟩
  next slot size _ =>
    refine sndMemWf_ite ⟨h⟩ (sndMemWf_ite ⟨h⟩ ?_)
    extract_lets need p got
    have hg : SndMemWf got := by
      simp only [got]
      clear_value found
      cases found with
      | some b => exact ⟨h⟩
      | none => exact sndMemWf_ite ⟨h⟩ ⟨(place_mem s c.qaddr (c.qaddr + roundUp c.quota 256) need used).symm ▸ h⟩
    clear_value got
    obtain ⟨_ | b, s1⟩ := got
    · exact ⟨h⟩
    · have hd : SndMemWf (if ptr = true then globalRead s1 (hltCoreEpOf ck) (le t.2 8 8) n
          else (rspOk, t.2.drop 8, s1)).2 := by
        split
        · exact ⟨(globalRead_mem ..).symm ▸ hg.wf⟩
        · exact ⟨hg.wf⟩
      dsimp only
      generalize (if ptr = true then globalRead s1 _ _ _ else _) = d at hd ⊢
      have hw := State.putAll_memWf hd.wf (hltCoreEpOf ck) (b.addr + ofs) (sub d.2.1 0 n)
      refine sndMemWf_ite ⟨h⟩ (sndMemWf_ite ⟨h⟩ ⟨memWf_stateIte ?_ ?_⟩)
      · rwa [planWord_mem, State.modHcell_mem]
      · rwa [State.modHcell_mem]

@[simp] theorem dataTlv_memWf {s : State} (h : Memory.wf s.mem) (r : HReq) (t : Nat × List Byte) :
    Memory.wf (dataTlv r s t).2.mem :=
  (dataTlv_sndMemWf h r t).wf

@[simp] theorem dlData_memWf {s : State} (h : Memory.wf s.mem) (r : HReq) : Memory.wf (dlData r s).mem := by
  unfold dlData
  extract_lets q
  have hq : Memory.wf q.2.mem := foldl_snd_memWf _ h fun p t hp => by
    split
    · exact dataTlv_memWf hp ..
    · exact hp
  exact memWf_stateIte (HReq.reply_memWf hq ..) (HReq.reply_memWf h ..)

@[simp] theorem dataDeadlineOf_memWf {s : State} (h : Memory.wf s.mem) (ck id : Nat) :
    Memory.wf (dataDeadlineOf s ck id).mem := by
  simp only [dataDeadlineOf]
  (repeat' split) <;> simp [h]

@[simp] theorem genReply_memWf {s : State} (h : Memory.wf s.mem) (r : HReq) (st g slot : Nat) (rep : Bool)
    (tlvs : List (List Byte)) : Memory.wf (genReply r s st g slot rep tlvs).mem := by
  simp [genReply, h]

@[simp] theorem resultRead_memWf {s : State} (h : Memory.wf s.mem) (r : HReq) : Memory.wf (resultRead r s).mem := by
  simp only [resultRead]
  (repeat' split) <;> simp [h]

@[simp] theorem resultAck_memWf {s : State} (h : Memory.wf s.mem) (r : HReq) : Memory.wf (resultAck r s).mem := by
  simp only [resultAck]
  (repeat' split) <;> simp [h]

theorem takeWord_mem (s : State) (ck kind : Nat) {r : Nat × State} (h : takeWord s ck kind = some r) :
    r.2.mem = s.mem := by
  simp only [takeWord] at h
  split at h
  · cases h
  · split at h
    · cases h
    · split at h
      · obtain rfl := Option.some.inj h
        simp
      · cases h

@[simp] theorem hltBegin_mem (s : State) (ck : Nat) : (hltBegin s ck).mem = s.mem := by
  unfold hltBegin
  split
  · rfl
  next w s1 hq =>
    have hs1 : s1.mem = s.mem := takeWord_mem s ck 1 hq
    simp only
    split <;> simp [hs1]

@[simp] theorem tbDone_mem (s : State) (ck : Nat) : (tbDone s ck).mem = s.mem := by
  unfold tbDone
  split
  · rfl
  next w s1 hq => exact takeWord_mem s ck 2 hq

@[simp] theorem resultDone_memWf {s : State} (h : Memory.wf s.mem) (ck : Nat) : Memory.wf (resultDone s ck).mem := by
  unfold resultDone
  split
  · exact h
  next w s1 hw =>
    have h1 : Memory.wf s1.mem := takeWord_mem s ck 3 hw ▸ h
    extract_lets out g
    split
    · split
      · exact h1
      · have hr : ∀ e a, Memory.wf (s1.fetch e a 8).2.2.mem := fun _ _ => by simpa using h1
        refine memWf_stateIte (hr ..) (memWf_stateIte (hr ..) (memWf_stateIte ?_ (pushGen_memWf ?_ ..)))
        · simpa -implicitDefEqProofs using h1
        · simpa -implicitDefEqProofs using h1
    · exact h1

/-! ### Halter -/

@[simp] theorem unitInfo_memWf {s : State} (h : Memory.wf s.mem) (r : HReq) : Memory.wf (unitInfo r s).mem := by
  simp [unitInfo, h]

@[simp] theorem planLoad_memWf {s : State} (h : Memory.wf s.mem) (r : HReq) : Memory.wf (planLoad r s).mem := by
  unfold planLoad
  extract_lets v p g segs at' commit q s1 s2
  have hq : Memory.wf q.2.mem := foldl_snd_memWf _ h fun p x hp => by
    split
    · exact State.putAll_memWf hp ..
    · exact hp
  refine memWf_stateIte (HReq.reply_memWf h ..) (memWf_stateIte (HReq.reply_memWf h ..)
    (memWf_stateIte (HReq.reply_memWf hq ..) (memWf_stateIte (HReq.reply_memWf hq ..) (HReq.reply_memWf ?_ ..))))
  rw [planDone_mem]
  exact State.regWriteBy_memWf (State.regWriteBy_memWf hq ymWrite_hookMemWf ..) ymWrite_hookMemWf ..

@[simp] theorem hltFence_memWf {s : State} (h : Memory.wf s.mem) (un : Bool) (r : HReq) :
    Memory.wf (hltFence un r s).mem := by
  simp [hltFence, h]

@[simp] theorem timeSel_memWf {s : State} (h : Memory.wf s.mem) (r : HReq) : Memory.wf (timeSel r s).mem := by
  unfold timeSel
  extract_lets v d s1
  have h1 : Memory.wf s1.mem := State.regWriteBy_memWf h ctWrite_hookMemWf ..
  exact memWf_stateIte (HReq.reply_memWf h ..) (HReq.reply_memWf (s := { s1 with bus := s.bus }) h1 ..)

@[simp] theorem powerReq_memWf {s : State} (h : Memory.wf s.mem) (r : HReq) : Memory.wf (powerReq r s).mem := by
  simp [powerReq, h]

@[simp] theorem lbtParam_memWf {s : State} (h : Memory.wf s.mem) (r : HReq) : Memory.wf (lbtParam r s).mem := by
  unfold lbtParam
  extract_lets v i wr q
  have hw : ∀ (p : Bool × State) o v, SndMemWf p → SndMemWf (wr p o v) := fun p o v hp =>
    sndMemWf_ite ⟨hp.wf⟩ ⟨memWf_withBus (State.regWriteBy_memWf hp.wf (engWrite_hookMemWf _) ..) _⟩
  have hq : SndMemWf q := hw _ _ _ (hw _ _ _ (hw _ _ _ ⟨h⟩))
  exact memWf_stateIte (HReq.reply_memWf h ..) (memWf_stateIte (HReq.reply_memWf hq.wf ..) (HReq.reply_memWf h ..))

@[simp] theorem hltAccept_memWf {s : State} (h : Memory.wf s.mem) (x : HSrc) (stamp : Option Int) (b : List Byte) :
    Memory.wf (hltAccept s x stamp b).mem := by
  simp [hltAccept, h]

@[simp] theorem ringIntake_memWf {s : State} (h : Memory.wf s.mem) (n : Nat) : Memory.wf (ringIntake n s).mem := by
  induction n generalizing s with
  | zero => exact h
  | succ n ih =>
    unfold ringIntake
    refine memWf_stateIte h (ih ?_)
    rw [State.wr_mem]
    exact hltAccept_memWf (by rw [State.fetchAll_mem, State.fetchAll_mem]; exact h) ..

@[simp] theorem bindIntake_memWf {s : State} (h : Memory.wf s.mem) (j n : Nat) : Memory.wf
    (bindIntake j n s).mem := by
  induction n generalizing s with
  | zero => exact h
  | succ n ih =>
    unfold bindIntake
    refine memWf_stateIte h (ih ?_)
    refine memWf_withBus (State.regWriteBy_memWf ?_ (ethWrite_hookMemWf _) ..) _
    split
    · refine hltAccept_memWf ?_ ..
      rw [State.fetchAll_mem, State.fetchAll_mem]
      exact h
    · rw [hltCnt_mem, State.fetchAll_mem, State.fetchAll_mem]
      exact h

@[simp] theorem hltIntake_memWf {s : State} (h : Memory.wf s.mem) : Memory.wf (hltIntake s).mem :=
  memWf_stateIte h (foldl_memWf _ (ringIntake_memWf h _) fun _ _ ht => bindIntake_memWf ht ..)

@[simp] theorem fabricArrive_memWf {s : State} (h : Memory.wf s.mem) (u : Nat) (p : List Byte) :
    Memory.wf (fabricArrive s u p).mem := by
  simp [fabricArrive, h]

@[simp] theorem fragTimeout_mem (s : State) (u id : Nat) : (fragTimeout s u id).mem = s.mem := by
  simp only [fragTimeout]
  split <;> simp [*]

theorem hltRow_memWf {s0 : State} (h : Memory.wf s0.mem) (op k : Nat) {f : HReq → State → State}
    (hf : ∀ r t, Memory.wf t.mem → Memory.wf (f r t).mem) : Memory.wf (hltRow op k f s0).mem := by
  have hs : Memory.wf (hltSettle s0).mem := hltSettle_memWf h
  unfold hltRow
  refine memWf_stateIte h ?_
  generalize hltSettle s0 = s at hs
  dsimp only
  split
  · exact hs
  · refine memWf_stateIte hs ?_
    split
    · refine hltReply_memWf ?_ ..
      refine memWf_stateIte ?_ hs
      rw [State.draw_mem]
      exact hs
    · refine hltSettle_memWf ?_
      refine memWf_stateIte (hf _ _ ?_) (HReq.reply_memWf ?_ ..) <;> · rw [State.cnt_mem]; exact hs

@[simp] theorem hltWrite_memWf {s s1 : State} (h : Memory.wf s.mem) (h1 : Memory.wf s1.mem) (nm : String)
    (ix : List Nat) (v : Nat) : Memory.wf (hltWrite nm ix v s s1).2.mem := by
  simp only [hltWrite]
  split <;> simp [h, h1]

theorem hltWrite_hookMemWf : HookMemWf hltWrite := hookMemWf_of_memWf hltWrite_memWf

@[simp] theorem firmwareReady_memWf {s : State} (h : Memory.wf s.mem) : Memory.wf (firmwareReady s).mem := by
  unfold firmwareReady
  extract_lets s1
  have h1 : Memory.wf s1.mem := by simpa [s1] using h
  exact memWf_stateIte h (hltIntake_memWf (foldl_memWf _ h1 fun _ _ ht => memWf_stateIte (hltReport_memWf ht ..) ht))

@[simp] theorem idle_memWf {s : State} (h : Memory.wf s.mem) : Memory.wf (idle s).mem := by simp [idle, h]

/-! ### Bus -/

theorem regHook_memWf (src : Nat) (km : Bool) (base a : Nat) : HookMemWf (regHook src km base a) := by
  unfold regHook
  split
  · extract_lets n q
    split
    · exact kbWrite_hookMemWf _
    · split
      · exact stbWrite_hookMemWf n src km
      · split
        · exact brwWrite_hookMemWf n
        · exact sliceWrite_hookMemWf n src km
  · split
    · exact engWrite_hookMemWf a
    · split
      · exact ymWrite_hookMemWf
      · exact hatWrite_hookMemWf src
      · exact brwWrite_hookMemWf 32
      · exact ctWrite_hookMemWf
      · exact ethWrite_hookMemWf _
      · exact plWrite_hookMemWf src
      · exact tkWrite_hookMemWf src
      · exact shdWrite_hookMemWf src
      · exact calHook_hookMemWf
      · exact hltWrite_hookMemWf
      · exact yrdWrite_hookMemWf
      · exact eccWrite_hookMemWf
      · split
        · exact ethWrite_hookMemWf 32
        · exact lftWrite_hookMemWf

@[simp] theorem captureViews_mem (s : State) (as : List Nat) : (captureViews s as).mem = s.mem := by
  simp [captureViews]

@[simp] theorem clearRead_mem (base : Nat) (row : RegRow) (a : Nat) (s : State) :
    (clearRead base row a s).mem = s.mem := by
  simp [clearRead]

@[simp] theorem regRead_mem (s : State) (src a n : Nat) : (regRead s src a n).2.2.mem = s.mem := by
  simp only [regRead]
  split <;> simp [*]

@[simp] theorem oneWrite_memWf {s : State} (h : Memory.wf s.mem) (src : Nat) (km : Bool) (a v : Nat) :
    Memory.wf (oneWrite s src km a v).2.mem := by
  unfold oneWrite
  split
  · exact regHook_memWf _ _ _ _ _ _ _ _ _ h (State.wr_mem ..)
  · exact h

@[simp] theorem applyStage_memWf {s : State} (h : Memory.wf s.mem) (src : Nat) (km : Bool) (l : List Nat) :
    Memory.wf (applyStage src km l s).mem := by
  induction l generalizing s with
  | nil => exact h
  | cons a l ih =>
    unfold applyStage
    split
    · exact ih (oneWrite_memWf h ..)
    · exact ih h

@[simp] theorem regWrite_memWf {s : State} (h : Memory.wf s.mem) (src : Nat) (km : Bool) (a n v : Nat) :
    Memory.wf (regWrite s src km a n v).2.mem := by
  unfold regWrite
  split
  · split
    · dsimp only
      split <;> simp [h]
    · split
      · exact oneWrite_memWf h ..
      · extract_lets d
        split
        · split <;> exact h
        next r low s1 r1 t _ =>
          have h1 : Memory.wf s1.mem := by
            simp only [s1]
            split
            · exact h
            · exact applyStage_memWf h ..
          have hr : Memory.wf r1.2.mem := oneWrite_memWf h1 ..
          split
          · exact hr
          · exact h
  · split
    · dsimp only
      split <;> simp [h]
    · exact h

@[simp] theorem freeBytes_mem (s : State) (n : Nat) : (freeBytes s n).2.mem = s.mem := by simp [freeBytes]

@[simp] theorem tgtRead_mem (s : State) (src a n : Nat) : (tgtRead s src a n).2.2.mem = s.mem := by
  simp only [tgtRead]
  split <;> simp [*]

@[simp] theorem tgtWrite_memWf {s : State} (h : Memory.wf s.mem) (src : Nat) (km : Bool) (a : Nat) (l : List Byte) :
    Memory.wf (tgtWrite s src km a l).2.mem := by
  unfold tgtWrite
  extract_lets held mem
  have hmem : Memory.wf (mem s).2.mem := by
    simp only [mem]
    split
    · exact h
    · split
      · exact h
      · exact State.writeMem_memWf h ..
  split
  · split
    · exact h
    · have hr := regWrite_memWf h src km a l.length (leNat l)
      dsimp only
      split
      · exact hltSettle_memWf (ymStops_memWf hr)
      · exact hr
  · simpa using h
  · dsimp only
    split <;> simp [h]
  · simpa using h
  · exact h
  · exact h
  · exact h
  · exact hmem

@[simp] theorem tgtRmw_memWf {s : State} (h : Memory.wf s.mem) (src a n op : Nat) (data : List Byte) :
    Memory.wf (tgtRmw s src a n op data).2.2.mem := by
  simp only [tgtRmw]
  (repeat' split) <;> simp [h]

@[simp] theorem remoteNow_mem (s : State) (opc a n op : Nat) (data : List Byte) :
    (remoteNow s opc a n op data).2.2.mem = s.mem := by
  simp only [remoteNow]
  split <;> simp [*]

@[simp] theorem busRead_mem (s : State) (src a0 n : Nat) : (busRead s src a0 n).2.2.mem = s.mem := by simp [busRead]

@[simp] theorem busWrite_memWf {s : State} (h : Memory.wf s.mem) (src : Nat) (km : Bool) (a0 : Nat) (l : List Byte) :
    Memory.wf (busWrite s src km a0 l).2.mem := by
  simp [busWrite, h]

@[simp] theorem busPosted_memWf {s : State} (h : Memory.wf s.mem) (src a0 : Nat) (l : List Byte) :
    Memory.wf (busPosted s src a0 l).mem := by
  simp only [busPosted]
  (repeat' split) <;> simp [h]

@[simp] theorem retryResv_memWf {s : State} (h : Memory.wf s.mem) (g : Nat) : Memory.wf (retryResv s g).mem := by
  simp [retryResv, h]

@[simp] theorem farLoad_memWf {s : State} (h : Memory.wf s.mem) (g : Nat) : Memory.wf (farLoad s g).mem := by
  simp only [farLoad]
  split <;> simp [h]

@[simp] theorem farStore_memWf {s : State} (h : Memory.wf s.mem) (g : Nat) : Memory.wf (farStore s g).mem := by
  simp only [farStore]
  split <;> simp -implicitDefEqProofs [h]

@[simp] theorem deliverReq_memWf {s : State} (h : Memory.wf s.mem) (op : Nat) (r : YReq) (dst : Nat) :
    Memory.wf (deliverReq s op r dst).mem := by
  simp only [deliverReq]
  (repeat' split) <;> simp [h]

@[simp] theorem holdWorm_mem (s : State) (op : Nat) (r : YReq) (dst : Nat) : (holdWorm s op r dst).mem = s.mem := by
  simp [holdWorm]

@[simp] theorem yardReq_memWf {s : State} (h : Memory.wf s.mem) (op : Nat) (r : YReq) :
    Memory.wf (yardReq s op r).mem := by
  simp [yardReq, h]

@[simp] theorem shedStepReady_memWf {s : State} (h : Memory.wf s.mem) (k : Nat) :
    Memory.wf (shedStepReady s k).mem := by
  unfold shedStepReady
  extract_lets s1
  have h1 : Memory.wf s1.mem := stepReady_memWf h k
  split
  · exact foldl_memWf _ h1 fun _ _ hs => deliverReq_memWf hs ..
  · exact h1

@[simp] theorem plServe_memWf {s : State} (h : Memory.wf s.mem) (p : Nat) (k : PlPkt) :
    Memory.wf (plServe s p k).mem := by
  simp only [plServe]
  split <;> simp [h]

@[simp] theorem plLocal_memWf {s : State} (h : Memory.wf s.mem) (p : Nat) (k : PlPkt) :
    Memory.wf (plLocal s p k).mem := by
  simp [plLocal, h]

@[simp] theorem plDeliver_memWf {s : State} (h : Memory.wf s.mem) (p : Nat) (k : PlPkt) :
    Memory.wf (plDeliver s p k).mem := by
  simp [plDeliver, h]

@[simp] theorem plReceive_memWf {s : State} (h : Memory.wf s.mem) (p : Nat) (x : PlPacket) :
    Memory.wf (plReceive s p x).mem := by
  simp only [plReceive]
  (repeat' split) <;> simp -implicitDefEqProofs [h]

/-! ### BarrowBus -/

@[simp] theorem globalServe_mem (s : State) (src g : Nat) {here : Nat → Nat × List Byte × State} (opc sb n : Nat)
    (l : List Byte) (h : ∀ a, (here a).2.2.mem = s.mem) : (globalServe s src g here opc sb n l).2.2.mem = s.mem := by
  simp [globalServe, h]

theorem globalServe_memWf {s : State} (h : Memory.wf s.mem) {here : Nat → Nat × List Byte × State}
    (hh : ∀ a, Memory.wf (here a).2.2.mem) (src g opc sb n : Nat) (l : List Byte) :
    Memory.wf (globalServe s src g here opc sb n l).2.2.mem := by
  simp only [globalServe]
  split
  · exact hh _
  · split
    · simpa using h
    · split <;> simpa using h

@[simp] theorem gRead_mem (s : State) (src g n : Nat) : (gRead s src g n).2.2.mem = s.mem := by
  simp [gRead]

@[simp] theorem gWrite_memWf {s : State} (h : Memory.wf s.mem) (src g : Nat) (l : List Byte) :
    Memory.wf (gWrite s src g l).2.mem :=
  globalServe_memWf h (fun _ => busWrite_memWf h ..) ..

@[simp] theorem gOr_memWf {s : State} (h : Memory.wf s.mem) (src g v : Nat) :
    Memory.wf (gOr s src g v).2.2.mem :=
  globalServe_memWf h (fun a => by
    extract_lets q t b
    have hq : Memory.wf q.2.mem := by simpa [q] using h
    have ht : Memory.wf t.2.2.mem := tgtRmw_memWf hq ..
    split
    · exact hq
    · simpa [b] using ht) ..

@[simp] theorem issueBeat_mem (s : State) (ch : Nat) (b : Beat) : (issueBeat s ch b).mem = s.mem := by
  simp only [issueBeat]
  (repeat' split) <;> simp

@[simp] theorem beatGrant_mem (s : State) (gr : Nat) : (beatGrant s gr).mem = s.mem := by
  unfold beatGrant
  (repeat' split) <;> simp

@[simp] theorem beatFailed_mem (s : State) (ch : Nat) (b : Beat) (rsp : Nat) :
    (beatFailed s ch b rsp).mem = s.mem := by
  simp [beatFailed]

@[simp] theorem beatResponse_memWf {s : State} (h : Memory.wf s.mem) (ch : Nat) :
    Memory.wf (beatResponse s ch).mem := by
  simp only [beatResponse]
  split <;> simp -implicitDefEqProofs [h]

@[simp] theorem channelHalt_memWf {s : State} (h : Memory.wf s.mem) (ch : Nat) :
    Memory.wf (channelHalt s ch).mem := by
  simp [channelHalt, h]

@[simp] theorem gReadAll_mem (s : State) (src g n : Nat) : (gReadAll s src g n).2.2.2.mem = s.mem := by
  simp [gReadAll]

@[simp] theorem gotList_mem (s : State) (ch : Nat) (x : Xfer) (n lst : Nat) : (gotList s ch x n lst).mem = s.mem := by
  simp [gotList]

@[simp] theorem fetchBlock_mem (s : State) (ch a : Nat) : (fetchBlock s ch a).mem = s.mem := by simp [fetchBlock]

@[simp] theorem programFetch_mem (s : State) (ch : Nat) : (programFetch s ch).mem = s.mem := by
  simp only [programFetch]
  (repeat' split) <;> simp

/-! ### EngIo -/

structure JobRes.MemWf (r : JobRes) : Prop where
  wf : Memory.wf r.s.mem

@[simp] theorem memWf_jobRes {s : State} (status rsp summary occ : Nat) :
    (JobRes.mk s status rsp summary occ).MemWf ↔ Memory.wf s.mem :=
  ⟨fun h => h.wf, fun h => ⟨h⟩⟩

@[simp] theorem memWf_jobOk {s : State} (summary occ : Nat) : (jobOk s summary occ).MemWf ↔ Memory.wf s.mem :=
  memWf_jobRes ..

@[simp] theorem memWf_jobBadDesc {s : State} : (badDesc s).MemWf ↔ Memory.wf s.mem := memWf_jobRes ..

@[simp] theorem memWf_jobEnd {s : State} (status summary occ : Nat) :
    (jobEnd s status summary occ).MemWf ↔ Memory.wf s.mem :=
  memWf_jobRes ..

@[simp] theorem memWf_jobFail {s : State} (code : Nat) : (jobFail s code).MemWf ↔ Memory.wf s.mem := by
  unfold jobFail
  split <;> exact memWf_jobRes ..

theorem memWf_jobIte {c : Prop} [Decidable c] {a b : JobRes} (ha : a.MemWf) (hb : b.MemWf) :
    (if c then a else b).MemWf := by
  split <;> assumption

@[simp] theorem eRead_mem (s : State) (e g n : Nat) : (eRead s e g n).2.2.mem = s.mem := by simp [eRead]

@[simp] theorem eWrite_memWf {s : State} (h : Memory.wf s.mem) (e g : Nat) (l : List Byte) :
    Memory.wf (eWrite s e g l).2.mem :=
  foldl_snd_memWf _ h fun _ _ hq => by
    split
    · exact gWrite_memWf hq ..
    · exact hq

theorem eGet_memWf {s : State} (h : Memory.wf s.mem) (e g n : Nat) {k : List Byte → State → JobRes}
    (hk : ∀ l t, Memory.wf t.mem → (k l t).MemWf) : (eGet e g n s k).MemWf := by
  unfold eGet
  extract_lets r
  have hr : Memory.wf r.2.2.mem := by simpa [r] using h
  split
  · exact hk _ _ hr
  · simpa using hr

theorem ePut_memWf {s : State} (h : Memory.wf s.mem) (e g : Nat) (l : List Byte) {k : State → JobRes}
    (hk : ∀ t, Memory.wf t.mem → (k t).MemWf) : (ePut e g l s k).MemWf := by
  unfold ePut
  extract_lets r
  have hr : Memory.wf r.2.mem := eWrite_memWf h ..
  split
  · exact hk _ hr
  · simpa using hr

theorem eGetAll_memWf {s : State} (h : Memory.wf s.mem) (e : Nat) (l : List (Nat × Nat))
    {k : List (List Byte) → State → JobRes}
    (hk : ∀ l t, Memory.wf t.mem → (k l t).MemWf) : (eGetAll e l s k).MemWf := by
  induction l generalizing s k with
  | nil => exact hk _ _ h
  | cons p l ih => exact eGet_memWf h _ _ _ fun b t ht => ih ht fun r u hu => hk _ _ hu

theorem ePutAll_memWf {s : State} (h : Memory.wf s.mem) (e : Nat) (l : List (Nat × List Byte))
    {k : State → JobRes} (hk : ∀ t, Memory.wf t.mem → (k t).MemWf) : (ePutAll e l s k).MemWf := by
  induction l generalizing s with
  | nil => exact hk _ h
  | cons p l ih => exact ePut_memWf h _ _ _ fun t ht => ih ht

@[simp] theorem packFree_mem (s : State) (b : List Bool) : (packFree s b).2.mem = s.mem := by simp [packFree]

@[simp] theorem modRun_mem (s : State) (e : Nat) (f : ERun → ERun) : (modRun s e f).mem = s.mem := by simp [modRun]

@[simp] theorem ctxStore_memWf {s : State} (h : Memory.wf s.mem) (e : Nat) (c : ResCtx) :
    Memory.wf (ctxStore s e c).2.mem := by
  unfold ctxStore
  split
  · extract_lets f r
    have hr : Memory.wf r.2.mem := eWrite_memWf (by simpa [f] using h) ..
    dsimp only
    split
    · exact hr
    · exact hr
  · exact eWrite_memWf h ..

theorem withCtx_memWf {s : State} (h : Memory.wf s.mem) (e a : Nat) {k : ResCtx → State → JobRes}
    (hk : ∀ c t, Memory.wf t.mem → (k c t).MemWf) : (withCtx e a s k).MemWf := by
  unfold withCtx
  extract_lets cs
  split
  · exact hk _ _ (by simpa using h)
  next n old w keep _ _ =>
    have hw : Memory.wf w.2.mem := by
      simp only [w]
      clear_value old
      cases old with
      | none => exact h
      | some c => exact ctxStore_memWf h ..
    exact memWf_jobIte (by simpa using hw) (eGet_memWf hw _ _ _ fun l t ht => hk _ _ (by simpa using ht))

@[simp] theorem setCtx_mem (s : State) (e a : Nat) (image : List Byte) (stages : List Stage) :
    (setCtx s e a image stages).mem = s.mem := by
  simp [setCtx]

@[simp] theorem grantSlot_mem (s : State) (p c i : Nat) : (grantSlot s p c i).mem = s.mem := by simp [grantSlot]

@[simp] theorem releaseSlot_mem (s : State) (p c i : Nat) : (releaseSlot s p c i).mem = s.mem := by simp [releaseSlot]

@[simp] theorem chainFail_mem (s : State) (e code : Nat) : (chainFail s e code).mem = s.mem := by
  simp only [chainFail]
  split <;> simp [*]

/-! ### Harq -/

theorem flushRec_memWf {s : State} (h : Memory.wf s.mem) (e : Nat) {k : State → JobRes}
    (hk : ∀ t, Memory.wf t.mem → (k t).MemWf) : (flushRec e s k).MemWf := by
  unfold flushRec
  split
  · split
    · exact ePut_memWf (by simpa using h) _ _ _ hk
    · exact hk _ h
  · exact hk _ h

theorem readArea_memWf {s : State} (h : Memory.wf s.mem) (e : Nat) (d : List Byte) (a : Nat) (words : List Nat)
    {k : List Byte → State → JobRes}
    (hk : ∀ l t, Memory.wf t.mem → (k l t).MemWf) : (readArea e d a words s k).MemWf := by
  unfold readArea
  extract_lets n
  split
  · exact eGet_memWf h _ _ _ hk
  · exact eGetAll_memWf h _ _ fun _ t ht => hk _ _ ht

theorem ulEntries_memWf {s : State} (h : Memory.wf s.mem) (e : Nat) (d l : List Byte) (n i ofs skip : Nat)
    (todo : List ChainOut) {k : Nat → List ChainOut → State → JobRes}
    (hk : ∀ skip todo t, Memory.wf t.mem → (k skip todo t).MemWf) :
    (ulEntries e d l n i ofs skip todo s k).MemWf := by
  induction n generalizing i ofs skip todo s with
  | zero => exact hk _ _ _ h
  | succ n ih =>
    refine flushRec_memWf h _ fun t ht => ?_
    extract_lets a len r old again new s1 sb
    have hr : Memory.wf r.2.2.mem := gOr_memWf ht ..
    refine memWf_jobIte (by simpa using hr) (memWf_jobIte (ih (by simpa using hr) ..) ?_)
    have hs1 : Memory.wf s1.mem := by
      simp only [s1]
      split <;> simpa using hr
    refine eGet_memWf hs1 _ _ _ fun inp u hu => ?_
    extract_lets rs words finish
    have hf : ∀ old' t, Memory.wf t.mem → (finish old' t).MemWf := fun old' t ht =>
      ePutAll_memWf (by simpa using ht) _ _ fun v hv => ih (by simpa using hv) ..
    exact memWf_jobIte (hf _ _ hu) (readArea_memWf hu _ _ _ _ fun _ t ht => hf _ _ ht)

theorem clearEntries_memWf {s : State} (h : Memory.wf s.mem) (e : Nat) (d l : List Byte) (n i skip : Nat)
    {k : Nat → State → JobRes}
    (hk : ∀ skip t, Memory.wf t.mem → (k skip t).MemWf) : (clearEntries e d l n i skip s k).MemWf := by
  induction n generalizing i skip s with
  | zero => exact hk _ _ h
  | succ n ih =>
    unfold clearEntries
    exact eGet_memWf h _ _ _ fun x t ht =>
      memWf_jobIte (ih (by simpa using ht) ..) (memWf_jobIte
        (ePutAll_memWf (by simpa using ht) _ _ fun u hu => ih hu ..) (ePut_memWf ht _ _ _ fun u hu => ih hu ..))

theorem hqJob_memWf {s : State} (h : Memory.wf s.mem) (e : Nat) (d : List Byte) :
    (hqJob e d s).MemWf := by
  unfold hqJob
  refine memWf_jobIte (by simpa using h) (eGet_memWf h _ _ _ fun l t ht => memWf_jobIte (by simpa using ht) ?_)
  extract_lets n fin
  have hfin : ∀ skip u, Memory.wf u.mem → (fin skip u).MemWf := fun skip u hu => by simpa [fin] using hu
  split
  · refine memWf_jobIte (eGet_memWf ht _ _ _ fun c u hu => memWf_jobIte ?_ (by simpa using hu)) ?_
    · exact ulEntries_memWf hu _ _ _ _ _ _ _ _ fun skip todo v hv => flushRec_memWf hv _ fun w hw =>
        hfin _ _ (by simpa using hw)
    · exact ulEntries_memWf ht _ _ _ _ _ _ _ _ fun skip _ v hv => hfin _ _ hv
  · exact eGetAll_memWf ht _ _ fun xs u hu => ePut_memWf (by simpa using hu) _ _ _ (hfin 0)
  · exact clearEntries_memWf ht _ _ _ _ _ _ hfin

/-! ### Codes -/

theorem dcFinish_memWf {s : State} (h : Memory.wf s.mem) (e : Nat) (d : List Byte) (rs : DecOut) (occ : Nat) :
    (dcFinish e d rs occ s).MemWf := by
  unfold dcFinish
  extract_lets many strip tbBits out pass fail its okTb record p
  have hp : Memory.wf p.2.mem := by simpa [p] using h
  exact ePutAll_memWf (by simpa using hp) _ _ fun t ht => by simpa using ht

theorem dcJob_memWf {s : State} (h : Memory.wf s.mem) (e : Nat) (d : List Byte) :
    (dcJob e d s).MemWf := by
  unfold dcJob
  exact memWf_jobIte (by simpa using h) (eGetAll_memWf h _ _ fun ls t ht => dcFinish_memWf ht ..)

theorem enJob_memWf {s : State} (h : Memory.wf s.mem) (e : Nat) (d : List Byte) :
    (enJob e d s).MemWf := by
  unfold enJob
  refine memWf_jobIte (by simpa using h) (memWf_jobIte ?_ ?_)
  · exact eGet_memWf h _ _ _ fun l t ht => ePut_memWf (by simpa using ht) _ _ _ fun u hu => by simpa using hu
  · extract_lets n k occ go
    have hgo : ∀ t, Memory.wf t.mem → (go t).MemWf := fun t ht => by
      refine eGet_memWf ht _ _ _ fun l u hu => ?_
      extract_lets pay tb cs q
      have hq : Memory.wf q.2.mem := foldl_snd_memWf _ hu fun _ _ hv => by simpa using hv
      exact memWf_jobIte (by simpa using hq) (ePutAll_memWf hq _ _ fun v hv => by simpa using hv)
    exact memWf_jobIte (eGet_memWf h _ _ _ fun c t ht => memWf_jobIte (hgo t ht) (by simpa using ht)) (hgo s h)

theorem plrJob_memWf {s : State} (h : Memory.wf s.mem) (e : Nat) (d : List Byte) :
    (plrJob e d s).MemWf := by
  unfold plrJob
  refine memWf_jobIte (by simpa using h) (eGet_memWf h _ _ _ fun l t ht => ?_)
  exact ePutAll_memWf (by simpa using ht) _ _ fun u hu => by simpa using hu

theorem trJob_memWf {s : State} (h : Memory.wf s.mem) (e : Nat) (d : List Byte) :
    (trJob e d s).MemWf := by
  unfold trJob
  refine memWf_jobIte (by simpa using h) (memWf_jobIte ?_ ?_)
  · exact eGet_memWf h _ _ _ fun l t ht => ePut_memWf (by simpa using ht) _ _ _ fun u hu => by simpa using hu
  · exact eGet_memWf h _ _ _ fun l t ht => ePut_memWf (by simpa using ht) _ _ _ fun u hu => by simpa using hu

theorem prJob_memWf {s : State} (h : Memory.wf s.mem) (e : Nat) (d : List Byte) :
    (prJob e d s).MemWf := by
  unfold prJob
  refine memWf_jobIte (by simpa using h) (eGetAll_memWf h _ _ fun ls t ht => ?_)
  extract_lets args sm all best n ovf noise head s1 s2 roots idft occ
  have hs2 : Memory.wf s2.mem := by
    simp only [s2]
    split <;> simpa [s1] using ht
  refine ePut_memWf hs2 _ _ _ fun u hu => ?_
  simp only [memWf_jobOk]
  split
  · simpa using hu
  · exact hu

/-! ### Burst -/

theorem nbReport_memWf {s : State} (h : Memory.wf s.mem) (e c : Nat) (cfg : List Byte) (status : Nat)
    (entry : List Byte) (x : NbRun)
    {k : NbRun → State → JobRes}
    (hk : ∀ x t, Memory.wf t.mem → (k x t).MemWf) : (nbReport e c cfg status entry x s k).MemWf := by
  unfold nbReport
  extract_lets i ch len s1 x1 a
  have h1 : Memory.wf s1.mem := by
    simp only [s1]
    split <;> simpa using h
  refine memWf_jobIte (hk _ _ (by simpa using h1)) (ePut_memWf h1 _ _ _ fun t ht => hk _ _ ?_)
  simp only
  split
  · split <;> simpa using ht
  · simpa using ht

theorem nbReports_memWf {s : State} (h : Memory.wf s.mem) (e c : Nat) (cfg : List Byte) (l : List
    (Nat × List Byte)) (x : NbRun)
    {k : NbRun → State → JobRes}
    (hk : ∀ x t, Memory.wf t.mem → (k x t).MemWf) : (nbReports e c cfg l x s k).MemWf := by
  induction l generalizing x s with
  | nil => exact hk _ _ h
  | cons p l ih =>
    unfold nbReports
    exact nbReport_memWf h _ _ _ _ _ _ fun y t ht => ih ht y

theorem nbTruncate_memWf {s : State} (h : Memory.wf s.mem) (e c : Nat) (cfg : List Byte) (x : NbRun)
    {k : NbRun → State → JobRes}
    (hk : ∀ x t, Memory.wf t.mem → (k x t).MemWf) : (nbTruncate e c cfg x s k).MemWf := by
  unfold nbTruncate
  extract_lets i ch s1
  have h1 : Memory.wf s1.mem := by simpa [s1] using h
  exact memWf_jobIte (nbReport_memWf h1 _ _ _ _ _ _ hk) (hk _ _ h1)

@[simp] theorem nbStoreState_memWf {s : State} (h : Memory.wf s.mem) (i c : Nat) :
    Memory.wf (nbStoreState s i c).mem :=
  State.store_wf (by simpa using h) ..

theorem nbBoundary_memWf {s : State} (h : Memory.wf s.mem) (e : Nat) (l : List Nat) (x : NbRun)
    {k : NbRun → State → JobRes} (hk : ∀ x t, Memory.wf t.mem → (k x t).MemWf) : (nbBoundary e l x s k).MemWf := by
  induction l generalizing x s with
  | nil => exact hk _ _ h
  | cons c l ih =>
    unfold nbBoundary
    extract_lets i
    refine memWf_jobIte (ih (State.zero_wf (by simpa using h) ..) _) (memWf_jobIte ?_ (ih h _))
    exact nbTruncate_memWf h _ _ _ _ fun y t ht => ih (by simpa using ht) y

theorem nbChannels_memWf {s : State} (h : Memory.wf s.mem) (e : Nat) (d : List Byte) (n c : Nat) (x : NbRun)
    {k : NbRun → State → JobRes}
    (hk : ∀ x t, Memory.wf t.mem → (k x t).MemWf) : (nbChannels e d n c x s k).MemWf := by
  induction n generalizing c x s with
  | zero => exact hk _ _ h
  | succ n ih =>
    unfold nbChannels
    refine memWf_jobIte (ih h ..) (memWf_jobIte (ih (by rw [State.wb_mem, State.wb_mem, gRead_mem]; exact h) ..) ?_)
    refine memWf_jobIte (by simpa using h) (memWf_jobIte (ih (by simpa using h) ..) ?_)
    refine memWf_jobIte (by simpa using h) ?_
    refine memWf_jobIte (nbTruncate_memWf (by simpa using h) _ _ _ _ fun y t ht => ?_) ?_
    · exact nbReports_memWf ht _ _ _ _ _ fun z u hu => ih (nbStoreState_memWf (by simpa using hu) ..) ..
    · exact nbReports_memWf (by simpa using h) _ _ _ _ _ fun z u hu =>
        ih (nbStoreState_memWf (by simpa using hu) ..) ..

theorem nbJob_memWf {s : State} (h : Memory.wf s.mem) (e : Nat) (d : List Byte) :
    (nbJob e d s).MemWf := by
  unfold nbJob
  exact nbBoundary_memWf h _ _ _ fun x t ht => memWf_jobIte (by simpa using ht)
    (nbChannels_memWf (by simpa using ht) _ _ _ _ _ fun y u hu => by simpa using hu)

/-! ### Fft -/

theorem fftRun_memWf {s : State} (h : Memory.wf s.mem) (e : Nat) (d : List Byte) (ctx : Option ResCtx)
    (half : Option (Nat × Nat)) :
    (fftRun e d ctx half s).MemWf := by
  unfold fftRun
  refine eGetAll_memWf h _ _ fun ls t ht => ?_
  extract_lets s1 xs ys im zs ws sat
  have h1 : Memory.wf s1.mem := by
    simp only [s1]
    split
    · simpa using ht
    · exact ht
  refine ePutAll_memWf (by simpa using h1) _ _ fun u hu => ?_
  simp only [memWf_jobOk]
  split
  · simpa using hu
  · exact hu

theorem fftJob_memWf {s : State} (h : Memory.wf s.mem) (e : Nat) (d : List Byte) (ctx : Nat)
    (half : Option (Nat × Nat)) :
    (fftJob e d ctx half s).MemWf := by
  unfold fftJob
  refine memWf_jobIte ?_ (memWf_jobIte (fftRun_memWf h ..) (withCtx_memWf h _ _ fun c t ht => fftRun_memWf ht ..))
  cases half with
  | none => simpa using h
  | some p => simpa using h

/-! ### Matrix -/

theorem oRead_memWf {s : State} (h : Memory.wf s.mem) (e : Nat) (d : List Byte) (o n b : Nat)
    {k : List MMat → State → JobRes} (hk : ∀ l t, Memory.wf t.mem → (k l t).MemWf) : (oRead e d o n b s k).MemWf := by
  induction n generalizing b s k with
  | zero => exact hk _ _ h
  | succ n ih =>
    unfold oRead
    exact eGetAll_memWf h _ _ fun ls t ht => ih ht _ fun r u hu => hk _ _ hu

theorem oGet_memWf {s : State} (h : Memory.wf s.mem) (e : Nat) (d : List Byte) (o : Nat) (used : Bool)
    {k : List MMat → State → JobRes} (hk : ∀ l t, Memory.wf t.mem → (k l t).MemWf) : (oGet e d o used s k).MemWf := by
  unfold oGet
  exact memWf_jobIte (oRead_memWf h _ _ _ _ _ hk) (hk _ _ h)

theorem mtxRun_memWf {s : State} (h : Memory.wf s.mem) (e : Nat) (d : List Byte) (ctx : Option ResCtx) :
    (mtxRun e d ctx s).MemWf := by
  unfold mtxRun
  extract_lets n img used
  refine memWf_jobIte (by simpa using h) (oGet_memWf h _ _ _ _ fun as t ht => ?_)
  refine oGet_memWf ht _ _ _ _ fun bs u hu => oGet_memWf hu _ _ _ _ fun cs v hv => ?_
  refine memWf_jobIte (by simpa using hv) (ePutAll_memWf hv _ _ fun w hw => ?_)
  cases ctx with
  | none => simpa using hw
  | some c =>
    simp only [memWf_jobEnd, State.cnt_mem]
    exact memWf_stateIte (by simpa using hw) hw

theorem mtxJob_memWf {s : State} (h : Memory.wf s.mem) (e : Nat) (d : List Byte) (ctx : Nat) :
    (mtxJob e d ctx s).MemWf := by
  unfold mtxJob
  extract_lets go
  have hgo : ∀ t, Memory.wf t.mem → (go t).MemWf := fun t ht =>
    memWf_jobIte (mtxRun_memWf ht ..) (withCtx_memWf ht _ _ fun c u hu => mtxRun_memWf hu ..)
  refine memWf_jobIte (by simpa using h) (memWf_jobIte (hgo _ h) (eGet_memWf h _ _ _ fun f t ht => ?_))
  exact memWf_jobIte (hgo _ ht) (by simpa using ht)

/-! ### Sieve -/

@[simp] theorem lbtClose_mem (s : State) (c : Nat) (t : Int) : (lbtClose s c t).mem = s.mem := by simp [lbtClose]

@[simp] theorem lbtUntil_mem (c : Nat) (t : Int) (n : Nat) (q : State × List Int) :
    (lbtUntil c t n q).1.mem = q.1.mem := by
  induction n generalizing q with
  | zero => rfl
  | succ n ih =>
    simp only [lbtUntil]
    split
    · split <;> simp [ih]
    · rfl

@[simp] theorem lbtSample_mem (c : Nat) (q : State × List Int) (t : Int) (p : Nat) :
    (lbtSample c q t p).1.mem = q.1.mem := by
  simp only [lbtSample]
  split
  · split <;> simp
  · split <;> simp

@[simp] theorem lbtFeed_mem (s : State) (c : Nat) (d : List Byte) (q : Int) (x : SvFlow) (gap : Bool) :
    (lbtFeed s c d q x gap).1.mem = s.mem := by
  simp only [lbtFeed]
  refine (foldl_fst_mem _ _ _ fun r i => ?_).trans ?_
  · simp
  · simp

@[simp] theorem svStage_mem (e : Nat) (d : List Byte) (fresh gap : Bool) (r : SvRec) (aux : SvAux) (old : Stage)
    (ins : List (List (Int × Int))) (x : SvRun) : (svStage e d fresh gap r aux old ins x).s.mem = x.s.mem := by
  simp only [svStage]
  split <;> try rfl
  · split <;> rfl
  · split
    · rfl
    · split
      · simp
      · simp
    · rfl

@[simp] theorem svAll_mem (e : Nat) (d : List Byte) (fresh gap : Bool) (auxs : List SvAux) (olds : List Stage)
    (ins : List (List (Int × Int))) (x : SvRun) : (svAll e d fresh gap auxs olds ins x).s.mem = x.s.mem := by
  unfold svAll
  induction List.range (svStages d) generalizing x with
  | nil => rfl
  | cons i l ih => rw [List.foldl_cons, ih, svStage_mem]

theorem svAuxs_memWf {s : State} (h : Memory.wf s.mem) (e : Nat) (d : List Byte) (n i : Nat)
    {k : Option (List SvAux) → State → JobRes}
    (hk : ∀ o t, Memory.wf t.mem → (k o t).MemWf) : (svAuxs e d n i s k).MemWf := by
  induction n generalizing i s k with
  | zero => exact hk _ _ h
  | succ n ih =>
    unfold svAuxs
    exact eGetAll_memWf h _ _ fun ls t ht => memWf_jobIte (hk _ _ ht) (ih ht _ fun o u hu => hk _ _ hu)

theorem svFinish_memWf {s : State} (h : Memory.wf s.mem) {x : SvRun} (hx : x.s.mem = s.mem) (e : Nat) (d : List Byte)
    (ctx : Option ResCtx) (fresh gap : Bool) : (svFinish e d ctx fresh gap s x).MemWf := by
  have hx' : Memory.wf x.s.mem := hx ▸ h
  unfold svFinish
  extract_lets multi outs osh conv ys sat n c ev fl period outTs det record ws s1 s2
  have h2 : Memory.wf s2.mem := memWf_stateIte (by simpa [s1] using hx') (by simpa [s1] using hx')
  refine memWf_jobIte (by simpa using h) (ePutAll_memWf h2 _ _ fun t ht => ?_)
  cases ctx with
  | none => simpa using ht
  | some k => simpa using ht

theorem svRun_memWf {s : State} (h : Memory.wf s.mem) (e : Nat) (d : List Byte) (ctx : Option ResCtx)
    (auxs : List SvAux) :
    (svRun e d ctx auxs s).MemWf := by
  unfold svRun
  exact eGetAll_memWf h _ _ fun ls t ht => svFinish_memWf ht (svAll_mem ..) ..

theorem svJob_memWf {s : State} (h : Memory.wf s.mem) (e : Nat) (d : List Byte) (ctx : Nat) :
    (svJob e d ctx s).MemWf := by
  unfold svJob
  refine memWf_jobIte (by simpa using h) (svAuxs_memWf h _ _ _ _ fun o t ht => ?_)
  cases o with
  | none => simpa using ht
  | some auxs => exact memWf_jobIte (svRun_memWf ht ..) (withCtx_memWf ht _ _ fun c u hu => svRun_memWf hu ..)

/-! ### Jobs -/

theorem jobOf_memWf {s : State} (h : Memory.wf s.mem) (e : Nat) (d : List Byte) (ctx : Nat) :
    (jobOf e d ctx s).MemWf := by
  unfold jobOf
  split
  · exact fftJob_memWf h ..
  · exact mtxJob_memWf h ..
  · exact dcJob_memWf h ..
  · exact enJob_memWf h ..
  · exact plrJob_memWf h ..
  · exact dcJob_memWf h ..
  · exact trJob_memWf h ..
  · exact hqJob_memWf h ..
  · exact prJob_memWf h ..
  · exact svJob_memWf h ..
  · exact nbJob_memWf h ..

theorem withDesc_memWf {s : State} (h : Memory.wf s.mem) (e g : Nat) {k : List Byte → State → JobRes}
    (hk : ∀ l t, Memory.wf t.mem → (k l t).MemWf) : (withDesc e g s k).MemWf := by
  unfold withDesc
  split
  · exact eGet_memWf h _ _ _ hk
  · exact eGet_memWf h _ _ _ fun l t ht => eGet_memWf ht _ _ _ fun r u hu => hk _ _ hu
  · exact eGet_memWf h _ _ _ hk

theorem runCommand_memWf {s : State} (h : Memory.wf s.mem) (e : Nat) (j : EJob) :
    (runCommand e j s).MemWf := by
  unfold runCommand
  exact memWf_jobIte (by simpa using h) (withDesc_memWf h _ _ fun d t ht => jobOf_memWf ht ..)

@[simp] theorem endRun_mem (e : Nat) (r : JobRes) : (endRun e r).mem = r.s.mem := modRun_mem ..

theorem chainEnd_memWf {s : State} (h : Memory.wf s.mem) (e : Nat) :
    (chainEnd e s).MemWf := by
  unfold chainEnd
  split
  · simpa using h
  · exact memWf_jobIte (ePut_memWf (by simpa using h) _ _ _ fun t ht => by simpa using ht) (dcFinish_memWf h ..)

@[simp] theorem chainBlock_memWf {s0 : State} (h : Memory.wf s0.mem) (e : Nat) (i : ChainIn) :
    Memory.wf (chainBlock e i s0).mem := by
  unfold chainBlock
  extract_lets s next fin g turbo
  have hs : Memory.wf s.mem := (State.modEng_mem ..).symm ▸ h
  have hfin : ∀ t, Memory.wf t.mem → Memory.wf (fin t).mem := fun t ht => (modRun_mem ..).symm ▸ ht
  have hnext : ∀ t, Memory.wf t.mem → Memory.wf (next t).mem := fun t ht => by
    refine memWf_stateIte ?_ ((modRun_mem ..).symm ▸ ht)
    rw [endRun_mem]
    exact (chainEnd_memWf ht e).wf
  have hx : ∀ n, Memory.wf (releaseSlot (eRead s e g n).2.2 i.prod e i.slot).mem := fun n => by
    rwa [releaseSlot_mem, eRead_mem]
  clear_value s
  split
  · exact hs
  · refine memWf_stateIte (hfin _ ((releaseSlot_mem ..).symm ▸ hs)) (memWf_stateIte (hfin _ ?_) ?_)
    · rw [endRun_mem]
      exact ((memWf_jobFail _).2 (hx _)).wf
    · have hm : ∀ n f, Memory.wf (modRun (releaseSlot (eRead s e g n).2.2 i.prod e i.slot) e f).mem := fun n f => by
        rw [modRun_mem]
        exact hx n
      exact memWf_stateIte (hfin _ (hnext _ (hm ..))) (hfin _ (hnext _ (hm ..)))

@[simp] theorem chainStart_memWf {s0 : State} (h : Memory.wf s0.mem) (e : Nat) (i : ChainIn) :
    Memory.wf (chainStart e i s0).mem := by
  unfold chainStart
  extract_lets s s1 r j
  have hs : Memory.wf s.mem := by simpa [s] using h
  have hr : Memory.wf r.2.2.mem := by simpa [r, s1] using hs
  have hj : j.MemWf := eGet_memWf hs _ _ _ fun d t ht =>
    memWf_jobIte (memWf_jobIte (by simpa using ht) (eGet_memWf ht _ _ _ fun l u hu =>
      memWf_jobIte (by simpa using hu) (by simpa using hu))) (memWf_jobIte (by simpa using ht) (by simpa using ht))
  refine memWf_stateIte (memWf_stateIte ?_ ?_) (chainBlock_memWf ?_ ..)
  · rw [endRun_mem]
    exact JobRes.MemWf.wf (by simpa using hr)
  · rw [endRun_mem]
    exact (fftJob_memWf hr ..).wf
  · rw [endRun_mem]
    exact hj.wf

@[simp] theorem engineJobStart_memWf {s : State} (h : Memory.wf s.mem) (e : Nat) :
    Memory.wf (engineJobStart s e).mem := by
  unfold engineJobStart
  refine memWf_stateIte h ?_
  dsimp only
  split
  · refine memWf_stateIte ?_ h
    split
    · split
      · exact chainBlock_memWf h ..
      · exact h
    · exact h
  · split
    · exact chainStart_memWf h ..
    · refine memWf_stateIte h ?_
      split
      · rw [endRun_mem]
        exact (runCommand_memWf (by simpa using h) ..).wf
      · exact h

@[simp] theorem postReport_mem (s : State) (e : Nat) : (postReport s e).mem = s.mem := by
  unfold postReport
  (repeat' split) <;> simp

@[simp] theorem settleRecord_memWf {s : State} (h : Memory.wf s.mem) (e : Nat) : Memory.wf
    (settleRecord s e).mem := by
  have hr := (flushRec_memWf (k := fun s => jobOk s 0 0) h e fun t ht => by simpa using ht).wf
  exact memWf_stateIte hr (by simpa using hr)

@[simp] theorem finishRun_memWf {s0 : State} (h : Memory.wf s0.mem) (e : Nat) : Memory.wf (finishRun s0 e).mem := by
  simp only [finishRun]
  (repeat' split) <;> simp -implicitDefEqProofs [h]

@[simp] theorem engineJobComplete_memWf {s : State} (h : Memory.wf s.mem) (e : Nat) :
    Memory.wf (engineJobComplete s e).mem := by
  simp only [engineJobComplete]
  split <;> simp [h]

@[simp] theorem chainReport_memWf {s : State} (h : Memory.wf s.mem) (e : Nat) : Memory.wf (chainReport s e).mem := by
  simp only [chainReport]
  split <;> simp [h]

@[simp] theorem slotRequest_memWf {s : State} (h : Memory.wf s.mem) (e : Nat) : Memory.wf (slotRequest s e).mem := by
  unfold slotRequest
  split
  · exact h
  next r _ =>
    extract_lets q code b
    have hq : Memory.wf q.2.mem := by simpa [q] using h
    have hb : Memory.wf b.2.mem := by
      simp only [b]
      split <;> simpa using hq
    refine memWf_stateIte (by simpa using hb) ?_
    split
    · simpa using hb
    next i _ =>
      have hw := (ePutAll_memWf (k := fun s => jobOk s 0 0) (s := grantSlot b.2 e r.cons i) (by simpa using hb) e
        (slotWrites b.2 e r i) fun t ht => by simpa using ht).wf
      exact memWf_stateIte (by simpa using hw) (by simpa using hw)

@[simp] theorem slotRetry_memWf {s : State} (h : Memory.wf s.mem) (e : Nat) : Memory.wf (slotRetry s e).mem := by
  simp only [slotRetry]
  split <;> simp -implicitDefEqProofs [h]

@[simp] theorem slotReady_mem (s : State) (e : Nat) : (slotReady s e).mem = s.mem := by
  simp only [slotReady]
  split <;> simp [*]

theorem chainRow_memWf {s : State} (h : Memory.wf s.mem) (matrix : Bool) {f : State → Nat → State} (e : Nat)
    (hf : Memory.wf (f s e).mem) : Memory.wf (chainRow matrix f s e).mem :=
  memWf_stateIte hf h

@[simp] theorem slotAsk_memWf {s : State} (h : Memory.wf s.mem) (e : Nat) : Memory.wf (slotAsk s e).mem := by
  simp only [slotAsk]
  split <;> simp [h]

/-! ### Dispatch -/

/-- The outcome of a meaning whose next state, where it is one, has its memory in the canonical form. -/
structure OutMemWf (o : Out) : Prop where
  wf : ∀ t, o = .next t → Memory.wf t.mem

theorem outMemWf_next {t : State} (h : Memory.wf t.mem) : OutMemWf (.next t) :=
  ⟨fun _ ht => Host.Outcome.next.inj ht ▸ h⟩

theorem outMemWf_fault (f : Fault) : OutMemWf (.fault f) :=
  ⟨fun _ ht => by cases ht⟩

theorem outMemWf_ite {P : Prop} [Decidable P] {o q : Out} (ho : OutMemWf o) (hq : OutMemWf q) :
    OutMemWf (if P then o else q) := by
  split <;> assumption

/-- The shape of a meaning that names a unit. -/
theorem outMemWf_guard {P : Prop} [Decidable P] {t : State} {f : Fault} (h : Memory.wf t.mem) :
    OutMemWf (if P then .next t else .fault f) :=
  outMemWf_ite (outMemWf_next h) (outMemWf_fault f)

theorem outMemWf_guard_of_memWf {P : Prop} [Decidable P] {t : State} {f : Fault} (h : t.MemWf) :
    OutMemWf (if P then .next t else .fault f) :=
  outMemWf_guard h.wf

section
variable {s : State} (h : Memory.wf s.mem)
include h

theorem execTrainSlewEnd_memWf (t : Nat) : OutMemWf (execTrainSlewEnd t s) :=
  outMemWf_ite (outMemWf_ite (outMemWf_next (by simpa using h)) (outMemWf_next h)) (outMemWf_fault _)

theorem execTaskPlace_memWf (p inst task : Nat) : OutMemWf (execTaskPlace p inst task s) := by
  unfold execTaskPlace
  split
  · refine outMemWf_next (memWf_stateIte ?_ h)
    rw [sweepInsts_mem]
    exact placeOne_memWf h _
  · exact outMemWf_next h

theorem execYmEvent_memWf : OutMemWf (execYmEvent s) := by
  refine outMemWf_next ?_
  split
  · exact h
  · rw [applyEvent_mem]
    exact h

theorem execInterruptEntry_memWf (g : Nat) : OutMemWf (execInterruptEntry g s) := by
  have hr : Memory.wf (endWfe (releaseHold s g) g).mem := by simpa using releaseHold_memWf h g
  refine outMemWf_guard (memWf_stateIte h (memWf_stateIte ?_ (memWf_stateIte h ?_)))
  · rwa [busAsync_mem]
  · split
    · rwa [takeLine_mem]
    · exact h

theorem execBudgetExhaust_memWf (g : Nat) : OutMemWf (execBudgetExhaust g s) := by
  refine outMemWf_guard (memWf_stateIte h (memWf_stateIte (takeBudget_memWf (memWf_stateIte h ?_) g) h))
  exact releaseHold_memWf (by simpa using h) g

theorem execTimerMatch_memWf (g : Nat) : OutMemWf (execTimerMatch g s) := by
  have ht : ∀ n, (s.until n).mem = s.mem := State.until_mem s
  refine outMemWf_guard (memWf_stateIte h (memWf_stateIte ?_ (memWf_stateIte ?_ ?_)))
  · rwa [State.modCore_mem, endHalt_mem, ht]
  · rwa [endWait_mem, ht]
  · split
    · exact h
    · rwa [State.cnt_mem, endWait_mem, ht]
    · exact h
    · rwa [endWait_mem, ht]

omit h in
theorem daStage_stateMemWf {t : State} (ht : t.MemWf) (g : Nat) (b : Bundle) : (daStage t g b).MemWf :=
  ⟨daStage_memWf ht.wf g b⟩

omit h in
theorem waited_stateMemWf {t : State} (ht : t.MemWf) (g a n : Nat) (stall : Bool) (f : Core → Core) :
    (((endWait t g stall).cnt a n).modCore g f).MemWf :=
  ⟨by rw [State.modCore_mem, State.cnt_mem, endWait_mem]; exact ht.wf⟩

omit h in
theorem runSwitch_sndMemWf {t : State} (ht : t.MemWf) (g : Nat) : SndMemWf (runSwitch t g) :=
  ⟨runSwitch_memWf ht.wf g⟩

theorem execVectorSwitchDone_memWf (g : Nat) : OutMemWf (execVectorSwitchDone g s) := by
  refine outMemWf_guard_of_memWf (State.memWf_ite ?_ ⟨h⟩)
  extract_lets t n s1 r
  have ht : t.MemWf := by
    simp only [t]
    split
    · exact ⟨(State.until_mem ..).symm ▸ h⟩
    · exact ⟨h⟩
  have hs1 : s1.MemWf := waited_stateMemWf ht ..
  have hr : SndMemWf r := runSwitch_sndMemWf hs1 g
  clear_value r
  split
  · exact ⟨(switchFailed_mem ..).symm ▸ hr.wf⟩
  · exact daStage_stateMemWf ⟨hr.wf⟩ ..

theorem execHitchStallEnd_memWf (g : Nat) : OutMemWf (execHitchStallEnd g s) :=
  outMemWf_guard_of_memWf (State.memWf_ite (daStage_stateMemWf (waited_stateMemWf ⟨h⟩ ..) ..) ⟨h⟩)

theorem execPostResponse_memWf (n : Nat) : OutMemWf (execPostResponse n s) := by
  refine outMemWf_guard ?_
  split
  · exact h
  · exact memWf_stateIte (retryResv_memWf ((postAnswer_mem ..).symm ▸ h) _) ((postAnswer_mem ..).symm ▸ h)

theorem execCoreReset_memWf (g : Nat) : OutMemWf (execCoreReset g s) := by
  refine outMemWf_guard (memWf_stateIte ?_ ?_)
  · rwa [State.answer_mem]
  · rwa [State.answer_mem, coreReset_mem]

theorem execStableTickReceive_memWf (n : Nat) : OutMemWf (execStableTickReceive n s) := by
  refine outMemWf_guard ?_
  split
  · exact h
  · exact memWf_stateIte ((stableTick_mem ..).symm ▸ h) h

theorem execDomainSlewDone_memWf (d : Nat) : OutMemWf (execDomainSlewDone d s) := by
  refine outMemWf_ite (outMemWf_ite (outMemWf_next ?_) (outMemWf_next h)) (outMemWf_fault _)
  rwa [withS_mem, anchorDom_mem, State.until_mem]

theorem execSSlewDone_memWf : OutMemWf (execSSlewDone s) := by
  refine outMemWf_ite (outMemWf_next ?_) (outMemWf_next h)
  have hu : ∀ n, Memory.wf (s.until n).mem := fun n => (State.until_mem s n).symm ▸ h
  rw [ctFlag_mem]
  exact hu (sSlewEnd s)

theorem kPage_memWf (g : Nat) {f : State → State} (hf : Memory.wf (f s).mem) : OutMemWf (kPage g f s) := by
  refine outMemWf_guard (memWf_stateIte ?_ ?_)
  · rwa [State.answer_mem]
  · rwa [State.answer_mem]

theorem hltCellRow_memWf (ck : Nat) {f : State → Nat → State}
    (hf : ∀ t, Memory.wf t.mem → Memory.wf (f t ck).mem) : OutMemWf (hltCellRow ck f s) :=
  outMemWf_guard (hltSettle_memWf (hf _ (hltSettle_memWf h)))

/-- A command's next state has its memory in the canonical form if the state before had. -/
theorem exec_memWf (c : Instr) : OutMemWf (exec c s) := by
  cases c with
  -- One guard on the unit before the operation's state, or none.
  | tickEdge | planCommit | planCheckDone | threadStop | preemptSwitch | dispatchOffer | kEnd | kYield | kArm
  | kBlock | kOutDone | kTake | kernelBadCommand | bundle | wfeWake | farLoadResponse | farStoreResponse
  | fenceComplete | vectorDatapathDone | vectorSwitchAbandon | vecFlush | vecReload | enginePost | engineConfirm
  | engineWithdraw | hsTimeout | ctxCharge | htcPost | htcFree | coreRelease | coreHalt | coreHaltClear | coreStep
  | dbgDataRead | dbgDataWrite | kbSwi | clockPointChange | engineJobStart | engineJobComplete | chainStatusReport
  | cotEnd | flitReceive | yardRd | yardWr | yardWrp | yardRmw | yardMsg | wakeTimeout | linkRetrain | scrubRead
  | brwStart | brwStop | brwResume | brwClear | brwMove | brwGather | brwLoop | brwWait | waitSatisfied | waitTmo
  | brwSignal | signalRetry | brwEnd | brwNop | errProg | beatResponse | programFetch | channelHalt | endComplete
  | beatGrant | hatchPost | hatchTake | hatchWithdraw | hatchTimeout | hatchClear | clientReset | resetWindowEnd
  | frameReceive | frameDeliver | pauseWd | txqHoldReject | frameLaunch | fallbackOrder | linkChange | qbvListTake
  | domainEnable | domainDisable | ppsPulse | todSentence | holdoverEntry | selWrite | txqEntryRead | laneFault
  | trainingTimeout | trainingDone | calComplete | autoPmIdle | portWakeExit | plPacketReceive | plLctl
  | mgmtMessage | mgmtReassemblyTimeout | barrierAck | tmkSend | tmkReceive | hltBegin | tbDone | msiSend | rasError
  | shedStepReady | stepFault | shedDescentDone | shedWake | plWake | calWrite | scrubPeriodEnd | ppsPulseMissing
  | gateIntervalEnd | pauseTimeEnd | preemptionVerify | gpioInputChange | uartReceive =>
    exact outMemWf_guard (by simp [h])
  | registerWrite | rcRead | groupCaptureRead | ymAct | yardResponse | responseTimeout | yrdFence | yrdUnfence
  | barrierComplete | barrierTimeout | yrdCommit | yrdDrained | yrdDrainTmo | autoSwitchover | ctSnap | ppsOutEdge
  | synceRefSwitch | plDrained | plBarrierTimeout | plResponseTimeout | fragmentTimeout | tkBoot | trainDone | wakeN
  | derateMeasure | shdBow | brownoutReset | aonPowerOn | thermtrip | analogRailLoss | calAlarm | trimApply
  | vbatSample | vbatSwitch | oscFail | brownoutResetEnd | halterFirmwareReady | loftCoresInWfi | synceDpllLock
  | smbalert =>
    exact outMemWf_next (by simp [h])
  | hitchCompletion | txqWrite => exact outMemWf_guard (by split <;> simp [h])
  | trainSlewEnd => exact execTrainSlewEnd_memWf h _
  | taskPlace => exact execTaskPlace_memWf h ..
  | ymEvent => exact execYmEvent_memWf h
  | interruptEntry => exact execInterruptEntry_memWf h _
  | budgetExhaust => exact execBudgetExhaust_memWf h _
  | timerMatch => exact execTimerMatch_memWf h _
  | vectorSwitchDone => exact execVectorSwitchDone_memWf h _
  | hitchStallEnd => exact execHitchStallEnd_memWf h _
  | postResponse => exact execPostResponse_memWf h _
  | coreReset => exact execCoreReset_memWf h _
  | stableTickReceive => exact execStableTickReceive_memWf h _
  | domainSlewDone => exact execDomainSlewDone_memWf h _
  | sSlewDone => exact execSSlewDone_memWf h
  | kSignal g => exact kPage_memWf h g (f := fun s => kSignal s g) (by simpa using h)
  -- The command is a write of a register.
  | trainEnable | domainStep | domainSlew | domainSet | domainAbort | freqWrite =>
    exact outMemWf_guard (State.regWriteBy_memWf h ctWrite_hookMemWf ..)
  | trainDisable =>
    exact outMemWf_guard (hltSettle_memWf (ymStops_memWf (State.regWriteBy_memWf h ctWrite_hookMemWf ..)))
  | engineReset | engineResetClear | enginePause | lbtStart | lbtAbort | lbtRelease | nbChannelEnable =>
    exact outMemWf_guard (State.regWriteBy_memWf h (engWrite_hookMemWf _) ..)
  | eccInjectArm => exact outMemWf_guard (State.regWriteBy_memWf h eccWrite_hookMemWf ..)
  | txqResync | txqFlush | qbvChange | queueDisable =>
    exact outMemWf_ite (outMemWf_guard (State.regWriteBy_memWf h (ethWrite_hookMemWf _) ..)) (outMemWf_fault _)
  | plRetrain | plAdmit | plUnadmit | plCal | plQuiet | plCold | plWakeCmd | mtxSend | authOk | plPortEnable =>
    exact outMemWf_guard (State.regWriteBy_memWf h (plWrite_hookMemWf _) ..)
  | plPrepare | plSwitch | plRelease | plFence | plUnfence | plRemove | fgenInc =>
    exact outMemWf_next (State.regWriteBy_memWf h (plWrite_hookMemWf _) ..)
  | reqRingHead => exact outMemWf_next (State.regWriteBy_memWf h hltWrite_hookMemWf ..)
  | tkCmdGo | tkLockImem => exact outMemWf_next (State.regWriteBy_memWf h (tkWrite_hookMemWf _) ..)
  | ddrTrain | ddrEnable | coreResetRelease => exact outMemWf_next (State.regWriteBy_memWf h lftWrite_hookMemWf ..)
  | shedRequest => exact outMemWf_guard (State.regWriteBy_memWf h (shdWrite_hookMemWf _) ..)
  | standbyEnter | shdSysrst => exact outMemWf_next (State.regWriteBy_memWf h (shdWrite_hookMemWf _) ..)
  | ymTick => exact outMemWf_guard (hltSettle_memWf (ymStops_memWf (takeYmTick_memWf h _)))
  -- A row of engines that chain.
  | chainHalfRequest | chainSlotRequest => exact outMemWf_guard (chainRow_memWf h _ _ (slotAsk_memWf h _))
  | chainHalfRetry | chainSlotRetry => exact outMemWf_guard (chainRow_memWf h _ _ (slotRetry_memWf h _))
  | chainedJobSend | chainSlotReady => exact outMemWf_guard (chainRow_memWf h _ _ ((slotReady_mem ..).symm ▸ h))
  -- A message of the HLT, or a cell's own work.
  | unitInfo => exact outMemWf_next (hltRow_memWf h _ _ fun r t ht => unitInfo_memWf ht r)
  | planLoad => exact outMemWf_next (hltRow_memWf h _ _ fun r t ht => planLoad_memWf ht r)
  | hltFence | hltUnfence => exact outMemWf_next (hltRow_memWf h _ _ fun r t ht => hltFence_memWf ht _ r)
  | timeSel => exact outMemWf_next (hltRow_memWf h _ _ fun r t ht => timeSel_memWf ht r)
  | powerReq => exact outMemWf_next (hltRow_memWf h _ _ fun r t ht => powerReq_memWf ht r)
  | holdTake => exact outMemWf_guard (hltRow_memWf h _ _ fun r t ht => holdTake_memWf ht r)
  | holdRelease => exact outMemWf_guard (hltRow_memWf h _ _ fun r t ht => holdRelease_memWf ht r)
  | cellConfig => exact outMemWf_guard (hltRow_memWf h _ _ fun r t ht => cellConfig_memWf ht r)
  | cellStart => exact outMemWf_guard (hltRow_memWf h _ _ fun r t ht => cellStart_memWf ht r)
  | cellStop => exact outMemWf_guard (hltRow_memWf h _ _ fun r t ht => cellStop_memWf ht r)
  | dlSlot | ulSlot => exact outMemWf_guard (hltRow_memWf h _ _ fun r t ht => slotOrder_memWf ht _ r)
  | dlData => exact outMemWf_guard (hltRow_memWf h _ _ fun r t ht => dlData_memWf ht r)
  | prachConfig => exact outMemWf_guard (hltRow_memWf h _ _ fun r t ht => prachConfig_memWf ht r)
  | resultRead => exact outMemWf_guard (hltRow_memWf h _ _ fun r t ht => resultRead_memWf ht r)
  | resultAck => exact outMemWf_guard (hltRow_memWf h _ _ fun r t ht => resultAck_memWf ht r)
  | lbtParam => exact outMemWf_guard (hltRow_memWf h _ _ fun r t ht => lbtParam_memWf ht r)
  | slotCommit c slot up =>
    exact hltCellRow_memWf h c (f := fun s c => slotCommit s c slot up) fun t ht => slotCommit_memWf ht ..
  | dataDeadline c id =>
    exact hltCellRow_memWf h c (f := fun s c => dataDeadlineOf s c id) fun t ht => dataDeadlineOf_memWf ht ..
  | resultDone => exact hltCellRow_memWf h _ fun t ht => resultDone_memWf ht _
  -- A command of the Tack.
  | tkRng => exact outMemWf_next (tkRun_memWf h _ fun d t ht => tkRngCmd_memWf ht d)
  | tkHash => exact outMemWf_next (tkRun_memWf h _ fun d t ht => tkHashCmd_memWf ht d)
  | tkExtend => exact outMemWf_next (tkRun_memWf h _ fun d t ht => tkExtendCmd_memWf ht d)
  | tkVerify => exact outMemWf_next (tkRun_memWf h _ fun d t ht => tkVerifyCmd_memWf ht d)
  | tkLoad => exact outMemWf_next (tkRun_memWf h _ fun d t ht => tkLoadCmd_memWf ht d)
  | tkSign => exact outMemWf_next (tkRun_memWf h _ fun d t ht => tkSignCmd_memWf ht d)
  | verifyPeer => exact outMemWf_next (tkRun_memWf h _ fun d t ht => tkPeerCmd_memWf ht d)
  | tkAttest => exact outMemWf_next (tkRun_memWf h _ fun d t ht => tkAttestCmd_memWf ht d)
  | ctrInc => exact outMemWf_next (tkRun_memWf h _ fun d t ht => ctrIncCmd_memWf ht d)
  | kekSeal => exact outMemWf_next (tkRun_memWf h _ fun d t ht => kekSealCmd_memWf ht d)
  | kekLoad => exact outMemWf_next (tkRun_memWf h _ fun d t ht => kekLoadCmd_memWf ht d)
  | sakDeliver => exact outMemWf_next (tkRun_memWf h _ fun d t ht => sakDeliverCmd_memWf ht d)
  | idGenerate => exact outMemWf_next (tkRun_memWf h _ fun d t ht => idGenerateCmd_memWf ht d)
  | otpProgram => exact outMemWf_next (tkRun_memWf h _ fun d t ht => otpProgramCmd_memWf ht d)

end

/-- Settles O59: no command writes memory but through the operations that keep its addresses rising and list no byte
that an unlisted address reads as. -/
theorem everyStepKeepsMemoryCanonical : Obligations.EveryStepKeepsMemoryCanonical := fun s t h hst => by
  unfold step at hst
  split at hst
  · exact Host.Outcome.next.inj hst ▸ idle_memWf h
  next c rest _ => exact (exec_memWf (s := { s with pending := rest }) h c).wf t hst

end Sys2Proof.Machine
end
section
/-! PROOFS for the ECC controllers (R331-R339): which registers of a controller a corrected and an uncorrectable word
touch, what the scrubber makes of the word it reads and of its period, and the arming of an injection. -/

namespace Sys2Proof.Machine

variable {s t u : State} {n : Nat} {l l' : List Nat}

/-! ## A controller's registers -/

theorem eccA_ne (n : Nat) {o o' : Nat} (h : o ≠ o') : eccA n o ≠ eccA n o' := by
  simp only [eccA]; omega

theorem lgA_ne_eccA (n e k : Nat) {o : Nat} (ho : o < 0x100) : lgA n e + k ≠ eccA n o := by
  simp only [lgA, eccA]; omega

/-- From `s` to `t` registers and interrupt messages alone have changed, and of controller `n`'s registers below its
ledger only those at the listed offsets. -/
structure CtlWrites (n : Nat) (l : List Nat) (s t : State) : Prop where
  frame : t = { s with regs := t.regs, msiRise := t.msiRise }
  kept : ∀ o, o < 0x100 → o ∉ l → t.rd (eccA n o) = s.rd (eccA n o)

theorem CtlWrites.refl (n : Nat) (l : List Nat) (s : State) : CtlWrites n l s s := ⟨rfl, fun _ _ _ => rfl⟩

theorem CtlWrites.trans (h1 : CtlWrites n l s t) (h2 : CtlWrites n l t u) : CtlWrites n l s u := by
  refine ⟨?_, fun o ho hl => (h2.kept o ho hl).trans (h1.kept o ho hl)⟩
  have h := h2.frame
  rw [h1.frame] at h
  exact h

theorem CtlWrites.mono (h : CtlWrites n l s t) (hl : l ⊆ l') : CtlWrites n l' s t :=
  ⟨h.frame, fun o ho ho' => h.kept o ho fun hmem => ho' (hl hmem)⟩

/-- A write of a listed register, or of the ledger. -/
theorem CtlWrites.wr (h : CtlWrites n l s t) {a : Nat} (ha : ∀ o, o < 0x100 → o ∉ l → a ≠ eccA n o) (v : Nat) :
    CtlWrites n l s (t.wr a v) :=
  h.trans ⟨rfl, fun o ho hl => t.rd_wr_other v (ha o ho hl)⟩

theorem CtlWrites.wr_reg (h : CtlWrites n l s t) {o : Nat} (ho : o ∈ l) (v : Nat) : CtlWrites n l s (t.wr (eccA n o) v) :=
  h.wr (fun _ _ hl => eccA_ne n fun heq => hl (heq ▸ ho)) v

theorem CtlWrites.wr_ledger (h : CtlWrites n l s t) (e k v : Nat) : CtlWrites n l s (t.wr (lgA n e + k) v) :=
  h.wr (fun _ ho _ => lgA_ne_eccA n e k ho) v

theorem CtlWrites.rise (h : CtlWrites n l s t) (src : Nat) (before after : Bool) : CtlWrites n l s (t.rise src before after) := by
  refine h.trans ⟨?_, fun o _ _ => State.rd_of_regs (t.rise_regs ..) _⟩
  unfold State.rise
  split <;> rfl

theorem CtlWrites.eccSet (h : CtlWrites n l s t) (hl : 4 ∈ l) (i : Nat) : CtlWrites n l s (eccSet t n i) :=
  (h.wr_reg hl _).rise ..

/-! ## Flags (R342) -/

theorem regs_eccSet (s : State) (n i : Nat) : (eccSet s n i).regs = (s.wb (eccA n 4) i true).regs := State.rise_regs ..

theorem rb_eccSet_same (s : State) (n : Nat) {i : Nat} (hi : i < 64) : (eccSet s n i).rb (eccA n 4) i = true := by
  rw [State.rb_of_regs (regs_eccSet s n i), State.rb_wb_same _ _ _ _ hi]

theorem regsBut_eccSet (s : State) (n i : Nat) : RegsBut [eccA n 4] s (eccSet s n i) := fun a ha => by
  rw [State.rd_of_regs (regs_eccSet s n i)]
  exact s.rd_wr_other _ fun heq => ha (heq ▸ List.mem_singleton_self _)

theorem frame_eccSet (s : State) (n i : Nat) :
    eccSet s n i = { s with regs := (eccSet s n i).regs, msiRise := (eccSet s n i).msiRise } :=
  ((CtlWrites.refl n [4] s).eccSet List.mem_cons_self i).frame

/-! ## What a corrected and an uncorrectable word leave (R331, R332, R334) -/

/-- A corrected error is counted once; after that only flags, the overflow count and the ledger change. -/
theorem ctlWrites_eccLog (s : State) (n w pos syn : Nat) (scrub wrote : Bool) :
    CtlWrites n [4, 0x14] (s.cnt (eccA n 8) 1) (eccLog s n w pos syn scrub wrote) := by
  unfold eccLog
  dsimp only
  generalize hthreshold : (if (s.cnt (eccA n 8) 1).rd (eccA n 0x3C) ≠ 0 ∧
    (s.cnt (eccA n 8) 1).rd (eccA n 8) = (s.cnt (eccA n 8) 1).rd (eccA n 0x3C) then eccSet (s.cnt (eccA n 8) 1) n 1
    else s.cnt (eccA n 8) 1) = s2
  have hs2 : CtlWrites n [4, 0x14] (s.cnt (eccA n 8) 1) s2 := by
    rw [← hthreshold]
    split
    · exact (CtlWrites.refl ..).eccSet (by decide) 1
    · exact CtlWrites.refl ..
  split
  · next e _ => exact (hs2.wr_ledger e 4 _).wr_ledger e 8 _
  · split
    · next e _ => exact ((hs2.wr_ledger e 0 _).wr_ledger e 4 _).wr_ledger e 8 _
    · exact (hs2.wr_reg (by decide) _).eccSet (by decide) 2

/-- An uncorrectable word is counted, its flag stands, its address is captured unless one was, and it is poisoned. -/
theorem exists_ctlWrites_eccUe (s : State) (n w kind req : Nat) : ∃ t, eccUe s n w kind req = t.poison w ∧
    CtlWrites n [4, 0x18, 0x1C, 0x20] (s.cnt (eccA n 0xC) 1) t ∧ t.rb (eccA n 4) 0 = true := by
  unfold eccUe
  dsimp only
  split
  · next hflag => exact ⟨_, rfl, CtlWrites.refl .., hflag⟩
  · exact ⟨_, rfl, ((((CtlWrites.refl ..).wr_reg (by decide) _).wr_reg (by decide) _).wr_reg (by decide) _).eccSet (by decide) 0,
      rb_eccSet_same _ n (by decide)⟩

theorem wordSt_setEcc_zero (s : State) (w : Nat) : (s.setEcc w 0).wordSt w = .good := by
  rw [State.wordSt, State.eccOf_setEcc, if_pos rfl]
  split
  · exact (by decide : ddrDecode 0 = .good)
  · exact (by decide : sramDecode 0 = .good)

theorem wordSt_poison (s : State) (w : Nat) : (s.poison w).wordSt w = .poisoned := by
  rw [State.wordSt, State.poison, State.eccOf_setEcc, if_pos rfl]
  split
  · exact (by decide : ddrDecode 0xE00 = .poisoned)
  · exact (by decide : sramDecode 0x8101 = .poisoned)

theorem wordSt_of_ecc (h : t.ecc = s.ecc) (w : Nat) : t.wordSt w = s.wordSt w := by
  simp only [State.wordSt, State.eccOf, h]

/-! ## The scrubber (R337, R338) -/

/-- What the scrubber leaves of the word at `w` it has read, in a state it has then moved on from. -/
structure Scrubbed (n w : Nat) (s t : State) : Prop where
  kept : s.wordSt w = .good ∨ s.wordSt w = .poisoned → SameBytes s t ∧ t.ecc = s.ecc
  fixed : ∀ pos err syn, s.wordSt w = .fixed pos err syn → t.wordSt w = .good ∧
    t.ld w 16 = fixData w pos err (s.ld w 16) % 256 ^ 16 ∧
    t.rd (eccA n 8) = sat32 (s.rd (eccA n 8) + 1) ∧ BytesBut w 16 s t
  bad : s.wordSt w = .bad → t.wordSt w = .poisoned ∧ t.rd (eccA n 0xC) = sat32 (s.rd (eccA n 0xC) + 1) ∧
    t.rb (eccA n 4) 0 = true ∧ SameBytes s t

/-- Moving on touches no memory and none of the registers that say what was found. -/
theorem Scrubbed.trans {w : Nat} (h : Scrubbed n w s t) (hmem : u.mem = t.mem) (hecc : u.ecc = t.ecc)
    (hce : u.rd (eccA n 8) = t.rd (eccA n 8)) (hue : u.rd (eccA n 0xC) = t.rd (eccA n 0xC))
    (hflags : u.rd (eccA n 4) = t.rd (eccA n 4)) : Scrubbed n w s u where
  kept hst := by
    obtain ⟨hbytes, hsame⟩ := h.kept hst
    exact ⟨fun a => (State.byte_of_mem hmem a).trans (hbytes a), hecc.trans hsame⟩
  fixed pos err syn hst := by
    obtain ⟨hgood, hld, hcount, hbytes⟩ := h.fixed pos err syn hst
    exact ⟨(wordSt_of_ecc hecc w).trans hgood, (State.ld_of_mem hmem w 16).trans hld, hce.trans hcount,
      fun b hb => (State.byte_of_mem hmem b).trans (hbytes b hb)⟩
  bad hst := by
    obtain ⟨hpoisoned, hcount, hflag, hbytes⟩ := h.bad hst
    refine ⟨(wordSt_of_ecc hecc w).trans hpoisoned, hue.trans hcount, ?_, fun a => (State.byte_of_mem hmem a).trans (hbytes a)⟩
    rw [State.rb, hflags]
    exact hflag

theorem scrubbed_scrubWord (s : State) (n w : Nat) : Scrubbed n w s (scrubWord s n w) := by
  unfold scrubWord
  cases hst : s.wordSt w with
  | good => exact ⟨fun _ => ⟨fun _ => rfl, rfl⟩, by simp [hst], by simp [hst]⟩
  | poisoned => exact ⟨fun _ => ⟨fun _ => rfl, rfl⟩, by simp [hst], by simp [hst]⟩
  | fixed pos err syn =>
    refine ⟨by simp [hst], fun pos' err' syn' hst' => ?_, by simp [hst]⟩
    obtain ⟨rfl, rfl, rfl⟩ := WordSt.fixed.inj (hst.symm.trans hst')
    dsimp only
    generalize hv : fixData w pos err (s.ld w 16) = v
    have hlog := ctlWrites_eccLog ((s.st w 16 v).setEcc w 0) n w pos syn true true
    generalize eccLog ((s.st w 16 v).setEcc w 0) n w pos syn true true = t at hlog ⊢
    have hmem : t.mem = (s.st w 16 v).mem := by rw [hlog.frame]; rfl
    have hecc : t.ecc = (s.setEcc w 0).ecc := by rw [hlog.frame]; rfl
    have hcount : t.rd (eccA n 8) = sat32 (s.rd (eccA n 8) + 1) := by
      rw [hlog.kept 8 (by decide) (by decide), rd_cnt_of_regs rfl]; rfl
    refine ⟨(wordSt_of_ecc hecc w).trans (wordSt_setEcc_zero s w), (State.ld_of_mem hmem w 16).trans (s.ld_st w 16 v), hcount,
      fun b hb => (State.byte_of_mem hmem b).trans (s.byte_store_other _ ?_)⟩
    rwa [length_natLe]
  | bad =>
    refine ⟨by simp [hst], by simp [hst], fun _ => ?_⟩
    dsimp only
    obtain ⟨t, ht, hlog, hflag⟩ := exists_ctlWrites_eccUe s n w 2 0xFFF
    rw [ht]
    have hmem : (t.poison w).mem = s.mem := by rw [hlog.frame]; rfl
    have hcount : t.rd (eccA n 0xC) = sat32 (s.rd (eccA n 0xC) + 1) := by
      rw [hlog.kept 0xC (by decide) (by decide), rd_cnt_of_regs rfl]
    exact ⟨wordSt_poison t w, hcount, hflag, State.byte_of_mem hmem⟩

/-- From `s` to `t` only what scrubbing one word may touch has changed, and the passes counted are as they were. -/
structure WordWritten (n : Nat) (s t : State) : Prop where
  frame : t = { s with regs := t.regs, mem := t.mem, ecc := t.ecc, msiRise := t.msiRise }
  passes : t.rd (eccA n 0x2C) = s.rd (eccA n 0x2C)

theorem wordWritten_scrubWord (s : State) (n w : Nat) : WordWritten n s (scrubWord s n w) := by
  unfold scrubWord
  split
  · exact ⟨rfl, rfl⟩
  · exact ⟨rfl, rfl⟩
  · next pos err syn _ =>
    generalize fixData w pos err (s.ld w 16) = v
    have hlog := ctlWrites_eccLog ((s.st w 16 v).setEcc w 0) n w pos syn true true
    refine ⟨?_, ?_⟩
    · rw [hlog.frame]; rfl
    · rw [hlog.kept 0x2C (by decide) (by decide), State.rd_cnt, if_neg (eccA_ne n (by decide))]; rfl
  · obtain ⟨t, ht, hlog, -⟩ := exists_ctlWrites_eccUe s n w 2 0xFFF
    rw [ht]
    refine ⟨?_, ?_⟩
    · rw [hlog.frame]; rfl
    · exact (hlog.kept 0x2C (by decide) (by decide)).trans ((s.rd_cnt ..).trans (if_neg (eccA_ne n (by decide))))

/-- The scrubber's pass over the word its position names, if that is a word a local address reaches. -/
def scrubPass (s : State) (n : Nat) : State :=
  match ctlWord s n (s.rd (eccA n 0x28)) with
  | some w => scrubWord s n w
  | none => s

theorem wordWritten_scrubPass (s : State) (n : Nat) : WordWritten n s (scrubPass s n) := by
  unfold scrubPass
  split
  · exact wordWritten_scrubWord s n _
  · exact ⟨rfl, rfl⟩

theorem scrubbed_scrubPass {w : Nat} (hw : ctlWord s n (s.rd (eccA n 0x28)) = some w) : Scrubbed n w s (scrubPass s n) := by
  unfold scrubPass
  rw [hw]
  exact scrubbed_scrubWord s n w

/-- The scrubber reads: it is enabled, its shed is ready and its pass of this period is not complete. -/
structure ScrubRuns (s : State) (n : Nat) : Prop where
  enabled : s.rb (eccA n 0) 0 = true
  ready : s.shedReady (ctlShed n) = true
  due : tget (fun _ => 0) s.scrubDone n = 0

theorem ScrubRuns.not_idle (h : ScrubRuns s n) : ¬ (!s.rb (eccA n 0) 0 ∨ !s.shedReady (ctlShed n) ∨
    tget scrubRead.noNat s.scrubDone n = 1) := by
  have hdue : tget scrubRead.noNat s.scrubDone n = 0 := h.due
  simp [h.enabled, h.ready, hdue]

theorem scrubRead_of_more (h : ScrubRuns s n) (hmore : s.rd (eccA n 0x28) + 1 < ctlWords s n + Config.ramWords n) :
    scrubRead s n = (scrubPass s n).wr (eccA n 0x28) (s.rd (eccA n 0x28) + 1) := by
  unfold scrubRead
  dsimp only
  rw [if_neg h.not_idle, if_pos hmore]
  rfl

theorem scrubRead_of_last (h : ScrubRuns s n) (hlast : ctlWords s n + Config.ramWords n ≤ s.rd (eccA n 0x28) + 1) :
    scrubRead s n = { ((scrubPass s n).wr (eccA n 0x28) 0).cnt (eccA n 0x2C) 1 with
      scrubDone := tset (fun _ => 0) (scrubPass s n).scrubDone n 1 } := by
  unfold scrubRead
  dsimp only
  rw [if_neg h.not_idle, if_neg (Nat.not_lt.mpr hlast)]
  rfl

/-- A read that is not the pass's last moves the position on and leaves the period's state. -/
theorem scrubRead_position (h : ScrubRuns s n) (hmore : s.rd (eccA n 0x28) + 1 < ctlWords s n + Config.ramWords n) :
    (scrubRead s n).reg (eccA n 0x28) = BitVec.ofNat 64 (s.rd (eccA n 0x28) + 1) ∧ (scrubRead s n).scrubDone = s.scrubDone := by
  rw [scrubRead_of_more h hmore, State.reg_wr_same, State.wr_scrubDone, (wordWritten_scrubPass s n).frame]
  exact ⟨rfl, rfl⟩

/-- The pass's last read starts the next pass at 0, counts the pass and notes that the period's pass is complete. -/
theorem scrubRead_complete (h : ScrubRuns s n) (hlast : ctlWords s n + Config.ramWords n ≤ s.rd (eccA n 0x28) + 1) :
    (scrubRead s n).rd (eccA n 0x28) = 0 ∧ (scrubRead s n).rd (eccA n 0x2C) = sat32 (s.rd (eccA n 0x2C) + 1) ∧
      tget (fun _ => 0) (scrubRead s n).scrubDone n = 1 := by
  have hregs : (scrubRead s n).regs = (((scrubPass s n).wr (eccA n 0x28) 0).cnt (eccA n 0x2C) 1).regs := by
    rw [scrubRead_of_last h hlast]
  refine ⟨?_, ?_, ?_⟩
  · rw [State.rd_of_regs hregs, State.rd_cnt, if_neg (eccA_ne n (by decide)), State.rd_wr_same, Nat.zero_mod]
  · rw [State.rd_of_regs hregs, State.rd_cnt, if_pos rfl, State.rd_wr_other _ _ (eccA_ne n (by decide)),
      (wordWritten_scrubPass s n).passes]
  · have hdone : (scrubRead s n).scrubDone = tset (fun _ => 0) (scrubPass s n).scrubDone n 1 := by
      rw [scrubRead_of_last h hlast]
    rw [hdone, tget_tset_same]

/-- Moving on after a word touches only the position, the passes counted and the period's state. -/
structure MovedOn (n : Nat) (s t : State) : Prop where
  frame : t = { s with regs := t.regs, scrubDone := t.scrubDone }
  regs : RegsBut [eccA n 0x28, eccA n 0x2C] s t

theorem movedOn_scrubRead (h : ScrubRuns s n) : MovedOn n (scrubPass s n) (scrubRead s n) := by
  rcases Nat.lt_or_ge (s.rd (eccA n 0x28) + 1) (ctlWords s n + Config.ramWords n) with hmore | hlast
  · rw [scrubRead_of_more h hmore]
    generalize scrubPass s n = p
    exact ⟨rfl, RegsBut.wr (fun _ _ => rfl) List.mem_cons_self _⟩
  · rw [scrubRead_of_last h hlast]
    generalize scrubPass s n = p
    have hregs : RegsBut [eccA n 0x28, eccA n 0x2C] p ((p.wr (eccA n 0x28) 0).cnt (eccA n 0x2C) 1) :=
      (RegsBut.wr (fun _ _ => rfl) (by simp) _).wr (by simp) _
    have hframe : (p.wr (eccA n 0x28) 0).cnt (eccA n 0x2C) 1 =
        { p with regs := ((p.wr (eccA n 0x28) 0).cnt (eccA n 0x2C) 1).regs } := rfl
    generalize (p.wr (eccA n 0x28) 0).cnt (eccA n 0x2C) 1 = q at hregs hframe ⊢
    exact ⟨by rw [hframe], hregs.trans (regsBut_of_regs rfl)⟩

theorem MovedOn.rd (h : MovedOn n s t) {o : Nat} (h1 : o ≠ 0x28) (h2 : o ≠ 0x2C) : t.rd (eccA n o) = s.rd (eccA n o) :=
  h.regs _ (by simp [eccA_ne n h1, eccA_ne n h2])

theorem scrubbed_scrubRead (h : ScrubRuns s n) {w : Nat} (hw : ctlWord s n (s.rd (eccA n 0x28)) = some w) :
    Scrubbed n w s (scrubRead s n) := by
  have hmoved := movedOn_scrubRead h
  refine (scrubbed_scrubPass hw).trans ?_ ?_ (hmoved.rd (by decide) (by decide)) (hmoved.rd (by decide) (by decide))
    (hmoved.rd (by decide) (by decide))
  · rw [hmoved.frame]
  · rw [hmoved.frame]

theorem frame_scrubRead (h : ScrubRuns s n) : scrubRead s n = { s with
    regs := (scrubRead s n).regs, mem := (scrubRead s n).mem, ecc := (scrubRead s n).ecc,
    msiRise := (scrubRead s n).msiRise, scrubDone := (scrubRead s n).scrubDone } := by
  have hmoved := (movedOn_scrubRead h).frame
  have hword := (wordWritten_scrubPass s n).frame
  generalize scrubPass s n = p at hmoved hword
  generalize scrubRead s n = t at hmoved ⊢
  rw [hword] at hmoved
  rw [hmoved]

theorem scrubPeriodEnd_of_complete (hen : s.rb (eccA n 0) 0 = true) (hdone : tget (fun _ => 0) s.scrubDone n = 1) :
    scrubPeriodEnd s n = { s with scrubDone := tset (fun _ => 0) s.scrubDone n 0 } := by
  rw [scrubPeriodEnd, if_neg (by simp [hen]), if_pos hdone]

theorem scrubPeriodEnd_of_late (hen : s.rb (eccA n 0) 0 = true) (hdone : tget (fun _ => 0) s.scrubDone n ≠ 1) :
    scrubPeriodEnd s n = eccSet s n 4 := by
  rw [scrubPeriodEnd, if_neg (by simp [hen]), if_neg hdone]

/-! ## Arming an injection (R339) -/

/-- ECC_INJ_CTRL: software writes bits 31..8 and bit 1; ARM, bit 0, is set by a 1. -/
def injCtrlRow : RegRow := ⟨"ECC_INJ_CTRL", 0x10030, [(327, 0x400)], 4, 0, 0xffffff02, 0, 1, 0, 0, 0, 0⟩

theorem findRow_injCtrl (hn : n < 327) : findRow rowsEcc (0x10000 + n * 0x400 + 0x30) = some injCtrlRow := by
  have hrows : ∀ q < 11, ∀ r < 32, 32 * q + r < 327 →
      findRow rowsEcc (0x10000 + (32 * q + r) * 0x400 + 0x30) = some injCtrlRow := by
    decide
  have h := hrows (n / 32) (by omega) (n % 32) (by omega)
  rw [Nat.div_add_mod] at h
  exact h hn

theorem regRow_injCtrl (hn : n < 327) : regRow (eccRegs + (0x10000 + n * 0x400 + 0x30)) = some (eccRegs, injCtrlRow) :=
  regRow_blockBase (b := 11) (by decide) (by omega) rfl (findRow_injCtrl hn)

theorem dimIdx_injCtrl (n : Nat) : dimIdx injCtrlRow.dims (0x10000 + n * 0x400 + 0x30 - injCtrlRow.off) = [n] := by
  have hoff : 0x10000 + n * 0x400 + 0x30 - injCtrlRow.off = n * 0x400 := by simp only [injCtrlRow]; omega
  rw [hoff]
  simp [injCtrlRow, dimIdx]

theorem eccA_injCtrl (n : Nat) : eccA n 0x30 = eccRegs + (0x10000 + n * 0x400 + 0x30) := by
  simp only [eccA]; omega

theorem regWriteBy_injCtrl_of_armed (hn : n < 327) {v : Nat} (hok : armRefused n v = false) :
    s.regWriteBy eccWrite (eccA n 0x30) v =
      (s.wr (eccA n 0x30) (regNext injCtrlRow (s.rd (eccA n 0x30)) v)).answer rspOk 0 := by
  rw [eccA_injCtrl]
  refine regWriteBy_of_regRow (regRow_injCtrl hn) ?_
  rw [dimIdx_injCtrl]
  simp [eccWrite, injCtrlRow, hok]

theorem regWriteBy_injCtrl_of_refused (hn : n < 327) {v : Nat} (harm : tb v 0 = true) (hno : armRefused n v = true) :
    s.regWriteBy eccWrite (eccA n 0x30) v = s.answer rspTgt 0 := by
  rw [eccA_injCtrl]
  refine regWriteBy_of_regRow (regRow_injCtrl hn) ?_
  rw [dimIdx_injCtrl]
  simp [eccWrite, injCtrlRow, harm, hno]

/-- A bit that a 1 sets reads 1 once a 1 is written. -/
theorem rb_wr_regNext_of_w1s {row : RegRow} {a v i : Nat} (hm : row.MasksFit) (hw1s : row.w1s.testBit i = true) (hi : i < 64)
    (hv : v < 2 ^ 64) (hset : tb v i = true) : (s.wr a (regNext row (s.rd a) v)).rb a i = true := by
  have hbit : v.testBit i = true := hset
  rw [State.rb, State.rd_wr_same, tb, Nat.testBit_mod_two_pow, testBit_regNext hm _ hi hv]
  simp [hi, hw1s, hbit]

/-- A field below bit `w` does not depend on the bits from `w` up. -/
theorem fld_mod_two_pow {hi lo w : Nat} (h : hi < w) (v : Nat) : fld (v % 2 ^ w) hi lo = fld v hi lo := by
  apply Nat.eq_of_testBit_eq
  intro i
  simp only [fld, Nat.testBit_mod_two_pow, Nat.testBit_shiftRight]
  by_cases hi' : i < hi + 1 - lo
  · simp [show lo + i < w by omega]
  · simp [hi']

/-- Bits 31..8 of ECC_INJ_CTRL take what is written. -/
theorem fld_regNext_injCtrl (old : Nat) {v : Nat} (hv : v < 2 ^ 64) : fld (regNext injCtrlRow old v) 31 8 = fld v 31 8 := by
  apply Nat.eq_of_testBit_eq
  intro i
  simp only [fld, Nat.testBit_mod_two_pow, Nat.testBit_shiftRight]
  by_cases hi : i < 31 + 1 - 8
  · have hrw : ∀ i < 24, injCtrlRow.rw.testBit (8 + i) = true ∧ injCtrlRow.w1s.testBit (8 + i) = false := by decide
    obtain ⟨hwritten, hset⟩ := hrw i hi
    rw [testBit_regNext (by decide) _ (by omega) hv, hwritten, hset]
    simp [injCtrlRow]
  · simp [hi]

/-! ## The obligation -/

theorem completes_scrubRead (hn : n < 327) (h : ScrubRuns s n) : Completes (.scrubRead n) s fun t =>
    (s.rd (eccA n 0x28) + 1 < ctlWords s n + Config.ramWords n →
      t.reg (eccA n 0x28) = BitVec.ofNat 64 (s.rd (eccA n 0x28) + 1) ∧ t.scrubDone = s.scrubDone) ∧
    (ctlWords s n + Config.ramWords n ≤ s.rd (eccA n 0x28) + 1 → t.rd (eccA n 0x28) = 0 ∧
      t.rd (eccA n 0x2C) = sat32 (s.rd (eccA n 0x2C) + 1) ∧ tget (fun _ => 0) t.scrubDone n = 1) ∧
    (∀ w, ctlWord s n (s.rd (eccA n 0x28)) = some w → Scrubbed n w s t) ∧
    t = { s with regs := t.regs, mem := t.mem, ecc := t.ecc, msiRise := t.msiRise, scrubDone := t.scrubDone } :=
  completes_of_exec (if_pos hn) ⟨scrubRead_position h, scrubRead_complete h, fun _ => scrubbed_scrubRead h, frame_scrubRead h⟩

theorem completes_scrubPeriodEnd_of_complete (hn : n < 327) (hen : s.rb (eccA n 0) 0 = true)
    (hdone : tget (fun _ => 0) s.scrubDone n = 1) : Completes (.scrubPeriodEnd n) s fun t =>
      tget (fun _ => 0) t.scrubDone n = 0 ∧ t = { s with scrubDone := t.scrubDone } :=
  completes_of_exec ((if_pos hn).trans (congrArg Host.Outcome.next (scrubPeriodEnd_of_complete hen hdone)))
    ⟨tget_tset_same _ s.scrubDone n 0, rfl⟩

theorem completes_scrubPeriodEnd_of_late (hn : n < 327) (hen : s.rb (eccA n 0) 0 = true)
    (hdone : tget (fun _ => 0) s.scrubDone n ≠ 1) : Completes (.scrubPeriodEnd n) s fun t =>
      t.rb (eccA n 4) 4 = true ∧ t = { s with regs := t.regs, msiRise := t.msiRise } ∧ RegsBut [eccA n 4] s t :=
  completes_of_exec ((if_pos hn).trans (congrArg Host.Outcome.next (scrubPeriodEnd_of_late hen hdone)))
    ⟨rb_eccSet_same s n (by decide), frame_eccSet s n 4, regsBut_eccSet s n 4⟩

theorem completes_eccInjectArm_of_armed (hn : n < 327) (hok : armRefused n (setBit (s.rd (eccA n 0x30)) 0) = false) :
    Completes (.eccInjectArm n) s fun t => t.rb (eccA n 0x30) 0 = true ∧
      t.rf (eccA n 0x30) 31 8 = s.rf (eccA n 0x30) 31 8 ∧ RegsBut [eccA n 0x30] s t ∧
      t = { s with regs := t.regs, bus := ⟨rspOk, 0⟩ } := by
  have hv : setBit (s.rd (eccA n 0x30)) 0 < 2 ^ 64 := setBit_lt (s.rd_lt _) (by decide)
  have hfields := (fld_regNext_injCtrl (s.rd (eccA n 0x30)) hv).trans (fld_setBit_zero _ 31 8 (by decide))
  have harm := rb_wr_regNext_of_w1s (s := s) (row := injCtrlRow) (a := eccA n 0x30) (by decide) (by decide) (by decide) hv
    (tb_setBit_same _ 0)
  have hwrite := regWriteBy_injCtrl_of_armed (s := s) hn hok
  generalize regNext injCtrlRow (s.rd (eccA n 0x30)) (setBit (s.rd (eccA n 0x30)) 0) = v at hfields harm hwrite
  refine completes_of_exec ((if_pos hn).trans (congrArg Host.Outcome.next hwrite))
    ⟨(State.rb_of_regs (State.answer_regs ..) ..).trans harm, ?_, ?_, rfl⟩
  · rw [State.rf_of_regs (State.answer_regs ..), State.rf, State.rd_wr_same, fld_mod_two_pow (by decide), hfields]
    rfl
  · exact (regsBut_wr s _ v).trans (regsBut_of_regs (State.answer_regs ..))

theorem completes_eccInjectArm_of_refused (hn : n < 327) (hno : armRefused n (setBit (s.rd (eccA n 0x30)) 0) = true) :
    Completes (.eccInjectArm n) s fun t => t = { s with bus := ⟨rspTgt, 0⟩ } :=
  completes_of_exec
    ((if_pos hn).trans (congrArg Host.Outcome.next (regWriteBy_injCtrl_of_refused hn (tb_setBit_same _ 0) hno))) rfl

/-- Settles O10: the scrubber's read is its pass over one word and then its move on. -/
theorem scrubberAndInjection : Obligations.ScrubberAndInjection := by
  intro s n hn
  refine ⟨fun hen hready hdue => ?_, fun hen => ⟨completes_scrubPeriodEnd_of_complete hn hen,
    completes_scrubPeriodEnd_of_late hn hen⟩, completes_eccInjectArm_of_armed hn, completes_eccInjectArm_of_refused hn⟩
  obtain ⟨t, hexec, hmore, hlast, hword, hframe⟩ := completes_scrubRead hn ⟨hen, hready, hdue⟩
  exact ⟨t, hexec, hmore, hlast, fun w hw => ⟨(hword w hw).kept, (hword w hw).fixed, (hword w hw).bad⟩, hframe⟩

/-! ## States that meet the hypotheses -/

/-- Bank 0's shed is ready and the first word of its Barn memory has data symbol 3 wrong by 9. -/
def symbolWrong : State := { State.reset.wr (shdRegs + 0x200 + 4 * 40) 0x53 with ecc := [(0, encodeSym 3 9)] }

theorem scrubRuns_symbolWrong : ScrubRuns symbolWrong 0 := ⟨by decide, by decide, by decide⟩

theorem completes_scrubRead_symbolWrong : Completes (.scrubRead 0) symbolWrong fun t =>
    t.reg (eccA 0 0x28) = 1 ∧ t.wordSt 0 = .good ∧ t.ld 0 16 = 9 <<< 12 ∧ t.rd (eccA 0 8) = 1 := by
  obtain ⟨t, hexec, hmore, -, hword, -⟩ := completes_scrubRead (n := 0) (by decide) scrubRuns_symbolWrong
  have hfirst : symbolWrong.rd (eccA 0 0x28) + 1 < ctlWords symbolWrong 0 + Config.ramWords 0 :=
    Nat.lt_add_right _ (by decide)
  obtain ⟨hgood, hld, hcount, -⟩ := (hword 0 (by decide)).fixed 3 9 (synd (encodeSym 3 9)) (by decide)
  exact ⟨t, hexec, (hmore hfirst).1.trans (by decide), hgood, hld.trans (by decide), hcount.trans (by decide)⟩

/-- Reset leaves the scrubber of bank 0 enabled; no pass of its first period is complete. -/
theorem completes_scrubPeriodEnd_reset : Completes (.scrubPeriodEnd 0) State.reset fun t => t.rb (eccA 0 4) 4 = true := by
  obtain ⟨t, hexec, hlate, -⟩ := completes_scrubPeriodEnd_of_late (s := State.reset) (n := 0) (by decide) (by decide) (by decide)
  exact ⟨t, hexec, hlate⟩

/-- An injection of error 1 at symbol 35, the last of a word of SRAM. -/
def injectLastSymbol : State := State.reset.wr (eccA 0 0x30) 0x00012300

theorem completes_eccInjectArm_injectLastSymbol :
    Completes (.eccInjectArm 0) injectLastSymbol fun t => t.rb (eccA 0 0x30) 0 = true := by
  obtain ⟨t, hexec, harmed, -⟩ := completes_eccInjectArm_of_armed (s := injectLastSymbol) (n := 0) (by decide) (by decide)
  exact ⟨t, hexec, harmed⟩

/-- The pattern of ECC_INJ_CTRL is 0 at reset, so the arming is turned away. -/
theorem completes_eccInjectArm_reset : Completes (.eccInjectArm 0) State.reset fun t => t.bus = ⟨rspTgt, 0⟩ := by
  obtain ⟨t, hexec, hsame⟩ := completes_eccInjectArm_of_refused (s := State.reset) (n := 0) (by decide) (by decide)
  exact ⟨t, hexec, hsame ▸ rfl⟩

end Sys2Proof.Machine
end

section
/-! PROOFS for the code of the SRAM memories (R326-R329). The field GF(16) of the code is brought to its laws by two
small tables; a single symbol's syndromes all lie on the quadric s0·s3 = f(s1, s2), and the syndrome of two wrong
symbols never does, because f is anisotropic: so it is no single symbol's. -/

namespace Sys2Proof.Machine

/-! ## The field (R327) -/

theorem gfMul_mod (a b : Nat) : gfMul (a % 16) (b % 16) = gfMul a b := by
  have hbit : ∀ i, i < 4 → tb (b % 16) i = tb b i := fun i hi => by
    rw [tb, tb, show (16 : Nat) = 2 ^ 4 from rfl, Nat.testBit_mod_two_pow, decide_eq_true hi, Bool.true_and]
  simp [gfMul, List.range, List.range.loop, hbit]

@[simp] theorem gfMul_mod_left (a b : Nat) : gfMul (a % 16) b = gfMul a b := by
  rw [← gfMul_mod, Nat.mod_mod, gfMul_mod]

@[simp] theorem gfMul_mod_right (a b : Nat) : gfMul a (b % 16) = gfMul a b := by
  rw [← gfMul_mod, Nat.mod_mod, gfMul_mod]

theorem gfMul_lt (a b : Nat) : gfMul a b < 16 := by
  have htable : ∀ a < 16, ∀ b < 16, gfMul a b < 16 := by decide
  simpa using htable (a % 16) (Nat.mod_lt a (by decide)) (b % 16) (Nat.mod_lt b (by decide))

theorem gfMul_comm (a b : Nat) : gfMul a b = gfMul b a := by
  have htable : ∀ a < 16, ∀ b < 16, gfMul a b = gfMul b a := by decide
  simpa using htable (a % 16) (Nat.mod_lt a (by decide)) (b % 16) (Nat.mod_lt b (by decide))

@[simp] theorem gfMul_zero (a : Nat) : gfMul a 0 = 0 := by
  simp [gfMul, tb, List.range, List.range.loop]

@[simp] theorem zero_gfMul (a : Nat) : gfMul 0 a = 0 := by rw [gfMul_comm, gfMul_zero]

/-- `v` where the bit is set, 0 where it is not. -/
def gfPick (b : Bool) (v : Nat) : Nat := if b then v else 0

theorem gfPick_xor (b c : Bool) (v : Nat) : gfPick (b ^^ c) v = gfPick b v ^^^ gfPick c v := by
  cases b <;> cases c <;> simp [gfPick]

theorem gfMul_gfPick (a : Nat) (b : Bool) (v : Nat) : gfMul a (gfPick b v) = gfPick b (gfMul a v) := by
  cases b <;> simp [gfPick]

/-- A product is the sum of the products with the powers of the field's generator that the second factor is made of. -/
theorem gfMul_eq_bits (a b : Nat) : gfMul a b = gfPick (b.testBit 0) (gfMul a 1) ^^^ gfPick (b.testBit 1) (gfMul a 2) ^^^
    gfPick (b.testBit 2) (gfMul a 4) ^^^ gfPick (b.testBit 3) (gfMul a 8) := by
  have htable : ∀ a < 16, ∀ b < 16, gfMul a b = gfPick (b.testBit 0) (gfMul a 1) ^^^ gfPick (b.testBit 1) (gfMul a 2) ^^^
    gfPick (b.testBit 2) (gfMul a 4) ^^^ gfPick (b.testBit 3) (gfMul a 8) := by decide
  have hbit : ∀ i, i < 4 → (b % 16).testBit i = b.testBit i := fun i hi => by
    rw [show (16 : Nat) = 2 ^ 4 from rfl, Nat.testBit_mod_two_pow, decide_eq_true hi, Bool.true_and]
  have h := htable (a % 16) (Nat.mod_lt a (by decide)) (b % 16) (Nat.mod_lt b (by decide))
  rwa [gfMul_mod, hbit 0 (by decide), hbit 1 (by decide), hbit 2 (by decide), hbit 3 (by decide), gfMul_mod_left,
    gfMul_mod_left, gfMul_mod_left, gfMul_mod_left] at h

theorem gfMul_xor (a b c : Nat) : gfMul a (b ^^^ c) = gfMul a b ^^^ gfMul a c := by
  rw [gfMul_eq_bits a (b ^^^ c), gfMul_eq_bits a b, gfMul_eq_bits a c]
  simp only [Nat.testBit_xor, gfPick_xor]
  ac_rfl

theorem xor_gfMul (a b c : Nat) : gfMul (a ^^^ b) c = gfMul a c ^^^ gfMul b c := by
  rw [gfMul_comm, gfMul_xor, gfMul_comm c a, gfMul_comm c b]

theorem gfMul_assoc_two (a b : Nat) : gfMul (gfMul a b) 2 = gfMul a (gfMul b 2) := by
  have htable : ∀ a < 16, ∀ b < 16, gfMul (gfMul a b) 2 = gfMul a (gfMul b 2) := by decide
  simpa using htable (a % 16) (Nat.mod_lt a (by decide)) (b % 16) (Nat.mod_lt b (by decide))

theorem gfMul_one (a : Nat) : gfMul a 1 = a % 16 := by
  have htable : ∀ a < 16, gfMul a 1 = a := by decide
  simpa using htable (a % 16) (Nat.mod_lt a (by decide))

theorem gfMul_four (a : Nat) : gfMul a 4 = gfMul (gfMul a 2) 2 := (gfMul_assoc_two a 2).symm
theorem gfMul_eight (a : Nat) : gfMul a 8 = gfMul (gfMul a 4) 2 := (gfMul_assoc_two a 4).symm

theorem gfMul_assoc_one (a b : Nat) : gfMul (gfMul a b) 1 = gfMul a (gfMul b 1) := by
  rw [gfMul_one, gfMul_one, gfMul_mod_right, Nat.mod_eq_of_lt (gfMul_lt a b)]

theorem gfMul_assoc_four (a b : Nat) : gfMul (gfMul a b) 4 = gfMul a (gfMul b 4) := by
  rw [gfMul_four, gfMul_assoc_two a b, gfMul_assoc_two, ← gfMul_four]

theorem gfMul_assoc_eight (a b : Nat) : gfMul (gfMul a b) 8 = gfMul a (gfMul b 8) := by
  rw [gfMul_eight, gfMul_assoc_four, gfMul_assoc_two, ← gfMul_eight]

theorem gfMul_assoc (a b c : Nat) : gfMul (gfMul a b) c = gfMul a (gfMul b c) := by
  rw [gfMul_eq_bits (gfMul a b) c, gfMul_eq_bits b c]
  simp only [gfMul_xor, gfMul_gfPick, gfMul_assoc_one, gfMul_assoc_two, gfMul_assoc_four, gfMul_assoc_eight]

theorem gfMul_left_comm (a b c : Nat) : gfMul a (gfMul b c) = gfMul b (gfMul a c) := by
  rw [← gfMul_assoc, gfMul_comm a b, gfMul_assoc]

theorem gfMul_ne_zero {a b : Nat} (ha : 0 < a) (ha' : a < 16) (hb : 0 < b) (hb' : b < 16) : gfMul a b ≠ 0 := by
  have htable : ∀ a < 16, ∀ b < 16, 0 < a → 0 < b → gfMul a b ≠ 0 := by decide
  exact htable a ha' b hb' ha hb

/-- Fifth powers are the cube roots of 1, so a^14 is the inverse of `a`. -/
theorem gfMul_gfInv {a : Nat} (ha : 0 < a) (ha' : a < 16) : gfMul a (gfInv a) = 1 := by
  have htable : ∀ a < 16, 0 < a → gfMul a (gfMul (gfMul a a) (gfMul a a)) ∈ [1, 6, 7] := by decide
  have hcube : ∀ c ∈ [1, 6, 7], gfMul c (gfMul c c) = 1 := by decide
  have h := hcube _ (htable a ha' ha)
  simp only [gfMul_assoc] at h
  simpa only [gfInv, gfMul_assoc] using h

theorem gfMul_gfInv_cancel {a b : Nat} (ha : a < 16) (hb : 0 < b) (hb' : b < 16) : gfMul (gfMul a b) (gfInv b) = a := by
  rw [gfMul_assoc, gfMul_gfInv hb hb', gfMul_one, Nat.mod_eq_of_lt ha]

/-- f(a, b) is 0 at (0, 0) alone. -/
theorem gfF_ne_zero {a b : Nat} (ha : a < 16) (hb : b < 16) (h : ¬ (a = 0 ∧ b = 0)) : gfF a b ≠ 0 := by
  have htable : ∀ a < 16, ∀ b < 16, gfF a b = 0 → a = 0 ∧ b = 0 := by decide
  exact fun h0 => h (htable a ha b hb h0)

theorem gfF_lt (a b : Nat) : gfF a b < 16 :=
  Nat.xor_lt_two_pow (n := 4) (Nat.xor_lt_two_pow (gfMul_lt ..) (gfMul_lt ..)) (gfMul_lt ..)

/-! ## Positions of the symbols (R327) -/

theorem symPos_injective {i j : Nat} (hi : i < 35) (hj : j < 35) (h : symPos i = symPos j) : i = j := by
  have htable : ∀ i < 35, ∀ j < 35, symPos i = symPos j → i = j := by decide
  exact htable i hi j hj h

theorem symPos_lt {i : Nat} (hi : i < 35) : (symPos i).1 < 16 ∧ (symPos i).2 < 16 := by
  have htable : ∀ i < 35, (symPos i).1 < 16 ∧ (symPos i).2 < 16 := by decide
  exact htable i hi

theorem find?_symPos {i : Nat} (hi : i < 35) : (List.range 35).find? (fun j => symPos j = symPos i) = some i := by
  rw [List.find?_range_eq_some]
  exact ⟨by simp, List.mem_range.mpr hi, fun j hj => by
    simpa using fun h => Nat.ne_of_lt hj (symPos_injective (Nat.lt_trans hj hi) hi h)⟩

/-! ## The quadric -/

/-- s0·s3 + f(s1, s2). -/
def quadric (s0 s1 s2 s3 : Nat) : Nat := gfMul s0 s3 ^^^ gfF s1 s2

/-- f of a multiple. -/
theorem gfF_gfMul (e a b : Nat) : gfF (gfMul e a) (gfMul e b) = gfMul e (gfMul e (gfF a b)) := by
  have hmul (x y : Nat) : gfMul (gfMul e x) (gfMul e y) = gfMul e (gfMul e (gfMul x y)) := by
    rw [gfMul_assoc, gfMul_left_comm x e y]
  simp only [gfF, gfMul_xor, hmul, gfMul_left_comm 8 e]

/-- f of a sum: f of the parts and its polar form. -/
theorem gfF_xor (a b a' b' : Nat) :
    gfF (a ^^^ a') (b ^^^ b') = gfF a b ^^^ gfF a' b' ^^^ (gfMul a b' ^^^ gfMul a' b) := by
  have hsquare (x y : Nat) : gfMul (x ^^^ y) (x ^^^ y) = gfMul x x ^^^ gfMul y y := by
    rw [gfMul_xor, xor_gfMul, xor_gfMul, gfMul_comm y x, Nat.xor_assoc, xor_cancel_left]
  rw [gfF, gfF, gfF, hsquare, hsquare, gfMul_xor (a ^^^ a'), xor_gfMul, xor_gfMul, gfMul_xor 8]
  ac_rfl

/-- A single symbol's syndrome lies on the quadric. -/
theorem quadric_symbol (e a b : Nat) : quadric e (gfMul e a) (gfMul e b) (gfMul e (gfF a b)) = 0 := by
  rw [quadric, gfF_gfMul, Nat.xor_self]

/-- Two symbols' syndrome lies off it by the product of their errors and f of the difference of their positions. -/
theorem quadric_symbols (e f a b a' b' : Nat) :
    quadric (e ^^^ f) (gfMul e a ^^^ gfMul f a') (gfMul e b ^^^ gfMul f b') (gfMul e (gfF a b) ^^^ gfMul f (gfF a' b')) =
      gfMul e (gfMul f (gfF (a ^^^ a') (b ^^^ b'))) := by
  have hpolar : gfMul (gfMul e a) (gfMul f b') ^^^ gfMul (gfMul f a') (gfMul e b) =
      gfMul e (gfMul f (gfMul a b' ^^^ gfMul a' b)) := by
    rw [gfMul_assoc, gfMul_left_comm a f, gfMul_assoc, gfMul_left_comm a' e, gfMul_left_comm f e, ← gfMul_xor, ← gfMul_xor]
  rw [quadric, gfF_xor (gfMul e a), gfF_gfMul, gfF_gfMul, hpolar, gfF_xor a]
  generalize gfF a b = F
  generalize gfF a' b' = F'
  generalize gfMul a b' ^^^ gfMul a' b = p
  simp only [gfMul_xor, xor_gfMul, gfMul_left_comm f e]
  generalize gfMul e (gfMul e F) = x
  generalize gfMul f (gfMul f F') = y
  generalize gfMul e (gfMul f F) = z
  generalize gfMul e (gfMul f F') = w
  generalize gfMul e (gfMul f p) = v
  calc x ^^^ z ^^^ (w ^^^ y) ^^^ (x ^^^ y ^^^ v) = x ^^^ (x ^^^ (y ^^^ (y ^^^ (z ^^^ w ^^^ v)))) := by ac_rfl
    _ = z ^^^ w ^^^ v := by rw [xor_cancel_left, xor_cancel_left]

theorem quadric_symbol_last (e f a b : Nat) :
    quadric e (gfMul e a) (gfMul e b) (gfMul e (gfF a b) ^^^ f) = gfMul e f := by
  have h := quadric_symbol e a b
  simp only [quadric, gfMul_xor] at h ⊢
  rw [Nat.xor_right_comm, h, Nat.zero_xor]

end Sys2Proof.Machine
end

section
/-! PROOFS for the decoder of the SRAM memories (R328, R329): what it makes of each syndrome, that two wrong symbols
are never taken for one, and what a reader sees of a corrected, an uncorrectable and a poisoned word. -/

namespace Sys2Proof.Machine

variable {s : State} {d d' s0 s1 s2 s3 s0' s1' s2' s3' : Nat}

/-! ## The four symbols of a syndrome (R328) -/

theorem digits_pack {x0 x1 x2 x3 : Nat} (h0 : x0 < 16) (h1 : x1 < 16) (h2 : x2 < 16) (h3 : x3 < 16) :
    (x0 + x1 * 16 + x2 * 256 + x3 * 4096) % 16 = x0 ∧ (x0 + x1 * 16 + x2 * 256 + x3 * 4096) / 16 % 16 = x1 ∧
      (x0 + x1 * 16 + x2 * 256 + x3 * 4096) / 256 % 16 = x2 ∧ (x0 + x1 * 16 + x2 * 256 + x3 * 4096) / 4096 % 16 = x3 := by
  omega

/-- Digit `k` in base 16 of a sum without carries. -/
theorem digit_xor (a b k : Nat) : (a ^^^ b) / 2 ^ k % 16 = a / 2 ^ k % 16 ^^^ b / 2 ^ k % 16 := by
  rw [Nat.xor_div_two_pow, show (16 : Nat) = 2 ^ 4 from rfl, Nat.xor_mod_two_pow]

/-- The syndrome of check difference `d` has the symbols S0 to S3. -/
structure Syndrome (d s0 s1 s2 s3 : Nat) : Prop where
  s0_eq : synd d % 16 = s0
  s1_eq : synd d / 16 % 16 = s1
  s2_eq : synd d / 256 % 16 = s2
  s3_eq : synd d / 4096 % 16 = s3

theorem digit_lt (a : Nat) : a % 16 < 2 ^ 4 := Nat.mod_lt a (by decide)

theorem syndrome_digits (d : Nat) : Syndrome d (d % 16 ^^^ d / 16 % 16 ^^^ d / 256 % 16) (d / 16 % 16) (d / 256 % 16)
    (d / 16 % 16 ^^^ gfMul 8 (d / 256 % 16) ^^^ d / 4096 % 16) := by
  have h0 : d % 16 ^^^ d / 16 % 16 ^^^ d / 256 % 16 < 2 ^ 4 :=
    Nat.xor_lt_two_pow (Nat.xor_lt_two_pow (digit_lt _) (digit_lt _)) (digit_lt _)
  have h3 : d / 16 % 16 ^^^ gfMul 8 (d / 256 % 16) ^^^ d / 4096 % 16 < 2 ^ 4 :=
    Nat.xor_lt_two_pow (Nat.xor_lt_two_pow (digit_lt _) (gfMul_lt ..)) (digit_lt _)
  obtain ⟨hs0, hs1, hs2, hs3⟩ := digits_pack h0 (digit_lt (d / 16)) (digit_lt (d / 256)) h3
  exact ⟨hs0, hs1, hs2, hs3⟩

theorem Syndrome.congr (h : Syndrome d s0 s1 s2 s3) (h0 : s0 = s0') (h1 : s1 = s1') (h2 : s2 = s2') (h3 : s3 = s3') :
    Syndrome d s0' s1' s2' s3' := h0 ▸ h1 ▸ h2 ▸ h3 ▸ h

theorem Syndrome.lt (h : Syndrome d s0 s1 s2 s3) : s0 < 16 ∧ s1 < 16 ∧ s2 < 16 ∧ s3 < 16 := by
  obtain ⟨rfl, rfl, rfl, rfl⟩ := h
  exact ⟨digit_lt _, digit_lt _, digit_lt _, digit_lt _⟩

/-- Syndromes add. -/
theorem Syndrome.xor (h : Syndrome d s0 s1 s2 s3) (h' : Syndrome d' s0' s1' s2' s3') :
    Syndrome (d ^^^ d') (s0 ^^^ s0') (s1 ^^^ s1') (s2 ^^^ s2') (s3 ^^^ s3') := by
  have hd0 : (d ^^^ d') % 16 = d % 16 ^^^ d' % 16 := by simpa using digit_xor d d' 0
  have hd1 : (d ^^^ d') / 16 % 16 = d / 16 % 16 ^^^ d' / 16 % 16 := digit_xor d d' 4
  have hd2 : (d ^^^ d') / 256 % 16 = d / 256 % 16 ^^^ d' / 256 % 16 := digit_xor d d' 8
  have hd3 : (d ^^^ d') / 4096 % 16 = d / 4096 % 16 ^^^ d' / 4096 % 16 := digit_xor d d' 12
  obtain ⟨rfl, rfl, rfl, rfl⟩ := h
  obtain ⟨rfl, rfl, rfl, rfl⟩ := h'
  obtain ⟨e0, e1, e2, e3⟩ := syndrome_digits d
  obtain ⟨e0', e1', e2', e3'⟩ := syndrome_digits d'
  rw [e0, e1, e2, e3, e0', e1', e2', e3']
  refine (syndrome_digits (d ^^^ d')).congr ?_ hd1 hd2 ?_
  · rw [hd0, hd1, hd2]
    ac_rfl
  · rw [hd1, hd2, hd3, gfMul_xor]
    ac_rfl

/-- The syndrome of one wrong symbol is a multiple of its column. -/
theorem syndrome_encodeSym (i : Nat) {e : Nat} (he : e < 16) : Syndrome (encodeSym i e) e (gfMul e (symPos i).1)
    (gfMul e (symPos i).2) (gfMul e (gfF (symPos i).1 (symPos i).2)) := by
  unfold encodeSym
  dsimp only
  generalize (symPos i).1 = a
  generalize (symPos i).2 = b
  generalize gfF a b = f
  rw [gfMul_comm a e, gfMul_comm b e, gfMul_comm f e]
  have h1 := gfMul_lt e a
  have h2 := gfMul_lt e b
  have h3 := gfMul_lt e f
  have h8 := gfMul_lt 8 (gfMul e b)
  generalize gfMul e a = p1 at *
  generalize gfMul e b = p2 at *
  generalize gfMul e f = p3 at *
  obtain ⟨hd0, hd1, hd2, hd3⟩ := digits_pack (Nat.xor_lt_two_pow (n := 4) (Nat.xor_lt_two_pow he h1) h2) h1 h2
    (Nat.xor_lt_two_pow (n := 4) (Nat.xor_lt_two_pow h3 h1) h8)
  refine (syndrome_digits _).congr ?_ hd1 hd2 ?_
  · rw [hd0, hd1, hd2]
    calc e ^^^ p1 ^^^ p2 ^^^ p1 ^^^ p2 = p1 ^^^ (p1 ^^^ (p2 ^^^ (p2 ^^^ e))) := by ac_rfl
      _ = e := by rw [xor_cancel_left, xor_cancel_left]
  · rw [hd1, hd2, hd3]
    generalize gfMul 8 p2 = q
    calc p1 ^^^ q ^^^ (p3 ^^^ p1 ^^^ q) = p1 ^^^ (p1 ^^^ (q ^^^ (q ^^^ p3))) := by ac_rfl
      _ = p3 := by rw [xor_cancel_left, xor_cancel_left]

theorem syndrome_symbolError {i e : Nat} (hi : i < 35) (he : e < 16) : Syndrome (symbolError i e) e
    (gfMul e (symPos i).1) (gfMul e (symPos i).2) (gfMul e (gfF (symPos i).1 (symPos i).2)) := by
  rcases Nat.lt_or_ge i 32 with hdata | hcheck
  · rw [symbolError, if_pos hdata]
    exact syndrome_encodeSym i he
  · have htable : ∀ e < 16, ∀ k < 3, synd (e * 16 ^ k) % 16 = e ∧
        synd (e * 16 ^ k) / 16 % 16 = gfMul e (symPos (32 + k)).1 ∧ synd (e * 16 ^ k) / 256 % 16 = gfMul e (symPos (32 + k)).2 ∧
        synd (e * 16 ^ k) / 4096 % 16 = gfMul e (gfF (symPos (32 + k)).1 (symPos (32 + k)).2) := by decide
    obtain ⟨h0, h1, h2, h3⟩ := htable e he (i - 32) (by omega)
    rw [Nat.add_sub_cancel' hcheck] at h1 h2 h3
    rw [symbolError, if_neg (Nat.not_lt.mpr hcheck)]
    exact ⟨h0, h1, h2, h3⟩

theorem syndrome_symbolError_last {e : Nat} (he : e < 16) : Syndrome (symbolError 35 e) 0 0 0 e := by
  have htable : ∀ e < 16, synd (symbolError 35 e) % 16 = 0 ∧ synd (symbolError 35 e) / 16 % 16 = 0 ∧
      synd (symbolError 35 e) / 256 % 16 = 0 ∧ synd (symbolError 35 e) / 4096 % 16 = e := by decide
  obtain ⟨h0, h1, h2, h3⟩ := htable e he
  exact ⟨h0, h1, h2, h3⟩

/-! ## What the decoder makes of a syndrome (R329) -/

theorem sramDecode_of_zero (h : synd d = 0) : sramDecode d = .good := if_pos h

theorem sramDecode_of_poison (h : synd d = 0x0100) : sramDecode d = .poisoned := by
  rw [sramDecode]
  dsimp only
  rw [if_neg (by omega), if_pos h]

theorem sramDecode_of_last (h : Syndrome d 0 0 0 s3) (hs3 : s3 ≠ 0) : sramDecode d = .fixed 35 s3 (synd d) := by
  obtain ⟨h0, h1, h2, rfl⟩ := h
  rw [sramDecode]
  dsimp only
  rw [if_neg (by omega), if_neg (by omega), if_pos ⟨h0, h1, h2⟩]

/-- The syndrome is the column of symbol `i` times S0. -/
structure ColumnOf (i s0 s1 s2 s3 : Nat) : Prop where
  index : i < 35
  s1_eq : gfMul s0 (symPos i).1 = s1
  s2_eq : gfMul s0 (symPos i).2 = s2
  s3_eq : s3 = gfMul s0 (gfF (symPos i).1 (symPos i).2)

/-- Dividing by S0 finds the position of the symbol whose column it is. -/
theorem ColumnOf.position {i : Nat} (h : ColumnOf i s0 s1 s2 s3) (hs0 : 0 < s0) (hlt : s0 < 16) :
    (gfMul s1 (gfInv s0), gfMul s2 (gfInv s0)) = symPos i := by
  obtain ⟨hi, rfl, rfl, -⟩ := h
  obtain ⟨ha, hb⟩ := symPos_lt hi
  rw [gfMul_comm s0, gfMul_gfInv_cancel ha hs0 hlt, gfMul_comm s0, gfMul_gfInv_cancel hb hs0 hlt]

/-- The position found is that of a symbol whose column has these S1 and S2. -/
theorem mul_of_position {x a : Nat} (hx : x < 16) (hs0 : 0 < s0) (hlt : s0 < 16) (ha : a = gfMul x (gfInv s0)) : gfMul s0 a = x := by
  rw [ha, ← gfMul_assoc, gfMul_comm s0, gfMul_gfInv_cancel hx hs0 hlt]

theorem sramDecode_of_column {i : Nat} (h : Syndrome d s0 s1 s2 s3) (hs0 : s0 ≠ 0) (hcol : ColumnOf i s0 s1 s2 s3) :
    sramDecode d = .fixed i s0 (synd d) := by
  have hpos := hcol.position (Nat.pos_of_ne_zero hs0) h.lt.1
  have hs3 := hcol.s3_eq
  have hfind := find?_symPos hcol.index
  obtain ⟨ha, hb⟩ := Prod.ext_iff.mp hpos
  rw [← hpos] at hfind
  rw [← ha, ← hb] at hs3
  obtain ⟨h0, h1, h2, h3⟩ := h
  rw [sramDecode]
  dsimp only
  rw [if_neg (by omega), if_neg (by omega), if_neg (by omega), if_neg (by omega), h0, h1, h2, h3, hfind]
  exact if_pos hs3

theorem sramDecode_of_noColumn (h : Syndrome d s0 s1 s2 s3) (hzero : synd d ≠ 0) (hpoison : synd d ≠ 0x0100)
    (hlast : ¬ (s0 = 0 ∧ s1 = 0 ∧ s2 = 0)) (hno : s0 ≠ 0 → ∀ i, ¬ ColumnOf i s0 s1 s2 s3) : sramDecode d = .bad := by
  obtain ⟨hlt, hlt1, hlt2, -⟩ := h.lt
  obtain ⟨h0, h1, h2, h3⟩ := h
  rw [sramDecode]
  dsimp only
  rw [h0, h1, h2, h3, if_neg hzero, if_neg hpoison, if_neg hlast]
  by_cases hs0 : s0 = 0
  · exact if_pos hs0
  · rw [if_neg hs0]
    split
    · next i hfind =>
      refine if_neg fun hs3 => ?_
      have hpos : symPos i = (gfMul s1 (gfInv s0), gfMul s2 (gfInv s0)) := by simpa using List.find?_some hfind
      obtain ⟨ha, hb⟩ := Prod.ext_iff.mp hpos
      have hpos0 : 0 < s0 := Nat.pos_of_ne_zero hs0
      exact hno hs0 i ⟨List.mem_range.mp (List.mem_of_find?_eq_some hfind), mul_of_position hlt1 hpos0 hlt ha,
        mul_of_position hlt2 hpos0 hlt hb, ha ▸ hb ▸ hs3⟩
    · rfl

/-! ## Two wrong symbols (R329) -/

/-- A syndrome off the quadric is none a single symbol gives. -/
theorem sramDecode_of_quadric (h : Syndrome d s0 s1 s2 s3) (hq : quadric s0 s1 s2 s3 ≠ 0) :
    sramDecode d = .bad ∨ sramDecode d = .poisoned := by
  by_cases hpoison : synd d = 0x0100
  · exact .inr (sramDecode_of_poison hpoison)
  · refine .inl (sramDecode_of_noColumn h (fun hzero => hq ?_) hpoison (fun hlast => hq ?_) fun _ i hcol => hq ?_)
    · obtain ⟨rfl, rfl, rfl, rfl⟩ := h
      rw [hzero]
      decide
    · obtain ⟨rfl, rfl, rfl⟩ := hlast
      rw [quadric, zero_gfMul]
      decide
    · obtain ⟨-, rfl, rfl, rfl⟩ := hcol
      exact quadric_symbol ..

theorem quadric_ne_zero_of_symbols {i j e f : Nat} (hi : i < 35) (hj : j < 35) (hij : i ≠ j) (he : 0 < e) (he' : e < 16)
    (hf : 0 < f) (hf' : f < 16) :
    gfMul e (gfMul f (gfF ((symPos i).1 ^^^ (symPos j).1) ((symPos i).2 ^^^ (symPos j).2))) ≠ 0 := by
  obtain ⟨hia, hib⟩ := symPos_lt hi
  obtain ⟨hja, hjb⟩ := symPos_lt hj
  have hdiff : gfF ((symPos i).1 ^^^ (symPos j).1) ((symPos i).2 ^^^ (symPos j).2) ≠ 0 := by
    refine gfF_ne_zero (Nat.xor_lt_two_pow (n := 4) hia hja) (Nat.xor_lt_two_pow (n := 4) hib hjb) fun ⟨ha, hb⟩ => ?_
    exact hij (symPos_injective hi hj (Prod.ext (Nat.xor_eq_zero_iff.mp ha) (Nat.xor_eq_zero_iff.mp hb)))
  exact gfMul_ne_zero he he' (Nat.pos_of_ne_zero (gfMul_ne_zero hf hf' (Nat.pos_of_ne_zero hdiff) (gfF_lt ..))) (gfMul_lt ..)

theorem sramDecode_of_symbol_last {i e f : Nat} (hi : i < 35) (he : 0 < e) (he' : e < 16) (hf : 0 < f) (hf' : f < 16) :
    sramDecode (symbolError i e ^^^ symbolError 35 f) = .bad ∨ sramDecode (symbolError i e ^^^ symbolError 35 f) = .poisoned := by
  refine sramDecode_of_quadric (((syndrome_symbolError hi he').xor (syndrome_symbolError_last hf')).congr
    (Nat.xor_zero _) (Nat.xor_zero _) (Nat.xor_zero _) rfl) ?_
  rw [quadric_symbol_last]
  exact gfMul_ne_zero he he' hf hf'

theorem sramDecode_of_twoSymbols {i j e f : Nat} (hi : i < 36) (hj : j < 36) (hij : i ≠ j) (he : 0 < e) (he' : e < 16)
    (hf : 0 < f) (hf' : f < 16) : sramDecode (symbolError i e ^^^ symbolError j f) = .bad ∨
      sramDecode (symbolError i e ^^^ symbolError j f) = .poisoned := by
  rcases Nat.lt_or_ge j 35 with hj' | hj'
  · rcases Nat.lt_or_ge i 35 with hi' | hi'
    · refine sramDecode_of_quadric ((syndrome_symbolError hi' he').xor (syndrome_symbolError hj' hf')) ?_
      rw [quadric_symbols]
      exact quadric_ne_zero_of_symbols hi' hj' hij he he' hf hf'
    · obtain rfl : i = 35 := by omega
      rw [Nat.xor_comm]
      exact sramDecode_of_symbol_last hj' hf hf' he he'
  · obtain rfl : j = 35 := by omega
    exact sramDecode_of_symbol_last (by omega) he he' hf hf'

/-! ## What a correction changes -/

/-- A single symbol is corrected by an error value of one symbol. -/
theorem err_lt_of_fixed {pos e syn : Nat} (h : sramDecode d = .fixed pos e syn) : e < 16 := by
  rw [sramDecode] at h
  dsimp only at h
  split at h
  · cases h
  · split at h
    · cases h
    · split at h
      · cases h
        exact digit_lt _
      · split at h
        · cases h
        · split at h
          · split at h
            · cases h
              exact digit_lt _
            · cases h
          · cases h

theorem lt_ddrBase_of_ctlOf {a n : Nat} (hn : n < 292) (hctl : ctlOf a = some n) : a < ddrBase := by
  refine Nat.lt_of_not_le fun hddr => ?_
  have hregion : regionOf a = .ddr ∨ (∃ k, regionOf a = .remote k) ∨ regionOf a = .unassigned := by
    have hbase : (0x10000000000 : Nat) ≤ a := hddr
    rw [regionOf, if_neg (by rw [barnSize]; omega), if_neg (by omega), if_neg (by omega), if_neg (by omega)]
    split
    · exact .inl rfl
    · split
      · exact .inr (.inl ⟨_, rfl⟩)
      · exact .inr (.inr rfl)
  rw [ctlOf] at hctl
  rcases hregion with h | ⟨k, h⟩ | h
  · rw [h] at hctl
    have hport : 300 + fld a 12 12 = n := Option.some.inj hctl
    omega
  · rw [h] at hctl
    cases hctl
  · rw [h] at hctl
    cases hctl

theorem getElem_natLe (n v i : Nat) (hi : i < (natLe n v).length) : (natLe n v)[i].toNat = v / 256 ^ i % 256 := by
  induction n generalizing v i with
  | zero => simp [natLe] at hi
  | succ n ih =>
    cases i with
    | zero => simp [natLe]
    | succ i =>
      simp only [natLe, List.getElem_cons_succ]
      rw [ih, Nat.div_div_eq_div_mul, Nat.pow_succ']

/-- A byte of a little-endian number, 0 past its end. -/
theorem getD_natLe (n v i : Nat) : ((natLe n v).getD i 0).toNat = if i < n then v / 256 ^ i % 256 else 0 := by
  split
  · next hi =>
    rw [List.getD_eq_getElem _ _ (by simpa using hi), getElem_natLe]
  · next hi =>
    rw [List.getD_eq_default _ _ (by simpa using hi)]
    rfl

theorem byte_of_ld (s : State) (a : Nat) {n i : Nat} (hi : i < n) : s.ld a n / 256 ^ i % 256 = (s.byte (a + i)).toNat := by
  have h := getD_natLe n (s.ld a n) i
  rw [if_pos hi, natLe_ld] at h
  rw [← h, List.getD_eq_getElem _ _ (by simpa [State.bytes] using hi)]
  simp [State.bytes]

/-- The error of symbol `pos`, as byte `i` of a word sees it. -/
theorem byte_of_symbol {e pos i : Nat} (he : e < 16) :
    e * 16 ^ pos / 256 ^ i % 256 = if 2 * i ≤ pos ∧ pos ≤ 2 * i + 1 then e * 16 ^ (pos % 2) else 0 := by
  have hbyte : (256 : Nat) ^ i = 16 ^ (2 * i) := by rw [Nat.pow_mul]
  rw [hbyte]
  rcases Nat.lt_or_ge pos (2 * i) with hlow | hhigh
  · have hsmall : e * 16 ^ pos < 16 ^ (2 * i) :=
      calc e * 16 ^ pos < 16 * 16 ^ pos := Nat.mul_lt_mul_of_pos_right he (Nat.pow_pos (by decide))
        _ = 16 ^ (pos + 1) := (Nat.pow_succ' ..).symm
        _ ≤ 16 ^ (2 * i) := Nat.pow_le_pow_right (by decide) hlow
    rw [Nat.div_eq_of_lt hsmall, if_neg (by omega)]
  · obtain ⟨k, rfl⟩ := Nat.exists_eq_add_of_le hhigh
    have hshift : e * 16 ^ (2 * i + k) / 16 ^ (2 * i) = e * 16 ^ k := by
      rw [Nat.pow_add, Nat.mul_left_comm, Nat.mul_div_cancel_left _ (Nat.pow_pos (by decide))]
    rw [hshift]
    rcases Nat.lt_or_ge k 2 with hin | hout
    · have hk : (2 * i + k) % 2 = k := by omega
      rw [if_pos (by omega), hk]
      have hpow : 16 ^ k ≤ 16 ^ 1 := Nat.pow_le_pow_right (by decide) (Nat.le_of_lt_succ hin)
      exact Nat.mod_eq_of_lt (Nat.lt_of_le_of_lt (Nat.mul_le_mul (Nat.le_of_lt_succ he) hpow) (by decide))
    · obtain ⟨m, rfl⟩ := Nat.exists_eq_add_of_le hout
      rw [if_neg (by omega), Nat.pow_add, Nat.mul_left_comm]
      exact Nat.mul_mod_right 256 _

/-- Byte `i` of a word read with symbol `pos` corrected. -/
theorem byte_of_fixData {w pos e i : Nat} (hw : w < ddrBase) (he : e < 16) (hi : i < 16) :
    fixData w pos e (s.ld w 16) / 256 ^ i % 256 = if 2 * i ≤ pos ∧ pos ≤ 2 * i + 1
      then (s.byte (w + i)).toNat ^^^ e * 16 ^ (pos % 2) else (s.byte (w + i)).toNat := by
  rw [fixData, if_neg (Nat.not_le.mpr hw)]
  rcases Nat.lt_or_ge pos 32 with hdata | hcheck
  · have hshift : e <<< (4 * pos) = e * 16 ^ pos := by rw [Nat.shiftLeft_eq, Nat.pow_mul]
    have hxor (x y : Nat) : (x ^^^ y) / 256 ^ i % 256 = x / 256 ^ i % 256 ^^^ y / 256 ^ i % 256 := by
      rw [show (256 : Nat) ^ i = 2 ^ (8 * i) by rw [Nat.pow_mul], Nat.xor_div_two_pow, show (256 : Nat) = 2 ^ 8 from rfl,
        Nat.xor_mod_two_pow]
    rw [if_pos hdata, hshift, hxor, byte_of_ld s w hi, byte_of_symbol he]
    split
    · rfl
    · exact Nat.xor_zero _
  · rw [if_neg (Nat.not_lt.mpr hcheck), if_neg (by omega), byte_of_ld s w hi]

/-! ## What a reader sees (R331, R334) -/

/-- A read of one whole word. -/
theorem readMem_word {a : Nat} (ha : a % 16 = 0) (kind req : Nat) : s.readMem a 16 kind req =
    (natLe 16 (s.readWord a kind req).1, if (s.readWord a kind req).2.1 then some a else none, (s.readWord a kind req).2.2) := by
  have hword : a / 16 * 16 = a := Nat.div_mul_cancel (Nat.dvd_of_mod_eq_zero ha)
  have hone : (a + 16 + 15 - a) / 16 = 1 := by omega
  rw [State.readMem, hword, hone, Nat.sub_self]
  simp only [State.readWords, List.append_nil, List.drop_zero]
  rw [List.take_of_length_le (Nat.le_of_eq (length_natLe ..))]

theorem readWord_of_fixed {w n pos e syn : Nat} (hctl : ctlOf w = some n) (h : s.wordSt w = .fixed pos e syn) (kind req : Nat) :
    (s.readWord w kind req).1 = fixData w pos e (s.ld w 16) ∧ (s.readWord w kind req).2.1 = false := by
  simp only [State.readWord, h, hctl, and_self]

theorem readWord_of_uncorrectable {w n : Nat} (hctl : ctlOf w = some n) (h : s.wordSt w = .bad ∨ s.wordSt w = .poisoned)
    (kind req : Nat) : (s.readWord w kind req).2.1 = true := by
  rcases h with h | h <;> simp only [State.readWord, h, hctl]

theorem readMem_of_fixed {a n pos e syn : Nat} (src i : Nat) (hn : n < 292) (hctl : ctlOf a = some n) (ha : a % 16 = 0)
    (h : s.wordSt a = .fixed pos e syn) : (s.readMem a 16 0 src).2.1 = none ∧
      ((s.readMem a 16 0 src).1.getD i 0).toNat =
        if 2 * i ≤ pos ∧ pos ≤ 2 * i + 1 ∧ i < 16 then (s.byte (a + i)).toNat ^^^ (e * 16 ^ (pos % 2))
        else if i < 16 then (s.byte (a + i)).toNat else 0 := by
  have hsram : a < ddrBase := lt_ddrBase_of_ctlOf hn hctl
  have he : e < 16 := by
    rw [State.wordSt, if_neg (Nat.not_le.mpr hsram)] at h
    exact err_lt_of_fixed h
  obtain ⟨hdata, hok⟩ := readWord_of_fixed hctl h 0 src
  rw [readMem_word ha, hok, hdata, getD_natLe]
  refine ⟨rfl, ?_⟩
  by_cases hi : i < 16
  · simp only [byte_of_fixData hsram he hi, hi, and_true, if_true]
  · rw [if_neg hi, if_neg fun hand => hi hand.2.2, if_neg hi]

theorem readMem_of_uncorrectable {a n : Nat} (src : Nat) (hctl : ctlOf a = some n) (ha : a % 16 = 0)
    (h : s.wordSt a = .bad ∨ s.wordSt a = .poisoned) : ((s.readMem a 16 0 src).2.1).isSome = true := by
  rw [readMem_word ha, readWord_of_uncorrectable hctl h]
  rfl

/-- The read of the word of bank 0 that has symbol 3 wrong by 9 returns its second byte corrected. -/
theorem readMem_symbolWrong : (symbolWrong.readMem 0 16 0 5).2.1 = none ∧
    ((symbolWrong.readMem 0 16 0 5).1.getD 1 0).toNat = 0x90 := by
  obtain ⟨hok, hbyte⟩ := readMem_of_fixed (s := symbolWrong) (a := 0) (n := 0) (pos := 3) (e := 9)
    (syn := synd (encodeSym 3 9)) 5 1
    (by decide) (by decide) (by decide) (by decide)
  exact ⟨hok, hbyte.trans (by decide)⟩

/-! ## The obligation -/

/-- Settles O56: the decoder finds a column of the code where there is one, and two wrong symbols are off the quadric on
which every column lies. -/
theorem codeOfTheSramMemories : Obligations.CodeOfTheSramMemories := by
  refine ⟨?_, fun i e f j hi hj hij he he' hf hf' => sramDecode_of_twoSymbols hi hj hij he he' hf hf', ?_⟩
  · rintro d y s0 s1 s2 s3 - rfl rfl rfl rfl rfl
    have h : Syndrome d _ _ _ _ := ⟨rfl, rfl, rfl, rfl⟩
    refine ⟨sramDecode_of_zero, sramDecode_of_poison, fun h0 h1 h2 hs3 => sramDecode_of_last (h.congr h0 h1 h2 rfl) hs3,
      fun i hs0 hi h1 h2 h3 => sramDecode_of_column h hs0 ⟨hi, h1, h2, h3⟩, fun hzero hpoison hlast hno => ?_⟩
    exact sramDecode_of_noColumn h hzero hpoison hlast fun hs0 i hcol =>
      hno ⟨hs0, i, hcol.index, hcol.s1_eq, hcol.s2_eq, hcol.s3_eq⟩
  · intro s src a n hn hctl ha
    exact ⟨fun pos e syn i h => readMem_of_fixed src i hn hctl ha h, readMem_of_uncorrectable src hctl ha⟩

end Sys2Proof.Machine
end
